-- ==== Sys2Proof/Word.lean ====
section
/-! DEFINITION. The words the model uses: bytes, 64-byte lines, and the plainest arithmetic on bit fields kept in natural
numbers (R15, R16: bit ranges, little-endian byte order). -/
namespace Sys2Proof

/-- One byte. -/
abbrev Byte := BitVec 8

/-- One 64-byte line of pooled memory, byte i in bits [8i + 7 : 8i] (R16). -/
abbrev Line := BitVec 512

/-- Byte enables of one line, bit i for byte i. -/
abbrev Enables := BitVec 64

/-- Bits [lo + w - 1 : lo] of a number. -/
def fieldOf (n lo w : Nat) : Nat := (n >>> lo) % 2 ^ w

/-- The number 1 or 0 of a flag. -/
def flagBit (b : Bool) : Nat := if b then 1 else 0

/-- The `n` little-endian bytes of a number (R16). -/
def leBytes : Nat → Nat → List Byte
  | 0, _ => []
  | k + 1, v => BitVec.ofNat 8 v :: leBytes k (v / 256)

/-- The number that little-endian bytes spell (R16). -/
def leNat : List Byte → Nat
  | [] => 0
  | b :: t => b.toNat + 256 * leNat t

/-- The lesser of a count and its saturation limit (R18's saturating counts). -/
def saturate (w n : Nat) : Nat := if n < 2 ^ w then n else 2 ^ w - 1

end Sys2Proof
end

