-- ==== Sys2Proof/Syntax.lean ====
section
/-! DEFINITION. The commands the block takes from outside, one constructor per row of spec/opcode_table.json, and the
operands they carry. The table gives its rows no operand fields, so the operands are read from each command's own rule. -/
namespace Sys2Proof

/-- The identity of a Silek requester (R418, R420). -/
inductive Requester where
  /-- A fabric manager on MCTP, by endpoint ID. -/
  | fm (eid : Nat)
  /-- The management function's mailbox. -/
  | mgmt
  /-- A member of the fabric on the chain or VC5, by chain address. -/
  | member (addr : Nat)
  /-- Host software on the in-band mailbox of a virtual instance. -/
  | host (vi : Nat)
deriving DecidableEq, Repr

/-- What a Silek command carries beside its parameters (R407, R410, R419, R422, R485). -/
structure SilekHdr where
  requester : Requester
  major : Nat := 2
  minor : Nat := 3
  tag : Nat := 0
  dst : Nat := 0
  src : Nat := 0
  epoch : Nat := 0
  /-- FLAGS bit 2. -/
  ordered : Bool := false
  /-- FLAGS bit 3. -/
  relayed : Bool := false
  /-- The payload has exactly the size of its parameters and their padding, and the padding is zero (R410). -/
  padOk : Bool := true
  /-- Received over MCTP inside an SPDM session with mutual authentication to a management anchor, or relayed by an acting
  primary that received it so (R485). -/
  secured : Bool := false
  /-- A chain broadcast (R414). -/
  broadcast : Bool := false
  /-- The payload as it arrived; it travels on with a relayed command (R419). -/
  payload : List Byte := []
deriving DecidableEq, Repr

/-- The header without its EPOCH, by which resends compare (R421). -/
def SilekHdr.key (h : SilekHdr) : SilekHdr := { h with epoch := 0 }

/-- The mailbox a requester uses: 64 for the management mailbox, its number for an instance's. -/
def Requester.mailbox : Requester → Option Nat
  | .mgmt => some 64
  | .host vi => some vi
  | _ => none

/-- The four access paths of R441. -/
inductive AccessPath where
  | bar0 | reg | cp | jtag
deriving DecidableEq, Repr

/-- One group's configuration in PORT_CONFIG (R431): bifurcation, personality, CXL_MAX_RATE, SRIS. -/
structure GroupConfig where
  bifurcation : Nat
  personality : Nat
  maxRate : Nat
  sris : Nat
deriving DecidableEq, Repr

/-- The pins sampled at the rise of RST_N (R445). -/
structure Straps where
  /-- ROLE[1:0]. -/
  role : Nat := 0
  /-- MCH_HEAD. -/
  head : Bool := false
deriving DecidableEq, Repr

/-- One channel's conversion in an ADC scan (R510): current in 10 mA, VOUT and VIN in mV. -/
structure AdcSample where
  current : Nat
  vout : Nat
  vin : Nat
deriving DecidableEq, Repr

/-- What one lane receives in a TS1 ordered set (R89): physical lane within the port, received lane number, polarity, and
the equalisation fields EQ_CTL, TX_PRE, TX_POST, REQ_PRE, REQ_POST. -/
structure Ts1Lane where
  lane : Nat
  number : Nat
  inverted : Bool := false
  reqKind : Nat := 0
  reqPreset : Nat := 0
  rejected : Bool := false
  txPre : Nat := 0
  txPost : Nat := 0
  reqPre : Nat := 0
  reqPost : Nat := 0
deriving DecidableEq, Repr

/-- A TS1 ordered set on the lanes of a port, received or sent (R89). -/
structure Ts1Set where
  widthCfg : Nat
  locked : Bool
  lanes : List Ts1Lane
deriving DecidableEq, Repr

/-- A TS2 ordered set, received or sent (R90); `widthSel` is symbol 16, `seen` is RX_TS2_SEEN. -/
structure Ts2Set where
  version : Nat
  features : Nat
  nonce : Nat
  chain : Nat
  port : Nat
  laneMap : Nat
  widthSel : Nat
  seen : Bool
deriving DecidableEq, Repr

/-- Where a lane has its SKP ordered set: in place, missing, or misaligned (R86). -/
inductive SkpPlace where
  | inPlace | missing | misaligned
deriving DecidableEq, Repr

/-- A received SKP ordered set: its SKP symbols, where it stood, and the 10-bit codes that arrived on the lane between the SKP set before
and this one (R77, R85, R86). -/
structure SkpRx where
  skips : Nat
  place : SkpPlace
  codes : List (BitVec 10)
deriving DecidableEq, Repr

/-- Where a Whey message came in: its port, and the CRC-8 that came with it (R124). -/
structure WheyRx where
  port : Fin 64
  crc : BitVec 8
deriving DecidableEq, Repr

/-- WIDTH and REQ_ID of a width message (R124). -/
structure WidthMsg where
  width : Fin 8
  id : BitVec 8
deriving DecidableEq, Repr

/-- The bits and errors a PRBS checker has counted since its last report (R110). -/
structure PrbsReport where
  bits : Nat
  errors : Nat
deriving DecidableEq, Repr

/-- What an IDE key-management message does (R478): program the current or the next key set, start using a programmed set, open a
refresh, or ask for skid mode or a selective stream, which are declined (R62). -/
inductive IdeKeyOp where
  | programCurrent | programNext | go | refresh | skidMode | selectiveStream
deriving DecidableEq, Repr

/-- The header of a QFL message that reached this device (R118): source and destination chain address, master ID, TAG, EPOCH and
E2E_SEQ. -/
structure QflHdr where
  src : Nat
  dst : Nat
  master : Nat
  tag : Nat
  epoch : Nat
  e2e : Nat
deriving DecidableEq, Repr

/-- A request word of R225: fabric address, NAK_COUNT, ticket when TICKET_VALID, KEEP. -/
structure ReqWord where
  addr : Nat
  naks : Nat := 0
  ticket : Option Nat := none
  keep : Nat := 0
deriving DecidableEq, Repr

/-- A chain frame as it arrived (R369): its TYPE byte, BCAST, REVERSE, HOPS and CRC. One that travels against the ring direction came in
on MCH_OUT, any other on MCH_IN (R372). -/
structure ChainLine where
  type : BitVec 8
  bcast : Bool := false
  reverse : Bool := false
  hops : Fin 16 := 0
  crc : BitVec 32
deriving DecidableEq, Repr

/-- A chain frame with its SRC and EPOCH. -/
structure ChainRx where
  line : ChainLine
  src : Nat
  epoch : Nat
deriving DecidableEq, Repr

/-- MODE, 1 ring or 2 line, and OVERFLOW of ENUM_DONE (R370). -/
structure EnumShape where
  mode : Nat
  overflow : Bool
deriving DecidableEq, Repr

/-- How a heartbeat or a FENCED notice arrives (R387, R390): on the chain or as a VC5 message. -/
inductive FabricVia where
  | chain (line : ChainLine)
  | vc5 (qfl : QflHdr)
deriving DecidableEq, Repr

/-- How a Silek message or segment arrives (R414 to R416): a chain frame with its SRC, DST and EPOCH; a VC5 message; a message body over
MCTP, inside a secured session or not. -/
inductive SegPath where
  | chain (line : ChainLine) (src dst epoch : Nat)
  | vc5 (qfl : QflHdr)
  | mctp (eid : Nat) (secured : Bool)
deriving DecidableEq, Repr

/-- The commands of the block, one constructor per row of the spec's opcode table, in the table's order. -/
inductive Instr where
  /-- SILEK_VERSION (R430). Returns the supported Silek major and minor versions; it is accepted at any major version. -/
  | silekVersion (h : SilekHdr)
  /-- DEVICE_INFO (R430). Returns the 32-byte device information block. -/
  | deviceInfo (h : SilekHdr)
  /-- PORT_STATUS_QUERY (R430). Returns the PORT_STATUS word of each port in a range. -/
  | portStatusQuery (h : SilekHdr) (first count : Nat)
  /-- COMMAND_SUPPORT (R430). Returns the bitmap of opcodes that exist in one command group. -/
  | commandSupport (h : SilekHdr) (group : Nat)
  /-- EVENT_READ (R430). Acknowledges queued event records up to ACK_UPTO, then returns queued records. -/
  | eventRead (h : SilekHdr) (first count ackUpto : Nat)
  /-- EVENT_SUBSCRIBE (R430). Sets the event record subscriber. -/
  | eventSubscribe (h : SilekHdr) (cls eid : Nat)
  /-- EVENT_NOTIFY (R429). Event records from a member are received and queued unchanged at the acting primary. -/
  | eventNotify (h : SilekHdr) (count : Nat) (records : List (BitVec 256))
  /-- EVENT_NOTIFY_PERIOD (R429). Every 1 ms, up to 16 unacknowledged records are sent to the MCTP subscriber or the acting primary. -/
  | eventNotifyPeriod
  /-- CAPACITY_ADD (R159). Registers device-port capacity as FREE extents. -/
  | capacityAdd (h : SilekHdr) (port ld unit count first : Nat)
  /-- CAPACITY_REMOVE (R160). Returns the named extents to UNMAPPED and forgets their backing. -/
  | capacityRemove (h : SilekHdr) (first count : Nat)
  /-- DEVICE_CAPACITY_QUERY (R579). Returns the capacity and poison capability of each logical device of a device port. -/
  | deviceCapacityQuery (h : SilekHdr) (port : Nat)
  /-- WINDOW_CONFIG (R166). Grants, changes or withdraws a host decoder window. -/
  | windowConfig (h : SilekHdr) (window vi region kind slotBase slotCount : Nat) (enable : Bool)
  /-- WINDOW_QUERY (R432). Returns host decoder window entries. -/
  | windowQuery (h : SilekHdr) (first count : Nat)
  /-- EXTENT_BIND (R172). Checks the extents, raises BIND_COUNT, offers the extents to the host and marks the slots PENDING. -/
  | extentBind (h : SilekHdr) (window off count kind : Nat) (extents : List Nat)
  /-- EXTENT_UNBIND (R175). Starts removing the bindings of slots, with or without a release request to the host. -/
  | extentUnbind (h : SilekHdr) (window off count : Nat) (force zero : Bool)
  /-- EXTENT_MIGRATE (R184). Checks the source and destination, sets MIGRATING and posts a MIGRATE descriptor. -/
  | extentMigrate (h : SilekHdr) (src dst queue : Nat) (zero : Bool)
  /-- EXTENT_MIGRATE_ABORT (R189). Abandons a running migration before its completion begins. -/
  | extentMigrateAbort (h : SilekHdr) (src : Nat)
  /-- EXTENT_ZERO (R163). Starts a ZERO_RELEASE on a FREE_UNCLEAN extent and makes the extent ZEROING. -/
  | extentZero (h : SilekHdr) (extent queue : Nat)
  /-- EXTENT_QUERY (R171). Returns extent map entries. -/
  | extentQuery (h : SilekHdr) (first count : Nat)
  /-- SLOT_QUERY (R171). Returns binding slot entries. -/
  | slotQuery (h : SilekHdr) (first count : Nat)
  /-- INSTANCE_CONFIG (R326). Configures, enables or unconfigures a virtual instance and its allocations. -/
  | instanceConfig (h : SilekHdr) (vi portA portB : Nat) (type2 : List Nat) (msix queues : Nat) (enable : Bool)
  /-- INSTANCE_QUERY (R325). Returns the instance table entry. -/
  | instanceQuery (h : SilekHdr) (vi : Nat)
  /-- INSTANCE_QUIESCE (R331). Holds the instance's admission, suspends its pairs and starts the quiesce, forced or not. -/
  | instanceQuiesce (h : SilekHdr) (vi : Nat) (force : Bool) (timeout : Nat)
  /-- INSTANCE_RESUME (R331). Returns a quiesced or quiescing instance to ACTIVE. -/
  | instanceResume (h : SilekHdr) (vi : Nat)
  /-- INSTANCE_RESET (R336). Starts a managed full reset of a quiesced instance. -/
  | instanceReset (h : SilekHdr) (vi : Nat)
  /-- QOS_SET (R344). Sets the queue limit, tracker limits and weights of an instance or the fabric partition. -/
  | qosSet (h : SilekHdr) (vi mask limit trackerMin trackerMax accessWeight ladleWeight : Nat)
  /-- QOS_QUERY (R325). Returns the QoS settings and current occupancies. -/
  | qosQuery (h : SilekHdr) (vi : Nat)
  /-- QUEUE_ASSIGN (R292). Assigns a queue pair to an instance, to the fabric manager or to none, and fixes its Ladle. -/
  | queueAssign (h : SilekHdr) (pair owner index ladle : Nat)
  /-- QUEUE_SETUP (R295). Sets up a pair's rings and vector and optionally enables it, resetting its indices. -/
  | queueSetup (h : SilekHdr) (pair log2Size sqBase cqBase vector : Nat) (enable : Bool)
  /-- QUEUE_DISABLE (R296). Stops fetching; the pair becomes DISABLED once fetched descriptors finish. -/
  | queueDisable (h : SilekHdr) (pair : Nat)
  /-- QUEUE_RESET (R294). Returns a pair in ERROR to DISABLED. -/
  | queueReset (h : SilekHdr) (pair : Nat)
  /-- QUEUE_QUERY (R292). Returns the queue table entry. -/
  | queueQuery (h : SilekHdr) (pair : Nat)
  /-- LADLE_SUBMIT (R293). Submits 1 to 16 descriptors to a fabric-manager ring. -/
  | ladleSubmit (h : SilekHdr) (pair : Nat) (descriptors : List (BitVec 512))
  /-- GATE_WRITE (R361). Writes rules into a member's staging table. -/
  | gateWrite (h : SilekHdr) (addr first : Nat) (rules : List (BitVec 256))
  /-- GATE_COMMIT (R362). Switches the staging table to active, advances RULE_EPOCH and waits for old-epoch accesses. -/
  | gateCommit (h : SilekHdr) (expected : Nat)
  /-- GATE_READ (R361). Returns rules from the active or staging table. -/
  | gateRead (h : SilekHdr) (addr sel first count : Nat)
  /-- GATE_DISCARD (R361). Makes the staging table equal to the active table. -/
  | gateDiscard (h : SilekHdr) (addr : Nat)
  /-- COMMIT_DRAIN_DONE (R362). IN_FLIGHT_OLD reaches zero; COMMIT_BUSY clears and GATE_COMMIT replies OK. -/
  | commitDrainDone
  /-- SHARER_SLOT_SET (R221). Assigns, changes or clears a sharer slot. -/
  | sharerSlotSet (h : SilekHdr) (slot : Nat) (valid : Bool) (kind port chain : Nat)
  /-- SHARER_SLOT_QUERY (R220). Returns the sharer slot table. -/
  | sharerSlotQuery (h : SilekHdr)
  /-- MEMBERSHIP_SET (R404). Sets the configured membership bitmap. -/
  | membershipSet (h : SilekHdr) (bitmap : Nat)
  /-- MEMBERSHIP_QUERY (R404). Returns the epoch, sets, roles and modes of the membership. -/
  | membershipQuery (h : SilekHdr)
  /-- MEMBER_JOIN (R399). A device in OM3 asks the primary to join as mirror or worker. -/
  | memberJoin (h : SilekHdr) (role : Nat)
  /-- JOIN_TIMEOUT (R399). No answer to MEMBER_JOIN within 1 s; the mode command returns TIMEOUT. -/
  | joinTimeout
  /-- MEMBER_REJOIN (R398). Returns a fenced member to a role mode through state transfer and an epoch advance. -/
  | memberRejoin (h : SilekHdr) (addr role mode : Nat)
  /-- MEMBER_DECLARE_DEAD (R388). The primary declares a member dead by an epoch advance. -/
  | memberDeclareDead (h : SilekHdr) (addr : Nat)
  /-- EPOCH_ADVANCE (R389). A member adopts a new membership epoch from the primary. -/
  | epochAdvance (h : SilekHdr) (epoch prev configured alive primary mirror pair : Nat) (failover kept : Bool)
  /-- EPOCH_ADVANCE_RESEND (R389). Every 1 ms, the primary resends EPOCH_ADVANCE to each member that has not replied. -/
  | epochAdvanceResend
  /-- PAIR_HEAD_SET (R378). Writes a head map entry for a pair expander. -/
  | pairHeadSet (h : SilekHdr) (expander addr port ld : Nat)
  /-- MIRROR_RESYNC (R400). Starts, or restarts, resynchronisation of the mirror. -/
  | mirrorResync (h : SilekHdr)
  /-- REPLICA_SET (R404). Sets the mirror's replica region. -/
  | replicaSet (h : SilekHdr) (addr port ld unit : Nat)
  /-- SLOT_POWER_ON (R508). Starts the PRECHARGE of a slot power channel. -/
  | slotPowerOn (h : SilekHdr) (ch : Nat)
  /-- SLOT_POWER_OFF (R508). Turns a slot power channel off, through STOPPING from ON. -/
  | slotPowerOff (h : SilekHdr) (ch force : Nat)
  /-- SLOT_POWER_CONFIG (R508). Sets ILIM and the fault timer of a channel. -/
  | slotPowerConfig (h : SilekHdr) (ch ilim timer : Nat)
  /-- SLOT_POWER_QUERY (R508). Returns the state and measurements of a channel. -/
  | slotPowerQuery (h : SilekHdr) (ch : Nat)
  /-- FW_UPDATE_START (R484). Erases the named bank and programs STATE WRITING. -/
  | fwUpdateStart (h : SilekHdr) (bank len : Nat)
  /-- FLASH_ERASE_DONE (R484). The bank erase ends and FW_UPDATE_START replies OK. -/
  | flashEraseDone
  /-- FW_UPDATE_DATA (R484). Programs image data at the next expected offset. -/
  | fwUpdateData (h : SilekHdr) (off len : Nat) (data : List Byte)
  /-- FW_UPDATE_VERIFY (R484). Checks the written bank and programs VALID, or erases its state sector. -/
  | fwUpdateVerify (h : SilekHdr) (bank : Nat)
  /-- FW_ACTIVATE (R484). Programs the bank's ACTIVATION_SEQ for the next warm reset. -/
  | fwActivate (h : SilekHdr) (bank : Nat)
  /-- FW_QUERY (R484). Returns the state of both firmware banks. -/
  | fwQuery (h : SilekHdr)
  /-- SELF_TEST (R477). Repeats the known-answer self-tests at run time. -/
  | selfTest (h : SilekHdr)
  /-- ZEROIZE (R480). Zeroises the device's secrets and enters OM0 on the confirmation word. -/
  | zeroize (h : SilekHdr) (word : Nat)
  /-- SECURITY_STATUS (R484). Returns the first 32 bytes of the SC register page. -/
  | securityStatus (h : SilekHdr)
  /-- REG_READ (R438). Performs 4-byte BAR0 reads on behalf of the requester. -/
  | regRead (h : SilekHdr) (off count : Nat)
  /-- REG_WRITE (R432). Performs a BAR0 write on behalf of the requester. -/
  | regWrite (h : SilekHdr) (off value : Nat)
  /-- RENNET_SET (R545). Adds or replaces a Rennet perturbation setting in OM11 on the C part. -/
  | rennetSet (h : SilekHdr) (cls target setting : Nat)
  /-- RENNET_CLEAR (R545). Removes all Rennet settings. -/
  | rennetClear (h : SilekHdr)
  /-- RENNET_QUERY (R545). Returns the Rennet settings. -/
  | rennetQuery (h : SilekHdr)
  /-- DIR_READ (R535). Returns a tier-1 set or a run of tier-2 buckets. -/
  | dirRead (h : SilekHdr) (slice set : Nat)
  /-- MONITOR_CONFIG (R529). Sets a monitor counter's event, clears the counter and enables the monitor. -/
  | monitorConfig (h : SilekHdr) (block counter event : Nat)
  /-- MONITOR_READ (R529). Returns a monitor's 80-byte block, captured at one instant. -/
  | monitorRead (h : SilekHdr) (block : Nat)
  /-- SKIMMER_CONFIG (R530). Starts or reconfigures the Skimmer ring in an instance's host memory. -/
  | skimmerConfig (h : SilekHdr) (vi base size interval : Nat)
  /-- SKIMMER_STOP (R530). Stops the Skimmer after the record in progress. -/
  | skimmerStop (h : SilekHdr)
  /-- HERDBOOK_READ (R544). Returns bytes of the live Herdbook record. -/
  | herdbookRead (h : SilekHdr) (off len : Nat)
  /-- ERROR_LOG_READ (R521). Returns error records from a record number onward. -/
  | errorLogRead (h : SilekHdr) (first count : Nat)
  /-- ERROR_LOG_CLEAR (R521). Removes error records up to a record number. -/
  | errorLogClear (h : SilekHdr) (upto : Nat)
  /-- MODE_SET (R34). Makes a commanded mode transition from the expected mode. -/
  | modeSet (h : SilekHdr) (expected target role : Nat)
  /-- MODE_QUERY (R431). Returns MODE_STATUS. -/
  | modeQuery (h : SilekHdr)
  /-- PORT_CONFIG (R46). Changes the personality and bifurcation of port groups and retrains them. -/
  | portConfig (h : SilekHdr) (bitmap : Nat) (cfgs : List GroupConfig)
  /-- PORT_CONTROL (R431). Disables, enables or retrains the link of one port. -/
  | portControl (h : SilekHdr) (port action : Nat)
  /-- BARRIER (R280). Covers the writes of its scope and replies when each is performed, discarded or failed. -/
  | barrierCmd (h : SilekHdr) (scope id : Nat)
  /-- WARM_RESET (R284). Starts a warm reset after the delay, stopping admission and draining the buffers. -/
  | warmReset (h : SilekHdr) (delay : Nat)
  /-- CONFIG_SAVE (R431). Writes the configuration and the autostart mode to flash. -/
  | configSave (h : SilekHdr) (mode : Nat)
  /-- IDENTIFY (R433). FM API Identify, executed as DEVICE_INFO. -/
  | identify (eid tag : Nat)
  /-- BACKGROUND_OPERATION_STATUS (R433). FM API status of the running background command, executed as a resend. -/
  | backgroundOperationStatus (eid tag : Nat)
  /-- GET_RESPONSE_MESSAGE_LIMIT (R433). Reports the FM API response message limit. -/
  | getResponseMessageLimit (tag : Nat)
  /-- SET_RESPONSE_MESSAGE_LIMIT (R433). Sets the FM API response message limit between 2^8 and 2^11 bytes. -/
  | setResponseMessageLimit (tag exponent : Nat)
  /-- IDENTIFY_SWITCH_DEVICE (R433). FM API switch identification from device information and port status. -/
  | identifySwitchDevice (eid tag : Nat)
  /-- GET_PHYSICAL_PORT_STATE (R433). FM API port state, executed as PORT_STATUS_QUERY. -/
  | getPhysicalPortState (eid tag first count : Nat)
  /-- PHYSICAL_PORT_CONTROL (R433). FM API port control, executed as PORT_CONTROL. -/
  | physicalPortControl (eid tag port op : Nat)
  /-- GET_VIRTUAL_CXL_SWITCH_INFO (R433). FM API virtual switch information, executed as INSTANCE_QUERY. -/
  | getVirtualCxlSwitchInfo (eid tag vi : Nat)
  /-- BIND_VPPB (R433). FM API bind of a virtual downstream port, executed as INSTANCE_CONFIG. -/
  | bindVppb (eid tag vi vppb port : Nat)
  /-- UNBIND_VPPB (R433). FM API unbind of a virtual downstream port, executed as INSTANCE_CONFIG. -/
  | unbindVppb (eid tag vi vppb : Nat)
  /-- GET_DCD_INFO (R433). FM API Dynamic Capacity device information. -/
  | getDcdInfo (eid tag : Nat)
  /-- GET_HOST_DC_REGION_CONFIGURATION (R433). FM API region configuration, executed as WINDOW_QUERY. -/
  | getHostDcRegionConfiguration (eid tag host : Nat)
  /-- SET_DC_REGION_CONFIGURATION (R433). FM API region configuration change, executed as WINDOW_CONFIG. -/
  | setDcRegionConfiguration (eid tag window host region kind slotBase slotCount : Nat) (enable : Bool)
  /-- GET_DC_REGION_EXTENT_LISTS (R433). FM API extent lists, executed as SLOT_QUERY. -/
  | getDcRegionExtentLists (eid tag host start count : Nat)
  /-- INITIATE_DYNAMIC_CAPACITY_ADD (R434). FM API capacity add, executed as EXTENT_BIND to the lowest free slots. -/
  | initiateDynamicCapacityAdd (eid tag host policy region : Nat) (extents : List (Nat × Nat))
  /-- INITIATE_DYNAMIC_CAPACITY_RELEASE (R433). FM API capacity release, executed as EXTENT_UNBIND. -/
  | initiateDynamicCapacityRelease (eid tag host : Nat) (forced : Bool) (region : Nat) (extents : List (Nat × Nat))
  /-- SET_ENDPOINT_ID (R416). MCTP control command that sets the endpoint ID. -/
  | setEndpointId (eid : Nat)
  /-- GET_ENDPOINT_ID (R416). MCTP control command that returns the endpoint ID. -/
  | getEndpointId
  /-- GET_ENDPOINT_UUID (R416). MCTP control command that returns the endpoint UUID. -/
  | getEndpointUuid
  /-- GET_MCTP_VERSION_SUPPORT (R416). MCTP control command that returns the supported MCTP versions. -/
  | getMctpVersionSupport
  /-- GET_MESSAGE_TYPE_SUPPORT (R416). MCTP control command that returns the supported message types. -/
  | getMessageTypeSupport
  /-- GET_VENDOR_DEFINED_MESSAGE_SUPPORT (R416). MCTP control command that reports vendor-defined message support. -/
  | getVendorDefinedMessageSupport (selector : Nat)
  /-- SET_EVENT_RECEIVER (R537). PLDM command that sets the receiver of platform events. -/
  | setEventReceiver (eid : Nat)
  /-- GET_PDR_REPOSITORY_INFO (R537). PLDM command that returns PDR repository information. -/
  | getPdrRepositoryInfo
  /-- GET_PDR (R537). PLDM command that returns a PDR. -/
  | getPdr (record : Nat)
  /-- GET_SENSOR_READING (R537). PLDM command that returns a numeric sensor reading. -/
  | getSensorReading (sensor : Nat)
  /-- GET_STATE_SENSOR_READINGS (R537). PLDM command that returns state sensor readings. -/
  | getStateSensorReadings (sensor : Nat)
  /-- SET_NUMERIC_SENSOR_ENABLE (R537). PLDM command that enables or disables a numeric sensor. -/
  | setNumericSensorEnable (sensor : Nat) (enable : Bool)
  /-- REQUEST_UPDATE (R486). PLDM Type 5 start of a firmware update, accepted only in OM10. -/
  | requestUpdate (secured : Bool)
  /-- PASS_COMPONENT_TABLE (R486). PLDM Type 5 component table exchange. -/
  | passComponentTable (secured : Bool) (identifier : Nat)
  /-- UPDATE_COMPONENT (R486). PLDM Type 5 start of the component update on the bank that is not running. -/
  | updateComponent (secured : Bool) (identifier size : Nat)
  /-- REQUEST_FIRMWARE_DATA (R486). An image chunk pulled by the device arrives and is programmed. -/
  | requestFirmwareData (secured : Bool) (data : List Byte)
  /-- ACTIVATE_FIRMWARE (R486). PLDM Type 5 activation, acting as FW_ACTIVATE. -/
  | activateFirmware (secured selfContained : Bool)
  /-- GET_CERTIFICATE (R473). SPDM request for certificate slot 0. -/
  | getCertificate (slot : Nat)
  /-- CHALLENGE (R474). SPDM challenge, signed with the alias key. -/
  | challenge (slot : Nat) (nonce : List Byte)
  /-- GET_MEASUREMENTS (R475). SPDM request that returns the measurement blocks. -/
  | getMeasurements (index : Nat) (nonce : List Byte)
  /-- KEY_EXCHANGE (R474). SPDM session establishment, up to 96 sessions. The transport: 0 to 63 the DOE of host port P0 to P63's virtual
  upstream port, 64 + n that of instance n's Dynamic Capacity device, 128 that of the management function, 129 MCTP. -/
  | keyExchange (transport : Nat) (mutualAuth authOk : Bool)
  /-- DOORBELL (R417). A Silek mailbox doorbell submits the message in MB_BUFFER. -/
  | doorbell (mb : Fin 65)
  /-- INTERIM_REPLY (R422). A command unfinished 1 ms after acceptance sends an IN_PROGRESS reply. -/
  | interimReply (req : Requester) (tag : Nat)
  /-- SILEK_SEGMENT (R414). A segment of a Silek message is received on the chain or on VC5 and reassembled. -/
  | silekSegment (via : SegPath) (tag index last : Nat) (reply : Bool) (bytes : List Byte)
  /-- SEGMENT_TIMEOUT (R414). A partial Silek message not completed within 10 ms is dropped. -/
  | segmentTimeout (src : Nat) (vc5 : Bool)
  /-- SILEK_RESEND (R426). A command the QX964 sent is resent after 20 ms without a reply, or every 100 ms after an interim reply. -/
  | silekResend (id : Nat)
  /-- SILEK_SEG_ACK (R415). The acknowledgement of a SILEK_CMD segment arrives and is matched. -/
  | silekSegAck (qfl : QflHdr)
  /-- MEMRD (R203). A CXL.mem read request from a host is decoded, Gate-checked and served as RD_SHARED, RD_OWN or RD_NC. -/
  | memrd (port : Fin 64) (tag hpa keep : Nat)
  /-- MEMINV (R203). A CXL.mem MemInv or MemInvNT is served as INV_OWN or FLUSH. -/
  | meminv (port : Fin 64) (tag hpa keep : Nat)
  /-- MEMCLNEVCT (R203). A CXL.mem clean eviction is served as EVICT_CLEAN. -/
  | memclnevct (port : Fin 64) (tag hpa : Nat)
  /-- MEMWR (R203). A CXL.mem full or partial write is served as WB or WR_NC, or is taken as a snoop's data. -/
  | memwr (port : Fin 64) (tag hpa keep : Nat) (be : Enables) (data : Line) (poison : Bool)
  /-- MEMSPECRD (R203). A speculative read is completed with no action. -/
  | memspecrd (port : Fin 64) (hpa : Nat)
  /-- BIRSP (R205). A back-invalidate snoop response reaches the waiting tracker. -/
  | birsp (port : Fin 64) (tag keeps : Nat)
  /-- BICONFLICT (R206). A host reports a conflict; the slice sends BIConflictAck after the completions it owes. -/
  | biconflict (port : Fin 64) (tag : Nat)
  /-- SNOOP_TIMEOUT (R207). A snoop unanswered for SNOOP_TIMEOUT declares the host dead and takes its port down. -/
  | snoopTimeout (port : Fin 64) (tag : Nat)
  /-- MRD (R203). A CXL.io memory read is served as RD_NC. -/
  | mrd (port : Fin 64) (tag addr len : Nat)
  /-- MWR (R267). A CXL.io posted write is ordered and served as WR_NC. -/
  | mwr (port : Fin 64) (addr : Nat) (data : List Byte) (relaxed poison : Bool)
  /-- ATOMICOP (R249). A CXL.io AtomicOp through the atomic window is executed as an atomic. -/
  | atomicop (port : Fin 64) (tag addr op size a b : Nat)
  /-- CXL_IO_COMPLETION (R332). A completion from a host answers a ring read or another QX964 request. -/
  | cxlIoCompletion (port : Fin 64) (tag : Nat) (ok poison : Bool) (data : List Byte)
  /-- CXL_CACHE (R6). CXL.cache traffic is forwarded between a host and a Type 2 device of the same instance. -/
  | cxlCache (port : Fin 64) (vport : Nat) (data : List Byte)
  /-- CONFIGURATION_WRITE (R321). A host configuration write changes the instance's hierarchy state, seen through both ports. -/
  | configurationWrite (port : Fin 64) (function register value : Nat) (functionMask : Option Bool)
  /-- CXL_MEM_READ_DATA (R204). Read data from an expander reaches the waiting tracker or memory port agent. -/
  | cxlMemReadData (port : Fin 64) (tag : Nat) (data : Line) (poison : Bool)
  /-- CXL_MEM_WRITE_COMPLETION (R261). An expander completes a write; the write is performed and leaves the egress buffer. -/
  | cxlMemWriteCompletion (port : Fin 64) (ld : Fin 16)
  /-- HOST_WRITE_ACK (R261). A host's Ack DLLP arrives and performs the posted writes it acknowledges. -/
  | hostWriteAck (port : Fin 64) (count : Nat)
  /-- NAK_RETRY (R211). After the backoff hint, the agent retries a NAKed request through stages 2 and 3. -/
  | nakRetry (id : Nat)
  /-- TICKET_ADMISSION (R213). When its blocking condition clears, a ticket holder is admitted ahead of the other inputs. -/
  | ticketAdmission (slice : Fin 32) (number : Fin 256)
  /-- TICKET_EXPIRY (R213). A ticket not presented within TICKET_EXPIRY expires. -/
  | ticketExpiry (slice : Fin 32) (number : Fin 256)
  /-- CHURN_WAY_WAIT (R216). Churn work waiting in phase EVICT proceeds when a way of its set unpins. -/
  | churnWayWait (slice : Fin 32) (id : Fin 512)
  /-- TIER2_BUCKET_READ_DONE (R217). A tier-2 bucket read returns to the tracker waiting in phase TIER2. -/
  | tier2BucketReadDone (slice : Fin 32) (id : Fin 512) (bad : Bool)
  /-- QFL_RD_NC (R203). A non-caching read from a peer on VC0 is checked and served at the owner. -/
  | qflRdNc (h : QflHdr) (w : ReqWord)
  /-- QFL_WR_NC (R203). A non-caching write from a peer is checked and served at the owner. -/
  | qflWrNc (h : QflHdr) (w : ReqWord) (be : Enables) (data : Line)
  /-- QFL_ATOMIC (R252). An atomic from a peer is executed at the owner and answered with ATOMIC_RSP. -/
  | qflAtomic (h : QflHdr) (w : ReqWord) (op a b : Nat)
  /-- PRD_SHARED (R222). A proxy read for sharing arrives at the home from a remote slot. -/
  | prdShared (h : QflHdr) (w : ReqWord)
  /-- PRD_OWN (R222). A proxy read for ownership arrives at the home. -/
  | prdOwn (h : QflHdr) (w : ReqWord)
  /-- PINV_OWN (R222). A proxy request for ownership in order to write arrives at the home. -/
  | pinvOwn (h : QflHdr) (w : ReqWord)
  /-- PFLUSH (R203). A proxy flush arrives at the home. -/
  | pflush (h : QflHdr) (w : ReqWord)
  /-- PEVICT (R222). A proxy eviction arrives at the home. -/
  | pevict (h : QflHdr) (w : ReqWord)
  /-- PWB (R222). A proxy writeback with data arrives at the home. -/
  | pwb (h : QflHdr) (w : ReqWord) (data : Line)
  /-- PLOST (R237). A proxy reports the loss of its dirty holder, and the home makes the line LOST. -/
  | plost (h : QflHdr) (w : ReqWord)
  /-- RECALL_INV (R223). A home's invalidating recall reaches a proxy, which snoops its local holders. -/
  | recallInv (h : QflHdr) (addr : Nat)
  /-- RECALL_DATA (R223). A home's data recall reaches a proxy. -/
  | recallData (h : QflHdr) (addr : Nat)
  /-- RECALL_CUR (R223). A home's current-data recall reaches a proxy. -/
  | recallCur (h : QflHdr) (addr : Nat)
  /-- CMP (R225). A completion without data from a home or owner arrives and is matched. -/
  | cmp (h : QflHdr) (grant : Nat) (error : Bool)
  /-- QFL_NAK (R225). A NAK word from a remote home reaches the retrying agent. -/
  | qflNak (h : QflHdr) (cause hint : Nat) (ticket : Option Nat)
  /-- RECALL_RSP (R223). A proxy's answer to a recall reaches the home tracker. -/
  | recallRsp (h : QflHdr) (grant : Nat)
  /-- DATA (R225). A data response from a home or owner arrives and is matched. -/
  | dataMsg (h : QflHdr) (grant : Nat) (poison error : Bool) (data : Line)
  /-- RECALL_DATA_RSP (R223). A proxy's recall answer with dirty data reaches the home tracker. -/
  | recallDataRsp (h : QflHdr) (grant : Nat) (poison : Bool) (data : Line)
  /-- ATOMIC_RSP (R252). An atomic response from the owner arrives and is matched. -/
  | atomicRsp (h : QflHdr) (poison error : Bool) (value : Nat)
  /-- MSG_ERROR (R119). A link-layer error response to a filtered request arrives at its source. -/
  | msgError (h : QflHdr) (cause : Nat)
  /-- TRANSACTION_TIMEOUT (R146). A filtered request unanswered for 4 ms is completed as failed at its source. -/
  | transactionTimeout (dst tag : Nat)
  /-- MIR_ENTRY (R383). The mirror writes a directory entry change to its replica and answers MIR_ACK. -/
  | mirEntry (h : QflHdr) (location : BitVec 64) (entry : BitVec 128)
  /-- MIR_STATE (R383). The mirror applies a fabric-state record. -/
  | mirState (h : QflHdr) (word : BitVec 64) (units : List (BitVec 64))
  /-- MIR_BUCKET (R400). The mirror writes a resynchronisation copy of a tier-2 bucket. -/
  | mirBucket (h : QflHdr) (location : BitVec 64) (data : Line)
  /-- MIR_CLOSE (R400). The mirror receives the close of the Copy phase. -/
  | mirClose (h : QflHdr) (count : Nat)
  /-- MIR_ACK (R384). The primary receives a mirror acknowledgement and releases the waiting tracker or advances resynchronisation. -/
  | mirAck (h : QflHdr)
  /-- RESYNC_COPY_DONE (R400). Both copy walks have covered everything; the primary sends MIR_CLOSE. -/
  | resyncCopyDone
  /-- YOKE_TIMEOUT (R385). Trackers wait YOKE_TIMEOUT without MIR_ACK; the primary removes or declares the mirror. -/
  | yokeTimeout
  /-- MIRROR_RESYNC_DEADLINE (R379). No mirror resynchronised 60 s after entry to OM5; the primary enters OM8. -/
  | mirrorResyncDeadline
  /-- MIGRATION_COMPLETE (R187). At the last watermark, held accesses wait for dual writes, the backings are exchanged and the command completes. -/
  | migrationComplete (index : Fin 32)
  /-- UNBIND_SCAN_COMPLETE (R226). The unbind recall scan ends; BIND_COUNT falls and the extent state changes. -/
  | unbindScanComplete (id : Nat)
  /-- BIND_HOST_TIMEOUT (R173). Slots still PENDING are treated as declined and EXTENT_BIND replies TIMEOUT. -/
  | bindHostTimeout (id : Nat)
  /-- RELEASE_HOST_TIMEOUT (R175). Extents the host has not released stay bound and EXTENT_UNBIND replies TIMEOUT. -/
  | releaseHostTimeout (id : Nat)
  /-- ADD_DYNAMIC_CAPACITY_RESPONSE (R172). The host accepts or declines offered extents; slots become VALID or are cleared. -/
  | addDynamicCapacityResponse (port : Fin 64) (slots : List Nat)
  /-- RELEASE_DYNAMIC_CAPACITY (R177). The host releases an extent, prompted or unprompted, starting the unbinding. -/
  | releaseDynamicCapacity (port : Fin 64) (slots : List Nat)
  /-- GET_DYNAMIC_CAPACITY_EXTENT_LIST (R174). Returns the VALID slots of the instance's windows to the host. -/
  | getDynamicCapacityExtentList (port : Fin 64)
  /-- HDM_DECODER_COMMIT (R167). The host commits or decommits a window's HDM decoder. -/
  | hdmDecoderCommit (port : Fin 64) (window : Fin 256) (base size ways dpa : Nat) (commit : Bool)
  /-- VIRTUAL_HOT_ADD (R178). After the 1 s wait, slots of a CXL 2.0 instance change and the virtual device is added again. -/
  | virtualHotAdd (vi : Fin 64)
  /-- PTM_REQUEST (R60). A PTM Request is answered with FABRIC_TIME. -/
  | ptmRequest (port : Fin 64)
  /-- FUNCTION_LEVEL_RESET (R335). An FLR of the Dynamic Capacity device starts a function reset of the instance. -/
  | functionLevelReset (vi : Fin 64)
  /-- SECONDARY_BUS_RESET (R335). An SBR of the virtual upstream port or of virtual downstream port 0 starts a function reset. -/
  | secondaryBusReset (vi : Fin 64) (upstream : Bool)
  /-- DOWNSTREAM_SECONDARY_BUS_RESET (R335). An SBR of virtual downstream port 1 to 7 sends FLR to the Type 2 device. -/
  | downstreamSecondaryBusReset (vi : Fin 64) (vport : Fin 8)
  /-- HOST_PERST (R64). The host's PERST_N resets the virtual hierarchy on that host port. -/
  | hostPerst (port : Fin 64)
  /-- QUIESCE_COMPLETE (R333). All quiesce conditions hold; the instance becomes QUIESCED. -/
  | quiesceComplete (vi : Fin 64)
  /-- QUIESCE_TIMEOUT (R334). The quiesce TIMEOUT passes; INSTANCE_QUIESCE replies TIMEOUT. -/
  | quiesceTimeout (vi : Fin 64)
  /-- RESET_COMPLETE (R337). Every reset action is done; the instance becomes ACTIVE or QUIESCED. -/
  | resetComplete (vi : Fin 64)
  /-- MODERATION_TIMER (R329). TIMER µs after the first pending event, the vector's message becomes due. -/
  | moderationTimer (vi : Fin 64) (vector : Fin 2048)
  /-- VECTOR_UNMASK (R330). Unmasking a vector sends its held message. -/
  | vectorUnmask (vi : Fin 65) (vector : Fin 2048)
  /-- MEMORY_AGENT_GRANT (R580). A memory port agent grants a waiting request when it holds a credit and buffer room. -/
  | memoryAgentGrant (port : Fin 64)
  /-- SQ_TAIL (R297). A doorbell write sets a pair's SQ tail, making descriptors pending. -/
  | sqTail (vi : Fin 64) (queue value : Nat)
  /-- CQ_HEAD (R297). A doorbell write frees CQ entries. -/
  | cqHead (vi : Fin 64) (queue value : Nat)
  /-- DESCRIPTOR_FETCH (R316). A freed descriptor place is filled by arbitration and a ring read. -/
  | descriptorFetch (ladle : Fin 32)
  /-- COPY (R303). A COPY descriptor starts and issues its pieces. -/
  | copyDesc (pair : Fin 8192)
  /-- FILL (R303). A FILL descriptor starts and issues its pieces. -/
  | fillDesc (pair : Fin 8192)
  /-- COMPARE (R304). A COMPARE descriptor starts and issues its pieces. -/
  | compareDesc (pair : Fin 8192)
  /-- CRC32C (R303). A CRC32C descriptor starts and issues its pieces. -/
  | crc32cDesc (pair : Fin 8192)
  /-- ATOMIC (R303). An ATOMIC descriptor starts as one request. -/
  | atomicDesc (pair : Fin 8192)
  /-- ZERO_RELEASE (R303). A ZERO_RELEASE descriptor starts writing zeros over an extent. -/
  | zeroReleaseDesc (pair : Fin 8192)
  /-- MIGRATE (R185). A MIGRATE descriptor starts copying an extent piece by piece. -/
  | migrateDesc (pair : Fin 8192)
  /-- PIECE_DONE (R308). A piece completes or fails; when the last ends, the descriptor completes and its record is written. -/
  | pieceDone (run piece : Nat)
  /-- LADLE_POWER_DOWN (R38). A Ladle idle for 100 µs is power-gated. -/
  | ladlePowerDown (ladle : Fin 32)
  /-- TARGET_TIMEOUT (R273). A target performs nothing for TARGET_TIMEOUT, or holds an entry for twice that, and is declared lost. -/
  | targetTimeout (port : Fin 64)
  /-- REMOVAL (R72). A CXL port leaves DL_Active and is removed, starting reclaim and SLOT_SETTLE. -/
  | removal (port : Fin 64)
  /-- PRESENCE_DEBOUNCE (R49). After 10 ms, PRESENT follows the presence input. -/
  | presenceDebounce (port : Fin 64) (present : Bool)
  /-- RECLAIM_DONE (R234). The reclaim ends and its writes are accepted; slots leave DEAD_SLOTS. -/
  | reclaimDone (slot : Fin 64)
  /-- DEVICE_PORT_RECLAIM_DONE (R238). The scans, snoops and recalls of a removed device port complete. -/
  | devicePortReclaimDone (port : Fin 64)
  /-- SLOT_SETTLE_EXPIRY (R180). The settle timer of a removed port expires. -/
  | slotSettleExpiry (port : Fin 64)
  /-- PORT_ADMIT (R180). Once all settle conditions hold, the incarnation advances and training is admitted. -/
  | portAdmit (port : Fin 64)
  /-- CXL_LINK_UP (R68). A CXL port reaches DL_Active and settles its generation. -/
  | cxlLinkUp (port : Fin 64) (gen rate width : Nat) (flit256 latencyOpt poisonCapable : Bool) (capacity : List Nat) (type2 : Bool)
  /-- TRAINING_RETRY (R52). A CXL port that failed to reach DL_Active retries every 100 ms. -/
  | trainingRetry (port : Fin 64)
  /-- PERST_RELEASE (R64). PERST_N of a device port is released 100 ms after its conditions hold. -/
  | perstRelease (port : Fin 64)
  /-- IDE_FAILURE (R71). An IDE MAC failure or sequence error makes the port's stream insecure. -/
  | ideFailure (port : Fin 64) (sequence : Bool)
  /-- IDE_REFRESH_TIMEOUT (R478). A partner's key refresh not completed within 1 s makes the stream insecure. -/
  | ideRefreshTimeout (port : Fin 64)
  /-- RECEIVER_DETECT (R92). Every 1 ms in DETECT, terminations are tested and TRAIN1 is entered on two matching results. -/
  | receiverDetect (port : Fin 64) (lanes : BitVec 32)
  /-- DISABLED_HOLDOFF (R88). The 10 ms in DISABLED end and DETECT begins. -/
  | disabledHoldoff (port : Fin 64)
  /-- TS1 (R93). A TS1 ordered set is received for lock, lane numbering, equalisation or recovery. -/
  | ts1 (port : Fin 64) (set : Ts1Set)
  /-- TS2 (R104). A TS2 ordered set is received for the capability exchange and width selection. -/
  | ts2 (port : Fin 64) (set : Ts2Set)
  /-- SKP_ORDERED_SET (R85). A received SKP set is adjusted in the elastic buffer. -/
  | skpOrderedSet (lane : Fin 256) (set : SkpRx)
  /-- SKP_INTERVAL (R84). After 1,024 symbol times, an SKP set is sent at the next element boundary. -/
  | skpInterval (port : Fin 64)
  /-- DESKEW (R93). An LCM DESKEW set aligns the locked lanes. -/
  | deskew (port : Fin 64) (skew : Nat)
  /-- EIOS (R82). An LCM EIOS set precedes the partner's electrical idle. -/
  | eios (port : Fin 64)
  /-- LOOPBACK_ENTER (R111). A partner in OM11 enters LOOPBACK; otherwise the set is ignored and counted. -/
  | loopbackEnter (port : Fin 64)
  /-- ACTIVE (R104). LCM ACTIVE marks the end of training; the port enters ACTIVE and the link layer SYNCING. -/
  | activeEntry (port : Fin 64)
  /-- ELECTRICAL_IDLE_DETECT (R107). Electrical idle on all lanes in use for 1 µs sends the port to DETECT. -/
  | electricalIdleDetect (port : Fin 64)
  /-- TRAIN1_TIMEOUT (R93). TRAIN1 times out, or continues on part of its lanes at 4 ms. -/
  | train1Timeout (port : Fin 64) (final : Bool)
  /-- EQUALISE_TIMEOUT (R88). EQUALISE lasts 8 ms; training fails with LAST_FAIL 2. -/
  | equaliseTimeout (port : Fin 64)
  /-- TRAIN2_TIMEOUT (R88). TRAIN2 lasts 1 ms; training fails with LAST_FAIL 3. -/
  | train2Timeout (port : Fin 64)
  /-- RECOVERY_TIMEOUT (R88). RECOVERY lasts 100 µs; the port enters DETECT with LAST_FAIL 6. -/
  | recoveryTimeout (port : Fin 64)
  /-- EQ_REQUEST_RESEND (R98). No report within 1 µs; the equalisation request is sent again. -/
  | eqRequestResend (port : Fin 64) (lane : Fin 32)
  /-- EQ_EVALUATION_DONE (R99). After at least 2 µs of evaluation, the receiver makes its next request or ends equalisation. -/
  | eqEvaluationDone (port : Fin 64) (lane : Fin 32) (eye : Fin 64)
  /-- LOSS_OF_LOCK (R86). A lane in use loses lock and the port enters RECOVERY. -/
  | lossOfLock (port : Fin 64) (lane : Fin 32)
  /-- PORT_DISABLE (R112). Setting PORT_DISABLE sends EIOS and holds the port in DISABLED. -/
  | portDisable (path : AccessPath) (port : Fin 64) (value : BitVec 32)
  /-- RETRAIN (R112). Writing RETRAIN starts RECOVERY from ACTIVE. -/
  | retrain (path : AccessPath) (port : Fin 64) (value : BitVec 32)
  /-- FULL_RETRAIN (R112). Writing FULL_RETRAIN sends EIOS and enters DETECT. -/
  | fullRetrain (path : AccessPath) (port : Fin 64) (value : BitVec 32)
  /-- LOOPBACK_REQ (R111). In OM11, LOOPBACK_REQ starts or ends loopback as master. -/
  | loopbackReq (path : AccessPath) (port : Fin 64) (value : BitVec 32)
  /-- GEN_PATTERN (R109). Selecting a generator pattern in OM11 puts the port in the PRBS state. -/
  | genPattern (path : AccessPath) (lane : Fin 256) (value : BitVec 32)
  /-- PRBS_CLEAR (R113). Clears the PRBS bit count, error count and SYNC_LOSS. -/
  | prbsClear (path : AccessPath) (lane : Fin 256) (value : BitVec 32)
  /-- INJECT_ERROR (R113). Inverts one generated PRBS bit. -/
  | injectError (path : AccessPath) (lane : Fin 256) (value : BitVec 32)
  /-- FLIT (R129). A received flit is sequence-checked and CRC-checked, and its messages are delivered or forwarded. -/
  | flit (port : Fin 64) (bits : BitVec 1024)
  /-- ACK (R131). A Whey ACK frees replay entries. -/
  | ack (rx : WheyRx) (seq : Fin 4096) (synced : Bool)
  /-- NAK (R131). A Whey NAK frees entries and triggers replay or a resync. -/
  | nak (rx : WheyRx) (seq : Fin 4096) (map : BitVec 16) (synced resync : Bool)
  /-- CREDIT (R122). A Whey CREDIT updates the channel's available credit. -/
  | credit (rx : WheyRx) (vc : Fin 8) (count : BitVec 16)
  /-- SEQ_SYNC (R128). A receiver takes NEXT_SEQ, marks missing flits and becomes synced. -/
  | seqSync (rx : WheyRx) (next : Fin 4096)
  /-- WIDTH_REQ_MESSAGE (R135). A partner's width change request is answered with ACK or REFUSE, or its collision is resolved. -/
  | widthReqMessage (rx : WheyRx) (width : Fin 8) (id : BitVec 8)
  /-- WIDTH_ACK (R136). A width change acknowledgement makes the requester narrow or start waking lanes. -/
  | widthAck (rx : WheyRx) (msg : WidthMsg)
  /-- WIDTH_REFUSE (R139). A refused width change is abandoned. -/
  | widthRefuse (rx : WheyRx) (msg : WidthMsg)
  /-- WIDTH_READY (R137). The partner's waking lanes are ready; WIDTH_SWITCH is sent. -/
  | widthReady (rx : WheyRx) (msg : WidthMsg)
  /-- WIDTH_SWITCH (R136). Received on all lanes in use, it switches the receiver to the new width. -/
  | widthSwitch (port : Fin 64) (width : Fin 8) (id : BitVec 8)
  /-- WIDTH_MARK (R137). It deskews the waking lanes against the lanes in use. -/
  | widthMark (port : Fin 64)
  /-- WAKING_LANES_LOCKED (R137). The waking lanes lock and deskew; WIDTH READY is sent. -/
  | wakingLanesLocked (port : Fin 64)
  /-- WIDTH_GO (R135). Starts a width change to WIDTH_REQ, or refuses it locally. -/
  | widthGo (path : AccessPath) (port : Fin 64) (value : BitVec 32)
  /-- WIDTH_RESPONSE_TIMEOUT (R139). A width request unanswered for 10 µs is abandoned. -/
  | widthResponseTimeout (port : Fin 64)
  /-- WIDTH_WAKE_TIMEOUT (R139). Waking lanes not ready within 100 µs; the change is abandoned. -/
  | widthWakeTimeout (port : Fin 64)
  /-- WIDTH_RETRY_DELAY (R138). After equal-nonce collision, the random delay ends and the request is sent again. -/
  | widthRetryDelay (port : Fin 64)
  /-- ACK_TIMER (R130). An acknowledgement becomes due by timer and ACK is sent. -/
  | ackTimer (port : Fin 64)
  /-- NAK_TIMER (R130). While a gap remains, the NAK is repeated. -/
  | nakTimer (port : Fin 64)
  /-- REPLAY_TIMER (R131). No ACK_SEQ advance; the oldest flit is resent, escalating after REPLAY_LIMIT. -/
  | replayTimer (port : Fin 64)
  /-- LINK_HOLD (R141). LINK_HOLD expires while HELD. -/
  | linkHold (port : Fin 64)
  /-- OLDEST_FLIT_AGE (R141). The oldest unacknowledged flit reaches 400 µs. -/
  | oldestFlitAge (port : Fin 64)
  /-- ROUTE_RETURN (R142). Once the port is UP and the twin holds none of the moved traffic, routes return. -/
  | routeReturn (port : Fin 64)
  /-- SEQ_SYNC_REPEAT (R128). SEQ_SYNC is repeated every 1 µs until confirmed. -/
  | seqSyncRepeat (port : Fin 64)
  /-- CREDIT_REFRESH (R126). CREDIT is sent for every channel every 1 µs. -/
  | creditRefresh (port : Fin 64)
  /-- MESSAGE_LIFETIME (R144). A message held 500 µs in a device is discarded. -/
  | messageLifetime (port : Fin 64)
  /-- KEY_ROLL (R150). After 2^31 flits or an SC roll, the direction moves to its next key. -/
  | keyRoll (port : Fin 64)
  /-- ENCRYPTION_SESSION_TIMEOUT (R479). No link encryption session within 10 ms of ACTIVE takes the link down. -/
  | encryptionSessionTimeout (port : Fin 64)
  /-- QFL_SPDM_MESSAGE (R479). An SPDM message for link encryption on VC5 is handled by the SC. -/
  | qflSpdmMessage (port : Fin 64) (opcode : Fin 4) (authOk final : Bool)
  /-- TIME_SYNC_PERIOD (R153). Every 1 ms, a follower sends TIME_REQ to its neighbour. -/
  | timeSyncPeriod
  /-- TIME_REQ (R153). The neighbour stamps t2 and answers TIME_RSP and TIME_T2. -/
  | timeReq (rx : WheyRx)
  /-- TIME_RSP (R153). The follower stamps t4 and takes t3. -/
  | timeRsp (rx : WheyRx) (t3 : BitVec 48)
  /-- TIME_T2 (R153). The follower takes t2, computes the offset and corrects FABRIC_TIME. -/
  | timeT2 (rx : WheyRx) (t2 : BitVec 48)
  /-- TIME_SYNC_ABANDON (R153). An exchange missing a message for 10 µs is abandoned. -/
  | timeSyncAbandon
  /-- PPS_EDGE (R56). A TIME_PPS_IN rise is captured, validity is judged and the time offset corrected. -/
  | ppsEdge
  /-- PPS_TIMEOUT (R57). 2 s without a PPS edge make PPS invalid. -/
  | ppsTimeout
  /-- PPS_OUT (R59). At each whole second of FABRIC_TIME, TIME_PPS_OUT pulses high. -/
  | ppsOut
  /-- SPEED_WINDOW (R27). Every 10 µs, SPEED_INDEX and SLOW_TILE are updated. -/
  | speedWindow (cycles : List Nat)
  /-- AVS_STEP (R495). Every 100 µs, the loop adjusts VDD_CORE toward SPEED_TARGET. -/
  | avsStep (ok : Bool)
  /-- PMBUS_RETRY (R496). After a PMBus fault, the transaction is retried every 10 ms. -/
  | pmbusRetry (ok : Bool)
  /-- VCORE_MEASURE (R494). Every 1 ms, VDD_CORE is measured at the die. -/
  | vcoreMeasure (mv : Nat)
  /-- TEMPERATURE_SCAN (R536). Every 1 ms, tile temperatures are read and TJ_CURRENT, THERM_ALERT_N and PLDM events follow. -/
  | temperatureScan (temps : List Int)
  /-- HISTOGRAM_SAMPLE (R541). Each second, the temperature and VDD_CORE histograms are sampled. -/
  | histogramSample
  /-- LANE_HOUR (R541). Each hour in use, a lane is given its error class. -/
  | laneHour (lane : Fin 256) (errors : Nat)
  /-- NAK_STORM_WINDOW (R540). Each 1 ms window, slices above NAK_STORM_LIMIT count a NAK storm. -/
  | nakStormWindow
  /-- HERDBOOK_PERIODIC_WRITE (R542). Every 15 minutes, the live record is written to flash. -/
  | herdbookPeriodicWrite
  /-- FLUSH (R542). Writing FLUSH writes the live Herdbook record now. -/
  | herdbookFlush
  /-- HERDBOOK_WRITE_DONE (R542). A Herdbook write ends and its read-back is checked. -/
  | herdbookWriteDone (ok : Bool)
  /-- SKIMMER_INTERVAL (R533). Each interval, the Skimmer captures monitors and writes sample and snapshot records. -/
  | skimmerInterval
  /-- TRIPLE_SCRUB (R453). The scrubber visits a triplicated register and corrects any minority copy. -/
  | tripleScrub (off : Nat)
  /-- GATE_SCRUB (R355). The Gate rule tables are scrubbed; an uncorrectable word fails closed. -/
  | gateScrub (staging : Bool) (index : Fin 4096) (fixed : Nat)
  /-- ARRAY_REWRITE (R524). The CP rewrites a damaged table entry from its copy, releasing waiting requests. -/
  | arrayRewrite (table : Fin 6) (index : Nat)
  /-- TIER2_EN (R197). Setting TIER2_EN checks the placement and starts zeroing tier 2. -/
  | tier2En (path : AccessPath) (value : BitVec 32)
  /-- TIER2_ZEROING_DONE (R197). Tier 2 is zeroed and TIER2_ACTIVE sets. -/
  | tier2ZeroingDone
  /-- CSR_KEY (R448). A CSR_KEY write unlocks the guard or counts a wrong key, up to lockout. -/
  | csrKey (path : AccessPath) (value : BitVec 32)
  /-- PG_CONFIG (R48). A direct write to PG_CONFIG changes nothing, is logged and consumes an unlock. -/
  | pgConfig (path : AccessPath) (group : Fin 16) (value : BitVec 32)
  /-- BIT_ALIAS_WRITE (R446). An alias write changes one register bit by its access code. -/
  | bitAliasWrite (path : AccessPath) (off : Nat) (value : BitVec 32)
  /-- LATCHING_READ (R443). A read of a latching low register latches its upper half for the path. -/
  | latchingRead (path : AccessPath) (off size : Nat)
  /-- CLEAR_ON_READ (R438). A read returning a whole RC field clears it. -/
  | clearOnRead (path : AccessPath) (off size : Nat)
  /-- ARRAY_ENTRY_READ (R456). A read of an entry's first word latches the entry for the path. -/
  | arrayEntryRead (path : AccessPath) (off size : Nat)
  /-- ARRAY_WINDOW_WRITE (R455). A write to an array window is discarded and counted. -/
  | arrayWindowWrite (path : AccessPath) (off size : Nat)
  /-- RECORD_SELECT (R549). Latches an error record into RECORD_WORD. -/
  | recordSelect (path : AccessPath) (number : BitVec 32)
  /-- CLEAR (R550). Zeroes a monitor's counters, OVF and held samples. -/
  | clearMonitor (path : AccessPath) (mon : Fin 58)
  /-- OVF (R550). Clearing an OVF bit releases a held sample. -/
  | ovfClear (path : AccessPath) (mon : Fin 58) (bits : BitVec 8)
  /-- REGISTER_WRITE (R438). A write to a register without a row of its own, under the guard and access codes. -/
  | registerWrite (path : AccessPath) (off size : Nat) (value : BitVec 64)
  /-- CHAIN_BREAK (R372). MCH_IN silent for 20 µs; the device sends BREAK and enters line mode. -/
  | chainBreak
  /-- BREAK (R372). A received BREAK puts the device in line mode. -/
  | breakFrame (rx : ChainRx)
  /-- LINE_END_DETECT (R372). A pair silent for 20 µs in line mode makes the device a line end. -/
  | lineEndDetect (pair : Fin 2)
  /-- RING_RESTORE (R372). Both pairs of a line end valid for 100 ms; RING is sent. -/
  | ringRestore
  /-- RING (R372). A received RING returns the device to ring mode. -/
  | ringFrame (rx : ChainRx)
  /-- ENUM_LISTEN_END (R373). After 3 ms in OM2, a device takes a free address or enumeration begins. -/
  | enumListenEnd
  /-- ENUM (R373). The enumeration token assigns addresses, turns at line ends or ends at the head. -/
  | enumFrame (rx : ChainRx) (next turns : Nat) (own : Bool)
  /-- ENUM_DONE (R373). A device enters OM3 with its chain address. -/
  | enumDone (rx : ChainRx) (count : Nat) (shape : EnumShape)
  /-- ENUM_TIMEOUT (R374). No ENUM_DONE within ENUM_TIMEOUT; the device enters OM3 with address 0. -/
  | enumTimeout
  /-- HEARTBEAT_PERIOD (R387). Every 1 ms, a member sends heartbeats and counts silence, applying the partition rule and declaring deaths. -/
  | heartbeatPeriod
  /-- HEARTBEAT (R387). A member's heartbeat arrives and resets its silence count. -/
  | heartbeat (via : FabricVia) (src epoch : Nat) (word : BitVec 64)
  /-- FENCED (R391). A newer-epoch FENCED notice puts a member in OM9 and discards its directory state. -/
  | fenced (via : FabricVia) (src dst notice : Nat)
  /-- BOOT_COMPLETE (R34). Secure boot and self-tests pass; the device enters OM2 or OM3. -/
  | bootComplete (kat : Nat) (linear16 : Bool)
  /-- RST_N_RISE (R470). RST_N rises with supplies in range; OM1 and the boot ROM sequence begin. -/
  | rstNRise (straps : Straps) (inRange zeroizeHigh : Bool)
  /-- RST_N_LOW (R497). RST_N low for 10 µs or more puts the device in OM0. -/
  | rstNLow
  /-- SUPPLY_FAULT (R490). A rail leaves its range for over 1 µs; the device enters OM0. -/
  | supplyFault (rail : Fin 6)
  /-- ZEROIZE_N (R480). ZEROIZE_N low for 10 µs zeroises the secrets and enters OM0. -/
  | zeroizeN
  /-- HEALTH_TEST_FAILURE (R477). A continuous entropy health test fails and the SC enters ERROR. -/
  | healthTestFailure
  /-- PWRFAIL (R285). PWRFAIL_N falls; admission stops and every buffer drains. -/
  | pwrfail
  /-- PWRFAIL_DRAIN_LIMIT (R285). At the drain limit, writes not performed are discarded and the power-fail record is programmed. -/
  | pwrfailDrainLimit
  /-- DRAIN_TIMEOUT (R284). The warm-reset drain limit ends; remaining writes are discarded. -/
  | drainTimeout
  /-- WARM_RESET_DRAIN_DONE (R284). The warm-reset drain ends; the Herdbook is written and the device reboots into OM1. -/
  | warmResetDrainDone
  /-- WATCHDOG_EXPIRY (R500). The watchdog expires and starts a warm reset. -/
  | watchdogExpiry
  /-- ADC_SCAN (R510). Every 1 ms, slot currents and voltages are measured, advancing PRECHARGE, QUALIFY and undervoltage. -/
  | adcScan (samples : List AdcSample)
  /-- PCHG_TIMEOUT (R504). Pre-charge not done within PCHG_TIMEOUT; FAULT 3. -/
  | pchgTimeout (ch : Fin 16)
  /-- GATE_CHARGED (R504). SPCn_GATE reaches VIN + 8 V; pre-charge falls and QUALIFY begins. -/
  | gateCharged (ch : Fin 16)
  /-- POWER_GOOD_TIMEOUT (R504). RAMP or QUALIFY lasts 100 ms; FAULT 4. -/
  | powerGoodTimeout (ch : Fin 16)
  /-- QUALIFICATION_END (R505). 1 ms of clean qualification ends; SPCn_PG asserts. -/
  | qualificationEnd (ch : Fin 16)
  /-- CURRENT_LIMIT (R502). The sense voltage reaches the limit; the gate regulates and the fault timer starts. -/
  | currentLimit (ch : Fin 16)
  /-- CURRENT_LIMIT_END (R505). The current falls below the limit; the fault timer stops. -/
  | currentLimitEnd (ch : Fin 16)
  /-- FAULT_TIMER (R506). The fault timer expires; the channel enters FAULT. -/
  | faultTimer (ch : Fin 16)
  /-- FAST_TRIP (R502). Sense voltage above three times the threshold; gate and power-good fall and FAULT 2. -/
  | fastTrip (ch : Fin 16)
  /-- STOPPING_END (R504). 100 µs after SPCn_PG falls, the gate is pulled low and the channel is OFF. -/
  | stoppingEnd (ch : Fin 16)
  /-- COOLDOWN_END (R504). The 1 s cool-down after a fault ends. -/
  | cooldownEnd (ch : Fin 16)
  /-- EXERCISE_INJECT (R546). A Rennet exerciser stream injects its request. -/
  | exerciseInject (stream : Fin 4)
  /-- RESPONDER_REPLY (R547). The responder model answers after its delay. -/
  | responderReply (snoops : Bool)
  /-- LANE_DROP_EXPIRY (R546). A timed Rennet LANE_DROP ends and the lane returns. -/
  | laneDropExpiry (lane : Fin 256)
  /-- TEST_PERIOD (R547). In OM11, TEST is sent on each link once per 1 µs. -/
  | testPeriod
  /-- TEST (R547). A received TEST is counted and answered with TEST_RSP. -/
  | testMsg (qfl : QflHdr)
  /-- TEST_RSP (R547). A received TEST_RSP is counted and discarded. -/
  | testRsp (qfl : QflHdr)
  /-- CHECKER_SYNC (R110). A PRBS checker declares sync after 64 consecutive correct predictions and starts counting bits and errors. -/
  | checkerSync (lane : Fin 256) (received : List Bool) (report : PrbsReport)
  /-- SYNC_LOSS (R110). A PRBS checker that sees 256 or more errors within 1,024 bits loses sync, stops counting, increments SYNC_LOSS and seeds itself again. -/
  | syncLoss (lane : Fin 256) (window : Nat) (report : PrbsReport)
  /-- IDE_KEY_MANAGEMENT (R478). A CXL IDE or PCIe IDE key-management message inside an SPDM session programs or switches a port's keys, moving IDE_STATE to keys programmed or secure. -/
  | ideKeyManagement (port : Fin 64) (op : IdeKeyOp) (anchorOk : Bool)
  /-- JTAG_INSTRUCTION_LOAD (R573). An instruction is loaded into the TAP's 8-bit instruction register, acting as BYPASS outside its modes and, for EXTEST and similar in OM11, taking every link down. -/
  | jtagInstructionLoad (code : Fin 256)
  /-- TEST_LOGIC_RESET (R576). The TAP passes Test-Logic-Reset, releasing a device held in OM0 by a scan instruction so that it boots, and returning pins and links to their function. -/
  | testLogicReset
  /-- WARM_RESET_DELAY (R431). The delay of a WARM_RESET command, 0 to 1,000 ms after its OK reply, ends and the warm reset of R284 starts. -/
  | warmResetDelay
  /-- GROUP_POWERED (R38). A port group reconfigured by PORT_CONFIG finishes powering on within 50 µs, sets POWERED, lets PORT_CONFIG reply OK and lets link training begin. -/
  | groupPowered (group : Fin 16)
  /-- BLOCK_WAKE (R38). A power-gated Ladle or Churn slice completes its wake time and serves the requests that waited for it. -/
  | blockWake (block : Fin 33)
  /-- SELF_TEST_DONE (R477). The run-time self-tests started by SELF_TEST finish 12 ms later, replying OK or ABORTED and on failure putting the SC in ERROR. -/
  | selfTestDone (ok : Bool)
  /-- FLASH_PROGRAM_DONE (R431). The flash programming of a CONFIG_SAVE completes and the command replies OK. -/
  | flashProgramDone
deriving DecidableEq, Repr

end Sys2Proof
end

