-- ==== Sys2Proof/Config.lean ====
section
/-! DEFINITION. What the spec leaves open. Every constant here is opaque: no proof can see a value of it, so a claim that
mentions one holds whatever the part does (log entries 2 and 3). -/
namespace Sys2Proof.Config

/-- A value the spec leaves free, by the site that needs it and a fresh counter: the first E2E_SEQ after a link comes up
(R128), random delays (R138), training nonces (R103), unstated result bits, sampled times. -/
opaque freeValue (site counter : Nat) : Nat

/-- SHA-384 of a byte string, as a number; the spec names the algorithm by reference only (R466, R472). -/
opaque sha384 (bytes : List Byte) : Nat

/-- HMAC-SHA-384 (R472). -/
opaque hmac384 (key : Nat) (bytes : List Byte) : Nat

/-- ECDSA verification on brainpoolP384r1 with SHA-384 of the manifest bytes 0x000 to 0x15F (R466). -/
opaque ecdsaVerify (publicKey signature : List Byte) (message : List Byte) : Bool

/-- An ECDSA signature by a key of the identity chain (R472, R474). -/
opaque ecdsaSign (key : Nat) (message : List Byte) : List Byte

/-- AES-256-GCM: the ciphertext and tag of a flit's blocks under a link key and nonce (R151). -/
opaque gcmSeal (key nonce aad data : Nat) : Nat

/-- AES-256-GCM decryption of a flit's blocks under key and nonce, with the header as associated data; none when the tag
fails (R150, R152). -/
opaque gcmOpen (key nonce aad data : Nat) : Option Nat

/-- SPDM HKDF-Expand with a label: 0 "qfl key", 1 "qfl salt", 2 "qfl next" (R479). -/
opaque hkdf (secret label : Nat) : Nat

end Sys2Proof.Config
end

