-- ==== Sys2Proof/Machine/State.lean ====
section
/-! DEFINITION. The state of the block as plain data: every register field in one sparse table keyed by its address and bit,
and a typed structure for everything the spec names that is no register. Each structure's field defaults are its values
after reset. -/
namespace Sys2Proof.Machine
open Sys2Proof

/-- A sparse table by key, keys strictly rising. -/
abbrev Tab (α : Type) := List (Nat × α)

/-- Addressed bytes: the mailbox buffers (R417). -/
abbrev Memory := List Host.Cell

/-- A register field: key (BAR0 offset of its word times 32, plus its lowest bit), width and reset value (R445). -/
structure Field where
  key : Nat
  width : Nat
  reset : Nat
deriving DecidableEq, Repr

/-- The access codes of R18. -/
inductive AccessCode where
  | ro | rw | w1c | w1s | rc | wo | rwk | rwt | rwkt
deriving DecidableEq, Repr

/-- One field of a register word: lowest bit, width, access code and reset value. -/
structure Slot where
  lo : Nat
  width : Nat
  acc : AccessCode
  reset : Nat
deriving DecidableEq, Repr

/-- A row of a register table: the word offset in its page, two strides with their counts, and the fields of the word. -/
structure RegTpl where
  off : Nat
  s1 : Nat
  n1 : Nat
  s2 : Nat
  n2 : Nat
  slots : List Slot
deriving DecidableEq, Repr

/-- Where mailbox m lies: block page 0x0A for the management mailbox (m = 64), BAR0 offset 0x1000 of the instance's
Dynamic Capacity device otherwise (R322, R439). -/
def Mailbox.base (m : Nat) : Nat := if m = 64 then 0xa000 else 0x4000000 + 0x100000 * m + 0x1000

/-- Why a command can stop: only an operand list longer than its carrier can hold. -/
inductive Fault where
  /-- Raised by the meaning of a command whose operand cannot have come over its transport (a Silek segment longer than its
  frame). Safe: the model stops where no such command can arrive. -/
  | illFormed
deriving DecidableEq, Repr

/-- Refusals. -/
inductive Refusal where
  /-- Raised by an arm of `exec` whose meaning is not written; none is. Safe. -/
  | notModelled (mnemonic : String)
deriving DecidableEq, Repr

/-! ### Management: events, errors, Silek -/

/-- An event record (R427); `data` holds DATA bytes 20 to 31 as one number. -/
structure EventRec where
  code : Nat
  source : Nat
  more : Bool := false
  seq : Nat
  time : Nat
  epoch : Nat
  data : Nat
deriving DecidableEq, Repr

/-- The event queue (R429). -/
structure Events where
  queue : List EventRec := []
  nextSeq : Nat := 1
  dropped : Nat := 0
  /-- EVENT_SUBSCRIBE's class: 0 none, 1 MCTP, 2 management mailbox. -/
  cls : Nat := 0
  eid : Nat := 0
  /-- The records in an EVENT_NOTIFY not yet answered. -/
  notified : List EventRec := []
deriving DecidableEq, Repr

/-- An error record with its number (R514, R519). -/
structure ErrorRec where
  number : Nat
  cls : Nat
  severity : Nat
  source : Nat
  access : Nat
  master : Nat
  rule : Nat
  addr : Nat
  time : Nat
  epoch : Nat
  detail : Nat
deriving DecidableEq, Repr

/-- The status codes of R409. -/
inductive Status where
  | ok | busy | badOpcode | badParam | notPermitted | notQuiesced | fenced | versionMismatch | inProgress | targetLost
  | authFail | noResource | timeout | aborted
deriving DecidableEq, Repr

/-- What a running Silek command waits on (R23). -/
inductive Work where
  | slotOn (ch : Nat) | slotOff (ch : Nat)
  | eraseBank (bank : Nat) | selfTest | configSave
  | portConfig (groups : List Nat)
  /-- PORT_CONTROL on a CXL port whose removal it waits for (R23). -/
  | portControl (port : Nat)
  | modeSet (target : Nat)
  | barrier (scope id : Nat)
  | bind (id : Nat) | unbind (id : Nat) | migrate (extent : Nat) | zero (extent : Nat) | abortMigrate (extent : Nat)
  | quiesce (vi : Nat) | instanceReset (vi : Nat) | queueReset (q : Nat) | queueDisable (q : Nat)
  | commit
  | sharerSlot (slot : Nat)
  | membership | epochAdvance | join (addr : Nat) | resync | declareDead (addr : Nat)
  | replica
  | relay (id : Nat)
  /-- Waits for the replies of members to the commands sent for it. -/
  | fan (id : Nat)
deriving DecidableEq, Repr

/-- A Silek command accepted and not yet finally answered (R420 to R423). `cmd` has its EPOCH cleared, as resends are compared. -/
structure Running where
  req : Requester
  tag : Nat
  minor : Nat
  opcode : Nat
  cmd : Instr
  src : Nat
  interim : Bool := false
  work : Work
deriving DecidableEq, Repr

/-- A command that waits for an ORDERED command or waits as one (R422). -/
structure HeldCommand where
  req : Requester
  tag : Nat
  ordered : Bool
  opcode : Nat
  minor : Nat
  src : Nat
  cmd : Instr
  interim : Bool := false
deriving DecidableEq, Repr

/-- A cached final reply (R421). -/
structure CachedReply where
  req : Requester
  tag : Nat
  cmd : Instr
  opcode : Nat
  minor : Nat
  src : Nat
  status : Status
  payload : List Byte
  time : Nat
deriving DecidableEq, Repr

/-- A Silek message being reassembled (R414, R415). -/
structure Partial where
  src : Nat
  tag : Nat
  reply : Bool
  /-- Arrived on VC5 (true) or the chain (false). -/
  vc5 : Bool
  next : Nat
  last : Nat
  bytes : List Byte
deriving DecidableEq, Repr

/-- A command this device sent to another member (R426). -/
structure SentCommand where
  id : Nat
  tag : Nat
  dst : Nat
  opcode : Nat
  /-- What the command is for. -/
  purpose : Nat
  epoch : Nat
  payload : List Byte
  resends : Nat := 0
  time : Nat := 0
  interim : Bool := false
deriving DecidableEq, Repr

/-- A relayed command of the fabric manager (R419). -/
structure Relay where
  id : Nat
  req : Requester
  tag : Nat
  ownTag : Nat
  dst : Nat
  opcode : Nat
  minor : Nat
  payload : List Byte
  resends : Nat := 0
deriving DecidableEq, Repr

/-- The Silek responder and requester. -/
structure Silek where
  running : List Running := []
  cache : List CachedReply := []
  partials : List Partial := []
  sent : List SentCommand := []
  relays : List Relay := []
  nextId : Nat := 1
  /-- Commands that wait under R422, in the order of their arrival. -/
  held : List HeldCommand := []
  /-- A held command starts: whether it has sent its INTERIM reply. Set only while it is run. -/
  releasing : Option Bool := none
  /-- Final replies a mailbox takes at its next reply instant (R417). -/
  mail : List (Nat × List Byte) := []
  segmentDrops : Nat := 0
  segAcks : Nat := 0
  /-- MCTP endpoint ID of this device (R416). -/
  endpointId : Nat := 0
  /-- FM API response message limit exponent (R433). -/
  responseLimit : Nat := 11
  /-- PLDM event receiver, 0 none (R537). -/
  eventReceiver : Nat := 0
  /-- Numeric sensors disabled by SetNumericSensorEnable. -/
  sensorsOff : List Nat := []
  /-- Requester of the FM API background command that runs (R434). -/
  fmBackground : Option (Requester × Nat) := none
  /-- Highest minor version settled with each member (R413). -/
  settled : Tab Nat := []
deriving DecidableEq, Repr

/-! ### The time unit and the key guard, each with state of its own -/

/-- One time exchange with the neighbour toward the master (R153): t1, and the times that have arrived. -/
structure TimeExchange where
  port : Nat
  t1 : Nat
  t2 : Option Nat := none
  t3 : Option Nat := none
  t4 : Nat := 0
deriving DecidableEq, Repr

/-- The time unit (R55 to R59, R153). -/
structure TimeUnit where
  /-- FABRIC_TIME in ns. -/
  now : Nat := 0
  /-- The part of the corrections not yet applied, in units of 10^-8 ns. -/
  acc : Int := 0
  /-- The offset still to be slewed out, in units of 10^-8 ns. -/
  slew : Int := 0
  /-- A forward step that waits for the next capture, in ns; 0 for none. -/
  stepDue : Nat := 0
  /-- The frequency correction, in units of 10 ppb. -/
  freq : Int := 0
  /-- PPS_CAPTURE. -/
  capture : Nat := 0
  lastEdge : Option Nat := none
  goodEdges : Nat := 0
  ppsValid : Bool := false
  /-- STEPPED. -/
  stepped : Bool := false
  exchange : Option TimeExchange := none
  /-- Time of the last completed exchange. -/
  lastExchange : Option Nat := none
deriving DecidableEq, Repr

/-- The CSR_KEY guard (R448 to R451), the home of UNLOCKED, LOCKED_OUT, WRONG_RUN, LOCKOUT_EVT and WRONG_KEYS. -/
structure KeyGuard where
  unlocked : Bool := false
  lockedOut : Bool := false
  wrongRun : Nat := 0
  lockoutEvt : Bool := false
  wrongKeys : Nat := 0
deriving DecidableEq, Repr

/-- What an access path holds latched (R442, R456). -/
structure PathLatch where
  /-- High halves latched by reads of low registers, keyed by the high register's BAR0 offset. -/
  high : Tab Nat := []
  /-- The array entry latched: its BAR0 offset and its words. -/
  entry : Option (Nat × List Nat) := none
deriving DecidableEq, Repr

/-! ### Ports, resets, power -/

/-- What a CXL port holds beside its registers. -/
structure CxlPort where
  /-- Generation last negotiated since OM0, coded as CXL_GEN; 0 for none (R578). -/
  lastGen : Nat := 0
  /-- The presence input. -/
  presentIn : Bool := false
  /-- Disabled by PORT_CONTROL (R431). -/
  disabled : Bool := false
  /-- Training is admitted (R180). -/
  admitted : Bool := true
  /-- The port was removed and its reclaim and settling have not ended. -/
  removed : Bool := false
  /-- PERST_N toward the slot is high (R64). -/
  perstHigh : Bool := false
  /-- The device advertises that it stores poison (R67). -/
  poisonCapable : Bool := false
  /-- A Type 2 device is behind the port. -/
  type2 : Bool := false
  /-- Volatile capacity per logical device in 256 MiB units. -/
  capacity : List Nat := []
  /-- IDE key sets programmed: current and next (R478). -/
  ideCurrent : Bool := false
  ideNext : Bool := false
  /-- A key refresh the partner started is open. -/
  ideRefresh : Bool := false
deriving DecidableEq, Repr

/-- A firmware bank: its state sector and the image bytes programmed (R465, R469). -/
structure Bank where
  /-- 0 EMPTY, 1 WRITING, 2 VALID. -/
  state : Nat := 0
  activation : Option Nat := none
  image : List Byte := []
  declared : Nat := 0
deriving DecidableEq, Repr

/-- The fuse array (R463). -/
structure Fuses where
  rootKeyHash : List Nat := [0, 0, 0, 0]
  revoked : Nat := 0
  svn : Nat := 0
  ifMin : Nat := 0
  uds : Nat := 0
  certHash : Nat := 0
  certFuse : Bool := false
  debugLock : Bool := false
  serial : Nat := 0
  stepping : Nat := 0x10
deriving DecidableEq, Repr

/-- A copy of the flash configuration (R32, R44, R360, R431, R436, R507). -/
structure FlashConfig where
  groups : Tab GroupConfig := []
  gate : Option (Tab (BitVec 256)) := none
  /-- Register fields saved by CONFIG_SAVE, by field key. -/
  fields : Tab Nat := []
  autostart : Option Nat := none
  mgmt : Option Nat := none
  membership : Nat := 0
  /-- The configured membership (R376, R548). -/
  configured : Nat := 0
  trustAnchors : List Nat := []
  managementAnchors : List Nat := []
  deviceIdCert : Nat := 0
deriving DecidableEq, Repr

/-- An SPDM session (R474). -/
structure Session where
  id : Nat
  transport : Nat
  mutualAuth : Bool
deriving DecidableEq, Repr

/-- The security controller beside its register page (R461 to R488). -/
structure Sc where
  /-- CDI0 lives only while the boot ROM runs (R472). -/
  cdi0 : Option Nat := none
  cdi1 : Option Nat := none
  deviceIdKey : Option Nat := none
  aliasKey : Option Nat := none
  certSlot0 : Bool := false
  sessions : List Session := []
  nextSession : Nat := 1
  drbg : Bool := false
  /-- The feedback generator of R477, when the SC is in ERROR. -/
  lfsr : Option Nat := none
  /-- Cause of the zeroisation that put the device in OM0: 1 command, 2 pin. -/
  zeroisedBy : Nat := 0
  /-- Fuse commit steps left (R468). -/
  commitLeft : Nat := 0
  /-- Events found at boot that wait for the CP. -/
  deferred : List Nat := []
  update : Option (Nat × Bool) := none
  /-- The PLDM update flow: 0 none, 1 requested, 2 table passed, 3 component under way, 4 verified. -/
  pldmStep : Nat := 0
  measuredConfig : Nat := 0
deriving DecidableEq, Repr

/-- A slot power channel beside its registers (R504 to R510). -/
structure PowerChannel where
  lowVin : Bool := false
  /-- The carried µJ fraction of the energy count. -/
  fraction : Nat := 0
  /-- Power-on waits for its turn in the AUTO_ON sequence (R507). -/
  autoWait : Bool := false
  /-- Its turn in that sequence has come. -/
  autoRun : Bool := false
deriving DecidableEq, Repr

/-- What is held in the VDD_IO domain and by the reset logic (R497, R498). -/
structure ResetLogic where
  /-- 0 power-on not yet left, 1 pin, 2 supply, as coded in R497 for the next exit from OM0. -/
  cause : Nat := 0
  rail : Nat := 0
  inOm0 : Bool := false
  /-- RST_N is low. -/
  pinLow : Bool := false
  /-- The mode left at the last entry to OM0, the cause, 8 for zeroisation, and FABRIC_TIME then, for the next boot to record (R36). -/
  left : Option (Nat × Nat × Nat) := none
  /-- FABRIC_TIME of the last exit from OM0 (R36). -/
  exitTime : Nat := 0
  /-- OM0 is held by a boundary-scan instruction (R576). -/
  scanHold : Bool := false
  zeroisedLast : Bool := false
  straps : Straps := {}
  /-- The boot ROM runs from RST_N's rise or a warm reset until BOOT_COMPLETE. -/
  booting : Bool := true
  /-- A WARM_RESET delay is running; the cause it will record. -/
  warmDelay : Option Nat := none
  /-- A warm-reset drain is under way (R284); the cause it will record. -/
  draining : Option Nat := none
  /-- The drain is that of a power fall (R285). -/
  powerFall : Bool := false
  recovery : Bool := false
  /-- First boot of the image has reached OM3. -/
  committed : Bool := false
deriving DecidableEq, Repr

/-- The live Herdbook record (R539) and its flash region (R538, R543). -/
structure Herdbook where
  counters : Tab Nat := []
  modeEntries : Tab Nat := []
  /-- Old mode, new mode, cause, POWER_ON_S; oldest first, at most 32. -/
  transitions : List (Nat × Nat × Nat × Nat) := []
  tempBins : Tab Nat := []
  coreBins : Tab Nat := []
  /-- Per lane: WORST, LAST, hours, hours in class 2 or above, hours in class 4 or above. -/
  lanes : Tab (Nat × Nat × Nat × Nat × Nat) := []
  powerOnS : Nat := 0
  powerOns : Nat := 0
  sequence : Nat := 1
  /-- The sector the next main record takes, 2 to 511. -/
  sector : Nat := 2
  /-- A record being written: its WRITE_CAUSE. -/
  writing : Option Nat := none
  lastCause : Nat := 0
  /-- The power-fail record programmed (R543): POWER_ONS, FABRIC_TIME, total, per-port discards. -/
  powerFail : Option (Nat × Nat × Nat × Tab Nat) := none
  /-- NAKs each slice sent in the present window (R540). -/
  nakWindow : Tab Nat := []
  /-- Second of POWER_ON_S at the last periodic write. -/
  lastWrite : Nat := 0
deriving DecidableEq, Repr

/-- The Skimmer beside its registers (R530 to R534). -/
structure Skimmer where
  vi : Nat := 0
  base : Nat := 0
  size : Nat := 0
  producer : Nat := 64
  wraps : Nat := 0
  seq : Nat := 0
deriving DecidableEq, Repr

/-- The JTAG tap (R573 to R576). -/
structure Jtag where
  instruction : Nat := 1
deriving DecidableEq, Repr

/-- Thermal alert and the thresholds crossed (R537, R572): sensor and threshold kind (0 upper warning, 1 upper critical, 2 lower
warning, 3 lower critical) now beyond. -/
structure Thermal where
  alert : Bool := false
  beyond : List (Nat × Nat) := []
  /-- The PMBus master (R494, R496): 0 regular, 1 holding its voltage and retrying, 2 the regulator is not LINEAR16. -/
  pmbus : Nat := 0
deriving DecidableEq, Repr


/-! ### Writes on their way (R260 to R275) -/

/-- What a buffered write carries. -/
inductive WriteBody where
  /-- A line part of pooled memory: fabric address of the line (0 for the Churn's own regions), DPA of the line, byte enables, data,
  poison. -/
  | line (fa dpa : Nat) (be : Enables) (data : Line) (poison : Bool)
  /-- A posted write toward host memory. -/
  | host (addr : Nat) (bytes : List Byte) (ep : Bool)
  /-- An MSI-X message of a local vector (R330). -/
  | msix (vi vec : Nat)
deriving DecidableEq, Repr

/-- One accepted write inside an entry: its number, master ID, acceptance time and Gate rule epoch. -/
structure WriteRef where
  id : Nat
  master : Nat
  time : Nat
  ruleEpoch : Nat
deriving DecidableEq, Repr

/-- An entry of an egress posted-write buffer (R270). -/
structure EgressEntry where
  port : Nat
  ld : Nat
  body : WriteBody
  incarnation : Nat
  writes : List WriteRef
  sent : Bool := false
deriving DecidableEq, Repr

/-- A running BARRIER (R279 to R282). -/
structure Barrier where
  scope : Nat
  id : Nat
  left : List Nat
  covered : Nat
  discarded : Nat := 0
  /-- LOST words in the order the targets were lost. -/
  lost : List Nat := []
deriving DecidableEq, Repr

/-- A write outstanding toward a remote owner (R260). -/
structure RemoteWrite where
  id : Nat
  master : Nat
  owner : Nat
  ruleEpoch : Nat
  time : Nat
deriving DecidableEq, Repr

/-- The write buffers of the device. -/
structure Buffers where
  /-- Every port's entries, oldest first. -/
  entries : List EgressEntry := []
  /-- Host writes that wait for a free entry (R271). -/
  waiting : List EgressEntry := []
  remote : List RemoteWrite := []
  barriers : List Barrier := []
  nextId : Nat := 1
deriving DecidableEq, Repr

/-- MSI-X state beside the moderation registers (R327 to R330). Vectors are keyed `instance * 2048 + vector`; instance 64 is
the management function. -/
structure Irq where
  /-- MSI-X table words, keyed `vector key * 4 + word`; word 3 bit 0 is Vector Control's mask. -/
  table : Tab Nat := []
  /-- Instances whose Function Mask is set. -/
  functionMask : List Nat := []
  /-- Held messages (PBA bits). -/
  pba : List Nat := []
  /-- Vectors whose moderation timer runs. -/
  timers : List Nat := []
  /-- Events that named a vector outside the allocation. -/
  dropped : Tab Nat := []
deriving DecidableEq, Repr


/-! ### QFL physical layer -/

/-- Equalisation of one lane's receiver (R98, R99). -/
structure EqLane where
  /-- The request standing: kind, pre, post. -/
  kind : Nat := 0
  pre : Nat := 0
  post : Nat := 0
  requests : Nat := 0
  /-- The report matched and evaluation runs. -/
  evaluating : Bool := false
  done : Bool := false
  bestPre : Nat := 0
  bestPost : Nat := 0
  bestEye : Nat := 0
deriving DecidableEq, Repr

/-- What a lane's receiver has seen in TRAIN1 (R93): TS1 sets in a row, each with its COM at one alignment, the lane number of the last one,
and how many in a row carried it. -/
structure LaneTrain where
  coms : Nat := 0
  number : Nat := 0
  same : Nat := 0
deriving DecidableEq, Repr

/-- A QFL port's training state beside its registers (R88 to R108, R111). -/
structure QflPhy where
  /-- Lanes that found a termination at the last receiver test. -/
  tested : Option (List Nat) := none
  detected : List Nat := []
  /-- Consecutive identical TS1 and TS2 sets (R91). -/
  ts1 : Option (Ts1Set × Nat) := none
  ts2 : Option (Ts2Set × Nat) := none
  /-- Consecutive LCM DESKEW sets within the accepted skew since the state was entered (R93, R95). -/
  deskews : Nat := 0
  /-- Locks and lane number of each detected lane's receiver (R93, R94). -/
  train : Tab LaneTrain := []
  /-- Detected lanes with bit lock, symbol lock, polarity and lane number. -/
  complete : List Nat := []
  lockedOwn : Bool := false
  partnerLocked : Bool := false
  partnerWidth : Nat := 0
  eq : Tab EqLane := []
  /-- When EQUALISE was entered (R99). -/
  eqStart : Nat := 0
  eqDone : Bool := false
  partnerEqDone : Bool := false
  laneMap : Nat := 0
  /-- The selection of R102: log2 width and upper window. -/
  selection : Option (Nat × Bool) := none
  ready : Bool := false
  /-- The TS2 of the last training (R108). -/
  lastTs2 : Option Ts2Set := none
  /-- Features offered, fixed at DETECT (R112). -/
  offer : Nat := 0x3f
  loopMaster : Bool := false
  /-- The partner announced electrical idle. -/
  partnerIdle : Bool := false
  /-- Lanes selected at the last entry to ACTIVE, logical lane 0 first: transmitters, and receivers by the number received (R94, R102). -/
  txLanes : List Nat := []
  rxLanes : List Nat := []
deriving DecidableEq, Repr

/-- A lane's receiver beside its registers (R77, R85, R86), and its transmitter's flags. -/
structure LaneState where
  /-- Fill of the elastic buffer of 16 symbols, from its centre: −8 to 8. -/
  elastic : Int := 0
  /-- Running disparity, positive or not; none until a COM was locked on. -/
  disparity : Option Bool := none
  /-- Symbol times received, and those at which an error fell, the last 1,024 at most. -/
  symbols : Nat := 0
  errors : List Nat := []
  /-- SKP ordered sets in a row that were missing or misaligned. -/
  skpsLost : Nat := 0
  /-- The transmitter refused the last request (R96). -/
  rejected : Bool := false
  /-- Generated bits to be inverted (INJECT_ERROR). -/
  injected : Nat := 0
  /-- LANE_DROP of the Rennet holds the lane (R546). -/
  dropped : Bool := false
deriving DecidableEq, Repr


/-! ### Virtual instances -/

/-- What INSTANCE_CONFIG gives an instance beside its allocations: host ports, Type 2 devices, MSIX_COUNT (R325, R326). -/
structure InstCfg where
  portA : Option Nat
  portB : Option Nat
  type2 : Tab Nat
  msix : Nat
deriving DecidableEq, Repr

/-- A virtual instance beside its registers (R324, R345). -/
structure Inst where
  portA : Option Nat := none
  portB : Option Nat := none
  /-- Device port of each virtual downstream port, 1 to 7. -/
  type2 : Tab Nat := []
  msixBase : Nat := 0
  trackerMin : Nat := 0
  trackerMax : Nat := 0
  accessWeight : Nat := 0
  ladleWeight : Nat := 0
  enabledBefore : Bool := false
  /-- A configuration given while QUIESCED, which reaches the host at the next instance reset (R326). -/
  next : Option InstCfg := none
  /-- FORCED of R345. -/
  forced : Bool := false
  /-- The INSTANCE_QUIESCE that runs has a TIMEOUT (R325). -/
  timed : Bool := false
  /-- The reset under way, or to follow the quiesce: 1 managed, 2 function, 3 link. -/
  resetKind : Nat := 0
  /-- The fabric manager quiesced the instance, or was quiescing it, when the host reset began (R337). -/
  managed : Bool := false
  /-- Pairs that had descriptors in progress at the forced quiesce. -/
  aborted : List Nat := []
deriving DecidableEq, Repr




/-! ### Accesses on their way (R20, R202) -/

/-- The request kinds of R202. -/
inductive Kind where
  | rdShared | rdOwn | invOwn | flush | evictClean | wb | rdNc | wrNc | atomic | recall | recallAll | reclaim
deriving DecidableEq, Repr

/-- The operation and operands of an atomic (R247, R252): OP 1 to 4, then addend, new value or compare value, then swap value. -/
structure AtomArgs where
  op : Nat
  a : Nat
  b : Nat := 0
deriving DecidableEq, Repr

/-- Who is answered when an access completes. -/
inductive Origin where
  /-- A CXL.mem request of a host port, by its tag. -/
  | mem (port tag : Nat)
  /-- Line `line` of a CXL.io request held as a job. -/
  | io (job line : Nat)
  /-- Line `line` of a piece of a Ladle descriptor: side 0 its source read, 1 its destination. -/
  | ladle (run piece side line : Nat)
  /-- A ring read of a queue pair: pair and descriptors asked for. -/
  | ring (pair count : Nat)
  /-- A message of a QFL peer: VC0 opcode, tag and E2E_SEQ. -/
  | peer (chain op tag e2e : Nat)
  /-- An exerciser request of a Rennet stream (R546). -/
  | exerciser
  /-- Nobody: the Churn's own work, a Silek command's part of a recall named by its number. -/
  | churn (work : Nat)
deriving DecidableEq, Repr

/-- One access to one line or one atomic (R20, R306). -/
structure Access where
  id : Nat
  kind : Kind
  origin : Origin
  master : Nat
  /-- Host physical address to be decoded, with the instance whose windows decode it (R169). -/
  hpa : Option (Nat × Nat) := none
  /-- Fabric address of the first byte. -/
  fa : Nat := 0
  /-- The origin port's incarnation at arrival (R179). -/
  inc : Nat := 0
  be : Enables := BitVec.allOnes 64
  data : Line := 0
  poison : Bool := false
  /-- MetaValue kept by a write: 0 I, 1 S, 2 A. -/
  keep : Nat := 0
  atom : Option AtomArgs := none
  /-- The sharer slot of a caching requester. -/
  slot : Option Nat := none
  ruleEpoch : Nat := 0
  naks : Nat := 0
  ticket : Option Nat := none
  /-- Carried over from the source line of a poisoned COPY or migration (R308, R188). -/
  time : Nat := 0
deriving DecidableEq, Repr

/-- How an access ends toward its originator. -/
inductive Ending where
  | done | decodeMiss | gateDenied (rule : Nat) | targetLost
  /-- The backing was gone before the access arrived (R73). -/
  | absent
  | timedOut | errorResponse | residue | fenced
deriving DecidableEq, Repr

/-- What an access returns: data, poison, the state granted (0 none, 1 SHR, 2 EXC, 3 MOD) and how it ended. -/
structure Answer where
  data : Line := 0
  poison : Bool := false
  grant : Nat := 0
  /-- A grant without data. -/
  bare : Bool := false
  ending : Ending := .done
deriving DecidableEq, Repr

/-- What goes on when a memory access or a QFL request ends. -/
inductive Cont where
  /-- The read or write of a home or proxy tracker; `part` 0 the line, 1 a writeback, 2 a bucket. -/
  | tracker (slice id part : Nat)
  /-- A private access at its memory port agent. -/
  | direct (a : Access)
  /-- The write of a private atomic; the answer returns the old value. -/
  | atomicWrite (a : Access) (old : Line)
  /-- A recall answered by the proxy behind a remote slot. -/
  | recallRsp (slice id slot : Nat)
  /-- A writeback taken as a snoop's data: its own completion, then the tracker. -/
  | snoopWrite (slice id : Nat) (a : Access)
  /-- MIR_ACK of an entry change of a tracker; `access` is the number of the tracker's access. -/
  | mirrorEntry (slice id access : Nat)
  /-- MIR_ACK of a state record, a bucket copy or the close of the Copy phase. -/
  | mirrorState | mirrorCopy | mirrorClose
  /-- The replica write of a VC4 message at the mirror: MIR_ACK answers chain, tag, E2E_SEQ once it is accepted. -/
  | replicaAck (chain tag e2e : Nat)
  /-- PLOST or another note of a proxy that frees its entry when answered. -/
  | proxyFree (slice set way : Nat)
  /-- A Silek segment sent as SILEK_CMD. -/
  | segment (id : Nat)
  /-- The second copy of a dual write, or another write nobody waits for. -/
  | none
  /-- One copy of a dual write (R186): the writes of group `group` complete together. -/
  | dual (group : Nat)
  | test
deriving DecidableEq, Repr

/-- A request at the input of a memory port agent, or sent and not answered (R580, R261). -/
structure AgentReq where
  id : Nat
  port : Nat
  ld : Nat
  /-- DPA of the line. -/
  dpa : Nat
  write : Bool
  acc : Access
  cont : Cont
  incarnation : Nat := 0
deriving DecidableEq, Repr

/-- A line lock of a memory port agent (R251). -/
structure LineLock where
  port : Nat
  ld : Nat
  dpa : Nat
  owner : Nat
deriving DecidableEq, Repr

/-- An access of a peer with writes accepted and not yet performed: their numbers, whether one of them was lost, and the answer that
waits for them (R260). -/
structure PeerWrite where
  access : Nat
  left : List Nat
  lost : Bool := false
  answer : Option (Access × Answer) := none
deriving DecidableEq, Repr

/-- The memory port agents: requests waiting at their inputs, reads sent, locks, credit values of R340 (competitor 64 is the
fabric partition), and dual writes under way. -/
structure Agents where
  queue : List AgentReq := []
  reads : List AgentReq := []
  locks : List LineLock := []
  /-- Weighted credits of R340 by port and competitor. -/
  credit : Tab (Tab Int) := []
  /-- Copies still to be accepted of each dual write, with its continuation. -/
  duals : Tab (Nat × Cont) := []
  /-- The accesses of peers whose accepted writes are not all performed (R260). -/
  peerWrites : List PeerWrite := []
deriving DecidableEq, Repr

/-- Work that one command hands on inside the device and that is done before the command's effect ends. -/
inductive Task where
  /-- An access enters stage 2 of R20. -/
  | launch (a : Access)
  /-- A decoded and checked access enters stage 4. -/
  | route (a : Access)
  /-- An access ends toward its originator. -/
  | answer (a : Access) (r : Answer)
  /-- A tracker of a line closed: what waits for the line, the way or the tracker may go on. -/
  | lineFree (slice la : Nat)
  /-- A memory access, a dual write or a QFL request ended: data, poison, copy granted and how. -/
  | ended (c : Cont) (r : Answer)
  /-- A port leaves service (R72). -/
  | remove (port : Nat)
  /-- A slot is dead (R231). -/
  | dead (slot : Nat)
  /-- A descriptor of a fabric-manager pair completed: opcode, purpose, STATUS, source and destination. -/
  | descDone (opcode purpose status src dst : Nat)
  /-- A read of host memory ended: tag, no error, poison, bytes. -/
  | hostData (tag : Nat) (ok poison : Bool) (bytes : List Byte)
  /-- A pair enters ERROR (R298). -/
  | pairError (pair cause : Nat)
  /-- Requests held at a host port may be admitted. -/
  | takeHeld (port : Nat)
  /-- Snoop responses kept behind writebacks may pass. -/
  | passAnswers
  /-- A queue doorbell that waited for its turn on its port: instance, queue, CQ_HEAD, value (R267). -/
  | doorbell (vi queue : Nat) (cq : Bool) (value : Nat)
  /-- Conditions of running commands may have come to hold. -/
  | recheck
deriving DecidableEq, Repr

/-! ### The extent map, windows and slots (R161 to R168) -/

/-- An extent map entry with its LOST count, spill bit and directory home (R161, R200, R241, R172). -/
structure Extent where
  state : Nat := 0
  migrating : Bool := false
  unbinding : Bool := false
  poisonCapable : Bool := false
  port : Nat := 0
  ld : Nat := 0
  dpaUnit : Nat := 0
  ownerChain : Nat := 0
  ownerVi : Nat := 0
  bindCount : Nat := 0
  migIndex : Nat := 0
  lostCount : Nat := 0
  spill : Bool := false
  home : Bool := false
  /-- Lines read with poison until ZERO_RELEASE after a loss of poison records (R201). -/
  poisonAll : Bool := false
  /-- Chain addresses of the other devices whose instances hold bindings, one for each binding. -/
  remote : List Nat := []
deriving DecidableEq, Repr

/-- A host decoder window (R165), with the size its host committed. -/
structure Window where
  enabled : Bool := false
  committed : Bool := false
  vi : Nat := 0
  region : Nat := 0
  kind : Nat := 0
  slotBase : Nat := 0
  slotCount : Nat := 0
  hpaUnit : Nat := 0
  size : Nat := 0
deriving DecidableEq, Repr

/-- A binding slot (R168). -/
structure BindSlot where
  valid : Bool := false
  pending : Bool := false
  chain : Nat := 0
  extent : Nat := 0
deriving DecidableEq, Repr

/-- A running EXTENT_BIND: the slots offered, which of them were FREE before, and the accepted bitmap. -/
structure Binding where
  id : Nat
  window : Nat
  slots : List Nat
  fresh : List Bool
  /-- The fabric extents, one for each slot, and their kind. -/
  list : List Nat := []
  kind : Nat := 0
  /-- Chain address of the member whose instance is bound; 0 for an instance of this device. -/
  member : Nat := 0
  /-- Commands to owners, and to the member, whose replies the binding awaits. -/
  asked : List Nat := []
  /-- The owners have taken their parts, and the member has been told (R171). -/
  passed : Bool := false
  taken : List Nat := []
  failed : Option Status := none
deriving DecidableEq, Repr

/-- A running EXTENT_UNBIND, or a release the host began by itself (R177): the slots, those still waiting for the host, those
whose writes and recall still run. -/
structure Unbinding where
  id : Nat
  vi : Nat
  slots : List Nat
  waiting : List Nat
  /-- Slots released, with their fabric extents, whose writes and recall still run. -/
  finishing : List (Nat × Nat) := []
  released : List Nat := []
  zero : Bool := false
  command : Bool := true
  timedOut : Bool := false
  /-- Begun by the host itself (R177). -/
  byHost : Bool := false
  /-- The fabric extents, one for each slot. -/
  list : List Nat := []
  window : Nat := 0
  force : Bool := false
  /-- Chain address of the member whose instance is unbound; 0 for an instance of this device. -/
  member : Nat := 0
  /-- 0 while the owners check, 1 while the member runs its part, 2 from then on. -/
  stage : Nat := 2
  /-- Commands to owners, and to the member, whose replies the unbinding awaits. -/
  asked : List Nat := []
  began : List Nat := []
  failed : Option Status := none
deriving DecidableEq, Repr

/-- A migration entry (R184 to R189). PHASE: 1 copying, 2 draining dual writes, 3 exchanging, 4 aborting. -/
structure Migration where
  source : Nat
  dest : Nat
  phase : Nat := 1
  watermark : Nat := 0
  zero : Bool := false
  queue : Nat := 0
  /-- Accesses the slice holds: writes to the open piece, or every access during the exchange. -/
  held : List Access := []
  /-- The Churn's own writes to lines of the open piece that the Ladle has copied, each with what goes on when it is accepted. -/
  heldWrites : List (Access × Cont) := []
deriving DecidableEq, Repr

/-- An extent waiting for its ZERO_RELEASE (R305). -/
structure Binder where
  bindings : List Binding := []
  unbindings : List Unbinding := []
  migrations : Tab Migration := []
  zeroWait : List Nat := []
  /-- Hot-removals of CXL 2.0 instances (R178): instance, slots to become VALID, slots to be cleared, ZERO. -/
  hotPlug : List (Nat × List Nat × List Nat × Bool) := []
  /-- Slots to change when a CXL 1.1 host next leaves reset. -/
  deferred : List (Nat × List Nat × List Nat × Bool) := []
  /-- Own fabric extents that the manager unbinds from an instance of another device, one for each such unbinding. -/
  remoteUnbinds : List Nat := []
  nextId : Nat := 1
deriving DecidableEq, Repr

/-! ### The Gate (R349 to R367) -/

/-- A Gate rule (R351); `damaged` marks a rule word with an uncorrectable error (R355). -/
structure Rule where
  valid : Bool := false
  action : Nat := 0
  space : Nat := 0
  perms : Nat := 0
  hostVi : Nat := 0
  masterValue : Nat := 0
  masterMask : Nat := 0
  basePage : Nat := 0
  limitPage : Nat := 0
  hits : Nat := 0
  damaged : Bool := false
deriving DecidableEq, Repr

/-- The Gate's tables. -/
structure Gate where
  active : Tab Rule := []
  staging : Tab Rule := []
  /-- The millisecond of FABRIC_TIME of the last violation record and the records written in it (R359). -/
  window : Nat × Nat := (0, 0)
deriving DecidableEq, Repr

/-! ### The Churn (R192 to R230) -/

/-- A tier-1 way or a tier-2 bucket entry (R194, R199). STATE: 1 SHR, 2 EXC, 3 MOD, 4 LOST. -/
structure DirEntry where
  state : Nat
  la : Nat
  sharers : Nat
  pinned : Bool := false
  tracker : Nat := 0
  ref : Bool := false
deriving DecidableEq, Repr

/-- Tracker phases (R209). -/
inductive Phase where
  | lookup | tier2 | evict | snoop | memory | mirror | send
deriving DecidableEq, Repr

/-- Where the entry of a tracker's line lies. -/
inductive Place where
  | none | way (w : Nat) | image (k : Nat) | bucket (b e : Nat)
deriving DecidableEq, Repr

/-- An open tracker (R208, R209). -/
structure Tracker where
  slice : Nat
  id : Nat
  acc : Access
  la : Nat
  proxy : Bool := false
  phase : Phase := .lookup
  place : Place := .none
  state : Nat := 0
  sharers : Nat := 0
  /-- Slots whose snoop or recall is not answered. -/
  snooped : List Nat := []
  /-- 0 BISnpInv, 1 BISnpData, 2 BISnpCur. -/
  snoop : Nat := 0
  /-- The snooped owner keeps a shared copy. -/
  kept : Bool := false
  data : Option (Line × Bool) := .none
  /-- Reads and writes of memory or of the home still to end. -/
  reads : Nat := 0
  writes : Nat := 0
  /-- Step of a proxy's dealings with the home. -/
  step : Nat := 0
  nextState : Nat := 0
  nextSharers : Nat := 0
  answer : Answer := {}
  /-- The way being freed for this line, and the victim's line. -/
  wayFor : Option Nat := .none
  victim : Option Nat := .none
  /-- Its next state is fixed. -/
  settled : Bool := false
  /-- What a proxy still asks its home, in order: VC0 opcode and KEEP. -/
  plan : List (Nat × Nat) := []
  /-- A BIConflict that waits for the Cmp of a writeback: port and snoop tag (R206). -/
  conflict : Option (Nat × Nat) := .none
  /-- Dirty data of the line is in `data`. -/
  dirty : Bool := false
  /-- The recall a proxy answers: chain, tag, E2E_SEQ. -/
  reply : Option (Nat × Nat × Nat) := .none
deriving DecidableEq, Repr

/-- An outstanding reservation ticket (R212, R213). -/
structure Ticket where
  slice : Nat
  number : Nat
  la : Nat
  master : Nat
  cause : Nat
  /-- The request that presented it and waits. -/
  waiting : Option Access := .none
deriving DecidableEq, Repr

/-- A request NAKed and held by the agent that retries it (R22, R211). -/
structure Retry where
  acc : Access
  hint : Nat
deriving DecidableEq, Repr

/-- Work of the Churn that waits for a tracker or a way (R214, R216). -/
structure ChurnWork where
  slice : Nat
  acc : Access
  la : Nat
  reply : Option (Nat × Nat × Nat) := .none
deriving DecidableEq, Repr

/-- A reclaim of a slot (R234, R235): entries reclaimed and lines lost so far; the running scan covers it, or it waits for the next. -/
structure Reclaim where
  slot : Nat
  entries : Nat := 0
  lost : Nat := 0
  scanned : Bool := true
deriving DecidableEq, Repr

/-- The reclaim of a removed device port (R238). -/
structure PortReclaim where
  port : Nat
  work : List Nat := []
deriving DecidableEq, Repr

/-- A sharer slot (R220). -/
structure SharerSlot where
  valid : Bool := false
  kind : Nat := 0
  port : Nat := 0
  chain : Nat := 0
deriving DecidableEq, Repr

/-- The directory and its slices. -/
structure Churn where
  /-- Tier 1, keyed `(slice * 4096 + set) * 16 + way`. -/
  tier1 : Tab DirEntry := []
  /-- Tier 2, keyed `bucket * 4 + entry`. -/
  tier2 : Tab DirEntry := []
  /-- After a failover, the part of the tier-1 image of PAIR_ADDR that has not yet moved into tier 1, keyed as tier 1 (R394). -/
  image : Tab DirEntry := []
  /-- Buckets unusable for the rest of the power-on (R201). -/
  badBuckets : List Nat := []
  trackers : List Tracker := []
  /-- Entry changes of a tracker that the mirror has not acknowledged, by the number of the tracker's access (R227). -/
  mirrorWaits : Tab Nat := []
  tickets : List Ticket := []
  retries : List Retry := []
  waiting : List ChurnWork := []
  slots : Tab SharerSlot := []
  reclaims : List Reclaim := []
  portReclaims : List PortReclaim := []
  /-- Requests of an instance whose ACCESS_WEIGHT is 0 (R341). -/
  stalled : List Access := []
  /-- Extents waiting to be swept, the first one under way (R201). -/
  sweeps : List Nat := []
  /-- The current line of each slice in the sweep under way (R201). -/
  sweepLine : Tab Nat := []
  zeroing : Bool := false
  /-- The slices are in their low-power state (R38). -/
  gated : Bool := true
deriving DecidableEq, Repr

/-! ### CXL.io jobs and the ingress queues (R267, R332, R343) -/

/-- A CXL.io request served line by line. -/
structure IoJob where
  id : Nat
  port : Nat
  tag : Nat
  /-- 0 read, 1 posted write, 2 atomic. -/
  kind : Nat
  left : Nat
  /-- Worst ending so far and the data by line. -/
  poison : Bool := false
  ending : Ending := .done
  addr : Nat := 0
  len : Nat := 0
  parts : Tab Nat := []
deriving DecidableEq, Repr

/-- A host request waiting in its ingress queue: the port, the command, and whether its link acknowledged it, as it does while admission is
not stopped (R286). -/
structure HeldReq where
  port : Nat
  cmd : Instr
  acked : Bool := true
deriving DecidableEq, Repr

/-- A snoop sent to a host, for a tracker and the sharer slot of its port, in an incarnation of the port (R179). -/
structure HostSnoop where
  port : Nat
  tag : Nat
  slice : Nat
  tracker : Nat
  slot : Nat
  incarnation : Nat := 0
deriving DecidableEq, Repr

/-- A snoop response that its port keeps behind earlier writebacks of the line (R205, R206): the snoop, the state kept (none for a
BIConflict), the numbers of the writebacks that must reach their slice first. -/
structure HeldAnswer where
  snoop : HostSnoop
  keeps : Option Nat
  before : List Nat
deriving DecidableEq, Repr

/-- The host edge. -/
structure Edge where
  jobs : List IoJob := []
  held : List HeldReq := []
  nextJob : Nat := 1
  /-- A lowered limit waits (R344). -/
  limitPending : List Nat := []
  /-- Request credits that a host port holds out and its host has not used (R343). -/
  credits : Tab Nat := []
  /-- Snoops sent to a host and not answered. -/
  snoops : List HostSnoop := []
  /-- Snoop responses kept behind writebacks, oldest first. -/
  answers : List HeldAnswer := []
  nextTag : Nat := 1
  /-- Config space and MSI-X capability bits the host wrote, keyed `instance * 65536 + register`. -/
  config : Tab Nat := []
deriving DecidableEq, Repr

/-! ### QFL link layer and transactions (R114 to R148) -/

/-- A QFL message (R118); `units` are the words from unit 2 on. -/
structure QflMsg where
  vc : Nat
  opcode : Nat
  src : Nat
  dst : Nat
  hops : Nat := 0
  master : Nat := 0xffff
  tag : Nat := 0
  epoch : Nat := 0
  e2e : Nat := 0
  units : List (BitVec 64) := []
  /-- FILTERED as it arrived; a message of this device takes the bit of its channel. -/
  bit7 : Option Bool := none
  /-- When it entered this device (R144). -/
  born : Nat := 0
deriving DecidableEq, Repr

/-- A sent flit in the replay buffer (R127, R131): bits of its first transmission. -/
structure SentFlit where
  seq : Nat
  bits : BitVec 1024
  msgs : List QflMsg
  /-- Time of its last transmission as a replay for a NAK. -/
  resent : Option Nat := none
deriving DecidableEq, Repr

/-- The link layer of a QFL port beside its registers. -/
structure QflLink where
  replay : List SentFlit := []
  txq : List QflMsg := []
  /-- Cumulative credit received and units consumed, by VC, modulo 65,536. -/
  limit : Tab Nat := []
  consumed : Tab Nat := []
  /-- Units freed of the receive buffers, by VC, and the messages they hold. -/
  freed : Tab Nat := []
  rx : List QflMsg := []
  /-- Flits held out of order: sequence and messages, none when malformed. -/
  reorder : List (Nat × Option (List QflMsg)) := []
  nextNew : Nat := 0
  badRun : Nat := 0
  sinceAck : Nat := 0
  /-- SEQ_SYNC was confirmed. -/
  confirmed : Bool := false
  creditSeen : List Nat := []
  expiries : Nat := 0
  escalated : Bool := false
  /-- REQ_ID of the last own width request; the request or partner's request under way: width, REQ_ID, own. -/
  reqId : Nat := 0
  width : Option (Nat × Nat × Bool) := none
  /-- 1 REQ sent, 2 waking lanes, 3 switch sent. -/
  widthStep : Nat := 0
  marks : Nat := 0
  /-- READY sent and received in this change (R137). -/
  readySent : Bool := false
  readySeen : Bool := false
  switchSent : Bool := false
  switchSeen : Bool := false
  /-- A width request waits its random delay (R138). -/
  widthRetry : Option Nat := none
  /-- NEW flits since the training, by direction, for the initialisation vector, and sent since the last key roll (R150). -/
  txFlits : Nat := 0
  rxFlits : Nat := 0
  keyFlits : Nat := 0
  /-- KEY_ID, the keys and the 32-bit salts of both directions (R149, R150). -/
  keyId : Nat := 0
  rxKeyId : Nat := 0
  txKey : Nat := 0
  rxKey : Nat := 0
  txSalt : Nat := 0
  rxSalt : Nat := 0
  /-- The receiving direction's key before the last roll, and the first extended sequence number seen under the present one. -/
  rxOldKey : Nat := 0
  rxKeyFrom : Nat := 0
  /-- This end's part in establishing the session of R479: 0 none, 1 requester, 2 responder, 3 established. -/
  session : Nat := 0
deriving DecidableEq, Repr

/-- A filtered message outstanding at its source (R145 to R147). -/
structure Outst where
  dst : Nat
  tag : Nat
  e2e : Nat
  vc : Nat
  opcode : Nat
  time : Nat
  cont : Cont
deriving DecidableEq, Repr

/-- Duplicate filter of one source (R148): highest value and the records with their times. -/
structure Filter where
  high : Nat := 0
  seen : List (Nat × Nat) := []
deriving DecidableEq, Repr

/-- The QFL agents and fabric state. -/
structure Fabric where
  links : Tab QflLink := []
  outstanding : List Outst := []
  waiting : List (QflMsg × Cont) := []
  e2e : Tab Nat := []
  nextTag : Nat := 0
  filters : Tab Filter := []
  /-- Flits counted for CRC_CORRUPT, per port. -/
  corrupt : Tab Nat := []
  /-- Discarded responses (R147). -/
  discarded : Nat := 0

  /-- TEST and TEST_RSP messages counted (R547). -/
  tests : Nat := 0
  testReplies : Nat := 0
deriving DecidableEq, Repr

/-- The Rennet's exerciser and responder model (R546, R547). -/
structure Exerciser where
  /-- Memory requests of exerciser lines the responder has not answered: writes or reads, oldest first. -/
  memory : List (Bool × Cont) := []
  /-- Snoops it has not answered: slice, tracker, slot. -/
  snoops : List (Nat × Nat × Nat) := []
  /-- The state a slot holds a line in: slot, line address, 1 SHR, 2 EXC, 3 MOD. -/
  holders : List (Nat × Nat × Nat) := []
deriving DecidableEq, Repr

/-! ### Ladles (R291 to R319) -/

/-- A descriptor (R299). -/
structure Desc where
  opcode : Nat
  fence : Bool := false
  irq : Bool := false
  srcSpace : Nat := 0
  dstSpace : Nat := 0
  atomicOp : Nat := 0
  zeroAfter : Bool := false
  /-- A reserved bit or an unused field of it is not zero. -/
  reserved : Bool := false
  length : Nat := 0
  src : Nat := 0
  dst : Nat := 0
  opA : Nat := 0
  opB : Nat := 0
  tag : Nat := 0
deriving DecidableEq, Repr

/-- A completion record before it is placed in its ring (R309). -/
structure Completion where
  status : Nat
  offset : Nat := 0xffffffff
  detail : Nat := 0xffff
  result : Nat := 0
  tag : Nat := 0
deriving DecidableEq, Repr

/-- A piece under way: index, offset, length, fabric or host addresses of its two sides, line parts still to be read and written,
the bytes read by part, the parts read with poison, and how it failed (status and detail). -/
structure Piece where
  index : Nat
  offset : Nat
  len : Nat
  src : Nat := 0
  dst : Nat := 0
  reads : Nat := 0
  writes : Nat := 0
  data : Tab (List Byte) := []
  data2 : Tab (List Byte) := []
  poisoned : List Nat := []
  fail : Option (Nat × Nat) := none
  mismatch : Option Nat := none
  result : Nat := 0
  /-- Reads are over and the piece has gone on to its writes. -/
  turned : Bool := false
  /-- RULE_EPOCH of its checks. -/
  ruleEpoch : Nat := 0
deriving DecidableEq, Repr

/-- A descriptor in progress (R307, R308). -/
structure Run where
  id : Nat
  pair : Nat
  ladle : Nat
  desc : Desc
  /-- The order of the descriptor in its queue. -/
  order : Nat
  /-- Offset of the next piece to issue and the number issued. -/
  next : Nat := 0
  issued : Nat := 0
  pieces : List Piece := []
  stopped : Bool := false
  /-- Lowest failure: offset, status, detail. -/
  fail : Option (Nat × Nat × Nat) := none
  /-- CRC register and the offset up to which it has taken bytes; piece data waiting for its turn. -/
  crc : Nat := 0
  crcAt : Nat := 0
  crcHold : Tab (List Byte) := []
  mismatch : Option Nat := none
  result : Nat := 0
  /-- No record is written: the instance was force-quiesced (R314). -/
  silent : Bool := false
  done : Bool := false
  purpose : Nat := 0
deriving DecidableEq, Repr

/-- A queue pair (R294, R318). STATE: 0 UNASSIGNED, 1 DISABLED, 2 ENABLED, 3 SUSPENDED, 4 ERROR. -/
structure Pair where
  state : Nat := 0
  fm : Bool := false
  inst : Nat := 0
  localIndex : Nat := 0
  ladle : Nat := 0
  log2Size : Nat := 0
  vector : Nat := 0
  errorCause : Nat := 0
  sqBase : Nat := 0
  cqBase : Nat := 0
  sqHead : Nat := 0
  sqTail : Nat := 0
  cqTail : Nat := 0
  cqHead : Nat := 0
  /-- Records written and not yet freed by CQ_HEAD. -/
  cqUsed : Nat := 0
  phase : Bool := false
  /-- Fetched descriptors not yet started, with their order and purpose; the rings of a fabric-manager pair. -/
  fetched : List (Nat × Desc × Nat) := []
  /-- A ring read is outstanding: its tag and count. -/
  fetching : Option (Nat × Nat) := none
  /-- RULE_EPOCH of that read's check. -/
  fetchEpoch : Nat := 0
  nextOrder : Nat := 0
  /-- Completed descriptors waiting for CQ room. -/
  ready : List (Nat × Completion × Bool) := []
  /-- Doorbells recorded (R297). -/
  doorbells : List (Bool × Nat) := []
  disabling : Bool := false
  /-- A descriptor place is its own: of the turn in which its ring read was issued (R316). -/
  granted : Bool := false
  /-- The cause of an error met while SUSPENDED; the pair enters ERROR when it is ENABLED again (R294, R298). -/
  heldError : Nat := 0
  /-- Writes of its descriptors accepted and neither performed nor discarded (R276). -/
  openWrites : List Nat := []
  /-- Those of them that write completion records (R298). -/
  recordWrites : List Nat := []
  /-- A write of an earlier descriptor was discarded (R277). -/
  lostWrite : Bool := false
deriving DecidableEq, Repr

/-- A LADLE_SUBMIT under way: tag work id, orders still running and records in order of submission. -/
structure Submit where
  id : Nat
  pair : Nat
  orders : List Nat
  records : Tab Completion := []
deriving DecidableEq, Repr

/-- A read of host memory through a port, in an incarnation of the port (R179): for a run's piece and side, or a pair's ring. -/
structure HostRead where
  tag : Nat
  port : Nat
  origin : Origin
  incarnation : Nat := 0
deriving DecidableEq, Repr

/-- The Ladles. -/
structure Ladles where
  pairs : Tab Pair := []
  runs : List Run := []
  submits : List Submit := []
  nextRun : Nat := 1
  /-- Credit values of R340 by Ladle and competitor, and the last pair served by Ladle and competitor (key `128 * Ladle + competitor`;
  competitor 64 is the fabric manager). -/
  credit : Tab (Tab Int) := []
  lastPair : Tab Nat := []
  nextTag : Nat := 0
  /-- Reads of host memory outstanding. -/
  hostReads : List HostRead := []
deriving DecidableEq, Repr


/-! ### Membership -/

/-- The acting primary's copy of a member's tables (R376). -/
structure MemberCopy where
  gate : Gate := {}
  windows : Tab Window := []
  slots : Tab BindSlot := []
  sharers : Tab SharerSlot := []
  /-- Route entries: port, or none when not valid. -/
  routes : Tab Nat := []
deriving DecidableEq, Repr

/-- What a member's heartbeats showed (R387, R392). -/
structure PeerSeen where
  reach : Nat := 0
  /-- A heartbeat arrived in the current period. -/
  heard : Bool := false
  /-- One arrived since OM1. -/
  ever : Bool := false
deriving DecidableEq, Repr

/-- What a frame of the Milold chain carries (R370). -/
inductive ChainBody where
  /-- ENUM with NEXT and TURNS. -/
  | enum (next turns : Nat)
  /-- ENUM_DONE with COUNT, MODE and OVERFLOW. -/
  | enumDone (count mode : Nat) (overflow : Bool)
  /-- BREAK with the reporting device's address. -/
  | breakMark (addr : Nat)
  /-- HEARTBEAT with the word of R387. -/
  | heartbeat (word : Nat)
  /-- SILEK with its payload. -/
  | silek (segment : List Byte)
  /-- FENCED with the sender's epoch. -/
  | fenced (epoch : Nat)
  | ring
deriving DecidableEq, Repr

/-- A frame of the Milold chain (R369). It leaves on MCH_OUT, with REVERSE on MCH_IN (R372). -/
structure ChainFrame where
  bcast : Bool := false
  reverse : Bool := false
  dst : Nat := 0
  src : Nat
  hops : Nat := 0
  epoch : Nat
  body : ChainBody
deriving DecidableEq, Repr

/-- Fabric membership beside its registers (R376 to R402). -/
structure Membership where
  /-- A join or a MEMBER_REJOIN of this device is under way: the acting primary's transfers reach it whatever their epoch (R398). -/
  rejoining : Bool := false
  /-- Stale senders answered with a FENCED notice: address and time of the last (R390). -/
  noticed : Tab Nat := []
  copies : Tab MemberCopy := []
  /-- Head map: expander n at member a, keyed `32 * a + n`: port and logical device (R378). -/
  headMap : Tab (Nat × Nat) := []
  peers : Tab PeerSeen := []
  /-- An epoch advance under way at the primary: members still to reply. -/
  advancing : Option (List Nat) := none
  /-- The parameters it carries, as EPOCH_ADVANCE sends them. -/
  advance : List Byte := []
  /-- The mode a joining or rejoining member will enter: at the member its own, at the primary that of the member it serves. -/
  joinRole : Nat := 0
  /-- The member a join or rejoin at the primary serves: address and step (1 MEMBER_REJOIN sent, 2 epoch advance sent), and whether
  it is a rejoin of the fabric manager's. -/
  joining : Option (Nat × Nat × Bool) := none
  /-- The mode transition under way comes from autostart (cause 10). -/
  autostart : Bool := false
  /-- At the mirror: its last resynchronisation had completed (R394). At the primary: one has completed since it entered OM5 (R379). -/
  synced : Bool := false
  /-- Reach at the entry to OM9 (R581). -/
  fencedReach : Nat := 0
  /-- This device in OM9 was in a manager role (R393). -/
  formerPair : Bool := false
  /-- The directory state is being discarded under R391: dirty data of lines homed elsewhere is lost. -/
  discarding : Bool := false
  /-- Time of the last epoch adopted (R390). -/
  lastAdvance : Nat := 0
  /-- HB_SEQ of the next heartbeat (R387). -/
  hbSeq : Nat := 0
  /-- Periods since a heartbeat of the mirror whose REACH includes the primary (R386). -/
  leaseMiss : Nat := 0
  /-- The mirror removed under R385, whose OM9 the primary waits for. -/
  yokeWait : Option Nat := none
  /-- The replica the mirror holds: tier-1 ways and tier-2 entries, keyed as those (R381). -/
  replica1 : Tab DirEntry := []
  replica2 : Tab DirEntry := []
  /-- Line mode (R372): the ends of its two pairs that are silent, 0 MCH_IN and 1 MCH_OUT. -/
  silent : List Nat := []
  /-- Enumeration (R373): 0 idle, 1 listening in OM2, 2 the head's token is out, 3 an address was taken. -/
  enumState : Nat := 0
  /-- The ENUM held in OM1, and its NEXT and TURNS. -/
  enumHeld : Option (ChainFrame × Nat × Nat) := none
  /-- Chain frames dropped whose CRC failed, and whose TYPE R370 does not list (R370, R371). -/
  crcDrops : Nat := 0
  typeDrops : Nat := 0
deriving DecidableEq, Repr


/-! ### What the block sends -/

/-- Output pins. -/
inductive Pin where
  | perst (p : Nat) | thermAlert | ppsOut | spcGate (ch : Nat) | spcPchg (ch : Nat) | spcPg (ch : Nat) | mchOut
deriving DecidableEq, Repr

/-- Elements of a QFL lane group (R80, R82). -/
inductive QflOut where
  /-- An LCM ordered set on the named transmitter lanes. -/
  | lcm (cmd a0 a1 : Nat) (lanes : List Nat)
  /-- TS1 from now on, on the lanes it names; and TS2 on lanes, `times` sets of it at least. -/
  | ts1 (set : Ts1Set)
  | ts2 (set : Ts2Set) (lanes : List Nat) (times : Nat)
  /-- An SKP ordered set on all lanes. -/
  | skp
  /-- Received codes returned retimed on a lane (R111). -/
  | retimed (lane : Nat) (codes : List (BitVec 10))
  | whey (opcode : Nat) (fields : List Nat)
  | flit (bits : BitVec 1024)
deriving DecidableEq, Repr

/-- A DC extent as a host is told of it: starting DPA, length in bytes, the 16-byte Tag (R174). -/
structure DcExtent where
  dpa : Nat
  length : Nat
  tag : List Byte
  /-- The Shared Extent Sequence, in a sharable region. -/
  sequence : Option Nat
deriving DecidableEq, Repr

/-- CXL messages toward a host. -/
inductive HostMsg where
  | ptmResponse (t : Nat)
  /-- CXL.mem data with the completion: tag, line, poison and copy granted (0 none, 1 Cmp-S, 2 Cmp-E). -/
  | memData (tag : Nat) (data : Line) (poison : Bool) (grant : Nat)
  /-- CXL.mem Cmp without data. -/
  | memCmp (tag grant : Nat)
  /-- A back-invalidate snoop (0 BISnpInv, 1 BISnpData, 2 BISnpCur) of the line at a host physical address. -/
  | biSnp (kind tag hpa : Nat)
  | biConflictAck (tag : Nat)
  /-- A CXL.io completion: status 0 Successful, 1 Unsupported Request, 2 Completer Abort; EP bit. -/
  | ioCompletion (tag status : Nat) (poison : Bool) (bytes : List Byte)
  /-- A memory read of the device's own: a ring read or a Ladle source in host memory. -/
  | read (tag addr len : Nat)
  /-- A posted write, with its EP bit. -/
  | write (addr : Nat) (bytes : List Byte) (ep : Bool)
  | msix (vi vec : Nat)
  /-- Completion of a configuration or register access. -/
  | forwarded (bytes : List Byte)
  /-- A Dynamic Capacity event record: type 0 add, 1 release, 2 forced release. -/
  | dcEvent (vi type : Nat) (list : List DcExtent)
  /-- The reply to Get Dynamic Capacity Extent List. -/
  | dcExtents (vi : Nat) (list : List DcExtent)
  /-- The outcome of a Dynamic Capacity command: accepted, or the error for extents not offered. -/
  | dcResult (vi : Nat) (ok : Bool)
  | decoderCommit (window : Nat) (ok : Bool)
  /-- Presence and data link of a virtual downstream port as its Slot Capability shows them. -/
  | slotPresence (vi port : Nat) (present : Bool)
  /-- The event record of a pair of the instance that entered ERROR: global pair and cause (R298, R428). -/
  | queueError (pair cause : Nat)
  /-- Request credits returned to the host (R332, R343). -/
  | credits (n : Nat)
  /-- An optional feature the partner asked for is declined (R62). -/
  | declined
deriving DecidableEq, Repr

/-- CXL messages toward a device. -/
inductive DeviceMsg where
  | ptmResponse (t : Nat)
  /-- CXL.mem read of a line: tag, logical device, DPA. -/
  | memRd (tag ld dpa : Nat)
  /-- CXL.mem write. -/
  | memWr (ld dpa : Nat) (be : Enables) (data : Line) (poison : Bool)
  /-- HDM decoder 0 of a logical device programmed over its whole capacity (R158). -/
  | hdmProgram (ld units : Nat)
  | functionLevelReset
  /-- A CXL.io completion toward a Type 2 device. -/
  | ioCompletion (tag status : Nat) (poison : Bool) (bytes : List Byte)
  | forwarded (bytes : List Byte)
  /-- An optional feature the partner asked for is declined (R62). -/
  | declined
deriving DecidableEq, Repr

/-- What the block puts out toward the rest of the system, oldest first in `Dev.out`. -/
inductive Out where
  /-- A Silek reply over MCTP: requester, opcode, tag, operating minor, FLAGS, status and payload (R408). -/
  | reply (toward : Requester) (opcode tag minor flags : Nat) (status : Status) (payload : List Byte)
  /-- A Silek command to an MCTP endpoint: opcode, tag, epoch and payload (R429). -/
  | command (eid opcode tag epoch : Nat) (payload : List Byte)
  /-- A message interrupt leaves toward the host port. -/
  | msix (vi vec : Nat)
  | pin (p : Pin) (high : Bool)
  | pmbus (addr mv : Nat)
  /-- Data returned by a register or window read. -/
  | readData (path : AccessPath) (off size value : Nat)
  /-- An access refused under R438. -/
  | completerAbort (path : AccessPath)
  | platformEvent (receiver sensor event : Nat)
  /-- A response of the MCTP, PLDM, FM API or SPDM services: service code and fields. -/
  | service (code : Nat) (fields : List Nat)
  | chain (f : ChainFrame)
  /-- A QFL message or flit on a port. -/
  | qfl (port : Nat) (f : QflOut)
  /-- A CXL message toward a host port. -/
  | host (port : Nat) (m : HostMsg)
  /-- A CXL message toward a device port. -/
  | device (port : Nat) (m : DeviceMsg)
  /-- A lane's PRBS generator runs: lane, pattern, rate in 0.1 GT/s, PAM4 (R109); pattern 0 ends it. -/
  | prbs (lane pattern rate : Nat) (pam4 : Bool)
  /-- An IDCODE or other JTAG result. -/
  | jtag (value : Nat)
deriving DecidableEq, Repr

/-- A hardware error that is present and not yet met: the read or the operation that meets it detects it (log entry 148). -/
inductive Flaw where
  /-- A word of an array of R524, by its code, the slice or port it belongs to, and its number, with its count of wrong bits. -/
  | word (array unit index bits : Nat)
  /-- A result of the atomic ALU of a home slice that its residue refuses (R254). -/
  | homeAlu (slice : Nat)
  /-- A result of the atomic ALU of a memory port agent. -/
  | portAlu (port : Nat)
  /-- A result of the address adders of the decoders. -/
  | adder
  /-- A result of the credit counters of a QFL or a CXL port. -/
  | credit (port : Nat)
deriving DecidableEq, Repr

/-- Everything the spec gives the device beside the waiting commands, the mailbox buffers, the time unit and the key guard. -/
structure Dev where
  /-- Register fields, by field key; an unlisted field holds its reset value. -/
  regs : Tab Nat := []
  /-- Copies A, B and C of triplicated fields, by field key: the bits in which the copy differs from the value that at least two hold
  (R452); `regs` holds that value. -/
  upsetA : Tab Nat := []
  upsetB : Tab Nat := []
  upsetC : Tab Nat := []
  /-- Latches of the four access paths (R442). -/
  latchBar0 : PathLatch := {}
  latchReg : PathLatch := {}
  latchCp : PathLatch := {}
  latchJtag : PathLatch := {}
  silek : Silek := {}
  events : Events := {}
  errors : List ErrorRec := []
  lastCorrected : Tab Nat := []
  /-- Events of ports that rules name for the port monitor and R527 lists no code for, counted beside its pages (log entry 64): key
  `port * 8 + kind`, see `PortEvent`. -/
  portCounts : Tab Nat := []
  /-- Hardware errors present (R194, R254, R524); no command of the table brings one about. -/
  flaws : List Flaw := []
  cxl : Tab CxlPort := []
  banks : Tab Bank := []
  fuses : Fuses := {}
  flash : FlashConfig := {}
  sc : Sc := {}
  power : Tab PowerChannel := []
  rst : ResetLogic := {}
  hbk : Herdbook := {}
  /-- The live record as the flash last took it (R542). -/
  hbkFlash : Option Herdbook := none
  /-- The configuration that CONFIG_SAVE is programming (R431). -/
  flashNext : Option FlashConfig := none
  skim : Skimmer := {}
  jtag : Jtag := {}
  thermal : Thermal := {}
  buf : Buffers := {}
  irq : Irq := {}
  phy : Tab QflPhy := []
  lanes : Tab LaneState := []
  /-- Free values drawn so far (log entry 2). -/
  freeCtr : Nat := 0
  out : List Out := []
  /-- Register fields of the monitor pages, by field key. -/
  monRegs : Tab Nat := []
  /-- Samples a monitor still owes: key `monitor * 8 + counter`, value (events to go, SKID). -/
  monPending : Tab (Nat × Nat) := []
  inst : Tab Inst := []
  memb : Membership := {}
  agents : Agents := {}
  extents : Tab Extent := []
  windows : Tab Window := []
  slots : Tab BindSlot := []
  binder : Binder := {}
  gate : Gate := {}
  chn : Churn := {}
  edge : Edge := {}
  fab : Fabric := {}
  exer : Exerciser := {}
  ladles : Ladles := {}
  /-- Work handed on inside the device; empty between commands. -/
  work : List Task := []
deriving DecidableEq, Repr

/-- The state of the block. -/
structure State where
  /-- Commands waiting, first in first out. -/
  pending : List Instr := []
  /-- The mailbox buffers MB_BUFFER: mailbox m's byte at buffer offset o (0x100 to 0xFFF) is cell 0x1000 m + o (R417). -/
  mem : Memory := []
  time : TimeUnit := {}
  guard : KeyGuard := {}
  dev : Dev := {}
deriving DecidableEq, Repr

/-- The machine right after reset: OM1, every register at its Reset column (R445), nothing queued (log entries 1 and 4). -/
def State.reset : State := {}

end Sys2Proof.Machine
end

