-- ==== Sys2Proof/Machine/Regs.lean ====
section
/-! DEFINITION. Every register field of the spec's register tables: an accessor per field (its address key, width and reset value)
and the word layout of every block page (R437 to R440, R459, R460 and the register tables of the other chapters). -/
namespace Sys2Proof.Machine

/-- SPEED_INDEX, R30. -/
def Glob.SPEED_INDEX : Field := ⟨0x40 * 32 + 0, 16, 0⟩
/-- SLOW_TILE, R30. -/
def Glob.SLOW_TILE : Field := ⟨0x40 * 32 + 16, 6, 0⟩
/-- OVER_LIMIT, R30. -/
def Glob.OVER_LIMIT : Field := ⟨0x40 * 32 + 31, 1, 0⟩
/-- SPEED_FASTEST, R31. -/
def Glob.SPEED_FASTEST : Field := ⟨0x44 * 32 + 0, 16, 0xffff⟩
/-- SPEED_SLOWEST, R31. -/
def Glob.SPEED_SLOWEST : Field := ⟨0x44 * 32 + 16, 16, 0⟩
/-- CURRENT_MODE, R37. -/
def Glob.CURRENT_MODE : Field := ⟨0x30 * 32 + 0, 4, 1⟩
/-- PREVIOUS_MODE, R37. -/
def Glob.PREVIOUS_MODE : Field := ⟨0x30 * 32 + 4, 4, 0⟩
/-- LAST_CAUSE, R37. -/
def Glob.LAST_CAUSE : Field := ⟨0x30 * 32 + 8, 4, 0⟩
/-- ROLE_STRAP, R37. -/
def Glob.ROLE_STRAP : Field := ⟨0x30 * 32 + 12, 2, 0⟩
/-- CHAIN_ADDRESS, R37. -/
def Glob.CHAIN_ADDRESS : Field := ⟨0x30 * 32 + 14, 5, 0⟩
/-- HALTED, R37. -/
def Glob.HALTED : Field := ⟨0x30 * 32 + 19, 1, 0⟩
/-- TRANSITION_BUSY, R37. -/
def Glob.TRANSITION_BUSY : Field := ⟨0x30 * 32 + 20, 1, 0⟩
/-- VARIANT_S, R37. -/
def Glob.VARIANT_S : Field := ⟨0x30 * 32 + 21, 1, 0⟩
/-- BIFURCATION, R48. -/
def Pg.BIFURCATION (g : Nat) : Field := ⟨(0x20000 + 0x1000 * g + 0x0) * 32 + 0, 3, 0⟩
/-- PERSONALITY, R48. -/
def Pg.PERSONALITY (g : Nat) : Field := ⟨(0x20000 + 0x1000 * g + 0x0) * 32 + 4, 2, 0⟩
/-- GANG_PARTNER, R48. -/
def Pg.GANG_PARTNER (g : Nat) : Field := ⟨(0x20000 + 0x1000 * g + 0x0) * 32 + 8, 1, 0⟩
/-- POWERED, R48. -/
def Pg.POWERED (g : Nat) : Field := ⟨(0x20000 + 0x1000 * g + 0x0) * 32 + 9, 1, 0⟩
/-- CXL_MAX_RATE, R48. -/
def Pg.CXL_MAX_RATE (g : Nat) : Field := ⟨(0x20000 + 0x1000 * g + 0x0) * 32 + 16, 4, 6⟩
/-- SRIS, R48. -/
def Pg.SRIS (g : Nat) : Field := ⟨(0x20000 + 0x1000 * g + 0x0) * 32 + 20, 1, 0⟩
/-- DL_UP, R49. -/
def Pg.DL_UP (p : Nat) : Field := ⟨(0x20000 + 0x1000 * (p / 4) + 0x10 + 0x4 * (p % 4)) * 32 + 0, 1, 0⟩
/-- RATE, R49. -/
def Pg.RATE (p : Nat) : Field := ⟨(0x20000 + 0x1000 * (p / 4) + 0x10 + 0x4 * (p % 4)) * 32 + 1, 3, 0⟩
/-- WIDTH, R49. -/
def Pg.WIDTH (p : Nat) : Field := ⟨(0x20000 + 0x1000 * (p / 4) + 0x10 + 0x4 * (p % 4)) * 32 + 4, 5, 0⟩
/-- CXL_GEN, R49. -/
def Pg.CXL_GEN (p : Nat) : Field := ⟨(0x20000 + 0x1000 * (p / 4) + 0x10 + 0x4 * (p % 4)) * 32 + 9, 2, 0⟩
/-- FLIT_256, R49. -/
def Pg.FLIT_256 (p : Nat) : Field := ⟨(0x20000 + 0x1000 * (p / 4) + 0x10 + 0x4 * (p % 4)) * 32 + 11, 1, 0⟩
/-- LATENCY_OPT, R49. -/
def Pg.LATENCY_OPT (p : Nat) : Field := ⟨(0x20000 + 0x1000 * (p / 4) + 0x10 + 0x4 * (p % 4)) * 32 + 12, 1, 0⟩
/-- IDE_STATE, R49. -/
def Pg.IDE_STATE (p : Nat) : Field := ⟨(0x20000 + 0x1000 * (p / 4) + 0x10 + 0x4 * (p % 4)) * 32 + 13, 2, 0⟩
/-- PRESENT, R49. -/
def Pg.PRESENT (p : Nat) : Field := ⟨(0x20000 + 0x1000 * (p / 4) + 0x10 + 0x4 * (p % 4)) * 32 + 15, 1, 0⟩
/-- SETTLING, R49. -/
def Pg.SETTLING (p : Nat) : Field := ⟨(0x20000 + 0x1000 * (p / 4) + 0x10 + 0x4 * (p % 4)) * 32 + 16, 1, 0⟩
/-- LINK_DOWN_EVT, R49. -/
def Pg.LINK_DOWN_EVT (p : Nat) : Field := ⟨(0x20000 + 0x1000 * (p / 4) + 0x10 + 0x4 * (p % 4)) * 32 + 17, 1, 0⟩
/-- REMOVED_EVT, R49. -/
def Pg.REMOVED_EVT (p : Nat) : Field := ⟨(0x20000 + 0x1000 * (p / 4) + 0x10 + 0x4 * (p % 4)) * 32 + 18, 1, 0⟩
/-- TIME_SOURCE, R61. -/
def Tim.TIME_SOURCE : Field := ⟨0x2000 * 32 + 0, 2, 3⟩
/-- PPS_OUT_EN, R61. -/
def Tim.PPS_OUT_EN : Field := ⟨0x2000 * 32 + 2, 1, 1⟩
/-- TIME_STEP_LIMIT, R61. -/
def Tim.TIME_STEP_LIMIT : Field := ⟨0x2000 * 32 + 4, 12, 0x3e8⟩
/-- ACTIVE_SOURCE, R61. -/
def Tim.ACTIVE_SOURCE : Field := ⟨0x2004 * 32 + 0, 2, 0⟩
/-- PPS_VALID, R61. -/
def Tim.PPS_VALID : Field := ⟨0x2004 * 32 + 2, 1, 0⟩
/-- MASTER_REACHABLE, R61. -/
def Tim.MASTER_REACHABLE : Field := ⟨0x2004 * 32 + 3, 1, 0⟩
/-- STEPPED, R61. -/
def Tim.STEPPED : Field := ⟨0x2004 * 32 + 4, 1, 0⟩
/-- RATE_PPB, R61. -/
def Tim.RATE_PPB : Field := ⟨0x2004 * 32 + 16, 16, 0⟩
/-- FABRIC_TIME_LO, R61. -/
def Tim.FABRIC_TIME_LO : Field := ⟨0x2008 * 32 + 0, 32, 0⟩
/-- FABRIC_TIME_HI, R61. -/
def Tim.FABRIC_TIME_HI : Field := ⟨0x200c * 32 + 0, 32, 0⟩
/-- PPS_CAPTURE_LO, R61. -/
def Tim.PPS_CAPTURE_LO : Field := ⟨0x2010 * 32 + 0, 32, 0⟩
/-- PPS_CAPTURE_HI, R61. -/
def Tim.PPS_CAPTURE_HI : Field := ⟨0x2014 * 32 + 0, 32, 0⟩
/-- MIN_WIDTH, R112. -/
def Pg.phy_MIN_WIDTH (p : Nat) : Field := ⟨(0x20000 + 0x1000 * (p / 4) + 0x100 + 0x20 * (p % 4)) * 32 + 0, 3, 0⟩
/-- INIT_PRESET, R112. -/
def Pg.phy_INIT_PRESET (p : Nat) : Field := ⟨(0x20000 + 0x1000 * (p / 4) + 0x100 + 0x20 * (p % 4)) * 32 + 3, 3, 3⟩
/-- EQ_BYPASS, R112. -/
def Pg.phy_EQ_BYPASS (p : Nat) : Field := ⟨(0x20000 + 0x1000 * (p / 4) + 0x100 + 0x20 * (p % 4)) * 32 + 6, 1, 0⟩
/-- PORT_DISABLE, R112. -/
def Pg.phy_PORT_DISABLE (p : Nat) : Field := ⟨(0x20000 + 0x1000 * (p / 4) + 0x100 + 0x20 * (p % 4)) * 32 + 7, 1, 0⟩
/-- RETRAIN, R112. -/
def Pg.phy_RETRAIN (p : Nat) : Field := ⟨(0x20000 + 0x1000 * (p / 4) + 0x100 + 0x20 * (p % 4)) * 32 + 8, 1, 0⟩
/-- FULL_RETRAIN, R112. -/
def Pg.phy_FULL_RETRAIN (p : Nat) : Field := ⟨(0x20000 + 0x1000 * (p / 4) + 0x100 + 0x20 * (p % 4)) * 32 + 9, 1, 0⟩
/-- EYE_MIN, R112. -/
def Pg.phy_EYE_MIN (p : Nat) : Field := ⟨(0x20000 + 0x1000 * (p / 4) + 0x100 + 0x20 * (p % 4)) * 32 + 10, 6, 8⟩
/-- FEATURE_OFFER, R112. -/
def Pg.phy_FEATURE_OFFER (p : Nat) : Field := ⟨(0x20000 + 0x1000 * (p / 4) + 0x100 + 0x20 * (p % 4)) * 32 + 16, 6, 0x3f⟩
/-- LOOPBACK_REQ, R112. -/
def Pg.phy_LOOPBACK_REQ (p : Nat) : Field := ⟨(0x20000 + 0x1000 * (p / 4) + 0x100 + 0x20 * (p % 4)) * 32 + 22, 1, 0⟩
/-- STATE, R112. -/
def Pg.phy_STATE (p : Nat) : Field := ⟨(0x20000 + 0x1000 * (p / 4) + 0x104 + 0x20 * (p % 4)) * 32 + 0, 4, 0⟩
/-- WIDTH_ACTIVE, R112. -/
def Pg.phy_WIDTH_ACTIVE (p : Nat) : Field := ⟨(0x20000 + 0x1000 * (p / 4) + 0x104 + 0x20 * (p % 4)) * 32 + 4, 3, 0⟩
/-- UPPER_WINDOW, R112. -/
def Pg.phy_UPPER_WINDOW (p : Nat) : Field := ⟨(0x20000 + 0x1000 * (p / 4) + 0x104 + 0x20 * (p % 4)) * 32 + 7, 1, 0⟩
/-- REVERSED, R112. -/
def Pg.phy_REVERSED (p : Nat) : Field := ⟨(0x20000 + 0x1000 * (p / 4) + 0x104 + 0x20 * (p % 4)) * 32 + 8, 1, 0⟩
/-- SKEW, R112. -/
def Pg.phy_SKEW (p : Nat) : Field := ⟨(0x20000 + 0x1000 * (p / 4) + 0x104 + 0x20 * (p % 4)) * 32 + 9, 7, 0⟩
/-- LAST_FAIL, R112. -/
def Pg.phy_LAST_FAIL (p : Nat) : Field := ⟨(0x20000 + 0x1000 * (p / 4) + 0x104 + 0x20 * (p % 4)) * 32 + 16, 4, 0⟩
/-- TRAIN_FAIL_EVT, R112. -/
def Pg.phy_TRAIN_FAIL_EVT (p : Nat) : Field := ⟨(0x20000 + 0x1000 * (p / 4) + 0x104 + 0x20 * (p % 4)) * 32 + 20, 1, 0⟩
/-- RECOVERY_EVT, R112. -/
def Pg.phy_RECOVERY_EVT (p : Nat) : Field := ⟨(0x20000 + 0x1000 * (p / 4) + 0x104 + 0x20 * (p % 4)) * 32 + 21, 1, 0⟩
/-- NEW_PARTNER_EVT, R112. -/
def Pg.phy_NEW_PARTNER_EVT (p : Nat) : Field := ⟨(0x20000 + 0x1000 * (p / 4) + 0x104 + 0x20 * (p % 4)) * 32 + 22, 1, 0⟩
/-- VERSION_LOCAL, R112. -/
def Pg.phy_VERSION_LOCAL (p : Nat) : Field := ⟨(0x20000 + 0x1000 * (p / 4) + 0x108 + 0x20 * (p % 4)) * 32 + 0, 4, 2⟩
/-- VERSION_REMOTE, R112. -/
def Pg.phy_VERSION_REMOTE (p : Nat) : Field := ⟨(0x20000 + 0x1000 * (p / 4) + 0x108 + 0x20 * (p % 4)) * 32 + 4, 4, 0⟩
/-- VERSION_OPERATING, R112. -/
def Pg.phy_VERSION_OPERATING (p : Nat) : Field := ⟨(0x20000 + 0x1000 * (p / 4) + 0x108 + 0x20 * (p % 4)) * 32 + 8, 4, 0⟩
/-- FEATURES_ENABLED, R112. -/
def Pg.phy_FEATURES_ENABLED (p : Nat) : Field := ⟨(0x20000 + 0x1000 * (p / 4) + 0x108 + 0x20 * (p % 4)) * 32 + 16, 6, 0⟩
/-- NONCE_LOCAL, R112. -/
def Pg.phy_NONCE_LOCAL (p : Nat) : Field := ⟨(0x20000 + 0x1000 * (p / 4) + 0x10c + 0x20 * (p % 4)) * 32 + 0, 32, 0⟩
/-- NONCE_REMOTE, R112. -/
def Pg.phy_NONCE_REMOTE (p : Nat) : Field := ⟨(0x20000 + 0x1000 * (p / 4) + 0x110 + 0x20 * (p % 4)) * 32 + 0, 32, 0⟩
/-- REMOTE_CHAIN, R112. -/
def Pg.phy_REMOTE_CHAIN (p : Nat) : Field := ⟨(0x20000 + 0x1000 * (p / 4) + 0x114 + 0x20 * (p % 4)) * 32 + 0, 5, 0⟩
/-- REMOTE_PORT, R112. -/
def Pg.phy_REMOTE_PORT (p : Nat) : Field := ⟨(0x20000 + 0x1000 * (p / 4) + 0x114 + 0x20 * (p % 4)) * 32 + 8, 6, 0⟩
/-- LANE_MAP_REMOTE, R112. -/
def Pg.phy_LANE_MAP_REMOTE (p : Nat) : Field := ⟨(0x20000 + 0x1000 * (p / 4) + 0x118 + 0x20 * (p % 4)) * 32 + 0, 32, 0⟩
/-- TRAIN_COUNT, R112. -/
def Pg.phy_TRAIN_COUNT (p : Nat) : Field := ⟨(0x20000 + 0x1000 * (p / 4) + 0x11c + 0x20 * (p % 4)) * 32 + 0, 16, 0⟩
/-- RECOVERY_COUNT, R112. -/
def Pg.phy_RECOVERY_COUNT (p : Nat) : Field := ⟨(0x20000 + 0x1000 * (p / 4) + 0x11c + 0x20 * (p % 4)) * 32 + 16, 16, 0⟩
/-- DETECTED, R113. -/
def Pg.lane_DETECTED (l : Nat) : Field := ⟨(0x20000 + 0x1000 * (l / 16) + 0x400 + 0x20 * (l % 16)) * 32 + 0, 1, 0⟩
/-- BIT_LOCK, R113. -/
def Pg.lane_BIT_LOCK (l : Nat) : Field := ⟨(0x20000 + 0x1000 * (l / 16) + 0x400 + 0x20 * (l % 16)) * 32 + 1, 1, 0⟩
/-- SYMBOL_LOCK, R113. -/
def Pg.lane_SYMBOL_LOCK (l : Nat) : Field := ⟨(0x20000 + 0x1000 * (l / 16) + 0x400 + 0x20 * (l % 16)) * 32 + 2, 1, 0⟩
/-- INVERTED, R113. -/
def Pg.lane_INVERTED (l : Nat) : Field := ⟨(0x20000 + 0x1000 * (l / 16) + 0x400 + 0x20 * (l % 16)) * 32 + 3, 1, 0⟩
/-- IN_USE, R113. -/
def Pg.lane_IN_USE (l : Nat) : Field := ⟨(0x20000 + 0x1000 * (l / 16) + 0x400 + 0x20 * (l % 16)) * 32 + 4, 1, 0⟩
/-- LOGICAL_LANE, R113. -/
def Pg.lane_LOGICAL_LANE (l : Nat) : Field := ⟨(0x20000 + 0x1000 * (l / 16) + 0x400 + 0x20 * (l % 16)) * 32 + 5, 5, 0⟩
/-- EYE, R113. -/
def Pg.lane_EYE (l : Nat) : Field := ⟨(0x20000 + 0x1000 * (l / 16) + 0x400 + 0x20 * (l % 16)) * 32 + 10, 6, 0⟩
/-- TX_PRE, R113. -/
def Pg.lane_TX_PRE (l : Nat) : Field := ⟨(0x20000 + 0x1000 * (l / 16) + 0x404 + 0x20 * (l % 16)) * 32 + 0, 4, 0⟩
/-- TX_POST, R113. -/
def Pg.lane_TX_POST (l : Nat) : Field := ⟨(0x20000 + 0x1000 * (l / 16) + 0x404 + 0x20 * (l % 16)) * 32 + 4, 5, 0⟩
/-- TX_MAIN, R113. -/
def Pg.lane_TX_MAIN (l : Nat) : Field := ⟨(0x20000 + 0x1000 * (l / 16) + 0x404 + 0x20 * (l % 16)) * 32 + 9, 6, 0⟩
/-- EQ_REQUESTS, R113. -/
def Pg.lane_EQ_REQUESTS (l : Nat) : Field := ⟨(0x20000 + 0x1000 * (l / 16) + 0x404 + 0x20 * (l % 16)) * 32 + 15, 8, 0⟩
/-- CODE_VIOLATIONS, R113. -/
def Pg.lane_CODE_VIOLATIONS (l : Nat) : Field := ⟨(0x20000 + 0x1000 * (l / 16) + 0x408 + 0x20 * (l % 16)) * 32 + 0, 16, 0⟩
/-- DISPARITY_ERRORS, R113. -/
def Pg.lane_DISPARITY_ERRORS (l : Nat) : Field := ⟨(0x20000 + 0x1000 * (l / 16) + 0x408 + 0x20 * (l % 16)) * 32 + 16, 16, 0⟩
/-- GEN_PATTERN, R113. -/
def Pg.lane_GEN_PATTERN (l : Nat) : Field := ⟨(0x20000 + 0x1000 * (l / 16) + 0x40c + 0x20 * (l % 16)) * 32 + 0, 2, 0⟩
/-- CHK_PATTERN, R113. -/
def Pg.lane_CHK_PATTERN (l : Nat) : Field := ⟨(0x20000 + 0x1000 * (l / 16) + 0x40c + 0x20 * (l % 16)) * 32 + 2, 2, 0⟩
/-- CLEAR, R113. -/
def Pg.lane_CLEAR (l : Nat) : Field := ⟨(0x20000 + 0x1000 * (l / 16) + 0x40c + 0x20 * (l % 16)) * 32 + 4, 1, 0⟩
/-- INJECT_ERROR, R113. -/
def Pg.lane_INJECT_ERROR (l : Nat) : Field := ⟨(0x20000 + 0x1000 * (l / 16) + 0x40c + 0x20 * (l % 16)) * 32 + 5, 1, 0⟩
/-- CHK_SYNC, R113. -/
def Pg.lane_CHK_SYNC (l : Nat) : Field := ⟨(0x20000 + 0x1000 * (l / 16) + 0x40c + 0x20 * (l % 16)) * 32 + 6, 1, 0⟩
/-- PRBS_BITS_LO, R113. -/
def Pg.lane_PRBS_BITS_LO (l : Nat) : Field := ⟨(0x20000 + 0x1000 * (l / 16) + 0x410 + 0x20 * (l % 16)) * 32 + 0, 32, 0⟩
/-- PRBS_BITS_HI, R113. -/
def Pg.lane_PRBS_BITS_HI (l : Nat) : Field := ⟨(0x20000 + 0x1000 * (l / 16) + 0x414 + 0x20 * (l % 16)) * 32 + 0, 16, 0⟩
/-- PRBS_ERRORS, R113. -/
def Pg.lane_PRBS_ERRORS (l : Nat) : Field := ⟨(0x20000 + 0x1000 * (l / 16) + 0x418 + 0x20 * (l % 16)) * 32 + 0, 32, 0⟩
/-- SYNC_LOSS, R113. -/
def Pg.lane_SYNC_LOSS (l : Nat) : Field := ⟨(0x20000 + 0x1000 * (l / 16) + 0x41c + 0x20 * (l % 16)) * 32 + 0, 16, 0⟩
/-- TWIN_PORT, R154. -/
def Pg.ll_TWIN_PORT (p : Nat) : Field := ⟨(0x20000 + 0x1000 * (p / 4) + 0x200 + 0x40 * (p % 4)) * 32 + 0, 6, 0⟩
/-- TWIN_EN, R154. -/
def Pg.ll_TWIN_EN (p : Nat) : Field := ⟨(0x20000 + 0x1000 * (p / 4) + 0x200 + 0x40 * (p % 4)) * 32 + 6, 1, 0⟩
/-- ENC_REQUIRED, R154. -/
def Pg.ll_ENC_REQUIRED (p : Nat) : Field := ⟨(0x20000 + 0x1000 * (p / 4) + 0x200 + 0x40 * (p % 4)) * 32 + 7, 1, 0⟩
/-- WIDTH_REQ, R154. -/
def Pg.ll_WIDTH_REQ (p : Nat) : Field := ⟨(0x20000 + 0x1000 * (p / 4) + 0x200 + 0x40 * (p % 4)) * 32 + 8, 3, 0⟩
/-- WIDTH_GO, R154. -/
def Pg.ll_WIDTH_GO (p : Nat) : Field := ⟨(0x20000 + 0x1000 * (p / 4) + 0x200 + 0x40 * (p % 4)) * 32 + 11, 1, 0⟩
/-- REPLAY_LIMIT, R154. -/
def Pg.ll_REPLAY_LIMIT (p : Nat) : Field := ⟨(0x20000 + 0x1000 * (p / 4) + 0x200 + 0x40 * (p % 4)) * 32 + 12, 4, 4⟩
/-- ACK_INTERVAL, R154. -/
def Pg.ll_ACK_INTERVAL (p : Nat) : Field := ⟨(0x20000 + 0x1000 * (p / 4) + 0x200 + 0x40 * (p % 4)) * 32 + 16, 8, 0x20⟩
/-- ACK_TIMER, R154. -/
def Pg.ll_ACK_TIMER (p : Nat) : Field := ⟨(0x20000 + 0x1000 * (p / 4) + 0x204 + 0x40 * (p % 4)) * 32 + 0, 8, 0xa⟩
/-- NAK_TIMER, R154. -/
def Pg.ll_NAK_TIMER (p : Nat) : Field := ⟨(0x20000 + 0x1000 * (p / 4) + 0x204 + 0x40 * (p % 4)) * 32 + 8, 8, 0x32⟩
/-- REPLAY_TIMER, R154. -/
def Pg.ll_REPLAY_TIMER (p : Nat) : Field := ⟨(0x20000 + 0x1000 * (p / 4) + 0x204 + 0x40 * (p % 4)) * 32 + 16, 8, 0x14⟩
/-- LINK_HOLD, R154. -/
def Pg.ll_LINK_HOLD (p : Nat) : Field := ⟨(0x20000 + 0x1000 * (p / 4) + 0x204 + 0x40 * (p % 4)) * 32 + 24, 8, 0x32⟩
/-- LL_STATE, R154. -/
def Pg.ll_LL_STATE (p : Nat) : Field := ⟨(0x20000 + 0x1000 * (p / 4) + 0x208 + 0x40 * (p % 4)) * 32 + 0, 2, 0⟩
/-- SELECTIVE, R154. -/
def Pg.ll_SELECTIVE (p : Nat) : Field := ⟨(0x20000 + 0x1000 * (p / 4) + 0x208 + 0x40 * (p % 4)) * 32 + 2, 1, 0⟩
/-- ENCRYPTED, R154. -/
def Pg.ll_ENCRYPTED (p : Nat) : Field := ⟨(0x20000 + 0x1000 * (p / 4) + 0x208 + 0x40 * (p % 4)) * 32 + 3, 1, 0⟩
/-- ROUTED_AWAY, R154. -/
def Pg.ll_ROUTED_AWAY (p : Nat) : Field := ⟨(0x20000 + 0x1000 * (p / 4) + 0x208 + 0x40 * (p % 4)) * 32 + 4, 1, 0⟩
/-- TRAINED_WIDTH, R154. -/
def Pg.ll_TRAINED_WIDTH (p : Nat) : Field := ⟨(0x20000 + 0x1000 * (p / 4) + 0x208 + 0x40 * (p % 4)) * 32 + 5, 3, 0⟩
/-- WIDTH_TARGET, R154. -/
def Pg.ll_WIDTH_TARGET (p : Nat) : Field := ⟨(0x20000 + 0x1000 * (p / 4) + 0x208 + 0x40 * (p % 4)) * 32 + 8, 3, 0⟩
/-- WIDTH_BUSY, R154. -/
def Pg.ll_WIDTH_BUSY (p : Nat) : Field := ⟨(0x20000 + 0x1000 * (p / 4) + 0x208 + 0x40 * (p % 4)) * 32 + 11, 1, 0⟩
/-- LINK_DOWN_EVT, R154. -/
def Pg.ll_LINK_DOWN_EVT (p : Nat) : Field := ⟨(0x20000 + 0x1000 * (p / 4) + 0x208 + 0x40 * (p % 4)) * 32 + 12, 1, 0⟩
/-- REROUTE_EVT, R154. -/
def Pg.ll_REROUTE_EVT (p : Nat) : Field := ⟨(0x20000 + 0x1000 * (p / 4) + 0x208 + 0x40 * (p % 4)) * 32 + 13, 1, 0⟩
/-- WIDTH_DONE_EVT, R154. -/
def Pg.ll_WIDTH_DONE_EVT (p : Nat) : Field := ⟨(0x20000 + 0x1000 * (p / 4) + 0x208 + 0x40 * (p % 4)) * 32 + 14, 1, 0⟩
/-- WIDTH_FAIL_EVT, R154. -/
def Pg.ll_WIDTH_FAIL_EVT (p : Nat) : Field := ⟨(0x20000 + 0x1000 * (p / 4) + 0x208 + 0x40 * (p % 4)) * 32 + 15, 1, 0⟩
/-- WIDTH_WITHDRAWN_EVT, R154. -/
def Pg.ll_WIDTH_WITHDRAWN_EVT (p : Nat) : Field := ⟨(0x20000 + 0x1000 * (p / 4) + 0x208 + 0x40 * (p % 4)) * 32 + 16, 1, 0⟩
/-- ENC_FAIL_EVT, R154. -/
def Pg.ll_ENC_FAIL_EVT (p : Nat) : Field := ⟨(0x20000 + 0x1000 * (p / 4) + 0x208 + 0x40 * (p % 4)) * 32 + 17, 1, 0⟩
/-- RESYNC_EVT, R154. -/
def Pg.ll_RESYNC_EVT (p : Nat) : Field := ⟨(0x20000 + 0x1000 * (p / 4) + 0x208 + 0x40 * (p % 4)) * 32 + 18, 1, 0⟩
/-- NEXT_TX_SEQ, R154. -/
def Pg.ll_NEXT_TX_SEQ (p : Nat) : Field := ⟨(0x20000 + 0x1000 * (p / 4) + 0x20c + 0x40 * (p % 4)) * 32 + 0, 12, 0⟩
/-- UNACKED, R154. -/
def Pg.ll_UNACKED (p : Nat) : Field := ⟨(0x20000 + 0x1000 * (p / 4) + 0x20c + 0x40 * (p % 4)) * 32 + 12, 11, 0⟩
/-- RX_ACK_SEQ, R154. -/
def Pg.ll_RX_ACK_SEQ (p : Nat) : Field := ⟨(0x20000 + 0x1000 * (p / 4) + 0x210 + 0x40 * (p % 4)) * 32 + 0, 12, 0xfff⟩
/-- REORDER_HELD, R154. -/
def Pg.ll_REORDER_HELD (p : Nat) : Field := ⟨(0x20000 + 0x1000 * (p / 4) + 0x210 + 0x40 * (p % 4)) * 32 + 12, 10, 0⟩
/-- RX_SYNCED, R154. -/
def Pg.ll_RX_SYNCED (p : Nat) : Field := ⟨(0x20000 + 0x1000 * (p / 4) + 0x210 + 0x40 * (p % 4)) * 32 + 22, 1, 0⟩
/-- CRC_ERRORS, R154. -/
def Pg.ll_CRC_ERRORS (p : Nat) : Field := ⟨(0x20000 + 0x1000 * (p / 4) + 0x214 + 0x40 * (p % 4)) * 32 + 0, 16, 0⟩
/-- NAKS_SENT, R154. -/
def Pg.ll_NAKS_SENT (p : Nat) : Field := ⟨(0x20000 + 0x1000 * (p / 4) + 0x214 + 0x40 * (p % 4)) * 32 + 16, 16, 0⟩
/-- FLITS_REPLAYED, R154. -/
def Pg.ll_FLITS_REPLAYED (p : Nat) : Field := ⟨(0x20000 + 0x1000 * (p / 4) + 0x218 + 0x40 * (p % 4)) * 32 + 0, 16, 0⟩
/-- WHEY_DROPPED, R154. -/
def Pg.ll_WHEY_DROPPED (p : Nat) : Field := ⟨(0x20000 + 0x1000 * (p / 4) + 0x218 + 0x40 * (p % 4)) * 32 + 16, 16, 0⟩
/-- MALFORMED, R154. -/
def Pg.ll_MALFORMED (p : Nat) : Field := ⟨(0x20000 + 0x1000 * (p / 4) + 0x21c + 0x40 * (p % 4)) * 32 + 0, 16, 0⟩
/-- LINK_DOWNS, R154. -/
def Pg.ll_LINK_DOWNS (p : Nat) : Field := ⟨(0x20000 + 0x1000 * (p / 4) + 0x21c + 0x40 * (p % 4)) * 32 + 16, 16, 0⟩
/-- TX_CREDITS, R154. -/
def Pg.ll_TX_CREDITS (p v : Nat) : Field := ⟨(0x20000 + 0x1000 * (p / 4) + 0x220 + 0x40 * (p % 4) + 4 * v) * 32 + 0, 16, 0⟩
/-- RX_FREE, R154. -/
def Pg.ll_RX_FREE (p v : Nat) : Field := ⟨(0x20000 + 0x1000 * (p / 4) + 0x220 + 0x40 * (p % 4) + 4 * v) * 32 + 16, 16, 0⟩
/-- PORT, R155. -/
def Qfab.PORT (i : Nat) : Field := ⟨(0x3040 + 0x4 * i) * 32 + 0, 6, 0⟩
/-- VALID, R155. -/
def Qfab.VALID (i : Nat) : Field := ⟨(0x3040 + 0x4 * i) * 32 + 6, 1, 0⟩
/-- DUPLICATES, R155. -/
def Qfab.DUPLICATES (i : Nat) : Field := ⟨(0x3080 + 0x4 * i) * 32 + 0, 16, 0⟩
/-- STALE, R155. -/
def Qfab.STALE (i : Nat) : Field := ⟨(0x3080 + 0x4 * i) * 32 + 16, 16, 0⟩
/-- OUTSTANDING, R155. -/
def Qfab.OUTSTANDING (i : Nat) : Field := ⟨(0x30c0 + 0x4 * i) * 32 + 0, 17, 0⟩
/-- TIMEOUTS, R155. -/
def Qfab.TIMEOUTS (i : Nat) : Field := ⟨(0x30c0 + 0x4 * i) * 32 + 17, 15, 0⟩
/-- HOP_LIMIT_DROPS, R155. -/
def Qfab.HOP_LIMIT_DROPS : Field := ⟨0x3100 * 32 + 0, 16, 0⟩
/-- LIFETIME_DROPS, R155. -/
def Qfab.LIFETIME_DROPS : Field := ⟨0x3100 * 32 + 16, 16, 0⟩
/-- LAST_TIME_OFFSET, R155. -/
def Qfab.LAST_TIME_OFFSET : Field := ⟨0x3104 * 32 + 0, 32, 0⟩
/-- BIND_HOST_TIMEOUT, R190. -/
def Ext.BIND_HOST_TIMEOUT : Field := ⟨0x4000 * 32 + 0, 8, 0x32⟩
/-- RELEASE_HOST_TIMEOUT, R190. -/
def Ext.RELEASE_HOST_TIMEOUT : Field := ⟨0x4000 * 32 + 8, 8, 0x32⟩
/-- EXTENT_COUNT, R190. -/
def Ext.EXTENT_COUNT (i : Nat) : Field := ⟨(0x4010 + 0x4 * i) * 32 + 0, 19, 0⟩
/-- DECODE_MISSES, R190. -/
def Ext.DECODE_MISSES : Field := ⟨0x4040 * 32 + 0, 16, 0⟩
/-- STALE_INCARNATION, R190. -/
def Ext.STALE_INCARNATION : Field := ⟨0x4040 * 32 + 16, 16, 0⟩
/-- MIG_SOURCE, R190. -/
def Ext.MIG_SOURCE (i : Nat) : Field := ⟨(0x4100 + 0x8 * i) * 32 + 0, 18, 0⟩
/-- MIG_PHASE, R190. -/
def Ext.MIG_PHASE (i : Nat) : Field := ⟨(0x4100 + 0x8 * i) * 32 + 28, 3, 0⟩
/-- WATERMARK, R190. -/
def Ext.WATERMARK (i : Nat) : Field := ⟨(0x4104 + 0x8 * i) * 32 + 0, 23, 0⟩
/-- SLOT_SETTLE, R191. -/
def Pg.SLOT_SETTLE (p : Nat) : Field := ⟨(0x20000 + 0x1000 * (p / 4) + 0x20 + 0x4 * (p % 4)) * 32 + 0, 13, 0x64⟩
/-- SETTLE_REMAINING, R191. -/
def Pg.SETTLE_REMAINING (p : Nat) : Field := ⟨(0x20000 + 0x1000 * (p / 4) + 0x20 + 0x4 * (p % 4)) * 32 + 16, 13, 0⟩
/-- INCARNATION, R191. -/
def Pg.INCARNATION (p : Nat) : Field := ⟨(0x20000 + 0x1000 * (p / 4) + 0x30 + 0x4 * (p % 4)) * 32 + 0, 16, 0⟩
/-- RECLAIM_BUSY, R191. -/
def Pg.RECLAIM_BUSY (p : Nat) : Field := ⟨(0x20000 + 0x1000 * (p / 4) + 0x30 + 0x4 * (p % 4)) * 32 + 16, 1, 0⟩
/-- ADMIT_HELD, R191. -/
def Pg.ADMIT_HELD (p : Nat) : Field := ⟨(0x20000 + 0x1000 * (p / 4) + 0x30 + 0x4 * (p % 4)) * 32 + 17, 1, 0⟩
/-- BACKOFF_BASE, R229. -/
def ChurnR.BACKOFF_BASE : Field := ⟨0x5000 * 32 + 0, 8, 0x10⟩
/-- BACKOFF_MAX, R229. -/
def ChurnR.BACKOFF_MAX : Field := ⟨0x5000 * 32 + 8, 12, 0x400⟩
/-- TIER2_EN, R229. -/
def ChurnR.TIER2_EN : Field := ⟨0x5000 * 32 + 20, 1, 0⟩
/-- SNOOP_TIMEOUT, R229. -/
def ChurnR.SNOOP_TIMEOUT : Field := ⟨0x5004 * 32 + 0, 8, 4⟩
/-- TICKET_EXPIRY, R229. -/
def ChurnR.TICKET_EXPIRY : Field := ⟨0x5004 * 32 + 8, 8, 0x14⟩
/-- T2_PORT, R229. -/
def ChurnR.T2_PORT : Field := ⟨0x5008 * 32 + 0, 6, 0⟩
/-- T2_LD, R229. -/
def ChurnR.T2_LD : Field := ⟨0x5008 * 32 + 6, 4, 0⟩
/-- T2_DPA_UNIT, R229. -/
def ChurnR.T2_DPA_UNIT : Field := ⟨0x5008 * 32 + 10, 14, 0⟩
/-- T2_UNITS, R229. -/
def ChurnR.T2_UNITS : Field := ⟨0x5008 * 32 + 24, 5, 0⟩
/-- TIER2_ACTIVE, R229. -/
def ChurnR.TIER2_ACTIVE : Field := ⟨0x500c * 32 + 0, 1, 0⟩
/-- TIER2_FAULT, R229. -/
def ChurnR.TIER2_FAULT : Field := ⟨0x500c * 32 + 1, 1, 0⟩
/-- TIER2_LOST_EVT, R229. -/
def ChurnR.TIER2_LOST_EVT : Field := ⟨0x500c * 32 + 2, 1, 0⟩
/-- SWEEP_BUSY, R229. -/
def ChurnR.SWEEP_BUSY : Field := ⟨0x500c * 32 + 3, 1, 0⟩
/-- TIER2_ENTRIES, R229. -/
def ChurnR.TIER2_ENTRIES : Field := ⟨0x5010 * 32 + 0, 29, 0⟩
/-- LOST_IN_TIER1, R229. -/
def ChurnR.LOST_IN_TIER1 : Field := ⟨0x5014 * 32 + 0, 16, 0⟩
/-- TRACKERS_BUSY, R230. -/
def ChurnR.TRACKERS_BUSY (i : Nat) : Field := ⟨(0x5100 + 0x20 * i) * 32 + 0, 10, 0⟩
/-- TICKETS_BUSY, R230. -/
def ChurnR.TICKETS_BUSY (i : Nat) : Field := ⟨(0x5100 + 0x20 * i) * 32 + 10, 9, 0⟩
/-- NAK_LINE_BUSY, R230. -/
def ChurnR.NAK_LINE_BUSY (i : Nat) : Field := ⟨(0x5104 + 0x20 * i) * 32 + 0, 16, 0⟩
/-- NAK_SET_PINNED, R230. -/
def ChurnR.NAK_SET_PINNED (i : Nat) : Field := ⟨(0x5104 + 0x20 * i) * 32 + 16, 16, 0⟩
/-- NAK_NO_TRACKER, R230. -/
def ChurnR.NAK_NO_TRACKER (i : Nat) : Field := ⟨(0x5108 + 0x20 * i) * 32 + 0, 16, 0⟩
/-- TICKETS_ISSUED, R230. -/
def ChurnR.TICKETS_ISSUED (i : Nat) : Field := ⟨(0x5108 + 0x20 * i) * 32 + 16, 16, 0⟩
/-- SPILLS, R230. -/
def ChurnR.SPILLS (i : Nat) : Field := ⟨(0x510c + 0x20 * i) * 32 + 0, 16, 0⟩
/-- TIER2_HITS, R230. -/
def ChurnR.TIER2_HITS (i : Nat) : Field := ⟨(0x510c + 0x20 * i) * 32 + 16, 16, 0⟩
/-- BI_EVICTIONS, R230. -/
def ChurnR.BI_EVICTIONS (i : Nat) : Field := ⟨(0x5110 + 0x20 * i) * 32 + 0, 16, 0⟩
/-- TICKETS_EXPIRED, R230. -/
def ChurnR.TICKETS_EXPIRED (i : Nat) : Field := ⟨(0x5110 + 0x20 * i) * 32 + 16, 16, 0⟩
/-- ECC_CORRECTED, R230. -/
def ChurnR.ECC_CORRECTED (i : Nat) : Field := ⟨(0x5114 + 0x20 * i) * 32 + 0, 16, 0⟩
/-- OWNER_REREQUESTS, R230. -/
def ChurnR.OWNER_REREQUESTS (i : Nat) : Field := ⟨(0x5114 + 0x20 * i) * 32 + 16, 16, 0⟩
/-- DEAD_SLOTS_LO, R257. -/
def ChurnR.DEAD_SLOTS_LO : Field := ⟨0x5018 * 32 + 0, 32, 0⟩
/-- DEAD_SLOTS_HI, R257. -/
def ChurnR.DEAD_SLOTS_HI : Field := ⟨0x501c * 32 + 0, 32, 0⟩
/-- RECLAIM_SCAN, R257. -/
def ChurnR.RECLAIM_SCAN : Field := ⟨0x5020 * 32 + 0, 1, 0⟩
/-- RECLAIM_DONE_EVT, R257. -/
def ChurnR.RECLAIM_DONE_EVT : Field := ⟨0x5020 * 32 + 1, 1, 0⟩
/-- LOST_CREATED, R257. -/
def ChurnR.LOST_CREATED : Field := ⟨0x5024 * 32 + 0, 16, 0⟩
/-- POISON_WRITES, R257. -/
def ChurnR.POISON_WRITES : Field := ⟨0x5024 * 32 + 16, 16, 0⟩
/-- ATOMICS_HOME, R257. -/
def ChurnR.ATOMICS_HOME : Field := ⟨0x5028 * 32 + 0, 16, 0⟩
/-- RESIDUE_HOME, R257. -/
def ChurnR.RESIDUE_HOME : Field := ⟨0x5028 * 32 + 16, 16, 0⟩
/-- PLOST_RECEIVED, R257. -/
def ChurnR.PLOST_RECEIVED : Field := ⟨0x502c * 32 + 0, 16, 0⟩
/-- PEER_DEAD_COMPLETIONS, R257. -/
def ChurnR.PEER_DEAD_COMPLETIONS : Field := ⟨0x502c * 32 + 16, 16, 0⟩
/-- LOCKS_BUSY, R258. -/
def Pg.LOCKS_BUSY (p : Nat) : Field := ⟨(0x20000 + 0x1000 * (p / 4) + 0x40 + 0x4 * (p % 4)) * 32 + 0, 7, 0⟩
/-- ATOMICS_PORT, R258. -/
def Pg.ATOMICS_PORT (p : Nat) : Field := ⟨(0x20000 + 0x1000 * (p / 4) + 0x40 + 0x4 * (p % 4)) * 32 + 16, 16, 0⟩
/-- RESIDUE_PORT, R258. -/
def Pg.RESIDUE_PORT (p : Nat) : Field := ⟨(0x20000 + 0x1000 * (p / 4) + 0x50 + 0x4 * (p % 4)) * 32 + 0, 16, 0⟩
/-- ATOMIC_MISALIGNED, R258. -/
def Pg.ATOMIC_MISALIGNED (p : Nat) : Field := ⟨(0x20000 + 0x1000 * (p / 4) + 0x50 + 0x4 * (p % 4)) * 32 + 16, 16, 0⟩
/-- RESIDUE_DECODE, R259. -/
def Ext.RESIDUE_DECODE : Field := ⟨0x4044 * 32 + 0, 16, 0⟩
/-- POISON_RECORDED, R259. -/
def Ext.POISON_RECORDED : Field := ⟨0x4044 * 32 + 16, 16, 0⟩
/-- DRAIN_TIMEOUT, R289. -/
def Glob.DRAIN_TIMEOUT : Field := ⟨0x50 * 32 + 0, 10, 0x14⟩
/-- TARGET_TIMEOUT, R289. -/
def Glob.TARGET_TIMEOUT : Field := ⟨0x50 * 32 + 10, 8, 0xa⟩
/-- RO_HONOUR, R289. -/
def Glob.RO_HONOUR : Field := ⟨0x50 * 32 + 18, 1, 1⟩
/-- PWRFAIL_HOLD, R289. -/
def Glob.PWRFAIL_HOLD : Field := ⟨0x54 * 32 + 0, 1, 0⟩
/-- LAST_DRAIN_INCOMPLETE, R289. -/
def Glob.LAST_DRAIN_INCOMPLETE : Field := ⟨0x54 * 32 + 1, 1, 0⟩
/-- LAST_DRAIN_DISCARDS, R289. -/
def Glob.LAST_DRAIN_DISCARDS : Field := ⟨0x54 * 32 + 16, 16, 0⟩
/-- GROUP_ENTRIES, R290. -/
def Pg.GROUP_ENTRIES (g : Nat) : Field := ⟨(0x20000 + 0x1000 * g + 0x60) * 32 + 0, 13, 0⟩
/-- GROUP_PEAK, R290. -/
def Pg.GROUP_PEAK (g : Nat) : Field := ⟨(0x20000 + 0x1000 * g + 0x60) * 32 + 16, 13, 0⟩
/-- PORT_LIMIT, R290. -/
def Pg.PORT_LIMIT (p : Nat) : Field := ⟨(0x20000 + 0x1000 * (p / 4) + 0x70 + 0x4 * (p % 4)) * 32 + 0, 13, 0⟩
/-- PORT_ENTRIES, R290. -/
def Pg.PORT_ENTRIES (p : Nat) : Field := ⟨(0x20000 + 0x1000 * (p / 4) + 0x70 + 0x4 * (p % 4)) * 32 + 16, 13, 0⟩
/-- DISCARDS_LOST, R290. -/
def Pg.DISCARDS_LOST (p : Nat) : Field := ⟨(0x20000 + 0x1000 * (p / 4) + 0x80 + 0x4 * (p % 4)) * 32 + 0, 16, 0⟩
/-- READ_WAITS, R290. -/
def Pg.READ_WAITS (p : Nat) : Field := ⟨(0x20000 + 0x1000 * (p / 4) + 0x80 + 0x4 * (p % 4)) * 32 + 16, 16, 0⟩
/-- ZERO_QUEUE, R319. -/
def LadleR.ZERO_QUEUE : Field := ⟨0x6000 * 32 + 0, 13, 0⟩
/-- DOORBELLS_IGNORED, R319. -/
def LadleR.DOORBELLS_IGNORED : Field := ⟨0x6004 * 32 + 0, 16, 0⟩
/-- QUEUE_ERRORS, R319. -/
def LadleR.QUEUE_ERRORS : Field := ⟨0x6004 * 32 + 16, 16, 0⟩
/-- PAIRS_ENABLED, R319. -/
def LadleR.PAIRS_ENABLED : Field := ⟨0x6008 * 32 + 0, 14, 0⟩
/-- ACTIVE, R319. -/
def LadleR.ACTIVE (i : Nat) : Field := ⟨(0x6100 + 0x10 * i) * 32 + 0, 4, 0⟩
/-- IN_FLIGHT, R319. -/
def LadleR.IN_FLIGHT (i : Nat) : Field := ⟨(0x6100 + 0x10 * i) * 32 + 4, 6, 0⟩
/-- GATED, R319. -/
def LadleR.GATED (i : Nat) : Field := ⟨(0x6100 + 0x10 * i) * 32 + 10, 1, 0⟩
/-- DESCRIPTORS_DONE, R319. -/
def LadleR.DESCRIPTORS_DONE (i : Nat) : Field := ⟨(0x6104 + 0x10 * i) * 32 + 0, 32, 0⟩
/-- ERROR_COMPLETIONS, R319. -/
def LadleR.ERROR_COMPLETIONS (i : Nat) : Field := ⟨(0x6108 + 0x10 * i) * 32 + 0, 16, 0⟩
/-- NAK_RETRIES, R319. -/
def LadleR.NAK_RETRIES (i : Nat) : Field := ⟨(0x6108 + 0x10 * i) * 32 + 16, 16, 0⟩
/-- PIECES_DONE, R319. -/
def LadleR.PIECES_DONE (i : Nat) : Field := ⟨(0x610c + 0x10 * i) * 32 + 0, 32, 0⟩
/-- INSTANCE, R346. -/
def Vi.INSTANCE (n : Nat) : Field := ⟨(0x4000000 + 0x100000 * n + 0x0) * 32 + 0, 6, 0⟩
/-- CHAIN, R346. -/
def Vi.CHAIN (n : Nat) : Field := ⟨(0x4000000 + 0x100000 * n + 0x0) * 32 + 6, 5, 0⟩
/-- DUAL_PORT, R346. -/
def Vi.DUAL_PORT (n : Nat) : Field := ⟨(0x4000000 + 0x100000 * n + 0x0) * 32 + 11, 1, 0⟩
/-- MSIX_COUNT, R346. -/
def Vi.MSIX_COUNT (n : Nat) : Field := ⟨(0x4000000 + 0x100000 * n + 0x0) * 32 + 12, 12, 0⟩
/-- STATE, R346. -/
def Vi.STATE (n : Nat) : Field := ⟨(0x4000000 + 0x100000 * n + 0x4) * 32 + 0, 3, 0⟩
/-- LAST_RESET, R346. -/
def Vi.LAST_RESET (n : Nat) : Field := ⟨(0x4000000 + 0x100000 * n + 0x4) * 32 + 3, 4, 0⟩
/-- RESET_EVT, R346. -/
def Vi.RESET_EVT (n : Nat) : Field := ⟨(0x4000000 + 0x100000 * n + 0x4) * 32 + 7, 1, 0⟩
/-- FABRIC_TIME_LO, R346. -/
def Vi.FABRIC_TIME_LO (n : Nat) : Field := ⟨(0x4000000 + 0x100000 * n + 0x8) * 32 + 0, 32, 0⟩
/-- FABRIC_TIME_HI, R346. -/
def Vi.FABRIC_TIME_HI (n : Nat) : Field := ⟨(0x4000000 + 0x100000 * n + 0xc) * 32 + 0, 32, 0⟩
/-- ATOMIC_HPA, R346. -/
def Vi.ATOMIC_HPA (n : Nat) : Field := ⟨(0x4000000 + 0x100000 * n + 0x10) * 32 + 0, 16, 0⟩
/-- ATOMIC_EN, R346. -/
def Vi.ATOMIC_EN (n : Nat) : Field := ⟨(0x4000000 + 0x100000 * n + 0x10) * 32 + 16, 1, 0⟩
/-- QUEUE_ALLOC, R346. -/
def Vi.QUEUE_ALLOC (n : Nat) : Field := ⟨(0x4000000 + 0x100000 * n + 0x14) * 32 + 0, 11, 0⟩
/-- REQ_QUEUE_LIMIT, R346. -/
def Vi.REQ_QUEUE_LIMIT (n : Nat) : Field := ⟨(0x4000000 + 0x100000 * n + 0x18) * 32 + 0, 12, 0⟩
/-- REQ_QUEUE_USED, R346. -/
def Vi.REQ_QUEUE_USED (n : Nat) : Field := ⟨(0x4000000 + 0x100000 * n + 0x18) * 32 + 12, 12, 0⟩
/-- COUNT_THRESH, R347. -/
def Vi.COUNT_THRESH (n v : Nat) : Field := ⟨(0x4000000 + 0x100000 * n + 0x4000 + 8 * v) * 32 + 0, 8, 0⟩
/-- TIMER, R347. -/
def Vi.TIMER (n v : Nat) : Field := ⟨(0x4000000 + 0x100000 * n + 0x4000 + 8 * v) * 32 + 8, 10, 0⟩
/-- PENDING_EVENTS, R347. -/
def Vi.PENDING_EVENTS (n v : Nat) : Field := ⟨(0x4000000 + 0x100000 * n + 0x4004 + 8 * v) * 32 + 0, 8, 0⟩
/-- FABRIC_TRACKER_MIN, R348. -/
def InstR.FABRIC_TRACKER_MIN : Field := ⟨0x7000 * 32 + 0, 9, 0x20⟩
/-- FABRIC_TRACKER_MAX, R348. -/
def InstR.FABRIC_TRACKER_MAX : Field := ⟨0x7000 * 32 + 9, 9, 0x1e0⟩
/-- FABRIC_WEIGHT, R348. -/
def InstR.FABRIC_WEIGHT : Field := ⟨0x7000 * 32 + 18, 8, 0x10⟩
/-- MSIX_FREE, R348. -/
def InstR.MSIX_FREE : Field := ⟨0x7004 * 32 + 0, 16, 0x8000⟩
/-- MSIX_LARGEST_RUN, R348. -/
def InstR.MSIX_LARGEST_RUN : Field := ⟨0x7004 * 32 + 16, 16, 0x8000⟩
/-- REQ_POOL_FREE, R348. -/
def InstR.REQ_POOL_FREE : Field := ⟨0x7008 * 32 + 0, 16, 0x8000⟩
/-- TRACKER_MIN_SUM, R348. -/
def InstR.TRACKER_MIN_SUM : Field := ⟨0x7008 * 32 + 16, 9, 0x20⟩
/-- FORCED_QUIESCES, R348. -/
def InstR.FORCED_QUIESCES : Field := ⟨0x700c * 32 + 0, 16, 0⟩
/-- INSTANCE_RESETS, R348. -/
def InstR.INSTANCE_RESETS : Field := ⟨0x700c * 32 + 16, 16, 0⟩
/-- REPORT_LIMIT, R367. -/
def GateR.REPORT_LIMIT : Field := ⟨0x8000 * 32 + 0, 8, 0x40⟩
/-- RULE_EPOCH, R367. -/
def GateR.RULE_EPOCH : Field := ⟨0x8004 * 32 + 0, 32, 0⟩
/-- COMMIT_BUSY, R367. -/
def GateR.COMMIT_BUSY : Field := ⟨0x8008 * 32 + 0, 1, 0⟩
/-- STAGING_DIRTY, R367. -/
def GateR.STAGING_DIRTY : Field := ⟨0x8008 * 32 + 1, 1, 0⟩
/-- RULE_ECC_EVT, R367. -/
def GateR.RULE_ECC_EVT : Field := ⟨0x8008 * 32 + 2, 1, 0⟩
/-- IN_FLIGHT_OLD, R367. -/
def GateR.IN_FLIGHT_OLD : Field := ⟨0x800c * 32 + 0, 32, 0⟩
/-- DENIALS, R367. -/
def GateR.DENIALS : Field := ⟨0x8010 * 32 + 0, 32, 0⟩
/-- REPORTS_SUPPRESSED, R367. -/
def GateR.REPORTS_SUPPRESSED : Field := ⟨0x8014 * 32 + 0, 16, 0⟩
/-- DEFAULT_DENIALS, R367. -/
def GateR.DEFAULT_DENIALS : Field := ⟨0x8014 * 32 + 16, 16, 0⟩
/-- HB_MISS_LIMIT, R405. -/
def Memb.HB_MISS_LIMIT : Field := ⟨0x9000 * 32 + 0, 7, 8⟩
/-- YOKE_TIMEOUT, R405. -/
def Memb.YOKE_TIMEOUT : Field := ⟨0x9000 * 32 + 7, 8, 0x14⟩
/-- ENUM_TIMEOUT, R405. -/
def Memb.ENUM_TIMEOUT : Field := ⟨0x9000 * 32 + 15, 8, 0x1e⟩
/-- YOKE_PORT, R405. -/
def Memb.YOKE_PORT : Field := ⟨0x9000 * 32 + 23, 6, 0⟩
/-- YOKE_EN, R405. -/
def Memb.YOKE_EN : Field := ⟨0x9000 * 32 + 29, 1, 0⟩
/-- CHAIN_MODE, R405. -/
def Memb.CHAIN_MODE : Field := ⟨0x9004 * 32 + 0, 2, 0⟩
/-- CHAIN_COUNT, R405. -/
def Memb.CHAIN_COUNT : Field := ⟨0x9004 * 32 + 2, 5, 0⟩
/-- HEAD, R405. -/
def Memb.HEAD : Field := ⟨0x9004 * 32 + 7, 1, 0⟩
/-- HEAD_CONFLICT, R405. -/
def Memb.HEAD_CONFLICT : Field := ⟨0x9004 * 32 + 8, 1, 0⟩
/-- OVERFLOW, R405. -/
def Memb.OVERFLOW : Field := ⟨0x9004 * 32 + 9, 1, 0⟩
/-- IN_LOS, R405. -/
def Memb.IN_LOS : Field := ⟨0x9004 * 32 + 10, 1, 0⟩
/-- LINE_END, R405. -/
def Memb.LINE_END : Field := ⟨0x9004 * 32 + 11, 1, 0⟩
/-- BREAK_EVT, R405. -/
def Memb.BREAK_EVT : Field := ⟨0x9004 * 32 + 12, 1, 0⟩
/-- BREAK_AT, R405. -/
def Memb.BREAK_AT : Field := ⟨0x9004 * 32 + 13, 5, 0⟩
/-- EPOCH, R405. -/
def Memb.EPOCH : Field := ⟨0x9008 * 32 + 0, 32, 0⟩
/-- CONFIGURED, R405. -/
def Memb.CONFIGURED : Field := ⟨0x900c * 32 + 0, 16, 0⟩
/-- ALIVE, R405. -/
def Memb.ALIVE : Field := ⟨0x900c * 32 + 16, 16, 0⟩
/-- PRIMARY_ADDR, R405. -/
def Memb.PRIMARY_ADDR : Field := ⟨0x9010 * 32 + 0, 5, 0⟩
/-- MIRROR_ADDR, R405. -/
def Memb.MIRROR_ADDR : Field := ⟨0x9010 * 32 + 5, 5, 0⟩
/-- PAIR_ADDR, R405. -/
def Memb.PAIR_ADDR : Field := ⟨0x9010 * 32 + 10, 5, 0⟩
/-- PAIR_LEASE, R405. -/
def Memb.PAIR_LEASE : Field := ⟨0x9010 * 32 + 15, 1, 0⟩
/-- ACTING, R405. -/
def Memb.ACTING : Field := ⟨0x9010 * 32 + 16, 1, 0⟩
/-- RESYNC_PHASE, R405. -/
def Memb.RESYNC_PHASE : Field := ⟨0x9014 * 32 + 0, 3, 0⟩
/-- RESYNC_COPIED, R405. -/
def Memb.RESYNC_COPIED : Field := ⟨0x9014 * 32 + 3, 22, 0⟩
/-- RESYNC_ABANDONED_EVT, R405. -/
def Memb.RESYNC_ABANDONED_EVT : Field := ⟨0x9014 * 32 + 25, 1, 0⟩
/-- REPLICA_PORT, R405. -/
def Memb.REPLICA_PORT : Field := ⟨0x9018 * 32 + 0, 6, 0⟩
/-- REPLICA_LD, R405. -/
def Memb.REPLICA_LD : Field := ⟨0x9018 * 32 + 6, 4, 0⟩
/-- REPLICA_DPA_UNIT, R405. -/
def Memb.REPLICA_DPA_UNIT : Field := ⟨0x9018 * 32 + 10, 14, 0⟩
/-- REPLICA_UNITS, R405. -/
def Memb.REPLICA_UNITS : Field := ⟨0x9018 * 32 + 24, 5, 0⟩
/-- STALE_DROPS, R405. -/
def Memb.STALE_DROPS : Field := ⟨0x901c * 32 + 0, 16, 0⟩
/-- FENCED_SENT, R405. -/
def Memb.FENCED_SENT : Field := ⟨0x901c * 32 + 16, 16, 0⟩
/-- MIRROR_WRITES, R405. -/
def Memb.MIRROR_WRITES : Field := ⟨0x9020 * 32 + 0, 32, 0⟩
/-- NEWER_EPOCH_DROPS, R405. -/
def Memb.NEWER_EPOCH_DROPS : Field := ⟨0x9024 * 32 + 0, 16, 0⟩
/-- DEATHS_DECLARED, R405. -/
def Memb.DEATHS_DECLARED : Field := ⟨0x9024 * 32 + 16, 16, 0⟩
/-- MISSED, R406. -/
def Memb.peer_MISSED (i : Nat) : Field := ⟨(0x9040 + 0x4 * i) * 32 + 0, 7, 0⟩
/-- MODE_SEEN, R406. -/
def Memb.peer_MODE_SEEN (i : Nat) : Field := ⟨(0x9040 + 0x4 * i) * 32 + 7, 4, 0⟩
/-- HEARTBEATS, R406. -/
def Memb.peer_HEARTBEATS (i : Nat) : Field := ⟨(0x9040 + 0x4 * i) * 32 + 16, 16, 0⟩
/-- DOORBELL, R417. -/
def Mbx.DOORBELL (m : Nat) : Field := ⟨(Mailbox.base m + 0x0) * 32 + 0, 1, 0⟩
/-- BUSY, R417. -/
def Mbx.BUSY (m : Nat) : Field := ⟨(Mailbox.base m + 0x4) * 32 + 0, 1, 0⟩
/-- REPLY_READY, R417. -/
def Mbx.REPLY_READY (m : Nat) : Field := ⟨(Mailbox.base m + 0x4) * 32 + 1, 1, 0⟩
/-- BG_DONE, R417. -/
def Mbx.BG_DONE (m : Nat) : Field := ⟨(Mailbox.base m + 0x4) * 32 + 2, 1, 0⟩
/-- EVENT_PENDING, R417. -/
def Mbx.EVENT_PENDING (m : Nat) : Field := ⟨(Mailbox.base m + 0x4) * 32 + 3, 1, 0⟩
/-- BG_COUNT, R417. -/
def Mbx.BG_COUNT (m : Nat) : Field := ⟨(Mailbox.base m + 0x4) * 32 + 4, 4, 0⟩
/-- VECTOR, R417. -/
def Mbx.VECTOR (m : Nat) : Field := ⟨(Mailbox.base m + 0x8) * 32 + 0, 11, 0⟩
/-- REPLY_IRQ_EN, R417. -/
def Mbx.REPLY_IRQ_EN (m : Nat) : Field := ⟨(Mailbox.base m + 0x8) * 32 + 11, 1, 0⟩
/-- BG_IRQ_EN, R417. -/
def Mbx.BG_IRQ_EN (m : Nat) : Field := ⟨(Mailbox.base m + 0x8) * 32 + 12, 1, 0⟩
/-- EVENT_IRQ_EN, R417. -/
def Mbx.EVENT_IRQ_EN (m : Nat) : Field := ⟨(Mailbox.base m + 0x8) * 32 + 13, 1, 0⟩
/-- WRITES_IGNORED, R417. -/
def Mbx.WRITES_IGNORED (m : Nat) : Field := ⟨(Mailbox.base m + 0xc) * 32 + 0, 16, 0⟩
/-- DIR_SLICE, R458. -/
def ChurnR.DIR_SLICE : Field := ⟨0x5030 * 32 + 0, 5, 0⟩
/-- SCRATCH, R459. -/
def Glob.SCRATCH : Field := ⟨0x0 * 32 + 0, 32, 0⟩
/-- MGMT_INSTANCE, R459. -/
def Glob.MGMT_INSTANCE : Field := ⟨0x4 * 32 + 0, 6, 0⟩
/-- MGMT_VALID, R459. -/
def Glob.MGMT_VALID : Field := ⟨0x4 * 32 + 6, 1, 0⟩
/-- UNLOCKED, R459. -/
def Glob.UNLOCKED : Field := ⟨0x10 * 32 + 0, 1, 0⟩
/-- LOCKED_OUT, R459. -/
def Glob.LOCKED_OUT : Field := ⟨0x10 * 32 + 1, 1, 0⟩
/-- WRONG_RUN, R459. -/
def Glob.WRONG_RUN : Field := ⟨0x10 * 32 + 2, 4, 0⟩
/-- LOCKOUT_EVT, R459. -/
def Glob.LOCKOUT_EVT : Field := ⟨0x10 * 32 + 6, 1, 0⟩
/-- WRONG_KEYS, R459. -/
def Glob.WRONG_KEYS : Field := ⟨0x10 * 32 + 16, 16, 0⟩
/-- SCRUBS, R459. -/
def Glob.SCRUBS : Field := ⟨0x20 * 32 + 0, 16, 0⟩
/-- TRIPLE_EVT, R459. -/
def Glob.TRIPLE_EVT : Field := ⟨0x20 * 32 + 16, 1, 0⟩
/-- LAST_OFFSET, R459. -/
def Glob.LAST_OFFSET : Field := ⟨0x24 * 32 + 0, 20, 0⟩
/-- LAST_BIT, R459. -/
def Glob.LAST_BIT : Field := ⟨0x24 * 32 + 20, 5, 0⟩
/-- KEY_REJECTS, R459. -/
def Glob.KEY_REJECTS : Field := ⟨0x60 * 32 + 0, 16, 0⟩
/-- ARRAY_WRITES_IGNORED, R459. -/
def Glob.ARRAY_WRITES_IGNORED : Field := ⟨0x60 * 32 + 16, 16, 0⟩
/-- BAD_ACCESSES, R459. -/
def Glob.BAD_ACCESSES : Field := ⟨0x64 * 32 + 0, 16, 0⟩
/-- CSR_KEY, R459. -/
def Glob.CSR_KEY : Field := ⟨0xff0 * 32 + 0, 32, 0⟩
/-- PART_CODE, R460. -/
def Ident.PART_CODE : Field := ⟨0x1000 * 32 + 0, 16, 0x964⟩
/-- STEPPING, R460. -/
def Ident.STEPPING : Field := ⟨0x1000 * 32 + 16, 8, 0⟩
/-- CERT_FUSE, R460. -/
def Ident.CERT_FUSE : Field := ⟨0x1004 * 32 + 0, 1, 0⟩
/-- RENNET_PRESENT, R460. -/
def Ident.RENNET_PRESENT : Field := ⟨0x1004 * 32 + 1, 1, 0⟩
/-- DEBUG_LOCKED, R460. -/
def Ident.DEBUG_LOCKED : Field := ⟨0x1004 * 32 + 2, 1, 0⟩
/-- ENTERPRISE, R460. -/
def Ident.ENTERPRISE : Field := ⟨0x1008 * 32 + 0, 32, 0x1f3a9⟩
/-- FW_BUILD, R460. -/
def Ident.FW_BUILD : Field := ⟨0x1010 * 32 + 0, 8, 0⟩
/-- FW_PATCH, R460. -/
def Ident.FW_PATCH : Field := ⟨0x1010 * 32 + 8, 8, 0⟩
/-- FW_MINOR, R460. -/
def Ident.FW_MINOR : Field := ⟨0x1010 * 32 + 16, 8, 0⟩
/-- FW_MAJOR, R460. -/
def Ident.FW_MAJOR : Field := ⟨0x1010 * 32 + 24, 8, 0⟩
/-- FW_INTERFACE, R460. -/
def Ident.FW_INTERFACE : Field := ⟨0x1014 * 32 + 0, 16, 0⟩
/-- ACTIVE_BANK, R460. -/
def Ident.ACTIVE_BANK : Field := ⟨0x1014 * 32 + 16, 1, 0⟩
/-- SILEK_MAJOR, R460. -/
def Ident.SILEK_MAJOR : Field := ⟨0x1018 * 32 + 0, 8, 2⟩
/-- SILEK_MINOR, R460. -/
def Ident.SILEK_MINOR : Field := ⟨0x1018 * 32 + 8, 8, 3⟩
/-- QFL_VERSION, R460. -/
def Ident.QFL_VERSION : Field := ⟨0x1018 * 32 + 16, 4, 2⟩
/-- SERIAL_LO, R460. -/
def Ident.SERIAL_LO : Field := ⟨0x1020 * 32 + 0, 32, 0⟩
/-- SERIAL_HI, R460. -/
def Ident.SERIAL_HI : Field := ⟨0x1024 * 32 + 0, 32, 0⟩
/-- SC_STATE, R488. -/
def ScR.SC_STATE : Field := ⟨0xc000 * 32 + 0, 2, 0⟩
/-- KAT_PASS, R488. -/
def ScR.KAT_PASS : Field := ⟨0xc000 * 32 + 2, 1, 0⟩
/-- DRBG_OK, R488. -/
def ScR.DRBG_OK : Field := ⟨0xc000 * 32 + 3, 1, 0⟩
/-- ZEROIZED_LAST, R488. -/
def ScR.ZEROIZED_LAST : Field := ⟨0xc000 * 32 + 4, 1, 0⟩
/-- DEBUG_ACTIVE, R488. -/
def ScR.DEBUG_ACTIVE : Field := ⟨0xc000 * 32 + 5, 1, 0⟩
/-- SEC_EVT, R488. -/
def ScR.SEC_EVT : Field := ⟨0xc000 * 32 + 6, 1, 0⟩
/-- DEBUG_HISTORY, R488. -/
def ScR.DEBUG_HISTORY : Field := ⟨0xc000 * 32 + 7, 1, 0⟩
/-- LAST_EVENT, R488. -/
def ScR.LAST_EVENT : Field := ⟨0xc000 * 32 + 8, 8, 0⟩
/-- SESSIONS, R488. -/
def ScR.SESSIONS : Field := ⟨0xc000 * 32 + 16, 7, 0⟩
/-- REVOKED, R488. -/
def ScR.REVOKED : Field := ⟨0xc004 * 32 + 0, 4, 0⟩
/-- ACTIVE_SLOT, R488. -/
def ScR.ACTIVE_SLOT : Field := ⟨0xc004 * 32 + 4, 2, 0⟩
/-- SVN_FUSED, R488. -/
def ScR.SVN_FUSED : Field := ⟨0xc004 * 32 + 6, 7, 0⟩
/-- IF_MIN, R488. -/
def ScR.IF_MIN : Field := ⟨0xc004 * 32 + 13, 6, 0⟩
/-- COMMIT_PENDING, R488. -/
def ScR.COMMIT_PENDING : Field := ⟨0xc004 * 32 + 19, 1, 0⟩
/-- BANK_STATE, R488. -/
def ScR.BANK_STATE (i : Nat) : Field := ⟨(0xc008 + 0x4 * i) * 32 + 0, 2, 0⟩
/-- ACTIVATED, R488. -/
def ScR.ACTIVATED (i : Nat) : Field := ⟨(0xc008 + 0x4 * i) * 32 + 2, 1, 0⟩
/-- RUNNING, R488. -/
def ScR.RUNNING (i : Nat) : Field := ⟨(0xc008 + 0x4 * i) * 32 + 3, 1, 0⟩
/-- BANK_SVN, R488. -/
def ScR.BANK_SVN (i : Nat) : Field := ⟨(0xc008 + 0x4 * i) * 32 + 4, 7, 0⟩
/-- BANK_INTERFACE, R488. -/
def ScR.BANK_INTERFACE (i : Nat) : Field := ⟨(0xc008 + 0x4 * i) * 32 + 11, 16, 0⟩
/-- UPDATE_BUSY, R488. -/
def ScR.UPDATE_BUSY : Field := ⟨0xc010 * 32 + 0, 1, 0⟩
/-- UPDATE_PLDM, R488. -/
def ScR.UPDATE_PLDM : Field := ⟨0xc010 * 32 + 1, 1, 0⟩
/-- BYTES_WRITTEN, R488. -/
def ScR.BYTES_WRITTEN : Field := ⟨0xc010 * 32 + 2, 25, 0⟩
/-- AUTH_FAILS, R488. -/
def ScR.AUTH_FAILS : Field := ⟨0xc014 * 32 + 0, 16, 0⟩
/-- BANK_REJECTS, R488. -/
def ScR.BANK_REJECTS : Field := ⟨0xc014 * 32 + 16, 16, 0⟩
/-- SESSIONS_OPENED, R488. -/
def ScR.SESSIONS_OPENED : Field := ⟨0xc018 * 32 + 0, 16, 0⟩
/-- KEY_UPDATES, R488. -/
def ScR.KEY_UPDATES : Field := ⟨0xc018 * 32 + 16, 16, 0⟩
/-- SPEED_TARGET, R512. -/
def Glob.SPEED_TARGET : Field := ⟨0x70 * 32 + 0, 11, 0x341⟩
/-- VCORE_MIN, R512. -/
def Glob.VCORE_MIN : Field := ⟨0x70 * 32 + 11, 8, 0x8c⟩
/-- VCORE_MAX, R512. -/
def Glob.VCORE_MAX : Field := ⟨0x70 * 32 + 19, 8, 0xb4⟩
/-- AVS_EN, R512. -/
def Glob.AVS_EN : Field := ⟨0x70 * 32 + 27, 1, 1⟩
/-- LOWER_MARGIN, R512. -/
def Glob.LOWER_MARGIN : Field := ⟨0x70 * 32 + 28, 4, 3⟩
/-- VCORE_SET, R512. -/
def Glob.VCORE_SET : Field := ⟨0x74 * 32 + 0, 10, 0x320⟩
/-- VCORE_MEASURED, R512. -/
def Glob.VCORE_MEASURED : Field := ⟨0x74 * 32 + 10, 10, 0⟩
/-- AT_MAX, R512. -/
def Glob.AT_MAX : Field := ⟨0x74 * 32 + 20, 1, 0⟩
/-- PMBUS_FAULT, R512. -/
def Glob.PMBUS_FAULT : Field := ⟨0x74 * 32 + 21, 1, 0⟩
/-- CAUSE, R512. -/
def Glob.CAUSE : Field := ⟨0x78 * 32 + 0, 4, 0⟩
/-- RAIL, R512. -/
def Glob.RAIL : Field := ⟨0x78 * 32 + 4, 4, 0⟩
/-- WARM_COUNT, R512. -/
def Glob.WARM_COUNT : Field := ⟨0x78 * 32 + 16, 16, 0⟩
/-- WDT_TIMEOUT, R512. -/
def Glob.WDT_TIMEOUT : Field := ⟨0x7c * 32 + 0, 8, 0x64⟩
/-- WDT_EXPIRED_EVT, R512. -/
def Glob.WDT_EXPIRED_EVT : Field := ⟨0x7c * 32 + 8, 1, 0⟩
/-- PMBUS_ADDR, R512. -/
def Glob.PMBUS_ADDR : Field := ⟨0x80 * 32 + 0, 7, 0x40⟩
/-- SPC_SUPPLY_OK, R513. -/
def Spc.SPC_SUPPLY_OK : Field := ⟨0xb000 * 32 + 0, 1, 0⟩
/-- AUTO_ON_BUSY, R513. -/
def Spc.AUTO_ON_BUSY : Field := ⟨0xb000 * 32 + 1, 1, 0⟩
/-- SCAN_COUNT, R513. -/
def Spc.SCAN_COUNT : Field := ⟨0xb004 * 32 + 0, 32, 0⟩
/-- ILIM, R513. -/
def Spc.ch_ILIM (i : Nat) : Field := ⟨(0xb040 + 0x30 * i) * 32 + 0, 7, 0xa⟩
/-- FAULT_TIMER, R513. -/
def Spc.ch_FAULT_TIMER (i : Nat) : Field := ⟨(0xb040 + 0x30 * i) * 32 + 7, 8, 0xa⟩
/-- PCHG_TIMEOUT, R513. -/
def Spc.ch_PCHG_TIMEOUT (i : Nat) : Field := ⟨(0xb040 + 0x30 * i) * 32 + 15, 8, 0x32⟩
/-- PCHG_DELTA, R513. -/
def Spc.ch_PCHG_DELTA (i : Nat) : Field := ⟨(0xb040 + 0x30 * i) * 32 + 23, 5, 5⟩
/-- AUTO_ON, R513. -/
def Spc.ch_AUTO_ON (i : Nat) : Field := ⟨(0xb040 + 0x30 * i) * 32 + 28, 1, 0⟩
/-- RSENSE, R513. -/
def Spc.ch_RSENSE (i : Nat) : Field := ⟨(0xb044 + 0x30 * i) * 32 + 0, 8, 0⟩
/-- STATE, R513. -/
def Spc.ch_STATE (i : Nat) : Field := ⟨(0xb048 + 0x30 * i) * 32 + 0, 3, 0⟩
/-- PG, R513. -/
def Spc.ch_PG (i : Nat) : Field := ⟨(0xb048 + 0x30 * i) * 32 + 3, 1, 0⟩
/-- GATE_ON, R513. -/
def Spc.ch_GATE_ON (i : Nat) : Field := ⟨(0xb048 + 0x30 * i) * 32 + 4, 1, 0⟩
/-- PCHG_ON, R513. -/
def Spc.ch_PCHG_ON (i : Nat) : Field := ⟨(0xb048 + 0x30 * i) * 32 + 5, 1, 0⟩
/-- TIMER_RUN, R513. -/
def Spc.ch_TIMER_RUN (i : Nat) : Field := ⟨(0xb048 + 0x30 * i) * 32 + 6, 1, 0⟩
/-- IN_LIMIT, R513. -/
def Spc.ch_IN_LIMIT (i : Nat) : Field := ⟨(0xb048 + 0x30 * i) * 32 + 7, 1, 0⟩
/-- LAST_FAULT, R513. -/
def Spc.ch_LAST_FAULT (i : Nat) : Field := ⟨(0xb048 + 0x30 * i) * 32 + 8, 4, 0⟩
/-- COOLDOWN, R513. -/
def Spc.ch_COOLDOWN (i : Nat) : Field := ⟨(0xb048 + 0x30 * i) * 32 + 12, 1, 0⟩
/-- PG_RISE_EVT, R513. -/
def Spc.ch_PG_RISE_EVT (i : Nat) : Field := ⟨(0xb048 + 0x30 * i) * 32 + 16, 1, 0⟩
/-- PG_FALL_EVT, R513. -/
def Spc.ch_PG_FALL_EVT (i : Nat) : Field := ⟨(0xb048 + 0x30 * i) * 32 + 17, 1, 0⟩
/-- FAULT_EVT, R513. -/
def Spc.ch_FAULT_EVT (i : Nat) : Field := ⟨(0xb048 + 0x30 * i) * 32 + 18, 1, 0⟩
/-- QUAL_CANCEL_EVT, R513. -/
def Spc.ch_QUAL_CANCEL_EVT (i : Nat) : Field := ⟨(0xb048 + 0x30 * i) * 32 + 19, 1, 0⟩
/-- CURRENT, R513. -/
def Spc.ch_CURRENT (i : Nat) : Field := ⟨(0xb04c + 0x30 * i) * 32 + 0, 16, 0⟩
/-- VOUT, R513. -/
def Spc.ch_VOUT (i : Nat) : Field := ⟨(0xb04c + 0x30 * i) * 32 + 16, 16, 0⟩
/-- VIN, R513. -/
def Spc.ch_VIN (i : Nat) : Field := ⟨(0xb050 + 0x30 * i) * 32 + 0, 16, 0⟩
/-- CURRENT_PEAK, R513. -/
def Spc.ch_CURRENT_PEAK (i : Nat) : Field := ⟨(0xb050 + 0x30 * i) * 32 + 16, 16, 0⟩
/-- POWER, R513. -/
def Spc.ch_POWER (i : Nat) : Field := ⟨(0xb054 + 0x30 * i) * 32 + 0, 32, 0⟩
/-- ENERGY_LO, R513. -/
def Spc.ch_ENERGY_LO (i : Nat) : Field := ⟨(0xb058 + 0x30 * i) * 32 + 0, 32, 0⟩
/-- ENERGY_HI, R513. -/
def Spc.ch_ENERGY_HI (i : Nat) : Field := ⟨(0xb05c + 0x30 * i) * 32 + 0, 16, 0⟩
/-- FAULTS, R513. -/
def Spc.ch_FAULTS (i : Nat) : Field := ⟨(0xb060 + 0x30 * i) * 32 + 0, 16, 0⟩
/-- QUAL_CANCELS, R513. -/
def Spc.ch_QUAL_CANCELS (i : Nat) : Field := ⟨(0xb060 + 0x30 * i) * 32 + 16, 16, 0⟩
/-- RECORDS, R549. -/
def Elog.RECORDS : Field := ⟨0xd000 * 32 + 0, 13, 0⟩
/-- FATAL_EVT, R549. -/
def Elog.FATAL_EVT : Field := ⟨0xd000 * 32 + 13, 1, 0⟩
/-- OVERWRITTEN, R549. -/
def Elog.OVERWRITTEN : Field := ⟨0xd000 * 32 + 16, 16, 0⟩
/-- FIRST_NUMBER, R549. -/
def Elog.FIRST_NUMBER : Field := ⟨0xd004 * 32 + 0, 32, 0⟩
/-- NEXT_NUMBER, R549. -/
def Elog.NEXT_NUMBER : Field := ⟨0xd008 * 32 + 0, 32, 1⟩
/-- CORRECTED_SUPPRESSED, R549. -/
def Elog.CORRECTED_SUPPRESSED : Field := ⟨0xd00c * 32 + 0, 16, 0⟩
/-- LOG_VECTOR, R549. -/
def Elog.LOG_VECTOR : Field := ⟨0xd010 * 32 + 0, 11, 0⟩
/-- LOG_IRQ_EN, R549. -/
def Elog.LOG_IRQ_EN : Field := ⟨0xd010 * 32 + 11, 1, 0⟩
/-- RECORD_SELECT, R549. -/
def Elog.RECORD_SELECT : Field := ⟨0xd100 * 32 + 0, 32, 0⟩
/-- RECORD_WORD, R549. -/
def Elog.RECORD_WORD (i : Nat) : Field := ⟨(0xd120 + 0x4 * i) * 32 + 0, 32, 0⟩
/-- ENABLE, R550. -/
def Mon.ENABLE (m : Nat) : Field := ⟨(0x40000 + 0x1000 * m + 0x0) * 32 + 0, 1, 0⟩
/-- CLEAR, R550. -/
def Mon.CLEAR (m : Nat) : Field := ⟨(0x40000 + 0x1000 * m + 0x0) * 32 + 1, 1, 0⟩
/-- BLOCK_KIND, R550. -/
def Mon.BLOCK_KIND (m : Nat) : Field := ⟨(0x40000 + 0x1000 * m + 0x0) * 32 + 8, 8, 0⟩
/-- TIME_LO, R550. -/
def Mon.TIME_LO (m : Nat) : Field := ⟨(0x40000 + 0x1000 * m + 0x8) * 32 + 0, 32, 0⟩
/-- TIME_HI, R550. -/
def Mon.TIME_HI (m : Nat) : Field := ⟨(0x40000 + 0x1000 * m + 0xc) * 32 + 0, 32, 0⟩
/-- OVF, R550. -/
def Mon.OVF (m : Nat) : Field := ⟨(0x40000 + 0x1000 * m + 0x10) * 32 + 0, 8, 0⟩
/-- SAMPLE_HELD, R550. -/
def Mon.SAMPLE_HELD (m : Nat) : Field := ⟨(0x40000 + 0x1000 * m + 0x10) * 32 + 8, 8, 0⟩
/-- SAMPLES_MISSED, R550. -/
def Mon.SAMPLES_MISSED (m : Nat) : Field := ⟨(0x40000 + 0x1000 * m + 0x10) * 32 + 16, 16, 0⟩
/-- EVENT, R550. -/
def Mon.EVENT (m c : Nat) : Field := ⟨(0x40000 + 0x1000 * m + 0x40 + 0x20 * c) * 32 + 0, 16, 0⟩
/-- SAMPLE_EN, R550. -/
def Mon.SAMPLE_EN (m c : Nat) : Field := ⟨(0x40000 + 0x1000 * m + 0x40 + 0x20 * c) * 32 + 16, 1, 0⟩
/-- MASTER_FILTER_EN, R550. -/
def Mon.MASTER_FILTER_EN (m c : Nat) : Field := ⟨(0x40000 + 0x1000 * m + 0x40 + 0x20 * c) * 32 + 17, 1, 0⟩
/-- MASTER_VALUE, R550. -/
def Mon.MASTER_VALUE (m c : Nat) : Field := ⟨(0x40000 + 0x1000 * m + 0x44 + 0x20 * c) * 32 + 0, 16, 0⟩
/-- MASTER_MASK, R550. -/
def Mon.MASTER_MASK (m c : Nat) : Field := ⟨(0x40000 + 0x1000 * m + 0x44 + 0x20 * c) * 32 + 16, 16, 0⟩
/-- COUNT_LO, R550. -/
def Mon.COUNT_LO (m c : Nat) : Field := ⟨(0x40000 + 0x1000 * m + 0x48 + 0x20 * c) * 32 + 0, 32, 0⟩
/-- COUNT_HI, R550. -/
def Mon.COUNT_HI (m c : Nat) : Field := ⟨(0x40000 + 0x1000 * m + 0x4c + 0x20 * c) * 32 + 0, 16, 0⟩
/-- SAMPLE_MASTER, R550. -/
def Mon.SAMPLE_MASTER (m c : Nat) : Field := ⟨(0x40000 + 0x1000 * m + 0x50 + 0x20 * c) * 32 + 0, 16, 0⟩
/-- SKID, R550. -/
def Mon.SKID (m c : Nat) : Field := ⟨(0x40000 + 0x1000 * m + 0x50 + 0x20 * c) * 32 + 16, 7, 0⟩
/-- SAMPLE_ADDR_LO, R550. -/
def Mon.SAMPLE_ADDR_LO (m c : Nat) : Field := ⟨(0x40000 + 0x1000 * m + 0x54 + 0x20 * c) * 32 + 0, 32, 0⟩
/-- SAMPLE_ADDR_HI, R550. -/
def Mon.SAMPLE_ADDR_HI (m c : Nat) : Field := ⟨(0x40000 + 0x1000 * m + 0x58 + 0x20 * c) * 32 + 0, 20, 0⟩
/-- SAMPLE_TIME, R550. -/
def Mon.SAMPLE_TIME (m c : Nat) : Field := ⟨(0x40000 + 0x1000 * m + 0x5c + 0x20 * c) * 32 + 0, 32, 0⟩
/-- RUNNING, R551. -/
def Skim.RUNNING : Field := ⟨0xe000 * 32 + 0, 1, 0⟩
/-- FAULT_CAUSE, R551. -/
def Skim.FAULT_CAUSE : Field := ⟨0xe000 * 32 + 1, 3, 0⟩
/-- FAULT_EVT, R551. -/
def Skim.FAULT_EVT : Field := ⟨0xe000 * 32 + 4, 1, 0⟩
/-- SEQ, R551. -/
def Skim.SEQ : Field := ⟨0xe004 * 32 + 0, 32, 0⟩
/-- SKIPPED, R551. -/
def Skim.SKIPPED : Field := ⟨0xe008 * 32 + 0, 16, 0⟩
/-- SAMPLES_WRITTEN, R551. -/
def Skim.SAMPLES_WRITTEN : Field := ⟨0xe008 * 32 + 16, 16, 0⟩
/-- SELECT_LO, R551. -/
def Skim.SELECT_LO : Field := ⟨0xe010 * 32 + 0, 32, 0⟩
/-- SELECT_HI, R551. -/
def Skim.SELECT_HI : Field := ⟨0xe014 * 32 + 0, 32, 0⟩
/-- SKIM_VECTOR, R551. -/
def Skim.SKIM_VECTOR : Field := ⟨0xe018 * 32 + 0, 11, 0⟩
/-- SAMPLE_IRQ_EN, R551. -/
def Skim.SAMPLE_IRQ_EN : Field := ⟨0xe018 * 32 + 11, 1, 0⟩
/-- WRAP_IRQ_EN, R551. -/
def Skim.WRAP_IRQ_EN : Field := ⟨0xe018 * 32 + 12, 1, 0⟩
/-- SKIM_INSTANCE, R551. -/
def Skim.SKIM_INSTANCE : Field := ⟨0xe020 * 32 + 0, 6, 0⟩
/-- INTERVAL, R551. -/
def Skim.INTERVAL : Field := ⟨0xe020 * 32 + 16, 16, 0⟩
/-- BASE_LO, R551. -/
def Skim.BASE_LO : Field := ⟨0xe024 * 32 + 0, 32, 0⟩
/-- BASE_HI, R551. -/
def Skim.BASE_HI : Field := ⟨0xe028 * 32 + 0, 32, 0⟩
/-- SIZE, R551. -/
def Skim.SIZE : Field := ⟨0xe02c * 32 + 0, 32, 0⟩
/-- WRITE_BUSY, R552. -/
def Hbk.WRITE_BUSY : Field := ⟨0xf000 * 32 + 0, 1, 0⟩
/-- WRITE_FAIL_EVT, R552. -/
def Hbk.WRITE_FAIL_EVT : Field := ⟨0xf000 * 32 + 1, 1, 0⟩
/-- HB_SEQUENCE, R552. -/
def Hbk.HB_SEQUENCE : Field := ⟨0xf004 * 32 + 0, 32, 0⟩
/-- NEXT_WRITE, R552. -/
def Hbk.NEXT_WRITE : Field := ⟨0xf008 * 32 + 0, 16, 0⟩
/-- FLUSH, R552. -/
def Hbk.FLUSH : Field := ⟨0xf00c * 32 + 0, 1, 0⟩
/-- NAK_STORM_LIMIT, R552. -/
def Hbk.NAK_STORM_LIMIT : Field := ⟨0xf00c * 32 + 1, 16, 0x64⟩
/-- TJ_CURRENT, R552. -/
def Hbk.TJ_CURRENT : Field := ⟨0xf010 * 32 + 0, 8, 0⟩
/-- TJ_TILE, R552. -/
def Hbk.TJ_TILE : Field := ⟨0xf010 * 32 + 8, 8, 0⟩
/-- TJ_PEAK, R552. -/
def Hbk.TJ_PEAK : Field := ⟨0xf010 * 32 + 16, 8, 0x80⟩
/-- SETTINGS, R553. -/
def Ren.SETTINGS : Field := ⟨0x10000 * 32 + 0, 5, 0⟩
/-- ACTIVE, R553. -/
def Ren.ACTIVE : Field := ⟨0x10000 * 32 + 5, 1, 0⟩
/-- DRY_OUTCOME, R553. -/
def Ren.DRY_OUTCOME : Field := ⟨0x10004 * 32 + 0, 2, 0⟩
/-- DRY_REACH, R553. -/
def Ren.DRY_REACH : Field := ⟨0x10004 * 32 + 2, 16, 0⟩
/-- CLASS, R553. -/
def Ren.CLASS (i : Nat) : Field := ⟨(0x10100 + 0x8 * i) * 32 + 0, 8, 0⟩
/-- TARGET, R553. -/
def Ren.TARGET (i : Nat) : Field := ⟨(0x10100 + 0x8 * i) * 32 + 16, 16, 0⟩
/-- SETTING, R553. -/
def Ren.SETTING (i : Nat) : Field := ⟨(0x10104 + 0x8 * i) * 32 + 0, 32, 0⟩
/-- The registers of block page `glob`, as the spec's register table lays them out. -/
def RegPage.globPart0 : List RegTpl :=
  [⟨0x40, 0x1000, 1, 4, 1, [⟨0, 16, .ro, 0⟩, ⟨16, 6, .ro, 0⟩, ⟨31, 1, .w1c, 0⟩]⟩,
   ⟨0x44, 0x1000, 1, 4, 1, [⟨0, 16, .rc, 0xffff⟩, ⟨16, 16, .rc, 0⟩]⟩,
   ⟨0x30, 0x1000, 1, 4, 1, [⟨0, 4, .ro, 1⟩, ⟨4, 4, .ro, 0⟩, ⟨8, 4, .ro, 0⟩, ⟨12, 2, .ro, 0⟩, ⟨14, 5, .ro, 0⟩, ⟨19, 1, .ro, 0⟩, ⟨20, 1, .ro, 0⟩, ⟨21, 1, .ro, 0⟩]⟩,
   ⟨0x50, 0x1000, 1, 4, 1, [⟨0, 10, .rwk, 0x14⟩, ⟨10, 8, .rwk, 0xa⟩, ⟨18, 1, .rwk, 1⟩]⟩,
   ⟨0x54, 0x1000, 1, 4, 1, [⟨0, 1, .ro, 0⟩, ⟨1, 1, .ro, 0⟩, ⟨16, 16, .ro, 0⟩]⟩,
   ⟨0x0, 0x1000, 1, 4, 1, [⟨0, 32, .rw, 0⟩]⟩,
   ⟨0x4, 0x1000, 1, 4, 1, [⟨0, 6, .ro, 0⟩, ⟨6, 1, .ro, 0⟩]⟩,
   ⟨0x10, 0x1000, 1, 4, 1, [⟨0, 1, .ro, 0⟩, ⟨1, 1, .ro, 0⟩, ⟨2, 4, .ro, 0⟩, ⟨6, 1, .w1c, 0⟩, ⟨16, 16, .rc, 0⟩]⟩,
   ⟨0x20, 0x1000, 1, 4, 1, [⟨0, 16, .rc, 0⟩, ⟨16, 1, .w1c, 0⟩]⟩,
   ⟨0x24, 0x1000, 1, 4, 1, [⟨0, 20, .ro, 0⟩, ⟨20, 5, .ro, 0⟩]⟩,
   ⟨0x60, 0x1000, 1, 4, 1, [⟨0, 16, .rc, 0⟩, ⟨16, 16, .rc, 0⟩]⟩,
   ⟨0x64, 0x1000, 1, 4, 1, [⟨0, 16, .rc, 0⟩]⟩]
/-- Rows of `glob`, part 1. -/
def RegPage.globPart1 : List RegTpl :=
  [⟨0xff0, 0x1000, 1, 4, 1, [⟨0, 32, .wo, 0⟩]⟩,
   ⟨0x70, 0x1000, 1, 4, 1, [⟨0, 11, .rwkt, 0x341⟩, ⟨11, 8, .rwkt, 0x8c⟩, ⟨19, 8, .rwkt, 0xb4⟩, ⟨27, 1, .rwkt, 1⟩, ⟨28, 4, .rwk, 3⟩]⟩,
   ⟨0x74, 0x1000, 1, 4, 1, [⟨0, 10, .ro, 0x320⟩, ⟨10, 10, .ro, 0⟩, ⟨20, 1, .ro, 0⟩, ⟨21, 1, .w1c, 0⟩]⟩,
   ⟨0x78, 0x1000, 1, 4, 1, [⟨0, 4, .ro, 0⟩, ⟨4, 4, .ro, 0⟩, ⟨16, 16, .ro, 0⟩]⟩,
   ⟨0x7c, 0x1000, 1, 4, 1, [⟨0, 8, .rwk, 0x64⟩, ⟨8, 1, .w1c, 0⟩]⟩,
   ⟨0x80, 0x1000, 1, 4, 1, [⟨0, 7, .rwkt, 0x40⟩]⟩]
/-- All rows of `glob`. -/
def RegPage.glob : List RegTpl := RegPage.globPart0 ++ RegPage.globPart1
/-- The registers of block page `pg`, as the spec's register table lays them out. -/
def RegPage.pgPart0 : List RegTpl :=
  [⟨0x0, 0x1000, 1, 4, 1, [⟨0, 3, .rwkt, 0⟩, ⟨4, 2, .rwkt, 0⟩, ⟨8, 1, .ro, 0⟩, ⟨9, 1, .ro, 0⟩, ⟨16, 4, .rwk, 6⟩, ⟨20, 1, .rwk, 0⟩]⟩,
   ⟨0x10, 0x4, 4, 4, 1, [⟨0, 1, .ro, 0⟩, ⟨1, 3, .ro, 0⟩, ⟨4, 5, .ro, 0⟩, ⟨9, 2, .ro, 0⟩, ⟨11, 1, .ro, 0⟩, ⟨12, 1, .ro, 0⟩, ⟨13, 2, .ro, 0⟩, ⟨15, 1, .ro, 0⟩, ⟨16, 1, .ro, 0⟩, ⟨17, 1, .w1c, 0⟩, ⟨18, 1, .w1c, 0⟩]⟩,
   ⟨0x100, 0x20, 4, 4, 1, [⟨0, 3, .rwk, 0⟩, ⟨3, 3, .rwk, 3⟩, ⟨6, 1, .rwk, 0⟩, ⟨7, 1, .rwk, 0⟩, ⟨8, 1, .w1s, 0⟩, ⟨9, 1, .w1s, 0⟩, ⟨10, 6, .rwk, 8⟩, ⟨16, 6, .rwk, 0x3f⟩, ⟨22, 1, .rw, 0⟩]⟩,
   ⟨0x104, 0x20, 4, 4, 1, [⟨0, 4, .ro, 0⟩, ⟨4, 3, .ro, 0⟩, ⟨7, 1, .ro, 0⟩, ⟨8, 1, .ro, 0⟩, ⟨9, 7, .ro, 0⟩, ⟨16, 4, .ro, 0⟩, ⟨20, 1, .w1c, 0⟩, ⟨21, 1, .w1c, 0⟩, ⟨22, 1, .w1c, 0⟩]⟩,
   ⟨0x108, 0x20, 4, 4, 1, [⟨0, 4, .ro, 2⟩, ⟨4, 4, .ro, 0⟩, ⟨8, 4, .ro, 0⟩, ⟨16, 6, .ro, 0⟩]⟩,
   ⟨0x10c, 0x20, 4, 4, 1, [⟨0, 32, .ro, 0⟩]⟩,
   ⟨0x110, 0x20, 4, 4, 1, [⟨0, 32, .ro, 0⟩]⟩,
   ⟨0x114, 0x20, 4, 4, 1, [⟨0, 5, .ro, 0⟩, ⟨8, 6, .ro, 0⟩]⟩,
   ⟨0x118, 0x20, 4, 4, 1, [⟨0, 32, .ro, 0⟩]⟩,
   ⟨0x11c, 0x20, 4, 4, 1, [⟨0, 16, .ro, 0⟩, ⟨16, 16, .ro, 0⟩]⟩,
   ⟨0x400, 0x20, 16, 4, 1, [⟨0, 1, .ro, 0⟩, ⟨1, 1, .ro, 0⟩, ⟨2, 1, .ro, 0⟩, ⟨3, 1, .ro, 0⟩, ⟨4, 1, .ro, 0⟩, ⟨5, 5, .ro, 0⟩, ⟨10, 6, .ro, 0⟩]⟩,
   ⟨0x404, 0x20, 16, 4, 1, [⟨0, 4, .ro, 0⟩, ⟨4, 5, .ro, 0⟩, ⟨9, 6, .ro, 0⟩, ⟨15, 8, .ro, 0⟩]⟩]
/-- Rows of `pg`, part 1. -/
def RegPage.pgPart1 : List RegTpl :=
  [⟨0x408, 0x20, 16, 4, 1, [⟨0, 16, .rc, 0⟩, ⟨16, 16, .rc, 0⟩]⟩,
   ⟨0x40c, 0x20, 16, 4, 1, [⟨0, 2, .rw, 0⟩, ⟨2, 2, .rw, 0⟩, ⟨4, 1, .w1s, 0⟩, ⟨5, 1, .w1s, 0⟩, ⟨6, 1, .ro, 0⟩]⟩,
   ⟨0x410, 0x20, 16, 4, 1, [⟨0, 32, .ro, 0⟩]⟩,
   ⟨0x414, 0x20, 16, 4, 1, [⟨0, 16, .ro, 0⟩]⟩,
   ⟨0x418, 0x20, 16, 4, 1, [⟨0, 32, .ro, 0⟩]⟩,
   ⟨0x41c, 0x20, 16, 4, 1, [⟨0, 16, .ro, 0⟩]⟩,
   ⟨0x200, 0x40, 4, 4, 1, [⟨0, 6, .rwk, 0⟩, ⟨6, 1, .rwk, 0⟩, ⟨7, 1, .rwkt, 0⟩, ⟨8, 3, .rw, 0⟩, ⟨11, 1, .w1s, 0⟩, ⟨12, 4, .rwk, 4⟩, ⟨16, 8, .rwk, 0x20⟩]⟩,
   ⟨0x204, 0x40, 4, 4, 1, [⟨0, 8, .rwk, 0xa⟩, ⟨8, 8, .rwk, 0x32⟩, ⟨16, 8, .rwk, 0x14⟩, ⟨24, 8, .rwk, 0x32⟩]⟩,
   ⟨0x208, 0x40, 4, 4, 1, [⟨0, 2, .ro, 0⟩, ⟨2, 1, .ro, 0⟩, ⟨3, 1, .ro, 0⟩, ⟨4, 1, .ro, 0⟩, ⟨5, 3, .ro, 0⟩, ⟨8, 3, .ro, 0⟩, ⟨11, 1, .ro, 0⟩, ⟨12, 1, .w1c, 0⟩, ⟨13, 1, .w1c, 0⟩, ⟨14, 1, .w1c, 0⟩, ⟨15, 1, .w1c, 0⟩, ⟨16, 1, .w1c, 0⟩, ⟨17, 1, .w1c, 0⟩, ⟨18, 1, .w1c, 0⟩]⟩,
   ⟨0x20c, 0x40, 4, 4, 1, [⟨0, 12, .ro, 0⟩, ⟨12, 11, .ro, 0⟩]⟩,
   ⟨0x210, 0x40, 4, 4, 1, [⟨0, 12, .ro, 0xfff⟩, ⟨12, 10, .ro, 0⟩, ⟨22, 1, .ro, 0⟩]⟩,
   ⟨0x214, 0x40, 4, 4, 1, [⟨0, 16, .rc, 0⟩, ⟨16, 16, .rc, 0⟩]⟩]
/-- Rows of `pg`, part 2. -/
def RegPage.pgPart2 : List RegTpl :=
  [⟨0x218, 0x40, 4, 4, 1, [⟨0, 16, .rc, 0⟩, ⟨16, 16, .rc, 0⟩]⟩,
   ⟨0x21c, 0x40, 4, 4, 1, [⟨0, 16, .rc, 0⟩, ⟨16, 16, .rc, 0⟩]⟩,
   ⟨0x220, 0x40, 4, 4, 6, [⟨0, 16, .ro, 0⟩, ⟨16, 16, .ro, 0⟩]⟩,
   ⟨0x20, 0x4, 4, 4, 1, [⟨0, 13, .rwk, 0x64⟩, ⟨16, 13, .ro, 0⟩]⟩,
   ⟨0x30, 0x4, 4, 4, 1, [⟨0, 16, .ro, 0⟩, ⟨16, 1, .ro, 0⟩, ⟨17, 1, .ro, 0⟩]⟩,
   ⟨0x40, 0x4, 4, 4, 1, [⟨0, 7, .ro, 0⟩, ⟨16, 16, .rc, 0⟩]⟩,
   ⟨0x50, 0x4, 4, 4, 1, [⟨0, 16, .rc, 0⟩, ⟨16, 16, .rc, 0⟩]⟩,
   ⟨0x60, 0x1000, 1, 4, 1, [⟨0, 13, .ro, 0⟩, ⟨16, 13, .rc, 0⟩]⟩,
   ⟨0x70, 0x4, 4, 4, 1, [⟨0, 13, .ro, 0⟩, ⟨16, 13, .ro, 0⟩]⟩,
   ⟨0x80, 0x4, 4, 4, 1, [⟨0, 16, .rc, 0⟩, ⟨16, 16, .rc, 0⟩]⟩]
/-- All rows of `pg`. -/
def RegPage.pg : List RegTpl := RegPage.pgPart0 ++ RegPage.pgPart1 ++ RegPage.pgPart2
/-- The registers of block page `time`, as the spec's register table lays them out. -/
def RegPage.time : List RegTpl :=
  [⟨0x0, 0x1000, 1, 4, 1, [⟨0, 2, .rwkt, 3⟩, ⟨2, 1, .rwk, 1⟩, ⟨4, 12, .rwk, 0x3e8⟩]⟩,
   ⟨0x4, 0x1000, 1, 4, 1, [⟨0, 2, .ro, 0⟩, ⟨2, 1, .ro, 0⟩, ⟨3, 1, .ro, 0⟩, ⟨4, 1, .w1c, 0⟩, ⟨16, 16, .ro, 0⟩]⟩,
   ⟨0x8, 0x1000, 1, 4, 1, [⟨0, 32, .ro, 0⟩]⟩,
   ⟨0xc, 0x1000, 1, 4, 1, [⟨0, 32, .ro, 0⟩]⟩,
   ⟨0x10, 0x1000, 1, 4, 1, [⟨0, 32, .ro, 0⟩]⟩,
   ⟨0x14, 0x1000, 1, 4, 1, [⟨0, 32, .ro, 0⟩]⟩]
/-- The registers of block page `qfab`, as the spec's register table lays them out. -/
def RegPage.qfab : List RegTpl :=
  [⟨0x40, 0x4, 16, 4, 1, [⟨0, 6, .rwkt, 0⟩, ⟨6, 1, .rwkt, 0⟩]⟩,
   ⟨0x80, 0x4, 16, 4, 1, [⟨0, 16, .rc, 0⟩, ⟨16, 16, .rc, 0⟩]⟩,
   ⟨0xc0, 0x4, 16, 4, 1, [⟨0, 17, .ro, 0⟩, ⟨17, 15, .rc, 0⟩]⟩,
   ⟨0x100, 0x1000, 1, 4, 1, [⟨0, 16, .rc, 0⟩, ⟨16, 16, .rc, 0⟩]⟩,
   ⟨0x104, 0x1000, 1, 4, 1, [⟨0, 32, .ro, 0⟩]⟩]
/-- The registers of block page `ext`, as the spec's register table lays them out. -/
def RegPage.ext : List RegTpl :=
  [⟨0x0, 0x1000, 1, 4, 1, [⟨0, 8, .rwk, 0x32⟩, ⟨8, 8, .rwk, 0x32⟩]⟩,
   ⟨0x10, 0x4, 8, 4, 1, [⟨0, 19, .ro, 0⟩]⟩,
   ⟨0x40, 0x1000, 1, 4, 1, [⟨0, 16, .rc, 0⟩, ⟨16, 16, .rc, 0⟩]⟩,
   ⟨0x100, 0x8, 32, 4, 1, [⟨0, 18, .ro, 0⟩, ⟨28, 3, .ro, 0⟩]⟩,
   ⟨0x104, 0x8, 32, 4, 1, [⟨0, 23, .ro, 0⟩]⟩,
   ⟨0x44, 0x1000, 1, 4, 1, [⟨0, 16, .rc, 0⟩, ⟨16, 16, .rc, 0⟩]⟩]
/-- The registers of block page `churn`, as the spec's register table lays them out. -/
def RegPage.churnPart0 : List RegTpl :=
  [⟨0x0, 0x1000, 1, 4, 1, [⟨0, 8, .rwk, 0x10⟩, ⟨8, 12, .rwk, 0x400⟩, ⟨20, 1, .rwkt, 0⟩]⟩,
   ⟨0x4, 0x1000, 1, 4, 1, [⟨0, 8, .rwk, 4⟩, ⟨8, 8, .rwk, 0x14⟩]⟩,
   ⟨0x8, 0x1000, 1, 4, 1, [⟨0, 6, .rwkt, 0⟩, ⟨6, 4, .rwkt, 0⟩, ⟨10, 14, .rwkt, 0⟩, ⟨24, 5, .rwkt, 0⟩]⟩,
   ⟨0xc, 0x1000, 1, 4, 1, [⟨0, 1, .ro, 0⟩, ⟨1, 1, .w1c, 0⟩, ⟨2, 1, .w1c, 0⟩, ⟨3, 1, .ro, 0⟩]⟩,
   ⟨0x10, 0x1000, 1, 4, 1, [⟨0, 29, .ro, 0⟩]⟩,
   ⟨0x14, 0x1000, 1, 4, 1, [⟨0, 16, .ro, 0⟩]⟩,
   ⟨0x100, 0x20, 32, 4, 1, [⟨0, 10, .ro, 0⟩, ⟨10, 9, .ro, 0⟩]⟩,
   ⟨0x104, 0x20, 32, 4, 1, [⟨0, 16, .rc, 0⟩, ⟨16, 16, .rc, 0⟩]⟩,
   ⟨0x108, 0x20, 32, 4, 1, [⟨0, 16, .rc, 0⟩, ⟨16, 16, .rc, 0⟩]⟩,
   ⟨0x10c, 0x20, 32, 4, 1, [⟨0, 16, .rc, 0⟩, ⟨16, 16, .rc, 0⟩]⟩,
   ⟨0x110, 0x20, 32, 4, 1, [⟨0, 16, .rc, 0⟩, ⟨16, 16, .rc, 0⟩]⟩,
   ⟨0x114, 0x20, 32, 4, 1, [⟨0, 16, .rc, 0⟩, ⟨16, 16, .rc, 0⟩]⟩]
/-- Rows of `churn`, part 1. -/
def RegPage.churnPart1 : List RegTpl :=
  [⟨0x18, 0x1000, 1, 4, 1, [⟨0, 32, .ro, 0⟩]⟩,
   ⟨0x1c, 0x1000, 1, 4, 1, [⟨0, 32, .ro, 0⟩]⟩,
   ⟨0x20, 0x1000, 1, 4, 1, [⟨0, 1, .ro, 0⟩, ⟨1, 1, .w1c, 0⟩]⟩,
   ⟨0x24, 0x1000, 1, 4, 1, [⟨0, 16, .rc, 0⟩, ⟨16, 16, .rc, 0⟩]⟩,
   ⟨0x28, 0x1000, 1, 4, 1, [⟨0, 16, .rc, 0⟩, ⟨16, 16, .rc, 0⟩]⟩,
   ⟨0x2c, 0x1000, 1, 4, 1, [⟨0, 16, .rc, 0⟩, ⟨16, 16, .rc, 0⟩]⟩,
   ⟨0x30, 0x1000, 1, 4, 1, [⟨0, 5, .rw, 0⟩]⟩]
/-- All rows of `churn`. -/
def RegPage.churn : List RegTpl := RegPage.churnPart0 ++ RegPage.churnPart1
/-- The registers of block page `ladle`, as the spec's register table lays them out. -/
def RegPage.ladle : List RegTpl :=
  [⟨0x0, 0x1000, 1, 4, 1, [⟨0, 13, .rwk, 0⟩]⟩,
   ⟨0x4, 0x1000, 1, 4, 1, [⟨0, 16, .rc, 0⟩, ⟨16, 16, .rc, 0⟩]⟩,
   ⟨0x8, 0x1000, 1, 4, 1, [⟨0, 14, .ro, 0⟩]⟩,
   ⟨0x100, 0x10, 32, 4, 1, [⟨0, 4, .ro, 0⟩, ⟨4, 6, .ro, 0⟩, ⟨10, 1, .ro, 0⟩]⟩,
   ⟨0x104, 0x10, 32, 4, 1, [⟨0, 32, .rc, 0⟩]⟩,
   ⟨0x108, 0x10, 32, 4, 1, [⟨0, 16, .rc, 0⟩, ⟨16, 16, .rc, 0⟩]⟩,
   ⟨0x10c, 0x10, 32, 4, 1, [⟨0, 32, .rc, 0⟩]⟩]
/-- The registers of block page `vicsr`, as the spec's register table lays them out. -/
def RegPage.vicsr : List RegTpl :=
  [⟨0x0, 0x1000, 1, 4, 1, [⟨0, 6, .ro, 0⟩, ⟨6, 5, .ro, 0⟩, ⟨11, 1, .ro, 0⟩, ⟨12, 12, .ro, 0⟩]⟩,
   ⟨0x4, 0x1000, 1, 4, 1, [⟨0, 3, .ro, 0⟩, ⟨3, 4, .ro, 0⟩, ⟨7, 1, .w1c, 0⟩]⟩,
   ⟨0x8, 0x1000, 1, 4, 1, [⟨0, 32, .ro, 0⟩]⟩,
   ⟨0xc, 0x1000, 1, 4, 1, [⟨0, 32, .ro, 0⟩]⟩,
   ⟨0x10, 0x1000, 1, 4, 1, [⟨0, 16, .rw, 0⟩, ⟨16, 1, .rw, 0⟩]⟩,
   ⟨0x14, 0x1000, 1, 4, 1, [⟨0, 11, .ro, 0⟩]⟩,
   ⟨0x18, 0x1000, 1, 4, 1, [⟨0, 12, .ro, 0⟩, ⟨12, 12, .ro, 0⟩]⟩]
/-- The registers of block page `vimod`, as the spec's register table lays them out. -/
def RegPage.vimod : List RegTpl :=
  [⟨0x4000, 0x8, 2048, 4, 1, [⟨0, 8, .rw, 0⟩, ⟨8, 10, .rw, 0⟩]⟩,
   ⟨0x4004, 0x8, 2048, 4, 1, [⟨0, 8, .ro, 0⟩]⟩]
/-- The registers of block page `inst`, as the spec's register table lays them out. -/
def RegPage.inst : List RegTpl :=
  [⟨0x0, 0x1000, 1, 4, 1, [⟨0, 9, .ro, 0x20⟩, ⟨9, 9, .ro, 0x1e0⟩, ⟨18, 8, .ro, 0x10⟩]⟩,
   ⟨0x4, 0x1000, 1, 4, 1, [⟨0, 16, .ro, 0x8000⟩, ⟨16, 16, .ro, 0x8000⟩]⟩,
   ⟨0x8, 0x1000, 1, 4, 1, [⟨0, 16, .ro, 0x8000⟩, ⟨16, 9, .ro, 0x20⟩]⟩,
   ⟨0xc, 0x1000, 1, 4, 1, [⟨0, 16, .rc, 0⟩, ⟨16, 16, .rc, 0⟩]⟩]
/-- The registers of block page `gate`, as the spec's register table lays them out. -/
def RegPage.gate : List RegTpl :=
  [⟨0x0, 0x1000, 1, 4, 1, [⟨0, 8, .rwk, 0x40⟩]⟩,
   ⟨0x4, 0x1000, 1, 4, 1, [⟨0, 32, .ro, 0⟩]⟩,
   ⟨0x8, 0x1000, 1, 4, 1, [⟨0, 1, .ro, 0⟩, ⟨1, 1, .ro, 0⟩, ⟨2, 1, .w1c, 0⟩]⟩,
   ⟨0xc, 0x1000, 1, 4, 1, [⟨0, 32, .ro, 0⟩]⟩,
   ⟨0x10, 0x1000, 1, 4, 1, [⟨0, 32, .rc, 0⟩]⟩,
   ⟨0x14, 0x1000, 1, 4, 1, [⟨0, 16, .rc, 0⟩, ⟨16, 16, .rc, 0⟩]⟩]
/-- The registers of block page `memb`, as the spec's register table lays them out. -/
def RegPage.memb : List RegTpl :=
  [⟨0x0, 0x1000, 1, 4, 1, [⟨0, 7, .rwkt, 8⟩, ⟨7, 8, .rwk, 0x14⟩, ⟨15, 8, .rwk, 0x1e⟩, ⟨23, 6, .rwkt, 0⟩, ⟨29, 1, .rwkt, 0⟩]⟩,
   ⟨0x4, 0x1000, 1, 4, 1, [⟨0, 2, .ro, 0⟩, ⟨2, 5, .ro, 0⟩, ⟨7, 1, .ro, 0⟩, ⟨8, 1, .w1c, 0⟩, ⟨9, 1, .ro, 0⟩, ⟨10, 1, .ro, 0⟩, ⟨11, 1, .ro, 0⟩, ⟨12, 1, .w1c, 0⟩, ⟨13, 5, .ro, 0⟩]⟩,
   ⟨0x8, 0x1000, 1, 4, 1, [⟨0, 32, .ro, 0⟩]⟩,
   ⟨0xc, 0x1000, 1, 4, 1, [⟨0, 16, .ro, 0⟩, ⟨16, 16, .ro, 0⟩]⟩,
   ⟨0x10, 0x1000, 1, 4, 1, [⟨0, 5, .ro, 0⟩, ⟨5, 5, .ro, 0⟩, ⟨10, 5, .ro, 0⟩, ⟨15, 1, .ro, 0⟩, ⟨16, 1, .ro, 0⟩]⟩,
   ⟨0x14, 0x1000, 1, 4, 1, [⟨0, 3, .ro, 0⟩, ⟨3, 22, .ro, 0⟩, ⟨25, 1, .w1c, 0⟩]⟩,
   ⟨0x18, 0x1000, 1, 4, 1, [⟨0, 6, .rwkt, 0⟩, ⟨6, 4, .rwkt, 0⟩, ⟨10, 14, .rwkt, 0⟩, ⟨24, 5, .ro, 0⟩]⟩,
   ⟨0x1c, 0x1000, 1, 4, 1, [⟨0, 16, .rc, 0⟩, ⟨16, 16, .rc, 0⟩]⟩,
   ⟨0x20, 0x1000, 1, 4, 1, [⟨0, 32, .rc, 0⟩]⟩,
   ⟨0x24, 0x1000, 1, 4, 1, [⟨0, 16, .rc, 0⟩, ⟨16, 16, .rc, 0⟩]⟩,
   ⟨0x40, 0x4, 16, 4, 1, [⟨0, 7, .ro, 0⟩, ⟨7, 4, .ro, 0⟩, ⟨16, 16, .rc, 0⟩]⟩]
/-- The registers of block page `mbx`, as the spec's register table lays them out. -/
def RegPage.mbx : List RegTpl :=
  [⟨0x0, 0x1000, 1, 4, 1, [⟨0, 1, .w1s, 0⟩]⟩,
   ⟨0x4, 0x1000, 1, 4, 1, [⟨0, 1, .ro, 0⟩, ⟨1, 1, .w1c, 0⟩, ⟨2, 1, .w1c, 0⟩, ⟨3, 1, .ro, 0⟩, ⟨4, 4, .ro, 0⟩]⟩,
   ⟨0x8, 0x1000, 1, 4, 1, [⟨0, 11, .rw, 0⟩, ⟨11, 1, .rw, 0⟩, ⟨12, 1, .rw, 0⟩, ⟨13, 1, .rw, 0⟩]⟩,
   ⟨0xc, 0x1000, 1, 4, 1, [⟨0, 16, .rc, 0⟩]⟩]
/-- The registers of block page `ident`, as the spec's register table lays them out. -/
def RegPage.ident : List RegTpl :=
  [⟨0x0, 0x1000, 1, 4, 1, [⟨0, 16, .ro, 0x964⟩, ⟨16, 8, .ro, 0⟩]⟩,
   ⟨0x4, 0x1000, 1, 4, 1, [⟨0, 1, .ro, 0⟩, ⟨1, 1, .ro, 0⟩, ⟨2, 1, .ro, 0⟩]⟩,
   ⟨0x8, 0x1000, 1, 4, 1, [⟨0, 32, .ro, 0x1f3a9⟩]⟩,
   ⟨0x10, 0x1000, 1, 4, 1, [⟨0, 8, .ro, 0⟩, ⟨8, 8, .ro, 0⟩, ⟨16, 8, .ro, 0⟩, ⟨24, 8, .ro, 0⟩]⟩,
   ⟨0x14, 0x1000, 1, 4, 1, [⟨0, 16, .ro, 0⟩, ⟨16, 1, .ro, 0⟩]⟩,
   ⟨0x18, 0x1000, 1, 4, 1, [⟨0, 8, .ro, 2⟩, ⟨8, 8, .ro, 3⟩, ⟨16, 4, .ro, 2⟩]⟩,
   ⟨0x20, 0x1000, 1, 4, 1, [⟨0, 32, .ro, 0⟩]⟩,
   ⟨0x24, 0x1000, 1, 4, 1, [⟨0, 32, .ro, 0⟩]⟩]
/-- The registers of block page `sc`, as the spec's register table lays them out. -/
def RegPage.sc : List RegTpl :=
  [⟨0x0, 0x1000, 1, 4, 1, [⟨0, 2, .ro, 0⟩, ⟨2, 1, .ro, 0⟩, ⟨3, 1, .ro, 0⟩, ⟨4, 1, .ro, 0⟩, ⟨5, 1, .ro, 0⟩, ⟨6, 1, .w1c, 0⟩, ⟨7, 1, .ro, 0⟩, ⟨8, 8, .ro, 0⟩, ⟨16, 7, .ro, 0⟩]⟩,
   ⟨0x4, 0x1000, 1, 4, 1, [⟨0, 4, .ro, 0⟩, ⟨4, 2, .ro, 0⟩, ⟨6, 7, .ro, 0⟩, ⟨13, 6, .ro, 0⟩, ⟨19, 1, .ro, 0⟩]⟩,
   ⟨0x8, 0x4, 2, 4, 1, [⟨0, 2, .ro, 0⟩, ⟨2, 1, .ro, 0⟩, ⟨3, 1, .ro, 0⟩, ⟨4, 7, .ro, 0⟩, ⟨11, 16, .ro, 0⟩]⟩,
   ⟨0x10, 0x1000, 1, 4, 1, [⟨0, 1, .ro, 0⟩, ⟨1, 1, .ro, 0⟩, ⟨2, 25, .ro, 0⟩]⟩,
   ⟨0x14, 0x1000, 1, 4, 1, [⟨0, 16, .rc, 0⟩, ⟨16, 16, .rc, 0⟩]⟩,
   ⟨0x18, 0x1000, 1, 4, 1, [⟨0, 16, .rc, 0⟩, ⟨16, 16, .rc, 0⟩]⟩,
   ⟨0x1c, 0x1000, 1, 4, 1, []⟩]
/-- The registers of block page `spc`, as the spec's register table lays them out. -/
def RegPage.spc : List RegTpl :=
  [⟨0x0, 0x1000, 1, 4, 1, [⟨0, 1, .ro, 0⟩, ⟨1, 1, .ro, 0⟩]⟩,
   ⟨0x4, 0x1000, 1, 4, 1, [⟨0, 32, .ro, 0⟩]⟩,
   ⟨0x40, 0x30, 16, 4, 1, [⟨0, 7, .rwk, 0xa⟩, ⟨7, 8, .rwk, 0xa⟩, ⟨15, 8, .rwk, 0x32⟩, ⟨23, 5, .rwk, 5⟩, ⟨28, 1, .rwk, 0⟩]⟩,
   ⟨0x44, 0x30, 16, 4, 1, [⟨0, 8, .rwkt, 0⟩]⟩,
   ⟨0x48, 0x30, 16, 4, 1, [⟨0, 3, .ro, 0⟩, ⟨3, 1, .ro, 0⟩, ⟨4, 1, .ro, 0⟩, ⟨5, 1, .ro, 0⟩, ⟨6, 1, .ro, 0⟩, ⟨7, 1, .ro, 0⟩, ⟨8, 4, .ro, 0⟩, ⟨12, 1, .ro, 0⟩, ⟨16, 1, .w1c, 0⟩, ⟨17, 1, .w1c, 0⟩, ⟨18, 1, .w1c, 0⟩, ⟨19, 1, .w1c, 0⟩]⟩,
   ⟨0x4c, 0x30, 16, 4, 1, [⟨0, 16, .ro, 0⟩, ⟨16, 16, .ro, 0⟩]⟩,
   ⟨0x50, 0x30, 16, 4, 1, [⟨0, 16, .ro, 0⟩, ⟨16, 16, .rc, 0⟩]⟩,
   ⟨0x54, 0x30, 16, 4, 1, [⟨0, 32, .ro, 0⟩]⟩,
   ⟨0x58, 0x30, 16, 4, 1, [⟨0, 32, .ro, 0⟩]⟩,
   ⟨0x5c, 0x30, 16, 4, 1, [⟨0, 16, .ro, 0⟩]⟩,
   ⟨0x60, 0x30, 16, 4, 1, [⟨0, 16, .rc, 0⟩, ⟨16, 16, .rc, 0⟩]⟩]
/-- The registers of block page `elog`, as the spec's register table lays them out. -/
def RegPage.elog : List RegTpl :=
  [⟨0x0, 0x1000, 1, 4, 1, [⟨0, 13, .ro, 0⟩, ⟨13, 1, .w1c, 0⟩, ⟨16, 16, .rc, 0⟩]⟩,
   ⟨0x4, 0x1000, 1, 4, 1, [⟨0, 32, .ro, 0⟩]⟩,
   ⟨0x8, 0x1000, 1, 4, 1, [⟨0, 32, .ro, 1⟩]⟩,
   ⟨0xc, 0x1000, 1, 4, 1, [⟨0, 16, .rc, 0⟩]⟩,
   ⟨0x10, 0x1000, 1, 4, 1, [⟨0, 11, .rw, 0⟩, ⟨11, 1, .rw, 0⟩]⟩,
   ⟨0x100, 0x1000, 1, 4, 1, [⟨0, 32, .rw, 0⟩]⟩,
   ⟨0x120, 0x4, 8, 4, 1, [⟨0, 32, .ro, 0⟩]⟩]
/-- The registers of block page `mon`, as the spec's register table lays them out. -/
def RegPage.mon : List RegTpl :=
  [⟨0x0, 0x1000, 1, 4, 1, [⟨0, 1, .rw, 0⟩, ⟨1, 1, .w1s, 0⟩, ⟨8, 8, .ro, 0⟩]⟩,
   ⟨0x8, 0x1000, 1, 4, 1, [⟨0, 32, .ro, 0⟩]⟩,
   ⟨0xc, 0x1000, 1, 4, 1, [⟨0, 32, .ro, 0⟩]⟩,
   ⟨0x10, 0x1000, 1, 4, 1, [⟨0, 8, .w1c, 0⟩, ⟨8, 8, .ro, 0⟩, ⟨16, 16, .rc, 0⟩]⟩,
   ⟨0x40, 0x20, 8, 4, 1, [⟨0, 16, .rw, 0⟩, ⟨16, 1, .rw, 0⟩, ⟨17, 1, .rw, 0⟩]⟩,
   ⟨0x44, 0x20, 8, 4, 1, [⟨0, 16, .rw, 0⟩, ⟨16, 16, .rw, 0⟩]⟩,
   ⟨0x48, 0x20, 8, 4, 1, [⟨0, 32, .rw, 0⟩]⟩,
   ⟨0x4c, 0x20, 8, 4, 1, [⟨0, 16, .rw, 0⟩]⟩,
   ⟨0x50, 0x20, 8, 4, 1, [⟨0, 16, .ro, 0⟩, ⟨16, 7, .ro, 0⟩]⟩,
   ⟨0x54, 0x20, 8, 4, 1, [⟨0, 32, .ro, 0⟩]⟩,
   ⟨0x58, 0x20, 8, 4, 1, [⟨0, 20, .ro, 0⟩]⟩,
   ⟨0x5c, 0x20, 8, 4, 1, [⟨0, 32, .ro, 0⟩]⟩]
/-- The registers of block page `skim`, as the spec's register table lays them out. -/
def RegPage.skim : List RegTpl :=
  [⟨0x0, 0x1000, 1, 4, 1, [⟨0, 1, .ro, 0⟩, ⟨1, 3, .ro, 0⟩, ⟨4, 1, .w1c, 0⟩]⟩,
   ⟨0x4, 0x1000, 1, 4, 1, [⟨0, 32, .ro, 0⟩]⟩,
   ⟨0x8, 0x1000, 1, 4, 1, [⟨0, 16, .rc, 0⟩, ⟨16, 16, .rc, 0⟩]⟩,
   ⟨0x10, 0x1000, 1, 4, 1, [⟨0, 32, .rw, 0⟩]⟩,
   ⟨0x14, 0x1000, 1, 4, 1, [⟨0, 32, .rw, 0⟩]⟩,
   ⟨0x18, 0x1000, 1, 4, 1, [⟨0, 11, .rw, 0⟩, ⟨11, 1, .rw, 0⟩, ⟨12, 1, .rw, 0⟩]⟩,
   ⟨0x20, 0x1000, 1, 4, 1, [⟨0, 6, .ro, 0⟩, ⟨16, 16, .ro, 0⟩]⟩,
   ⟨0x24, 0x1000, 1, 4, 1, [⟨0, 32, .ro, 0⟩]⟩,
   ⟨0x28, 0x1000, 1, 4, 1, [⟨0, 32, .ro, 0⟩]⟩,
   ⟨0x2c, 0x1000, 1, 4, 1, [⟨0, 32, .ro, 0⟩]⟩]
/-- The registers of block page `hbk`, as the spec's register table lays them out. -/
def RegPage.hbk : List RegTpl :=
  [⟨0x0, 0x1000, 1, 4, 1, [⟨0, 1, .ro, 0⟩, ⟨1, 1, .w1c, 0⟩]⟩,
   ⟨0x4, 0x1000, 1, 4, 1, [⟨0, 32, .ro, 0⟩]⟩,
   ⟨0x8, 0x1000, 1, 4, 1, [⟨0, 16, .ro, 0⟩]⟩,
   ⟨0xc, 0x1000, 1, 4, 1, [⟨0, 1, .w1s, 0⟩, ⟨1, 16, .rwk, 0x64⟩]⟩,
   ⟨0x10, 0x1000, 1, 4, 1, [⟨0, 8, .ro, 0⟩, ⟨8, 8, .ro, 0⟩, ⟨16, 8, .rc, 0x80⟩]⟩]
/-- The registers of block page `ren`, as the spec's register table lays them out. -/
def RegPage.ren : List RegTpl :=
  [⟨0x0, 0x1000, 1, 4, 1, [⟨0, 5, .ro, 0⟩, ⟨5, 1, .ro, 0⟩]⟩,
   ⟨0x4, 0x1000, 1, 4, 1, [⟨0, 2, .ro, 0⟩, ⟨2, 16, .ro, 0⟩]⟩,
   ⟨0x100, 0x8, 16, 4, 1, [⟨0, 8, .rwk, 0⟩, ⟨16, 16, .rwk, 0⟩]⟩,
   ⟨0x104, 0x8, 16, 4, 1, [⟨0, 32, .rwk, 0⟩]⟩]
end Sys2Proof.Machine
end

