-- ==== Sys2Proof/Machine/Ops.lean ====
section
/-! DEFINITION. The named operations over tables, the mailbox memory, register fields, free values, event records, error
records, the Herdbook, the monitors and message interrupts, through which every meaning acts. -/
namespace Sys2Proof.Machine
open Sys2Proof

/-! ### Sparse tables -/

/-- The entry at a key. -/
def Tab.get {α : Type} : List (Nat × α) → Nat → Option α
  | [], _ => none
  | (j, v) :: t, k => if j = k then some v else Tab.get t k

/-- Write an entry, keeping keys rising. -/
def Tab.set {α : Type} : List (Nat × α) → Nat → α → List (Nat × α)
  | [], k, v => [(k, v)]
  | (j, w) :: t, k, v => if k < j then (k, v) :: (j, w) :: t else if k = j then (k, v) :: t else (j, w) :: Tab.set t k v

/-- Remove the entry at a key. -/
def Tab.erase {α : Type} : List (Nat × α) → Nat → List (Nat × α)
  | [], _ => []
  | (j, w) :: t, k => if k = j then Tab.erase t k else (j, w) :: Tab.erase t k

/-- The entry at a key, or a default. -/
def Tab.getD {α : Type} (t : List (Nat × α)) (k : Nat) (d : α) : α := (Tab.get t k).getD d

/-- Write an entry, leaving the default unlisted. -/
def Tab.put {α : Type} [DecidableEq α] (t : List (Nat × α)) (k : Nat) (v d : α) : List (Nat × α) :=
  if v = d then Tab.erase t k else Tab.set t k v

/-- Add one to a count held in a table of counts. -/
def Tab.bump (t : Tab Nat) (k n : Nat) : Tab Nat := Tab.put t k (Tab.getD t k 0 + n) 0

/-! ### Mailbox memory (R417) -/

/-- One byte of a mailbox buffer; a byte nothing has written reads as zero, the buffer's reset value. -/
def Memory.read (m : Memory) (a : Nat) : Byte := Tab.getD m a 0

/-- Write one byte. -/
def Memory.write (m : Memory) (a : Nat) (b : Byte) : Memory := Tab.put m a b 0

/-- Write bytes at rising addresses. -/
def Memory.writeBytes (m : Memory) (a : Nat) : List Byte → Memory
  | [] => m
  | b :: t => Memory.writeBytes (Memory.write m a b) (a + 1) t

/-- Read n bytes. -/
def Memory.readBytes (m : Memory) (a : Nat) : Nat → List Byte
  | 0 => []
  | n + 1 => Memory.read m a :: Memory.readBytes m (a + 1) n

/-- Keys strictly rise from a bound. -/
def Tab.risesFrom {α : Type} : Nat → List (Nat × α) → Bool
  | _, [] => true
  | lo, (j, _) :: t => decide (lo ≤ j) && Tab.risesFrom (j + 1) t

/-- The canonical form of the mailbox memory: addresses strictly rising, no listed zero. -/
def Memory.wf (m : Memory) : Bool := Tab.risesFrom 0 m && m.all (fun c => decide (c.2 ≠ 0))

/-- The cell address of byte `o` of mailbox `mb` (o = 0x100 to 0xFFF). -/
def Mailbox.cell (mb o : Nat) : Nat := 0x1000 * mb + o

/-! ### Register fields -/

/-- The value of a register field. -/
def Dev.rd (d : Dev) (f : Field) : Nat := Tab.getD d.regs f.key f.reset

/-- Set a register field, truncated to its width. -/
def Dev.wr (d : Dev) (f : Field) (v : Nat) : Dev :=
  { d with regs := Tab.put d.regs f.key (v % 2 ^ f.width) f.reset }

/-- A one-bit field as a flag. -/
def Dev.flag (d : Dev) (f : Field) : Bool := decide (d.rd f ≠ 0)

/-- Set or clear a one-bit field. -/
def Dev.wrFlag (d : Dev) (f : Field) (b : Bool) : Dev := d.wr f (flagBit b)

/-- Set a one-bit field. -/
def Dev.raise1 (d : Dev) (f : Field) : Dev := d.wr f 1

/-- Add to a saturating counter. -/
def Dev.add (d : Dev) (f : Field) (n : Nat) : Dev := d.wr f (saturate f.width (d.rd f + n))

/-- Count one. -/
def Dev.inc (d : Dev) (f : Field) : Dev := d.add f 1

/-- Monitor page fields (R550), held apart. -/
def Dev.mrd (d : Dev) (f : Field) : Nat := Tab.getD d.monRegs f.key f.reset

/-- Set a monitor page field. -/
def Dev.mwr (d : Dev) (f : Field) (v : Nat) : Dev :=
  { d with monRegs := Tab.put d.monRegs f.key (v % 2 ^ f.width) f.reset }

/-! ### Output and free values -/

/-- Send something. -/
def Dev.emit (d : Dev) (o : Out) : Dev := { d with out := d.out ++ [o] }

/-- The next free value at a site (log entry 2). -/
def Dev.freeVal (d : Dev) (site : Nat) : Nat := Config.freeValue site d.freeCtr

/-- Note that a free value was drawn. -/
def Dev.drawn (d : Dev) : Dev := { d with freeCtr := d.freeCtr + 1 }

/-! ### Typed tables of units -/

/-- CXL port p. -/
def Dev.port (d : Dev) (p : Nat) : CxlPort := Tab.getD d.cxl p {}
/-- Replace CXL port p. -/
def Dev.setPort (d : Dev) (p : Nat) (x : CxlPort) : Dev := { d with cxl := Tab.put d.cxl p x {} }
/-- Firmware bank b. -/
def Dev.bank (d : Dev) (b : Nat) : Bank := Tab.getD d.banks b {}
/-- Replace bank b. -/
def Dev.setBank (d : Dev) (b : Nat) (x : Bank) : Dev := { d with banks := Tab.put d.banks b x {} }
/-- Slot power channel c. -/
def Dev.channel (d : Dev) (c : Nat) : PowerChannel := Tab.getD d.power c {}
/-- Replace channel c. -/
def Dev.setChannel (d : Dev) (c : Nat) (x : PowerChannel) : Dev := { d with power := Tab.put d.power c x {} }
/-- Training state of QFL port p. -/
def Dev.qphy (d : Dev) (p : Nat) : QflPhy := Tab.getD d.phy p {}
/-- Replace the training state of QFL port p. -/
def Dev.setQphy (d : Dev) (p : Nat) (x : QflPhy) : Dev := { d with phy := Tab.put d.phy p x {} }
/-- Lane l. -/
def Dev.laneOf (d : Dev) (l : Nat) : LaneState := Tab.getD d.lanes l {}
/-- Replace lane l. -/
def Dev.setLane (d : Dev) (l : Nat) (x : LaneState) : Dev := { d with lanes := Tab.put d.lanes l x {} }
/-- Instance n. -/
def Dev.instOf (d : Dev) (n : Nat) : Inst := Tab.getD d.inst n {}
/-- Replace instance n. -/
def Dev.setInst (d : Dev) (n : Nat) (x : Inst) : Dev := { d with inst := Tab.put d.inst n x {} }

/-! ### Modes, identity -/

/-- CURRENT_MODE, 0 to 11 (R37). -/
def Dev.mode (d : Dev) : Nat := if d.rst.inOm0 then 0 else d.rd Glob.CURRENT_MODE
/-- CHAIN_ADDRESS. -/
def Dev.chainAddr (d : Dev) : Nat := d.rd Glob.CHAIN_ADDRESS
/-- The membership epoch. -/
def Dev.epoch (d : Dev) : Nat := d.rd Memb.EPOCH
/-- The owner address this device homes extents under (R377, R193): a mirror homes none. -/
def Dev.homeAddr (d : Dev) : Nat :=
  if d.flag Memb.ACTING then d.rd Memb.PAIR_ADDR else if d.mode = 6 then 0 else d.chainAddr
/-- VQX964-FC75-S (R1). -/
def Dev.partS (d : Dev) : Bool := d.fuses.certFuse
/-- Pooled traffic runs in OM4 to OM10 (R32). -/
def Dev.serves (d : Dev) : Bool := decide (4 ≤ d.mode) && decide (d.mode ≤ 10)

/-- Admission is stopped on every port and each Ladle stops at its next piece boundary: a warm-reset drain runs, or PWRFAIL_N fell
(R284, R285, R287). -/
def Dev.stopped (d : Dev) : Bool := d.rst.draining.isSome || d.flag Glob.PWRFAIL_HOLD

/-- In OM11 a scan instruction that drives the pins holds every link down (R576). -/
def Dev.scanHolds (d : Dev) : Bool := decide (d.mode = 11) && [0, 4, 5, 6, 7].contains d.jtag.instruction

/-- Group of a port, and the configuration of R41 to R44. -/
def Dev.personality (d : Dev) (p : Nat) : Nat := d.rd (Pg.PERSONALITY (p / 4))

/-- Ports of a group present under a bifurcation code (R41), as offsets 0 to 3. -/
def presentOffsets (code : Nat) (odd : Bool) : List Nat :=
  match code with
  | 0 => [0]
  | 1 => [0, 2]
  | 2 => [0, 2, 3]
  | 3 => [0, 1, 2, 3]
  | 4 => if odd then [] else [0]
  | _ => []

/-- Port p exists (R14, R41). -/
def Dev.present (d : Dev) (p : Nat) : Bool :=
  decide (p < 64) && decide (d.personality p ≠ 0) &&
    (presentOffsets (d.rd (Pg.BIFURCATION (p / 4))) (decide (p / 4 % 2 = 1))).contains (p % 4)

/-- Port p is a CXL host port, a CXL device port, a QFL port. -/
def Dev.isHostPort (d : Dev) (p : Nat) : Bool := d.present p && decide (d.personality p = 1)
/-- Port p is a CXL device port. -/
def Dev.isDevicePort (d : Dev) (p : Nat) : Bool := d.present p && decide (d.personality p = 2)
/-- Port p is a QFL port. -/
def Dev.isQflPort (d : Dev) (p : Nat) : Bool := d.present p && decide (d.personality p = 3)
/-- Every port present. -/
def Dev.ports (d : Dev) : List Nat := (List.range 64).filter (d.present ·)

/-- Port p reports DL_Active. -/
def Dev.linkUp (d : Dev) (p : Nat) : Bool := d.flag (Pg.DL_UP p)

/-! ### Monitors (R525 to R528) -/

/-- The upper half of the time of a held sample, for its record (R532); no register shows it: it stands past the
registers of the monitor's page. -/
def Mon.SAMPLE_TIME_HI (m c : Nat) : Field := ⟨(0x40000 + 0x1000 * m + 0x200 + 4 * c) * 32, 32, 0⟩

/-- The event of code `code`, of originator `master` and at address `addr`, at counter k of monitor m. -/
def Dev.monCount (t : Nat) (m k code master addr : Nat) (d : Dev) : Dev :=
  let filt := d.mrd (Mon.MASTER_FILTER_EN m k) = 1
  let hit := d.mrd (Mon.EVENT m k) = code ∧ code % 256 ≠ 0 ∧
    (¬ filt ∨ (master ≠ 0xffff ∧
      Nat.land master (d.mrd (Mon.MASTER_MASK m k)) = Nat.land (d.mrd (Mon.MASTER_VALUE m k)) (d.mrd (Mon.MASTER_MASK m k))))
  if ¬ hit then d else
  let n := d.mrd (Mon.COUNT_LO m k) + 2 ^ 32 * d.mrd (Mon.COUNT_HI m k) + 1
  let d := (d.mwr (Mon.COUNT_LO m k) (n % 2 ^ 32)).mwr (Mon.COUNT_HI m k) (n / 2 ^ 32)
  let held := fieldOf (d.mrd (Mon.SAMPLE_HELD m)) k 1 = 1
  let latch (skid : Nat) (d : Dev) : Dev :=
    (((((((d.mwr (Mon.SAMPLE_MASTER m k) master).mwr (Mon.SKID m k) skid).mwr (Mon.SAMPLE_ADDR_LO m k) addr).mwr
      (Mon.SAMPLE_ADDR_HI m k) (addr / 2 ^ 32)).mwr (Mon.SAMPLE_TIME m k) t).mwr (Mon.SAMPLE_TIME_HI m k) (t / 2 ^ 32)).mwr (Mon.SAMPLE_HELD m)
        (Nat.lor (d.mrd (Mon.SAMPLE_HELD m)) (2 ^ k)))
  if n = 2 ^ 48 then
    let d := d.mwr (Mon.OVF m) (Nat.lor (d.mrd (Mon.OVF m)) (2 ^ k))
    if d.mrd (Mon.SAMPLE_EN m k) = 0 then d
    else if held then d.mwr (Mon.SAMPLES_MISSED m) (saturate 16 (d.mrd (Mon.SAMPLES_MISSED m) + 1))
    else
      let skid := d.freeVal 1 % 65
      let d := d.drawn
      if skid = 0 then latch 0 d else { d with monPending := Tab.set d.monPending (m * 8 + k) (skid, skid) }
  else
    match Tab.get d.monPending (m * 8 + k) with
    | some (left, skid) =>
      if left ≤ 1 then latch skid { d with monPending := Tab.erase d.monPending (m * 8 + k) }
      else { d with monPending := Tab.set d.monPending (m * 8 + k) (left - 1, skid) }
    | none => d

/-- The eight counters of monitor m see an event. -/
def Dev.monAll (t : Nat) (m code master addr : Nat) (d : Dev) : Dev :=
  (List.range 8).foldl (fun d k => d.monCount t m k code master addr) d

/-- An event of a monitored block; only the monitor pages, the owed samples and the free-value counter change. -/
def Dev.mon (t : Nat) (m code master addr : Nat) (d : Dev) : Dev :=
  if d.mrd (Mon.ENABLE m) = 0 then d else
  let e := d.monAll t m code master addr
  { d with monRegs := e.monRegs, monPending := e.monPending, freeCtr := e.freeCtr }

/-- Events that rules count in the port monitor though R527 gives them no code: failed trainings (R52, R88), LCM commands ignored (R82,
R111), discarded responses (R147). -/
inductive PortEvent where
  | training | lcm | response
deriving DecidableEq, Repr

/-- Number of a port event. -/
def PortEvent.code : PortEvent → Nat
  | .training => 0 | .lcm => 1 | .response => 2

/-- Count an event of a port beside its monitor page (log entry 64). -/
def Dev.countPort (p : Nat) (e : PortEvent) (d : Dev) : Dev := { d with portCounts := Tab.bump d.portCounts (8 * p + e.code) 1 }

/-! ### Herdbook counters (R540) -/

/-- Add to counter i of the live record, saturating at 32 bits. -/
def Dev.hbCount (d : Dev) (i n : Nat) : Dev :=
  { d with hbk := { d.hbk with counters := Tab.put d.hbk.counters i (saturate 32 (Tab.getD d.hbk.counters i 0 + n)) 0 } }

/-! ### Message interrupts and posted writes toward a host (R328 to R330, R269) -/

/-- The page of the instance monitor does not exist; events naming a vector outside the allocation are counted per instance. -/
def Dev.vectorOutside (d : Dev) (vi : Nat) : Dev := { d with irq := { d.irq with dropped := Tab.bump d.irq.dropped vi 1 } }

/-- The host port an instance is served through: the lowest-numbered of its ports in DL_Active (R293, R321). -/
def Dev.hostPortOf (d : Dev) (vi : Nat) : Option Nat :=
  let i := d.instOf vi
  match i.portA, i.portB with
  | some a, some b =>
    if d.linkUp a ∧ d.linkUp b then some (min a b) else if d.linkUp a then some a else if d.linkUp b then some b else some (min a b)
  | some a, none => some a
  | none, b => b

/-- Entries a port's buffer may hold (R269), by bifurcation. -/
def Dev.portLimit (d : Dev) (p : Nat) : Nat :=
  if ¬ d.present p ∨ d.personality p = 3 then 0 else
  match d.rd (Pg.BIFURCATION (p / 4)) with
  | 0 => 4096
  | 1 => 2048
  | 2 => if p % 4 = 0 then 2048 else 1024
  | 3 => 1024
  | _ => 0

/-- Entries a port holds. -/
def Dev.portEntries (d : Dev) (p : Nat) : Nat := (d.buf.entries.filter (fun e => e.port = p)).length

/-- Refresh the buffer occupancy registers of a port and its group (R290). -/
def Dev.syncBuf (d : Dev) (p : Nat) : Dev :=
  let g := (d.buf.entries.filter (fun e => e.port / 4 = p / 4)).length
  let d := (d.wr (Pg.PORT_ENTRIES p) (d.portEntries p)).wr (Pg.GROUP_ENTRIES (p / 4)) g
  if d.rd (Pg.GROUP_PEAK (p / 4)) < g then d.wr (Pg.GROUP_PEAK (p / 4)) g else d

/-- Two bodies are writes of the same line (R270). -/
def WriteBody.sameLine : WriteBody → WriteBody → Bool
  | .line _ a _ _ _, .line _ b _ _ _ => decide (a = b)
  | _, _ => false

/-- Bytes of `new` where `be` enables them, of `old` elsewhere. -/
def mergeLine (old new : Line) (be : Enables) : Line :=
  (List.range 64).foldl (fun (acc : Line) i =>
    if be.getLsbD i then
      (acc &&& ~~~((BitVec.ofNat 512 0xff) <<< (8 * i))) ||| (new &&& ((BitVec.ofNat 512 0xff) <<< (8 * i)))
    else acc) old

/-- A later write merged over an earlier one to the same line; a fully enabled later write heals poison, a partial one keeps it. -/
def WriteBody.over : WriteBody → WriteBody → WriteBody
  | .line a p be1 d1 p1, .line _ _ be2 d2 p2 =>
    .line a p (be1 ||| be2) (mergeLine d1 d2 be2) (p2 || (p1 && decide (be2 ≠ BitVec.allOnes 64)))
  | _, b => b

/-- Put a write into the buffer list: merged into the youngest entry of its target when that is of the same line and has not
left (R270), a new entry otherwise. -/
def mergeEntry (es : List EgressEntry) (e : EgressEntry) : List EgressEntry :=
  match es.reverse.find? (fun x => x.port = e.port ∧ x.ld = e.ld) with
  | some y =>
    if y.body.sameLine e.body ∧ ¬ y.sent ∧ y.incarnation = e.incarnation then
      es.map (fun x => if x = y then { y with body := y.body.over e.body, writes := y.writes ++ e.writes } else x)
    else es ++ [e]
  | none => es ++ [e]

/-- What leaves a host port for an entry: a posted write goes at once, in the order of acceptance. -/
def EgressEntry.hostMsg (e : EgressEntry) : Option HostMsg :=
  match e.body with
  | .host a bs ep => some (.write a bs ep)
  | .msix vi v => some (.msix vi v)
  | .line _ _ _ _ _ => none

/-- Accept a write into its port's buffer (R260); the caller has found room. A write toward a host leaves at once. -/
def Dev.acceptEntry (d : Dev) (e : EgressEntry) : Dev :=
  match e.hostMsg with
  | some m =>
    (({ d with buf := { d.buf with entries := d.buf.entries ++ [{ e with sent := true }] } }).syncBuf e.port).emit (.host e.port m)
  | none => ({ d with buf := { d.buf with entries := mergeEntry d.buf.entries e } }).syncBuf e.port

/-- Room for one more entry of a port. -/
def Dev.hasRoom (d : Dev) (p : Nat) : Bool := decide (d.portEntries p < d.portLimit p)

/-- A posted write of the device toward the host memory of an instance: into the buffer of its host port's group, or waiting
for room (R260, R271). An instance without a host port has no target, and the write is dropped. -/
def Dev.postHost (t : Nat) (vi master epoch : Nat) (body : WriteBody) (d : Dev) : Dev :=
  match d.hostPortOf vi with
  | none => d
  | some p =>
    let e : EgressEntry := {
      port := p, ld := 0, body, incarnation := d.rd (Pg.INCARNATION p),
      writes := [{ id := d.buf.nextId, master, time := t, ruleEpoch := epoch }] }
    let d := { d with buf := { d.buf with nextId := d.buf.nextId + 1 } }
    if d.hasRoom p then d.acceptEntry e else { d with buf := { d.buf with waiting := d.buf.waiting ++ [e] } }

/-- Key of a vector. -/
def vecKey (vi vec : Nat) : Nat := vi * 2048 + vec

/-- The instance whose function holds a vector: 64 stands for the management function. -/
def Dev.vecInstance (d : Dev) (vi : Nat) : Option Nat :=
  if vi = 64 then (if d.flag Glob.MGMT_VALID then some (d.rd Glob.MGMT_INSTANCE) else none) else some vi

/-- A vector is masked by the Function Mask or its Vector Control; the PCIe base leaves Vector Control set at reset. -/
def Dev.vecMasked (d : Dev) (vi vec : Nat) : Bool :=
  d.irq.functionMask.contains vi || decide (fieldOf (Tab.getD d.irq.table (vecKey vi vec * 4 + 3) 1) 0 1 = 1)

/-- Send a due message, or hold it in the PBA while its vector is masked (R330). -/
def Dev.sendVector (t vi vec : Nat) (d : Dev) : Dev :=
  let k := vecKey vi vec
  if d.vecMasked vi vec then
    if d.irq.pba.contains k then d else { d with irq := { d.irq with pba := d.irq.pba ++ [k] } }
  else
    let d := { d with irq := { d.irq with
      pba := d.irq.pba.filter (fun x => x ≠ k), timers := d.irq.timers.filter (fun x => x ≠ k) } }
    let d := if vi < 64 then d.wr (Vi.PENDING_EVENTS vi vec) 0 else d
    match d.vecInstance vi with
    | none => d
    | some v => d.postHost t v 0x4000 (d.rd GateR.RULE_EPOCH) (.msix vi vec)

/-- An event on a vector (R328, R329). -/
def Dev.irqEvent (t vi vec : Nat) (urgent : Bool) (d : Dev) : Dev :=
  if vi = 64 then d.sendVector t 64 vec
  else if ¬ vec < d.rd (Vi.MSIX_COUNT vi) then d.vectorOutside vi
  else
    let n := saturate 8 (d.rd (Vi.PENDING_EVENTS vi vec) + 1)
    let d := d.wr (Vi.PENDING_EVENTS vi vec) n
    let th := d.rd (Vi.COUNT_THRESH vi vec)
    if urgent ∨ th ≤ 1 ∨ th ≤ n ∨ d.rd (Vi.TIMER vi vec) = 0 then d.sendVector t vi vec
    else if d.irq.timers.contains (vecKey vi vec) then d
    else { d with irq := { d.irq with timers := d.irq.timers ++ [vecKey vi vec] } }

/-! ### Event records (R427 to R429) -/

/-- The mailbox of the management function shows EVENT_PENDING while records wait for it (R428, R429). -/
def Dev.syncEventPending (t : Nat) (d : Dev) : Dev :=
  let want := decide (d.events.cls = 2) && decide (d.events.queue ≠ [])
  let was := d.flag (Mbx.EVENT_PENDING 64)
  let d := d.wrFlag (Mbx.EVENT_PENDING 64) want
  if want && !was && d.flag (Mbx.EVENT_IRQ_EN 64) then d.irqEvent t 64 (d.rd (Mbx.VECTOR 64)) false else d

/-- Append a record to the queue of 1,024, dropping the oldest when full. -/
def Dev.queueEvent (t : Nat) (r : EventRec) (d : Dev) : Dev :=
  let e := d.events
  let (q, n) := if e.queue.length < 1024 then (e.queue, e.dropped) else (e.queue.drop 1, e.dropped + 1)
  (({ d with events := { e with queue := q ++ [r], dropped := n } }).mon t 0x39 0x902 0xffff 0).syncEventPending t

/-- Queue a record of this device: it takes the device's next SEQ (R427). -/
def Dev.enqueueEvent (t : Nat) (r : EventRec) (d : Dev) : Dev :=
  let n := d.events.nextSeq
  ({ d with events := { d.events with nextSeq := n + 1 } }).queueEvent t { r with seq := n }

/-- Post an event record of this device: code, DATA as a number, MORE. An EVENTS_LOST record goes first when records were
dropped and there is room again. -/
def Dev.post (t code data : Nat) (d : Dev) : Dev :=
  let mk (c x : Nat) : EventRec := { code := c, source := d.chainAddr, seq := 0, time := t, epoch := d.epoch, data := x }
  let d := if 0 < d.events.dropped ∧ d.events.queue.length < 1023 then
      let n := d.events.dropped
      ({ d with events := { d.events with dropped := 0 } }).enqueueEvent t (mk 0xc n)
    else d
  d.enqueueEvent t (mk code data)

/-! ### Error records (R514 to R523) -/

/-- What a record says beside its number, time and epoch. -/
structure ErrArgs where
  cls : Nat
  severity : Nat
  source : Nat
  access : Nat := 0
  master : Nat := 0xffff
  rule : Nat := 0xffff
  addr : Nat := 0
  detail : Nat := 0
  /-- TIME when the class states another than the event's. -/
  time : Option Nat := none
deriving DecidableEq, Repr

/-- The log of 4,096 entries takes a record (R520): a full log replaces its oldest record of no higher severity, or drops
the new one; the second component counts the record replaced or dropped. -/
def logInsert (log : List ErrorRec) (r : ErrorRec) : List ErrorRec × Nat :=
  if log.length < 4096 then (log ++ [r], 0)
  else
    match log.find? (fun x => x.severity ≤ r.severity) with
    | some old => (log.erase old ++ [r], 1)
    | none => (log, 1)

/-- FIRST_NUMBER and RECORDS follow the log (R549). -/
def Dev.syncLog (d : Dev) : Dev :=
  (d.wr Elog.RECORDS d.errors.length).wr Elog.FIRST_NUMBER ((d.errors.map (·.number)).foldl min (d.rd Elog.NEXT_NUMBER))

/-- Write an error record (R514, R519, R520, R522, R523). -/
def Dev.logErr (t : Nat) (a : ErrArgs) (d : Dev) : Dev :=
  let r : ErrorRec := {
    number := d.rd Elog.NEXT_NUMBER, cls := a.cls, severity := a.severity, source := a.source,
    access := a.access, master := a.master, rule := a.rule, addr := a.addr, time := a.time.getD t, epoch := d.epoch,
    detail := a.detail }
  let (log, gone) := logInsert d.errors r
  let d := ({ d with errors := log }).wr Elog.NEXT_NUMBER (r.number + 1)
  let d := (d.add Elog.OVERWRITTEN gone).syncLog
  let d := if a.severity = 2 then (d.raise1 Elog.FATAL_EVT).hbCount 16 1 else d
  let d := d.mon t 0x39 0x903 0xffff 0
  if a.severity ≠ 0 ∧ d.flag Elog.LOG_IRQ_EN then d.irqEvent t 64 (d.rd Elog.LOG_VECTOR) false else d

/-- An array correction: at most one record per array instance and millisecond, the rest counted (R518, R524). -/
def Dev.logCorrected (t inst source addr detail : Nat) (d : Dev) : Dev :=
  let d := d.hbCount 3 1
  match Tab.get d.lastCorrected inst with
  | some u =>
    if t < u + 1000000 then d.inc Elog.CORRECTED_SUPPRESSED
    else ({ d with lastCorrected := Tab.set d.lastCorrected inst t }).logErr t { cls := 1, severity := 0, source, addr, detail }
  | none => ({ d with lastCorrected := Tab.set d.lastCorrected inst t }).logErr t { cls := 1, severity := 0, source, addr, detail }

/-! ### Hardware errors (R194, R254 to R256, R524) -/

/-- A covered unit computes: its wrong result, when there is one, is met (R254). -/
def Dev.residueFails (f : Flaw) (d : Dev) : Dev × Bool :=
  if d.flaws.contains f then ({ d with flaws := d.flaws.erase f }, true) else (d, false)

/-- A residue error is recorded and counted (R256); `detail` names the unit. -/
def Dev.residueError (t : Nat) (counter : Field) (source access master addr detail : Nat) (d : Dev) : Dev :=
  ((d.inc counter).hbCount 5 1).logErr t { cls := 5, severity := 1, source, access, master, addr, detail }

/-- Index and wrong bits of a flaw that is a word of the array and unit read. -/
def Flaw.inRead (code unit : Nat) (hit : Nat → Bool) : Flaw → Option (Nat × Nat)
  | .word c u i b => if c = code ∧ u = unit ∧ hit i ∧ 0 < b then some (i, b) else none
  | _ => none

/-- Words of an array are read (R194, R524): a correctable error is corrected, recorded and counted; `true` tells of an uncorrectable
one, recorded and counted, but for tier 1, whose loss R201 records. -/
def Dev.readArray (t code unit source : Nat) (hit : Nat → Bool) (d : Dev) : Dev × Bool :=
  match d.flaws.findSome? (Flaw.inRead code unit hit) with
  | none => (d, false)
  | some (i, b) =>
    let d := { d with flaws := d.flaws.erase (.word code unit i b) }
    if b ≤ (if code = 1 then 2 else 1) then (d.logCorrected t (code + 16 * unit) source i (code + 256 * b), false)
    else
      let d := d.hbCount 4 1
      (if code = 1 then d
       else d.logErr t { cls := 2, severity := if code = 9 ∨ code = 10 then 2 else 1, source, addr := i, detail := code }, true)

/-- A security event (R483): LAST_EVENT and SEC_EVT, event record 0x000E, error record of class SECURITY. -/
def Dev.secEvent (t code : Nat) (d : Dev) : Dev :=
  let d := (d.wr ScR.LAST_EVENT code).raise1 ScR.SEC_EVT
  let d := d.post t 0xe code
  d.logErr t { cls := 0xc, severity := if code ∈ [9, 10, 11, 12, 14] then 0 else 1, source := 0xc, detail := code }

/-! ### State-level liftings -/

/-- A command that acts on the device alone. -/
def onDev (f : Nat → Dev → Dev) (s : State) : Host.Outcome State Fault Refusal := .next { s with dev := f s.time.now s.dev }

end Sys2Proof.Machine
end

