-- ==== Sys2Proof/Machine/Residue.lean ====
section
/-! DEFINITION. The residue checks: residues modulo 3, what a unit predicts of its result, and the check of a result (R254, R255). -/
namespace Sys2Proof.Machine
open Sys2Proof

/-- The residue of a value: its remainder modulo 3. -/
def residue (n : Nat) : Nat := n % 3

/-- The residue of 2^k: 1 for even k, 2 for odd k. -/
def powResidue (k : Nat) : Nat := if k % 2 = 0 then 1 else 2

/-- The residue an n-bit addition predicts: that of both operands, less that of 2^n for a carry out. -/
def addResidue (n a b : Nat) : Nat :=
  (residue a + residue b + 3 - (if 2 ^ n ≤ a + b then powResidue n else 0)) % 3

/-- The residue an n-bit subtraction predicts: the operands' difference, and that of 2^n for a borrow. -/
def subResidue (n a b : Nat) : Nat :=
  (residue a + 3 - residue b + (if a < b then powResidue n else 0)) % 3

/-- The residue of a value put together from fields, each with its lowest bit: the residues of the fields times those of their powers. -/
def joinResidue (fields : List (Nat × Nat)) : Nat := (fields.map (fun f => residue f.1 * powResidue f.2)).foldl (· + ·) 0 % 3

/-- A covered unit computes and is checked (R254): `true` tells that the residue it predicts and the residue of its result differ. A unit
that fails has one wrong bit in its result; that it is bit 0 is the model's (DESIGN CHOICE, log entry 176): every single bit is
found, since no power of two has residue 0. -/
def Dev.unitWrong (f : Flaw) (predicted right : Nat) (d : Dev) : Dev × Bool :=
  match d.residueFails f with
  | (d, wrong) => (d, decide (predicted ≠ residue (if wrong then Nat.xor right 1 else right)))

end Sys2Proof.Machine
end

