-- ==== Sys2Proof/Machine/Operands.lean ====
section
/-! DEFINITION. Operand forms: CRC-32C, byte strings of records, master IDs, event and error records as bytes. -/
namespace Sys2Proof.Machine
open Sys2Proof

/-! ### CRC-32C -/

/-- One bit of the reflected CRC-32C register. -/
def crcBit (r : BitVec 32) : BitVec 32 := if r.getLsbD 0 then (r >>> 1) ^^^ 0x82f63b78#32 else r >>> 1

/-- One byte into the register. -/
def crcByte (r : BitVec 32) (b : Byte) : BitVec 32 :=
  let r := r ^^^ b.setWidth 32
  crcBit (crcBit (crcBit (crcBit (crcBit (crcBit (crcBit (crcBit r)))))))

/-- CRC-32C of a byte string, seeded. -/
def crc32cFrom (seed : BitVec 32) (bs : List Byte) : BitVec 32 := bs.foldl crcByte seed

/-- CRC-32C of a byte string: register preset to ones, result inverted. -/
def crc32c (bs : List Byte) : BitVec 32 := ~~~(crc32cFrom 0xffffffff#32 bs)

/-! ### Master IDs (R39) -/

/-- A host port's traffic. -/
def masterHost (port vi : Nat) : Nat := port * 64 + vi
/-- A device port's traffic. -/
def masterDevice (port ld : Nat) : Nat := 0x1000 + port * 64 + ld
/-- A Ladle serving an instance pair. -/
def masterLadle (vi ladle : Nat) : Nat := 0x2000 + vi * 64 + ladle
/-- A Churn slice: kind 0 tier 2, 1 writeback, 2 poison write, 3 migration redirect. -/
def masterChurn (slice kind : Nat) : Nat := 0x3000 + slice * 64 + kind
/-- A Ladle serving a fabric-manager pair. -/
def masterFmLadle (ladle : Nat) : Nat := 0x4040 + ladle
/-- A QFL peer's instance traffic. -/
def masterPeer (chain vi : Nat) : Nat := 0x5000 + chain * 64 + vi
/-- A QFL peer's fabric-internal traffic: 0 Churn, 1 CP, 2 mirror. -/
def masterFabric (chain what : Nat) : Nat := 0x5800 + chain * 64 + what
/-- The CP's own blocks: 0 firmware, 1 the Skimmer, 2 the Herdbook controller. -/
def masterCp (what : Nat) : Nat := 0x4000 + what
/-- The SC: 0 boot and key loader, 1 zeroisation, 2 IDE key programming. -/
def masterSc (what : Nat) : Nat := 0x6000 + what
/-- The Skimmer. -/
def masterSkimmer : Nat := masterCp 1

/-! ### Records as bytes -/

/-- An event record (R427). -/
def EventRec.bytes (r : EventRec) : List Byte :=
  leBytes 2 r.code ++ leBytes 1 r.source ++ leBytes 1 (flagBit r.more) ++ leBytes 4 r.seq ++ leBytes 8 r.time ++ leBytes 4 r.epoch ++
    leBytes 12 r.data

/-- An event record from its 256 bits. -/
def EventRec.ofBits (b : BitVec 256) : EventRec :=
  let n := b.toNat
  { code := fieldOf n 0 16, source := fieldOf n 16 8, more := decide (fieldOf n 24 1 = 1), seq := fieldOf n 32 32,
    time := fieldOf n 64 64, epoch := fieldOf n 128 32, data := fieldOf n 160 96 }

/-- An error record (R514). -/
def ErrorRec.bytes (r : ErrorRec) : List Byte :=
  leBytes 1 r.cls ++ leBytes 1 r.severity ++ leBytes 1 r.source ++ leBytes 1 r.access ++ leBytes 2 r.master ++ leBytes 2 r.rule ++
    leBytes 8 r.addr ++ leBytes 8 r.time ++ leBytes 4 r.epoch ++ leBytes 4 r.detail

/-- Zero bytes. -/
def zeros (n : Nat) : List Byte := List.replicate n 0

/-- A host write of the device broken at 64-byte lines (R265). -/
def lineParts (addr : Nat) (bs : List Byte) (fuel : Nat) : List (Nat × List Byte) :=
  match fuel with
  | 0 => []
  | f + 1 =>
    if bs = [] then [] else
    let n := 64 - addr % 64
    (addr, bs.take n) :: lineParts (addr + n) (bs.drop n) f

/-- Post bytes to host memory, one part per line. -/
def Dev.postBytes (t vi master addr : Nat) (bs : List Byte) (d : Dev) : Dev :=
  (lineParts addr bs (bs.length + 1)).foldl (fun d x => d.postHost t vi master (d.rd GateR.RULE_EPOCH) (.host x.1 x.2 false)) d

end Sys2Proof.Machine
end

