-- ==== Sys2Proof/Machine/Usage.lean ====
section
/-! DEFINITION. Who uses a port or an instance: the questions that refusals of port, power and mode commands ask. -/
namespace Sys2Proof.Machine
open Sys2Proof
/-- Port p backs an extent (R161). -/
def Dev.extentBehind (d : Dev) (p : Nat) : Bool := d.extents.any (fun x => x.2.state ≠ 0 ∧ x.2.port = p)

/-- Slots of a window. -/
def Window.slots (w : Window) : List Nat := (List.range w.slotCount).map (· + w.slotBase)

/-- A slot lies in a window's range. -/
def Window.holds (w : Window) (k : Nat) : Bool := decide (w.slotBase ≤ k) && decide (k < w.slotBase + w.slotCount)

/-- Slots of the table that are valid or pending and lie in a window. -/
def Dev.heldSlots (d : Dev) (w : Window) : List Nat :=
  (d.slots.filter (fun x => w.holds x.1 ∧ (x.2.valid ∨ x.2.pending))).map (·.1)

/-- Instance vi holds a valid or pending binding. -/
def Dev.viBound (d : Dev) (vi : Nat) : Bool :=
  d.windows.any (fun x => x.2.enabled && decide (x.2.vi = vi) && decide (d.heldSlots x.2 ≠ []))

/-- Instance vi has an ENABLED or SUSPENDED pair. -/
def Dev.viQueueOn (d : Dev) (vi : Nat) : Bool :=
  d.ladles.pairs.any (fun x => !x.2.fm && decide (x.2.inst = vi) && (decide (x.2.state = 2) || decide (x.2.state = 3)))

/-- Some extent is bound or some slot is offered. -/
def Dev.anyBound (d : Dev) : Bool :=
  d.extents.any (fun x => decide (x.2.bindCount ≠ 0)) || d.slots.any (fun x => x.2.valid || x.2.pending)

/-- Some pair is ENABLED or SUSPENDED. -/
def Dev.anyQueueOn (d : Dev) : Bool := d.ladles.pairs.any (fun x => decide (x.2.state = 2) || decide (x.2.state = 3))

/-- The instance a host port belongs to. -/
def Dev.viOfPort (d : Dev) (p : Nat) : Option Nat :=
  (d.inst.find? (fun x => x.2.portA = some p ∨ x.2.portB = some p)).map (·.1)

/-- Port p holds the tier-2 region (R197) or a replica region (R381). -/
def Dev.holdsRegion (d : Dev) (p : Nat) : Bool :=
  (d.flag ChurnR.TIER2_ACTIVE && decide (d.rd ChurnR.T2_PORT = p)) ||
    (decide (0 < d.rd Memb.REPLICA_UNITS) && decide (d.rd Memb.REPLICA_PORT = p))

/-- Port p is the Yoke link of a manager pair in OM5 or OM6. -/
def Dev.isYoke (d : Dev) (p : Nat) : Bool :=
  d.flag Memb.YOKE_EN && decide (d.rd Memb.YOKE_PORT = p) && (decide (d.mode = 5) || decide (d.mode = 6))

/-- Port p serves something that a change of its group would take away (R46, R508). -/
def Dev.portInUse (d : Dev) (p : Nat) : Bool :=
  (d.isHostPort p && (match d.viOfPort p with
    | some vi => d.viBound vi || d.viQueueOn vi
    | none => false)) ||
  (d.isDevicePort p && (d.extentBehind p || d.holdsRegion p)) || d.isYoke p

/-- A sensor is, or is no longer, beyond a threshold: a PlatformEventMessage goes out at each crossing to the receiver that was
set (R537). -/
def Dev.threshold (sensor kind : Nat) (beyond : Bool) (d : Dev) : Dev :=
  let was := d.thermal.beyond.contains (sensor, kind)
  if was = beyond then d else
  let l := d.thermal.beyond.filter (fun x => x ≠ (sensor, kind))
  let d := { d with thermal := { d.thermal with beyond := if beyond then l ++ [(sensor, kind)] else l } }
  if d.silek.eventReceiver = 0 ∨ d.silek.sensorsOff.contains sensor then d
  else d.emit (.platformEvent d.silek.eventReceiver sensor (kind + if beyond then 16 else 0))

/-- The Skimmer stops on a fault (R534). -/
def Dev.skimFault (cause : Nat) (d : Dev) : Dev :=
  if ¬ d.flag Skim.RUNNING then d
  else ((d.wrFlag Skim.RUNNING false).raise1 Skim.FAULT_EVT).wr Skim.FAULT_CAUSE cause

/-- The Skimmer's instance is reset (cause 3) or becomes UNCONFIGURED (cause 4), which stops it (R534). -/
def Dev.skimLoses (vi cause : Nat) (d : Dev) : Dev := if d.skim.vi = vi then d.skimFault cause else d

end Sys2Proof.Machine
end

