-- ==== Sys2Proof/Machine/Link.lean ====
section
/-! DEFINITION. Operations of the QFL link layer: flits, credits, replay, routing of messages (R114 to R148). -/
namespace Sys2Proof.Machine
open Sys2Proof

/-- Link layer of QFL port p. -/
def Dev.link (d : Dev) (p : Nat) : QflLink := Tab.getD d.fab.links p {}
/-- Replace the link layer of port p. -/
def Dev.setLink (d : Dev) (p : Nat) (x : QflLink) : Dev :=
  { d with fab := { d.fab with links := Tab.put d.fab.links p x {} } }

/-- Length in units (R118). -/
def QflMsg.len (m : QflMsg) : Nat := 2 + m.units.length

/-- A message of this channel and opcode passes the destination's duplicate filter (R121, R382, R415, R547). -/
def filteredKind (vc op : Nat) : Bool :=
  match vc with
  | 0 => true
  | 1 => true
  | 4 => decide (op ≠ 3)
  | 5 => decide (op = 1) || decide (op = 0x30)
  | _ => false

/-- FILTERED (R118): as the message arrived, or as its channel and opcode say for a message of this device. -/
def QflMsg.filtered (m : QflMsg) : Bool := m.bit7.getD (filteredKind m.vc m.opcode)

/-- Opcodes defined on each virtual channel (R119, R225, R252, R382, R415, R547). -/
def qflDefined (vc op : Nat) : Bool :=
  match vc with
  | 0 => decide (1 ≤ op) && decide (op ≤ 10)
  | 1 => decide (1 ≤ op) && decide (op ≤ 3)
  | 2 => (decide (1 ≤ op) && decide (op ≤ 3)) || decide (op = 0xff)
  | 3 => decide (1 ≤ op) && decide (op ≤ 3)
  | 4 => decide (1 ≤ op) && decide (op ≤ 5)
  | 5 => [1, 2, 3, 0x10, 0x11, 0x20, 0x21, 0x22, 0x23, 0x30, 0x31].contains op
  | _ => false

/-- Units 0 and 1 (R118). -/
def QflMsg.header (m : QflMsg) : List (BitVec 64) :=
  [BitVec.ofNat 64 (m.vc + 2 ^ 3 * m.len + 2 ^ 7 * flagBit m.filtered + 2 ^ 8 * m.opcode + 2 ^ 16 * m.src + 2 ^ 21 * m.dst +
      2 ^ 26 * m.hops + 2 ^ 32 * m.master + 2 ^ 48 * m.tag),
   BitVec.ofNat 64 (m.epoch + 2 ^ 32 * m.e2e)]

/-- All units of a message. -/
def QflMsg.words (m : QflMsg) : List (BitVec 64) := m.header ++ m.units

/-- A message from its header units and the rest. -/
def QflMsg.ofWords (u0 u1 : BitVec 64) (rest : List (BitVec 64)) : QflMsg :=
  let a := u0.toNat
  let b := u1.toNat
  { vc := fieldOf a 0 3, opcode := fieldOf a 8 8, src := fieldOf a 16 5, dst := fieldOf a 21 5, hops := fieldOf a 26 3,
    master := fieldOf a 32 16, tag := fieldOf a 48 16, epoch := fieldOf b 0 32, e2e := fieldOf b 32 32, units := rest,
    bit7 := some (decide (fieldOf a 7 1 = 1)) }

/-- Messages packed from unit 0 (R117): none when a LEN, the UNIT_MAP or the zero fill disagrees, nor when the map names a unit beyond the
messages. -/
def parseUnits (fuel u cap map : Nat) (ws : List (BitVec 64)) : Option (List QflMsg) :=
  match fuel with
  | 0 => some []
  | f + 1 =>
    match ws with
    | [] => if map / 2 ^ u = 0 then some [] else none
    | w :: rest =>
      if fieldOf map u 1 = 0 then
        (if (w :: rest).all (· = 0) ∧ map / 2 ^ u = 0 then some [] else none)
      else
        let len := fieldOf w.toNat 3 4
        if len < 2 ∨ cap < u + len ∨ fieldOf map (u + 1) (len - 1) ≠ 0 then none
        else
          match rest with
          | [] => none
          | w1 :: more =>
            (parseUnits f (u + len) cap map (more.drop (len - 2))).map
              (fun l => QflMsg.ofWords w w1 (more.take (len - 2)) :: l)

/-- The bytes 0 to n − 1 of a number of bits. -/
def bitsBytes (n : Nat) (b : BitVec 1024) : List Byte := leBytes n b.toNat

/-- The CRC of a flit's bytes 0 to 123 under sequence s (R116). -/
def flitCrc (s : Nat) (b : BitVec 1024) : Nat :=
  (~~~(crc32cFrom (0xffffffff#32 ^^^ BitVec.ofNat 32 s) (bitsBytes 124 b))).toNat

/-- Bytes 0 to 123 of a flit from header and payload. -/
def flitBody (kind replaySeq : Nat) (enc : Bool) (keyId map payload : Nat) : Nat :=
  kind + 2 ^ 2 * replaySeq + 2 ^ 14 * flagBit enc + 2 ^ 15 * keyId + 2 ^ 16 * map + 2 ^ 32 * payload

/-- A flit with its CRC under sequence s. -/
def sealFlit (s body : Nat) : BitVec 1024 :=
  BitVec.ofNat 1024 (body + 2 ^ 992 * flitCrc s (BitVec.ofNat 1024 body))

/-- UNIT_MAP of messages packed from unit u. -/
def unitMap (u : Nat) : List QflMsg → Nat
  | [] => 0
  | m :: l => 2 ^ u + unitMap (u + m.len) l

/-- The number that words spell, word 0 lowest. -/
def wordsNat : List (BitVec 64) → Nat
  | [] => 0
  | w :: l => w.toNat + 2 ^ 64 * wordsNat l

/-- The n words of a number. -/
def natWords : Nat → Nat → List (BitVec 64)
  | 0, _ => []
  | n + 1, v => BitVec.ofNat 64 v :: natWords n (v / 2 ^ 64)

/-- Receive buffer of a virtual channel in units; a ganged x32 link has twice the figure (R121). -/
def Dev.vcSize (d : Dev) (p v : Nat) : Nat :=
  let n := match v with
    | 0 => 6144
    | 1 => 1024
    | 2 => 1024
    | 3 => 8192
    | 4 => 2048
    | 5 => 512
    | _ => 0
  if d.rd (Pg.BIFURCATION (p / 4)) = 4 then 2 * n else n

/-- Credits available to send on a virtual channel (R122). -/
def QflLink.available (l : QflLink) (v : Nat) : Nat :=
  (Tab.getD l.limit v 0 + 65536 - Tab.getD l.consumed v 0) % 65536

/-- Units of a receive buffer that messages hold. -/
def QflLink.held (l : QflLink) (v : Nat) : Nat := ((l.rx.filter (fun m => m.vc = v)).map QflMsg.len).foldl (· + ·) 0

/-- The link registers follow the link layer (R154). While the link layer is DOWN there are no credits and no buffers in service: TX_CREDITS
and RX_FREE read 0 (DESIGN CHOICE, log entry 170). -/
def Dev.syncLink (p : Nat) (d : Dev) : Dev :=
  let l := d.link p
  let d := (d.wr (Pg.ll_UNACKED p) l.replay.length).wr (Pg.ll_REORDER_HELD p) l.reorder.length
  (List.range 6).foldl (fun d v =>
    (d.wr (Pg.ll_TX_CREDITS p v) (l.available v)).wr (Pg.ll_RX_FREE p v)
      (if d.rd (Pg.ll_LL_STATE p) = 0 then 0 else d.vcSize p v - l.held v)) d

/-! ### Sending -/

/-- Choose the messages of the next flit: in queue order within each channel, while credits and units last (R117, R122, R123). -/
def packFlit (cap : Nat) (mayVc : Nat → Bool) (l : QflLink) : List QflMsg × List QflMsg :=
  let r := l.txq.foldl (fun (acc : List QflMsg × List QflMsg × Nat × List Nat) m =>
      let (take, rest, used, blocked) := acc
      let mine := ((take.filter (fun x => x.vc = m.vc)).map QflMsg.len).foldl (· + ·) 0
      if mayVc m.vc ∧ ¬ blocked.contains m.vc ∧ used + m.len ≤ cap ∧ mine + m.len ≤ l.available m.vc then
        (take ++ [m], rest, used + m.len, blocked)
      else (take, rest ++ [m], used, m.vc :: blocked)) ([], [], 0, [])
  (r.1, r.2.1)

/-- The Rennet inverts CRC bit 0 of every nth flit (R546, class 4). -/
def Dev.corruptFlit (p : Nat) (replay : Bool) (b : BitVec 1024) (d : Dev) : BitVec 1024 × Dev :=
  let hit := (List.range 16).find? (fun i => d.rd (Ren.CLASS i) = 4 ∧ d.rd (Ren.TARGET i) = p)
  match hit with
  | none => (b, d)
  | some i =>
    let n := fieldOf (d.rd (Ren.SETTING i)) 0 16
    if d.mode ≠ 11 ∨ n = 0 ∨ (replay ∧ fieldOf (d.rd (Ren.SETTING i)) 16 1 = 0) then (b, d) else
    let c := Tab.getD d.fab.corrupt p 0 + 1
    let d := { d with fab := { d.fab with corrupt := Tab.put d.fab.corrupt p (if c = n then 0 else c) 0 } }
    (if c = n then b ^^^ BitVec.ofNat 1024 (2 ^ 992) else b, d)

/-- The MIR feature is enabled on a link: VC4 may be used (R101, R121). -/
def Dev.mirOn (d : Dev) (p : Nat) : Bool := decide (fieldOf (d.rd (Pg.phy_FEATURES_ENABLED p)) 5 1 = 1)

/-- The transmitting direction of a link moves to its next key: KEY_ID turns over (R150). -/
def Dev.rollKey (p : Nat) (d : Dev) : Dev :=
  let l := d.link p
  (d.setLink p { l with keyId := 1 - l.keyId, txKey := Config.hkdf l.txKey 2, keyFlits := 0 }).inc ScR.KEY_UPDATES

/-- A direction rolls its key after 2^31 flits under it. -/
def Dev.keyDue (p : Nat) (d : Dev) : Dev := if d.flag (Pg.ll_ENCRYPTED p) ∧ 2 ^ 31 ≤ (d.link p).keyFlits then d.rollKey p else d

/-- The initialisation vector: the direction's salt, then the 64-bit extended sequence number (R150). -/
def initVector (salt ext : Nat) : Nat := salt % 2 ^ 32 * 2 ^ 64 + ext % 2 ^ 64

/-- Send one NEW flit when the link is UP, the replay buffer has room and a message may go; ENC_REQUIRED holds all channels but
VC5 until the link is encrypted (R127, R149, R150). -/
def Dev.sendNew (p : Nat) (d0 : Dev) : Option Dev :=
  let d := d0.keyDue p
  let l := d.link p
  let enc := d.flag (Pg.ll_ENCRYPTED p)
  let may (v : Nat) : Bool := (enc || !d.flag (Pg.ll_ENC_REQUIRED p) || decide (v = 5)) && (decide (v ≠ 4) || d.mirOn p)
  let (take, rest) := packFlit (if enc then 13 else 15) may l
  if d.rd (Pg.ll_LL_STATE p) ≠ 2 ∨ 1024 ≤ l.replay.length ∨ take = [] then none else
  let seq := d.rd (Pg.ll_NEXT_TX_SEQ p)
  let plain := wordsNat (take.map QflMsg.words).flatten
  let map := unitMap 0 take
  let aad := flitBody 0 0 enc l.keyId map 0
  let payload := if enc then Config.gcmSeal l.txKey (initVector l.txSalt l.txFlits) aad plain % 2 ^ 960 else plain
  let bits := sealFlit seq (flitBody 1 0 enc l.keyId map payload)
  let used := take.foldl (fun c m => Tab.put c m.vc ((Tab.getD c m.vc 0 + m.len) % 65536) 0) l.consumed
  let f : SentFlit := { seq, bits, msgs := take }
  let d := d.setLink p { l with
    txq := rest, consumed := used, replay := l.replay ++ [f], txFlits := l.txFlits + 1, keyFlits := l.keyFlits + 1 }
  let (wire, d) := d.corruptFlit p false bits
  some (((d.wr (Pg.ll_NEXT_TX_SEQ p) (seq + 1)).emit (.qfl p (.flit wire))).syncLink p)

/-- Send NEW flits while any can go. -/
def Dev.pumpN : Nat → Nat → Dev → Dev
  | 0, _, d => d
  | n + 1, p, d =>
    match d.sendNew p with
    | some e => e.pumpN n p
    | none => d

/-- Send what the queue of port p allows. -/
def Dev.pump (p : Nat) (d : Dev) : Dev := d.pumpN (d.link p).txq.length p

/-- The REPLAY form of a sent flit (R131). -/
def SentFlit.replayBits (f : SentFlit) : BitVec 1024 :=
  let body := f.bits.toNat % 2 ^ 992
  sealFlit f.seq (body - body % 2 ^ 14 + 2 + 2 ^ 2 * f.seq)

/-- Send flits of the replay buffer again. -/
def Dev.replayFlits (t p : Nat) (fs : List SentFlit) (d : Dev) : Dev :=
  fs.foldl (fun d f =>
    let (wire, d) := d.corruptFlit p true f.replayBits
    ((d.inc (Pg.ll_FLITS_REPLAYED p)).mon t (p / 4) 0x107 0xffff 0).emit (.qfl p (.flit wire))) d

/-- A port or, while it is ROUTED_AWAY, its twin (R142). -/
def Dev.twinOrSelf (d : Dev) (p : Nat) : Nat := if d.flag (Pg.ll_ROUTED_AWAY p) then d.rd (Pg.ll_TWIN_PORT p) else p

/-- The port that serves a route entry: its own port, or that port's twin while it is ROUTED_AWAY (R142). The entry of the device's own
address is ignored (R155). A mirror whose own address is PAIR_ADDR reaches the acting primary by its entry (DESIGN CHOICE, log entry
184). -/
def Dev.routePort (d : Dev) (dst : Nat) : Option Nat :=
  let dst := if d.mode = 6 ∧ dst = d.chainAddr ∧ dst = d.rd Memb.PAIR_ADDR then d.rd Memb.PRIMARY_ADDR else dst
  if dst < 1 ∨ 16 < dst ∨ dst = d.chainAddr ∨ ¬ d.flag (Qfab.VALID (dst - 1)) then none else
  let p := d.rd (Qfab.PORT (dst - 1))
  if ¬ d.isQflPort p then none
  else some (d.twinOrSelf p)

/-- The port of the Yoke link, over which alone VC4 runs (R380). -/
def Dev.yokePort (d : Dev) : Option Nat :=
  if d.flag Memb.YOKE_EN ∧ d.isQflPort (d.rd Memb.YOKE_PORT) then some (d.twinOrSelf (d.rd Memb.YOKE_PORT)) else none

/-- Put a message into the queue of a port; its time in this device starts (R144). -/
def Dev.queueOn (t p : Nat) (m : QflMsg) (d : Dev) : Dev :=
  let l := d.link p
  (d.setLink p { l with txq := l.txq ++ [{ m with born := t }] }).pump p

/-- Send a message of this device on its route's port, on VC4 over the Yoke link; one without a route is discarded and counted (R120). -/
def Dev.enqueueMsg (t : Nat) (m : QflMsg) (d : Dev) : Dev :=
  match (if m.vc = 4 then d.yokePort else d.routePort m.dst) with
  | none => d.inc Qfab.HOP_LIMIT_DROPS
  | some p => d.queueOn t p m

/-- The chain addresses this device answers for (R377). -/
def Dev.ownAddr (d : Dev) (c : Nat) : Bool :=
  decide (c ≠ 0) && (decide (c = d.chainAddr) || (d.flag Memb.ACTING && decide (c = d.rd Memb.PAIR_ADDR)))

/-- Answer a filtered message with MSG_ERROR when a route back to its source exists (R119, R120). SRC_CHAIN is the address the request was
sent to, whoever sends the error: the source matches a response by its SRC_CHAIN (R147; DEDUCED, log entry 162). -/
def Dev.msgError (t : Nat) (m : QflMsg) (cause : Nat) (d : Dev) : Dev :=
  if ¬ m.filtered then d else
  match d.routePort m.src with
  | none => d
  | some p => d.queueOn t p {
      vc := 2, opcode := 0xff, src := m.dst, dst := m.src, master := m.master, tag := m.tag, epoch := d.epoch, e2e := m.e2e,
      units := [BitVec.ofNat 64 cause] }

/-- Forward a message of another destination, whatever its channel, on the port of the destination's route entry (R120). -/
def Dev.forward (t p : Nat) (m : QflMsg) (d : Dev) : Dev :=
  if 3 ≤ m.hops then (d.inc Qfab.HOP_LIMIT_DROPS).msgError t m 2
  else
    match d.routePort m.dst with
    | none => (d.inc Qfab.HOP_LIMIT_DROPS).msgError t m 1
    | some q => (d.queueOn t q { m with hops := m.hops + 1 }).mon t (p / 4) 0x102 m.master 0

/-! ### Receiving -/

/-- Send a Whey message; none leaves while the link layer is DOWN or HELD (R125). -/
def Dev.whey (p op : Nat) (fields : List Nat) (d : Dev) : Dev :=
  let s := d.rd (Pg.ll_LL_STATE p)
  if s = 1 ∨ s = 2 then d.emit (.qfl p (.whey op fields)) else d

/-- Credit of a channel is reported cumulatively (R122, R126). -/
def Dev.sendCredit (p v : Nat) (d : Dev) : Dev := d.whey p 3 [v, Tab.getD (d.link p).freed v 0]

/-- Free units of a receive buffer. -/
def Dev.freeUnits (p v n : Nat) (d : Dev) : Dev :=
  let l := d.link p
  ((d.setLink p { l with freed := Tab.put l.freed v ((Tab.getD l.freed v 0 + n) % 65536) 0 }).sendCredit p v).syncLink p

/-- Two messages are copies of one another. -/
def QflMsg.same (a b : QflMsg) : Bool :=
  decide (a.vc = b.vc) && decide (a.opcode = b.opcode) && decide (a.src = b.src) && decide (a.tag = b.tag) &&
    decide (a.e2e = b.e2e)

/-- A message leaves the receive buffer that holds it. -/
def Dev.takeRx (m : QflMsg) (d : Dev) : Dev :=
  match d.fab.links.find? (fun x => x.2.rx.any (fun y => y.same m)) with
  | none => d
  | some (p, l) =>
    match l.rx.find? (fun y => y.same m) with
    | none => d
    | some y => (d.setLink p { l with rx := l.rx.erase y }).freeUnits p y.vc y.len

/-! ### The duplicate filter (R148) -/

/-- A source's window without records older than 2 ms. -/
def Filter.live (t : Nat) (f : Filter) : Filter := { f with seen := f.seen.filter (fun x => t < x.2 + 2000000) }

/-- What the duplicate filter finds. -/
inductive Seen where
  | fresh | duplicate | stale
deriving DecidableEq, Repr

/-- The duplicate filter of R148 on one value. -/
def Filter.check (t e : Nat) (f0 : Filter) : Filter × Seen :=
  let f := f0.live t
  if f.seen = [] then ({ high := e, seen := [(e, t)] }, .fresh)
  else
    let up := (e + 2 ^ 32 - f.high) % 2 ^ 32
    let back := (f.high + 2 ^ 32 - e) % 2 ^ 32
    let record : List (Nat × Nat) := f.seen.filter (fun x => x.1 ≠ e) ++ [(e, t)]
    if 1 ≤ up ∧ up < 2 ^ 31 then ({ high := e, seen := record }, .fresh)
    else if 65536 ≤ back then (f, .stale)
    else if f.seen.any (fun x => x.1 = e) then (f, .duplicate)
    else ({ f with seen := record }, .fresh)

/-- The duplicate filter of a source on one E2E_SEQ; copies are counted. -/
def Dev.filterSource (t src e2e : Nat) (d : Dev) : Dev × Bool :=
  let (f, seen) := (Tab.getD d.fab.filters src {}).check t e2e
  let d := { d with fab := { d.fab with filters := Tab.set d.fab.filters src f } }
  match seen with
  | .fresh => (d, true)
  | .duplicate => (if 1 ≤ src ∧ src ≤ 16 then d.inc (Qfab.DUPLICATES (src - 1)) else d, false)
  | .stale => (if 1 ≤ src ∧ src ≤ 16 then d.inc (Qfab.STALE (src - 1)) else d, false)

/-- A message with an undefined opcode, or one on VC4 of a link without the MIR feature (log entry 163), is discarded and logged; a filtered
one passes the duplicate filter and is answered with MSG_ERROR cause 4 (R119, R148). -/
def Dev.undefinedMsg (t p : Nat) (m : QflMsg) (d : Dev) : Dev :=
  let d := d.logErr t { cls := 0xb, severity := 1, source := 0x20 + p / 4, master := m.master, detail := 5 + 256 * p }
  if ¬ m.filtered then d else
  let (d, ok) := d.filterSource t m.src m.e2e
  if ok then d.msgError t m 4 else d

/-- Deliver a message that a flit carried: to a receive buffer when it is for this device, forwarded otherwise. -/
def Dev.deliver (t p : Nat) (m : QflMsg) (d : Dev) : Dev :=
  let d := d.mon t (p / 4) 0x101 m.master 0
  if ¬ d.ownAddr m.dst then (d.forward t p m).freeUnits p m.vc m.len
  else if qflDefined m.vc m.opcode ∧ (m.vc ≠ 4 ∨ d.mirOn p) then
    let l := d.link p
    (d.setLink p { l with rx := l.rx ++ [m] }).syncLink p
  else (d.undefinedMsg t p m).freeUnits p m.vc m.len

/-- Sequences between ACK_SEQ and the next NEW flit that the reorder buffer does not hold (R128, R129). -/
def Dev.missing (d : Dev) (p : Nat) : List Nat :=
  let l := d.link p
  let a := d.rd (Pg.ll_RX_ACK_SEQ p)
  let n := (l.nextNew + 4096 - (a + 1) % 4096) % 4096
  ((List.range (if n < 2048 then n else 0)).map (fun i => (a + 1 + i) % 4096)).filter
    (fun s => ¬ l.reorder.any (fun x => x.1 = s))

/-- Selective retransmission is in use (R132). -/
def Dev.selective (d : Dev) (p : Nat) : Bool := d.flag (Pg.ll_SELECTIVE p)

/-- Send a NAK (R124, R130). -/
def Dev.sendNak (t p : Nat) (resync : Bool) (d : Dev) : Dev :=
  let a := d.rd (Pg.ll_RX_ACK_SEQ p)
  let map := if d.selective p then
      ((List.range 16).map (fun i => if (d.missing p).contains ((a + 1 + i) % 4096) then 2 ^ i else 0)).foldl (· + ·) 0
    else 1
  let d := ((d.setLink p { d.link p with sinceAck := 0 }).inc (Pg.ll_NAKS_SENT p)).mon t (p / 4) 0x106 0xffff 0
  let d := if resync then (d.raise1 (Pg.ll_RESYNC_EVT p)).wrFlag (Pg.ll_RX_SYNCED p) false else d
  d.whey p 2 [a, map, d.rd (Pg.ll_RX_SYNCED p), flagBit resync]

/-- Send an ACK. -/
def Dev.sendAck (p : Nat) (d : Dev) : Dev :=
  let d := d.setLink p { d.link p with sinceAck := 0 }
  d.whey p 1 [d.rd (Pg.ll_RX_ACK_SEQ p), d.rd (Pg.ll_RX_SYNCED p)]

/-- Deliver the unbroken run from ACK_SEQ + 1 (R129). The units of a malformed flit's messages are not known and their credit is not returned
(DESIGN CHOICE, log entry 165). -/
def Dev.deliverRun : Nat → Nat → Nat → Dev → Dev
  | 0, _, _, d => d
  | n + 1, t, p, d =>
    let s := (d.rd (Pg.ll_RX_ACK_SEQ p) + 1) % 4096
    match (d.link p).reorder.find? (fun x => x.1 = s) with
    | none => d
    | some x =>
      match d.readArray t 6 p (0x20 + p / 4) (· = s) with
      | (d, true) => d.setLink p { d.link p with reorder := (d.link p).reorder.erase x }
      | (d, false) =>
      let l := d.link p
      let d := (d.setLink p { l with reorder := l.reorder.erase x, sinceAck := l.sinceAck + 1 }).wr (Pg.ll_RX_ACK_SEQ p) s
      let d := match x.2 with
        | some ms => ms.foldl (fun (d : Dev) m => d.deliver t p m) d
        | none =>
          (d.inc (Pg.ll_MALFORMED p)).logErr t { cls := 0xb, severity := 1, source := 0x20 + p / 4, detail := 4 + 256 * p }
      d.deliverRun n t p

/-- An acknowledgement goes out: an ACK, or a NAK while a flit is missing (R130). -/
def Dev.acknowledge (t p : Nat) (d : Dev) : Dev := if d.missing p = [] then d.sendAck p else d.sendNak t p false

/-- Acknowledge after ACK_INTERVAL delivered flits (R130). -/
def Dev.ackDue (t p : Nat) (d : Dev) : Dev :=
  if d.rd (Pg.ll_ACK_INTERVAL p) ≤ (d.link p).sinceAck then d.acknowledge t p else d

/-- UP when the SEQ_SYNC is confirmed and a CREDIT of every channel has arrived (R140). -/
def Dev.syncUp (p : Nat) (d : Dev) : Dev :=
  let l := d.link p
  if d.rd (Pg.ll_LL_STATE p) = 1 ∧ l.confirmed ∧ (List.range 6).all (fun v => l.creditSeen.contains v) then
    (d.wr (Pg.ll_LL_STATE p) 2).pump p
  else d

/-- The link layer enters SYNCING (R128, R140). The receiver stays as it was: one that is synced is so still, and an acknowledgement sent
before the partner's new SEQ_SYNC carries SYNCED (DEDUCED, log entry 164). -/
def Dev.enterSyncing (p : Nat) (d : Dev) : Dev :=
  let d := d.setLink p { d.link p with confirmed := false, creditSeen := [] }
  let d := (d.wr (Pg.ll_LL_STATE p) 1).syncLink p
  let d := d.whey p 4 [d.rd (Pg.ll_NEXT_TX_SEQ p)]
  (List.range 6).foldl (fun d v => d.sendCredit p v) d

/-- The link layer starts afresh after a training through DETECT (R122, R127). -/
def Dev.freshLink (p : Nat) (d : Dev) : Dev :=
  let sizes : Tab Nat := (List.range 6).map (fun v => (v, d.vcSize p v))
  let l := d.link p
  let x : QflLink := { txq := l.txq, freed := sizes, reqId := l.reqId }
  let d := d.setLink p x
  (((d.wr (Pg.ll_NEXT_TX_SEQ p) 0).wr (Pg.ll_RX_ACK_SEQ p) 4095).wrFlag (Pg.ll_RX_SYNCED p) false).syncLink p

/-! ### Filtered requests (R145) -/

/-- The counter of a destination: PAIR_ADDR is a source of its own beside the device's address (R145, R377). -/
def e2eKey (pair : Bool) (dst : Nat) : Nat := if pair then 32 + dst else dst

/-- The first E2E_SEQ toward each destination is random (R145). -/
def Dev.nextE2e (d : Dev) (pair : Bool) (dst : Nat) : Nat × Dev :=
  let k := e2eKey pair dst
  match Tab.get d.fab.e2e k with
  | some v => (v, { d with fab := { d.fab with e2e := Tab.set d.fab.e2e k ((v + 1) % 2 ^ 32) } })
  | none =>
    let v := d.freeVal 3 % 2 ^ 32
    let d := d.drawn
    (v, { d with fab := { d.fab with e2e := Tab.set d.fab.e2e k ((v + 1) % 2 ^ 32) } })

/-- Filtered messages outstanding toward a destination. -/
def Dev.outstandingTo (d : Dev) (dst : Nat) : Nat := (d.fab.outstanding.filter (fun o => o.dst = dst)).length

/-- The first tag no message toward `dst` uses, searching `n` values from `k` on. -/
def Dev.freeTag (d : Dev) (dst : Nat) : Nat → Nat → Nat
  | 0, k => k % 65536
  | n + 1, k =>
    if d.fab.outstanding.any (fun o => o.dst = dst ∧ o.tag = k % 65536) then d.freeTag dst n (k + 1) else k % 65536

/-- The source address of pair-home traffic is PAIR_ADDR, of other traffic CHAIN_ADDRESS (R377). -/
def Dev.srcAddr (d : Dev) (home : Bool) : Nat := if home then d.homeAddr else d.chainAddr

/-- Send a filtered request and note it as outstanding; beyond 65,536 toward one destination it waits (R145). -/
def Dev.qflSend (t vc op dst master : Nat) (home : Bool) (units : List (BitVec 64)) (cont : Cont) (d : Dev) : Dev :=
  let m : QflMsg := { vc, opcode := op, src := d.srcAddr home, dst, master, epoch := d.epoch, units }
  if 65536 ≤ d.outstandingTo dst then { d with fab := { d.fab with waiting := d.fab.waiting ++ [(m, cont)] } } else
  let tag := d.freeTag dst 65536 d.fab.nextTag
  let (e2e, d) := d.nextE2e (decide (m.src ≠ d.chainAddr)) dst
  let o : Outst := { dst, tag, e2e, vc, opcode := op, time := t, cont }
  let d := { d with fab := { d.fab with outstanding := d.fab.outstanding ++ [o], nextTag := (tag + 1) % 65536 } }
  d.enqueueMsg t { m with tag, e2e }

/-- Send the first message that waited for the limit of R145 and whose destination has room now. -/
def Dev.sendWaiting (t : Nat) (d : Dev) : Dev :=
  match d.fab.waiting.find? (fun x => decide (d.outstandingTo x.1.dst < 65536)) with
  | none => d
  | some (m, c) =>
    ({ d with fab := { d.fab with waiting := d.fab.waiting.erase (m, c) } }).qflSend t m.vc m.opcode m.dst m.master
      (decide (m.src ≠ d.chainAddr)) m.units c

end Sys2Proof.Machine
end

