-- ==== Sys2Proof/Machine/Chain.lean ====
section
/-! DEFINITION. Frames of the Milold chain: their bytes and CRC, how a device sends, receives and passes them on (R369 to R372). -/
namespace Sys2Proof.Machine
open Sys2Proof

/-- TYPE (R370). -/
def ChainBody.type : ChainBody → Nat
  | .enum _ _ => 1 | .enumDone _ _ _ => 2 | .breakMark _ => 3 | .heartbeat _ => 4 | .silek _ => 5 | .fenced _ => 6 | .ring => 7

/-- The payload (R370). -/
def ChainBody.payload : ChainBody → List Byte
  | .enum next turns => leBytes 1 next ++ leBytes 1 turns
  | .enumDone count mode overflow => leBytes 1 count ++ leBytes 1 mode ++ leBytes 1 (flagBit overflow)
  | .breakMark addr => leBytes 1 addr
  | .heartbeat word => leBytes 8 word
  | .silek segment => segment
  | .fenced epoch => leBytes 4 epoch
  | .ring => []

/-- Header and payload under a TYPE byte (R369). -/
def ChainFrame.plain (f : ChainFrame) (type : Nat) : List Byte :=
  let p := f.body.payload
  leBytes 1 type ++ leBytes 1 (flagBit f.bcast + 2 * flagBit f.reverse) ++ leBytes 1 f.dst ++ leBytes 1 f.src ++ leBytes 1 f.hops ++
    leBytes 1 0 ++ leBytes 2 p.length ++ leBytes 4 f.epoch ++ p

/-- The CRC of a frame under a TYPE byte: CRC-32C over header and payload. -/
def ChainFrame.crc (f : ChainFrame) (type : Nat) : BitVec 32 := crc32c (f.plain type)

/-- A frame's bytes on the pair (R369). -/
def ChainFrame.bytes (f : ChainFrame) : List Byte := f.plain f.body.type ++ leBytes 4 (f.crc f.body.type).toNat

/-- The device is in line mode. -/
def Dev.lineMode (d : Dev) : Bool := decide (d.rd Memb.CHAIN_MODE = 2)

/-- This device is the line end at which a frame of this direction turns: its pair onward is silent (R372). -/
def Dev.atEnd (d : Dev) (reverse : Bool) : Bool := d.lineMode && d.memb.silent.contains (if reverse then 0 else 1)

/-- Send a frame of this device's own: on MCH_OUT, or on MCH_IN where MCH_OUT is silent. -/
def Dev.chainSend (bcast : Bool) (dst epoch : Nat) (body : ChainBody) (d : Dev) : Dev :=
  d.emit (.chain { bcast, reverse := d.atEnd false, dst, src := d.chainAddr, hops := 0, epoch, body })

/-- A frame leaves with HOPS incremented; one that would leave with HOPS 16 is dropped (R371). -/
def Dev.hop (f : ChainFrame) (d : Dev) : Dev := if 15 ≤ f.hops then d else d.emit (.chain { f with hops := f.hops + 1 })

/-- Pass a frame on in the direction in which it travels: in ring mode its originator removes a broadcast (R371); a line end turns a frame
round, and drops a broadcast that has turned already (R372). -/
def Dev.passFrame (f : ChainFrame) (d : Dev) : Dev :=
  if ¬ d.lineMode ∧ f.bcast ∧ f.src ≠ 0 ∧ f.src = d.chainAddr then d
  else if d.atEnd f.reverse then (if f.bcast ∧ f.reverse then d else d.hop { f with reverse := !f.reverse })
  else d.hop f

/-- The frame that arrived with this header and payload. -/
def chainFrameOf (l : ChainLine) (dst src epoch : Nat) (body : ChainBody) : ChainFrame := {
  bcast := l.bcast, reverse := l.reverse, dst, src, hops := l.hops, epoch, body }

/-- A frame arrives: in OM0 the device takes no part in the chain; a frame whose CRC fails and one whose TYPE is not the body's, which
R370 then does not list, is dropped and counted. -/
def Dev.chainIn (l : ChainLine) (f : ChainFrame) (k : Dev → Dev) (d : Dev) : Dev :=
  if d.mode = 0 then d
  else if l.crc ≠ f.crc l.type.toNat then { d with memb := { d.memb with crcDrops := d.memb.crcDrops + 1 } }
  else if l.type.toNat ≠ f.body.type then { d with memb := { d.memb with typeDrops := d.memb.typeDrops + 1 } }
  else k d

end Sys2Proof.Machine
end

