-- ==== Sys2Proof/Machine/Silek.lean ====
section
/-! DEFINITION. The Silek responder every command goes through (R407 to R426): version, epoch, source, mode, reply cache,
limits, running commands, replies over each transport. -/
namespace Sys2Proof.Machine
open Sys2Proof

/-- The STATUS byte (R409). -/
def Status.code : Status → Nat
  | .ok => 0 | .busy => 1 | .badOpcode => 2 | .badParam => 3 | .notPermitted => 4 | .notQuiesced => 5 | .fenced => 6
  | .versionMismatch => 7 | .inProgress => 8 | .targetLost => 9 | .authFail => 10 | .noResource => 11 | .timeout => 12
  | .aborted => 13

/-- How a command's body ends. -/
inductive Result where
  | final (status : Status) (payload : List Byte)
  | run (w : Work)
  /-- No reply (ZEROIZE answers before it acts; its other transports stop, R480). -/
  | silent
deriving DecidableEq, Repr

/-- An error reply without payload. -/
def Result.err (st : Status) : Result := .final st []

/-- What the responder must know of a command beside its parameters: opcode, the minor version that added it (R411), the
command with its EPOCH cleared (R421), and for which instances host software may send it (R418). -/
structure CmdInfo where
  opcode : Nat
  minMinor : Nat := 0
  key : Instr
  hostMay : Dev → Nat → Bool := fun _ _ => false

/-- This device is the acting primary: it is in OM5 or OM8. -/
def Dev.acting (d : Dev) : Bool := decide (d.mode = 5) || decide (d.mode = 8)

/-- Member `a` is alive in the current epoch. -/
def Dev.alive (d : Dev) (a : Nat) : Bool :=
  decide (1 ≤ a) && decide (a ≤ 16) && decide (fieldOf (d.rd Memb.ALIVE) (a - 1) 1 = 1)

/-- Opcodes that change fabric state (R376, R404). -/
def fabricStateOps : List Nat :=
  [0x201, 0x202, 0x210, 0x220, 0x221, 0x230, 0x231, 0x232, 0x401, 0x402, 0x404, 0x501, 0x504, 0x505, 0x507, 0x509, 0x510]

/-- The mode accepts the opcode (R32, R33, R171, R508). -/
def Dev.modeAccepts (d : Dev) (op : Nat) (fromPrimary : Bool) : Bool :=
  let g := op / 256
  let modeCmd := [0xa01, 0xa02, 0xa30].contains op
  match d.mode with
  | 2 => decide (g = 1)
  | 3 => if g = 2 then [0x201, 0x202, 0x203, 0x210, 0x211, 0x240, 0x241].contains op else decide (op ≠ 0x345)
  | 4 => true
  | 5 => true
  | 8 => true
  | 6 => !fabricStateOps.contains op || fromPrimary
  | 7 => !fabricStateOps.contains op || fromPrimary
  | 9 => [1, 8, 9].contains g || (decide (0x340 ≤ op) && decide (op ≤ 0x345)) || modeCmd ||
      [0x504, 0xa11, 0xa20].contains op || (fromPrimary && d.memb.rejoining && [0x401, 0x402, 0x510, 0x210, 0x220, 0x802, 0x506].contains op)
  | 10 =>
    if d.rst.recovery then [0x701, 0x702, 0x703, 0x704, 0x705, 0xa30].contains op
    else [1, 7, 9].contains g || modeCmd || [0x221, 0xa10, 0xa11, 0xa20, 0xa31].contains op
  | 11 => [1, 8, 9].contains g || modeCmd || decide (op = 0xa11)
  | _ => false

/-- The command comes from the acting primary of the current epoch as a member's own command; during a join or a rejoin the device
knows no primary, and takes the transfers of the one that serves it (R398). -/
def Dev.fromPrimary (d : Dev) (h : SilekHdr) : Bool :=
  match h.requester with
  | .member a => ((decide (a = d.rd Memb.PRIMARY_ADDR) && decide (a ≠ 0)) || d.memb.rejoining) && !h.relayed
  | _ => false

/-- The source may send the command (R418, R419). -/
def Dev.sourceMay (d : Dev) (h : SilekHdr) (i : CmdInfo) : Bool :=
  let fmMay := !([0x506, 0x503, 0x107].contains i.opcode)
  match h.requester with
  | .fm _ => fmMay
  | .mgmt => fmMay
  | .member a =>
    if (d.memb.rejoining ∨ (d.mode = 9 ∧ i.opcode = 0x504)) ∧ [0x504, 0x401, 0x402, 0x510, 0x210, 0x220, 0x802, 0x506].contains i.opcode then true
    else if a = d.rd Memb.PRIMARY_ADDR ∧ a ≠ 0 then (if h.relayed then fmMay else true)
    else [0x101, 0x102, 0x503, 0x506, 0x107].contains i.opcode
  | .host vi => [0x101, 0x102, 0x104].contains i.opcode || i.hostMay d vi

/-- The requester is another member. -/
def memberSender : Requester → Bool
  | .member _ => true
  | _ => false

/-- Pad a payload to a multiple of four bytes (R410). -/
def padBytes (p : List Byte) : List Byte := p ++ List.replicate ((4 - p.length % 4) % 4) 0

/-! ### Messages to other members (R414, R415) -/

/-- A Silek message of this device: header and padded payload. -/
def silekMessage (d : Dev) (op minor flags st tag dst epoch : Nat) (payload : List Byte) : List Byte :=
  let p := padBytes payload
  leBytes 1 2 ++ leBytes 1 minor ++ leBytes 2 op ++ leBytes 1 flags ++ leBytes 1 st ++ leBytes 2 tag ++ leBytes 1 dst ++
    leBytes 1 d.chainAddr ++ leBytes 2 p.length ++ leBytes 4 epoch ++ p

/-- The parts of a message in segments of at most n bytes. -/
def segmentsOf (n : Nat) : Nat → List Byte → List (List Byte)
  | 0, _ => []
  | f + 1, bs => if bs.length ≤ n then [bs] else bs.take n :: segmentsOf n f (bs.drop n)

/-- The payload of a chain frame that carries a segment: the segment header, then the part. -/
def chainSegment (index last tag : Nat) (reply : Bool) (part : List Byte) : List Byte :=
  leBytes 1 (index + 4 * last + 16 * flagBit reply) ++ leBytes 1 0 ++ leBytes 2 tag ++ part

/-- Units 2 onward of a VC5 segment: the segment word, then the part eight bytes a unit. -/
def vc5Segment (index last tag : Nat) (part : List Byte) : List (BitVec 64) :=
  BitVec.ofNat 64 (index + 2 ^ 6 * last + 2 ^ 12 * part.length + 2 ^ 32 * tag) :: natWords ((part.length + 7) / 8) (leNat part)

/-- Send a message over the chain. -/
def Dev.sendChain (dst tag epoch : Nat) (reply : Bool) (bytes : List Byte) (d : Dev) : Dev :=
  let parts := segmentsOf 1020 4 bytes
  parts.zipIdx.foldl (fun (d : Dev) x =>
    d.chainSend false dst epoch (.silek (chainSegment x.2 (parts.length - 1) tag reply x.1))) d

/-- A valid route entry names a port whose link layer is UP. -/
def Dev.qflReach (d : Dev) (dst : Nat) : Bool :=
  match d.routePort dst with
  | some p => decide (d.rd (Pg.ll_LL_STATE p) = 2)
  | none => false

/-- Send a message over QFL: a command in filtered SILEK_CMD segments, a reply in SILEK_RSP. -/
def Dev.sendQfl (t dst tag : Nat) (reply : Bool) (bytes : List Byte) (d : Dev) : Dev :=
  let parts := segmentsOf 96 33 bytes
  parts.zipIdx.foldl (fun (d : Dev) x =>
    let units := vc5Segment x.2 (parts.length - 1) tag x.1
    let master := masterFabric d.chainAddr 1
    if reply then d.enqueueMsg t { vc := 5, opcode := 2, src := d.chainAddr, dst, master, tag, epoch := d.epoch, units }
    else d.qflSend t 5 1 dst master false units (.segment tag)) d

/-- Send a message to a member: over QFL where that reaches it, over the chain otherwise; `both` for EPOCH_ADVANCE. -/
def Dev.sendMember (t dst tag epoch : Nat) (reply both : Bool) (bytes : List Byte) (d : Dev) : Dev :=
  let q := d.qflReach dst
  let d := if q then d.sendQfl t dst tag reply bytes else d
  if q ∧ ¬ both then d else d.sendChain dst tag epoch reply bytes

/-- Send a reply to a requester without a mailbox. The FM API answers its own commands, whose tags lie above 65,535. -/
def Dev.sendReply (t : Nat) (r : Requester) (op tag minor src flags : Nat) (st : Status) (payload : List Byte) (d : Dev) : Dev :=
  match r with
  | .member a =>
    d.sendMember t a tag d.epoch true false (silekMessage d op minor flags st.code tag src d.epoch payload)
  | _ => d.emit (.reply r op tag minor flags st (padBytes payload))

/-- The function whose vector a mailbox raises. -/
def mailboxVi (mb : Nat) : Nat := mb

/-- Write a reply into a mailbox: the buffer takes it, BUSY clears, REPLY_READY sets and may raise VECTOR (R417). -/
def State.mailReply (mb : Nat) (bytes : List Byte) (s : State) : State :=
  let d := (s.dev.wrFlag (Mbx.BUSY mb) false).raise1 (Mbx.REPLY_READY mb)
  let d := if d.flag (Mbx.REPLY_IRQ_EN mb) then d.irqEvent s.time.now (mailboxVi mb) (d.rd (Mbx.VECTOR mb)) false else d
  { s with mem := Memory.writeBytes s.mem (Mailbox.cell mb 0x100) bytes, dev := d }

/-- Each mailbox whose command has ended without an INTERIM reply takes its final reply (R417). -/
def State.takeMail (s : State) : State :=
  s.dev.silek.mail.foldl (fun (s : State) x => s.mailReply x.1 x.2)
    { s with dev := { s.dev with silek := { s.dev.silek with mail := [] } } }

/-- Send a reply to a requester over its own transport. -/
def State.answer (r : Requester) (op tag minor src flags : Nat) (st : Status) (payload : List Byte) (s : State) : State :=
  match r.mailbox with
  | some mb => s.mailReply mb (silekMessage s.dev op minor flags st.code tag src s.dev.epoch payload)
  | none => { s with dev := s.dev.sendReply s.time.now r op tag minor src flags st payload }

/-- The 32 latest final replies of each requester are kept (R421); those of FM API commands stand beside them. -/
def cacheInsert (c : List CachedReply) (r : CachedReply) : List CachedReply :=
  if 65536 ≤ r.tag then c ++ [r] else
  let mine := c.filter (fun x => x.req = r.req ∧ x.tag ≠ r.tag ∧ x.tag < 65536)
  let others := c.filter (fun x => x.req ≠ r.req ∨ 65536 ≤ x.tag)
  others ++ mine.drop (mine.length - 31) ++ [r]

/-- Answer at once with a final reply and cache it. -/
def State.directReply (h : SilekHdr) (i : CmdInfo) (minor : Nat) (st : Status) (payload : List Byte) (s : State) : State :=
  let c : CachedReply := {
    req := h.requester, tag := h.tag, cmd := i.key, opcode := i.opcode, minor, src := h.src, status := st, payload
    time := s.time.now }
  let s := s.answer h.requester i.opcode h.tag minor h.src 1 st payload
  { s with dev := { s.dev with silek := { s.dev.silek with cache := cacheInsert s.dev.silek.cache c } } }

/-- A command that ends after its acceptance: final reply to a member or MCTP endpoint; for a mailbox, BG_DONE after an
interim reply, the buffer's next reply otherwise (R417, R422). -/
def Dev.finishOne (t : Nat) (st : Status) (payload : List Byte) (r : Running) (d : Dev) : Dev :=
  let c : CachedReply := {
    req := r.req, tag := r.tag, cmd := r.cmd, opcode := r.opcode, minor := r.minor, src := r.src, status := st, payload
    time := t }
  let d := { d with silek := { d.silek with
    running := d.silek.running.filter (fun x => x ≠ r), cache := cacheInsert d.silek.cache c } }
  match r.req.mailbox with
  | none => if 65536 ≤ r.tag then d else d.sendReply t r.req r.opcode r.tag r.minor r.src 1 st payload
  | some mb =>
    if r.interim then
      let d := (d.wr (Mbx.BG_COUNT mb) (d.rd (Mbx.BG_COUNT mb) - 1)).raise1 (Mbx.BG_DONE mb)
      if d.flag (Mbx.BG_IRQ_EN mb) then d.irqEvent t (mailboxVi mb) (d.rd (Mbx.VECTOR mb)) false else d
    else
      { d with silek := { d.silek with mail := d.silek.mail ++
        [(mb, silekMessage d r.opcode r.minor 1 st.code r.tag r.src d.epoch payload)] } }

/-- The final reply of a command that ends as it starts: at once, or as one that sent its INTERIM reply while it was held. -/
def State.finalReply (h : SilekHdr) (i : CmdInfo) (minor : Nat) (st : Status) (payload : List Byte) (s : State) : State :=
  if s.dev.silek.releasing = some true then
    let r : Running := {
      req := h.requester, tag := h.tag, minor, opcode := i.opcode, cmd := i.key, src := h.src, interim := true, work := .fan 0 }
    { s with dev := s.dev.finishOne s.time.now st payload r }
  else s.directReply h i minor st payload

/-- Finish every running command whose work satisfies a test. -/
def Dev.finish (t : Nat) (p : Work → Bool) (st : Status) (payload : List Byte) (d : Dev) : Dev :=
  (d.silek.running.filter (fun r => p r.work)).foldl (fun d r => d.finishOne t st payload r) d

/-- Some running command does the work tested for. -/
def Dev.works (d : Dev) (p : Work → Bool) : Bool := d.silek.running.any (fun r => p r.work)

/-- The FENCED notice to a stale sender, at most one per sender and millisecond (R390). -/
def Dev.fencedNotice (t a : Nat) (d : Dev) : Dev :=
  let recent := match Tab.get d.memb.noticed a with
    | some u => decide (t < u + 1000000)
    | none => false
  if recent then d else
  ({ d with memb := { d.memb with noticed := Tab.set d.memb.noticed a t } }.inc Memb.FENCED_SENT).chainSend
    false a d.epoch (.fenced d.epoch)

/-- Epoch a is newer than b (R390). -/
def newerEpoch (a b : Nat) : Bool :=
  let x := (a + 2 ^ 32 - b % 2 ^ 32) % 2 ^ 32
  decide (1 ≤ x) && decide (x ≤ 2 ^ 31 - 1)

/-- What the epoch of a command leads to (R425, R390, R398). -/
inductive EpochCheck where
  | accept | fenced | stale | newer | silent
deriving DecidableEq, Repr

/-- The epoch before this one, from a member still alive, within 2 ms of the advance (R390). -/
def Dev.lateEpoch (d : Dev) (t a e : Nat) : Bool :=
  decide ((e + 1) % 2 ^ 32 = d.epoch) && decide (e ≠ 0) && d.alive a && decide (t < d.memb.lastAdvance + 2000000)

/-- Check a command's epoch. -/
def Dev.checkEpoch (t : Nat) (d : Dev) (h : SilekHdr) (op : Nat) : EpochCheck :=
  if d.silek.releasing.isSome then .accept else
  match h.requester with
  | .member a =>
    if op = 0x504 ∧ d.mode = 9 then .accept
    else if d.memb.rejoining then .accept
    else if h.epoch = d.epoch ∨ d.lateEpoch t a h.epoch then .accept
    else if h.epoch = 0 then (if op = 0x503 then .accept else .silent)
    else if newerEpoch h.epoch d.epoch then (if op = 0x506 then .accept else .newer)
    else .stale
  | _ => if h.epoch ≠ 0 ∧ h.epoch ≠ d.epoch then .fenced else .accept

/-- The minor version settled with a member, 3 until it is known (R413). -/
def Dev.settledMinor (d : Dev) (a : Nat) : Nat := min 3 (Tab.getD d.silek.settled a 3)

/-- Send a relayed command: RELAYED, this device's SRC and a tag of its own. -/
def Dev.sendRelay (t : Nat) (r : Relay) (d : Dev) : Dev :=
  d.sendMember t r.dst r.ownTag d.epoch false false (silekMessage d r.opcode (min r.minor (d.settledMinor r.dst)) 8 0 r.ownTag r.dst d.epoch r.payload)

/-- Relay a fabric manager's command to the member its DST names (R419). Commands of groups 0x02, 0x04 and 0x05 are the primary's own
and are not relayed. -/
def State.relay (h : SilekHdr) (i : CmdInfo) (minor : Nat) (s : State) : State :=
  let d := s.dev
  if ¬ d.acting ∨ [2, 4, 5].contains (i.opcode / 256) then s.finalReply h i minor .notPermitted []
  else if ¬ d.alive h.dst then s.finalReply h i minor .targetLost []
  else
    let n := d.silek.nextId
    let r : Relay := {
      id := n, req := h.requester, tag := h.tag, ownTag := n % 65536, dst := h.dst, opcode := i.opcode, minor, payload := h.payload }
    let run : Running := {
      req := h.requester, tag := h.tag, minor, opcode := i.opcode, cmd := i.key, src := h.src, work := .relay n
      interim := d.silek.releasing = some true }
    let d := { d with silek := { d.silek with
      relays := d.silek.relays ++ [r], nextId := n + 1, running := d.silek.running ++ [run] } }
    { s with dev := d.sendRelay s.time.now r }

/-- Start the body of an accepted command and deal with how it ends. -/
def State.start (h : SilekHdr) (i : CmdInfo) (minor : Nat) (body : State → State × Result) (s : State) : State :=
  let s := { s with dev := s.dev.mon s.time.now 0x39 0x901 0xffff 0 }
  match body s with
  | (s, .final st p) => s.finalReply h i minor st p
  | (s, .silent) => s
  | (s, .run w) =>
    let r : Running := {
      req := h.requester, tag := h.tag, minor, opcode := i.opcode, cmd := i.key, src := h.src, work := w
      interim := s.dev.silek.releasing = some true }
    { s with dev := { s.dev with silek := { s.dev.silek with running := s.dev.silek.running ++ [r] } } }

/-- The reply payload of SILEK_VERSION (R430). -/
def versionPayload : List Byte := leBytes 1 1 ++ leBytes 1 2 ++ leBytes 1 3

/-- Commands of one requester that run. -/
def Dev.runningOf (d : Dev) (r : Requester) : List Running := d.silek.running.filter (fun x => x.req = r)

/-- A command against the outstanding commands and the cache (R421). -/
inductive CacheHit where
  | repeatRunning | clash | cached (c : CachedReply) | none
deriving DecidableEq, Repr

/-- Look a command up. -/
def Dev.lookupTag (t : Nat) (d : Dev) (h : SilekHdr) (i : CmdInfo) : CacheHit :=
  match (d.runningOf h.requester).find? (fun x => x.tag = h.tag) with
  | some r => if r.cmd = i.key then .repeatRunning else .clash
  | none =>
    match d.silek.held.find? (fun x => x.req = h.requester ∧ x.tag = h.tag) with
    | some x => if x.cmd = i.key then .repeatRunning else .clash
    | none =>
    match d.silek.cache.find? (fun x => x.req = h.requester ∧ x.tag = h.tag) with
    | some c => if c.cmd = i.key ∧ t ≤ c.time + 10000000000 then .cached c else .none
    | none => .none

/-- A command of a mailbox that ran after an INTERIM reply is one of at most eight (R417). -/
def Dev.mailboxFull (d : Dev) (r : Requester) : Bool :=
  match r.mailbox with
  | some mb => decide (8 ≤ d.rd (Mbx.BG_COUNT mb))
  | none => false

/-- The responder: what a Silek command does, given its body (R407 to R425). -/
def runSilek (h : SilekHdr) (i : CmdInfo) (body : State → State × Result) (s : State) :
    Host.Outcome State Fault Refusal :=
  let d := s.dev
  let minor := min h.minor 3
  let isFm := match h.requester with
    | .fm _ => true
    | .mgmt => true
    | _ => false
  if d.mode ≤ 1 then .next s
  else if h.broadcast ∧ (i.opcode ≠ 0x506 ∨ h.dst ≠ 0) then .next s
  else match d.checkEpoch s.time.now h i.opcode with
  | .silent => .next s
  | .stale =>
    match h.requester with
    | .member a => .next { s with dev := (d.inc Memb.STALE_DROPS).fencedNotice s.time.now a }
    | _ => .next s
  | .newer => .next { s with dev := d.inc Memb.NEWER_EPOCH_DROPS }
  | .fenced => .next (s.answer h.requester i.opcode h.tag minor h.src 1 .fenced [])
  | .accept =>
  if i.opcode ≠ 0x101 ∧ h.major ≠ 2 then .next (s.answer h.requester i.opcode h.tag 3 h.src 1 .versionMismatch versionPayload)
  else
  let minor := if i.opcode = 0x101 then 3 else minor
  if minor < i.minMinor then .next (s.finalReply h i minor .badOpcode [])
  else match d.lookupTag s.time.now h i with
  | .repeatRunning => .next (s.answer h.requester i.opcode h.tag minor h.src 3 .inProgress [])
  | .clash => .next (s.answer h.requester i.opcode h.tag minor h.src 1 .badParam [])
  | .cached c => .next (s.answer h.requester c.opcode h.tag c.minor h.src 1 c.status c.payload)
  | .none =>
  let away := decide (h.dst ≠ 0 ∧ h.dst ≠ d.chainAddr)
  if away && !isFm then .next (s.finalReply h i minor .notPermitted [])
  else if !away && !d.sourceMay h i then .next (s.finalReply h i minor .notPermitted [])
  else if !away && !d.modeAccepts i.opcode (d.fromPrimary h) then .next (s.finalReply h i minor .notPermitted [])
  else if !away && !h.padOk then .next (s.finalReply h i minor .badParam [])
  else if 64 ≤ d.silek.running.length ∨ d.mailboxFull h.requester then .next (s.finalReply h i minor .noResource [])
  else if d.silek.releasing.isNone ∧
      ((h.ordered ∧ d.runningOf h.requester ≠ []) ∨ d.silek.held.any (fun x => decide (x.req = h.requester))) then
    let x : HeldCommand := {
      req := h.requester, tag := h.tag, ordered := h.ordered, opcode := i.opcode, minor, src := h.src, cmd := i.key }
    .next { s with dev := { d with silek := { d.silek with held := d.silek.held ++ [x] } } }
  else if away then .next (s.relay h i minor)
  else .next (s.start h i minor body)

/-- A body that touches the device only. -/
def devBody (f : Nat → Dev → Dev × Result) (s : State) : State × Result :=
  let r := f s.time.now s.dev
  ({ s with dev := r.1 }, r.2)

/-- A body that changes nothing. -/
def queryBody (f : State → Result) (s : State) : State × Result := (s, f s)

/-- The first held command that may start: no earlier command of its requester is held, and one with ORDERED finds none running
(R422). -/
def Dev.nextHeld (d : Dev) : Option HeldCommand :=
  d.silek.held.find? (fun x =>
    ((d.silek.held.find? (fun y => y.req = x.req)) = some x) && (!x.ordered || decide (d.runningOf x.req = [])))

/-- INTERIM_REPLY (R422): 1 ms after acceptance, a command that still runs or waits sends IN_PROGRESS; a mailbox whose command has
ended takes its final reply. -/
def execInterimReply (req : Requester) (tag : Nat) (s : State) : Host.Outcome State Fault Refusal :=
  let d := s.dev
  match (d.runningOf req).find? (fun x => x.tag = tag) with
  | some r =>
    if r.interim ∨ 65536 ≤ tag then .next s else
    let rs := d.silek.running.map (fun x => if x = r then { r with interim := true } else x)
    let d := { d with silek := { d.silek with running := rs } }
    let d := match req.mailbox with
      | some mb => d.wr (Mbx.BG_COUNT mb) (d.rd (Mbx.BG_COUNT mb) + 1)
      | none => d
    .next ({ s with dev := d }.answer req r.opcode tag r.minor r.src 3 .inProgress [])
  | none =>
    match d.silek.held.find? (fun x => x.req = req ∧ x.tag = tag) with
    | some x =>
      if x.interim then .next s else
      let hs := d.silek.held.map (fun y => if y = x then { x with interim := true } else y)
      let d := { d with silek := { d.silek with held := hs } }
      let d := match req.mailbox with
        | some mb => d.wr (Mbx.BG_COUNT mb) (d.rd (Mbx.BG_COUNT mb) + 1)
        | none => d
      .next ({ s with dev := d }.answer req x.opcode tag x.minor x.src 3 .inProgress [])
    | none =>
    .next s.takeMail

/-- Send, or resend, a command of this device: to an MCTP endpoint e as destination 256 + e (R429), to a member otherwise. -/
def Dev.sendOne (t : Nat) (c : SentCommand) (d : Dev) : Dev :=
  if 256 ≤ c.dst then d.emit (.command (c.dst - 256) c.opcode c.tag c.epoch (padBytes c.payload))
  else d.sendMember t c.dst c.tag c.epoch false (decide (c.opcode = 0x506)) (silekMessage d c.opcode (d.settledMinor c.dst) 0 0 c.tag c.dst c.epoch c.payload)

/-- Send a command to another member (R426); `purpose` names the work it is for. -/
def Dev.sendCommand (t dst opcode purpose : Nat) (payload : List Byte) (d : Dev) : Dev :=
  let n := d.silek.nextId
  let c : SentCommand := { id := n, tag := n % 65536, dst, opcode, purpose, epoch := d.epoch, payload, time := t }
  ({ d with silek := { d.silek with sent := d.silek.sent ++ [c], nextId := n + 1 } }).sendOne t c

/-- Other members of the current epoch that run in OM5 to OM8 by their heartbeats (R365). -/
def Dev.otherMembers (d : Dev) : List Nat :=
  if ¬ d.acting then [] else (List.range 17).filter (fun a => d.alive a ∧ a ≠ d.chainAddr)

end Sys2Proof.Machine
end

