-- ==== Sys2Proof/Machine/Gate.lean ====
section
/-! DEFINITION. The Gate: rules, checks, violation reports and the Gate commands (R349 to R367). -/
namespace Sys2Proof.Machine
open Sys2Proof

/-! ### Rules (R351 to R353) -/

/-- A rule as its 32 bytes. -/
def Rule.bits (r : Rule) : Nat :=
  flagBit r.valid + 2 * r.action + 2 ^ 3 * r.space + 2 ^ 4 * r.perms + 2 ^ 8 * r.hostVi + 2 ^ 16 * r.masterValue +
    2 ^ 32 * r.masterMask + 2 ^ 64 * r.basePage + 2 ^ 128 * r.limitPage + 2 ^ 192 * r.hits

/-- A rule from its 256 bits, word 3 ignored. -/
def Rule.ofBits (b : BitVec 256) : Rule :=
  let n := b.toNat
  { valid := decide (fieldOf n 0 1 = 1), action := fieldOf n 1 2, space := fieldOf n 3 1, perms := fieldOf n 4 3,
    hostVi := fieldOf n 8 6, masterValue := fieldOf n 16 16, masterMask := fieldOf n 32 16, basePage := fieldOf n 64 40,
    limitPage := fieldOf n 128 40 }

/-- GATE_WRITE refuses the rule with BAD_PARAM (R361). -/
def ruleBad (b : BitVec 256) : Bool :=
  let n := b.toNat
  let r := Rule.ofBits b
  decide (r.action = 3) || decide (r.limitPage < r.basePage) ||
    (decide (r.space = 0) && (decide (2 ^ 39 ≤ r.limitPage) || decide (r.hostVi ≠ 0))) ||
    decide (fieldOf n 7 1 ≠ 0) || decide (fieldOf n 14 2 ≠ 0) || decide (fieldOf n 48 16 ≠ 0) ||
    decide (fieldOf n 104 24 ≠ 0) || decide (fieldOf n 168 24 ≠ 0)

/-- What a check sees: address space (0 fabric, 1 host memory of `vi`), master ID and first byte. -/
structure Check where
  space : Nat
  vi : Nat
  master : Nat
  addr : Nat
deriving DecidableEq, Repr

/-- A rule matches an access (R352); a damaged rule matches every access (R355). -/
def Rule.hit (r : Rule) (c : Check) : Bool :=
  r.damaged ||
    (r.valid && decide (r.space = c.space) && (decide (c.space = 0) || decide (r.hostVi = c.vi)) &&
      decide (Nat.land c.master r.masterMask = Nat.land r.masterValue r.masterMask) &&
      decide (r.basePage ≤ c.addr / 4096) && decide (c.addr / 4096 ≤ r.limitPage))

/-- The matching rule of lowest index. -/
def decider (table : Tab Rule) (c : Check) : Option (Nat × Rule) := table.find? (fun x => x.2.hit c)

/-- The rule lets an access needing `need` pass (R353, R354): permission bits 1 READ, 2 WRITE, 4 ATOMIC. -/
def Rule.passes (r : Rule) (need : Nat) : Bool :=
  !r.damaged && decide (r.action = 1) && decide (Nat.land r.perms need = need)

/-! ### Checks (R349, R353, R357 to R359) -/

/-- A denial's report (R358, R359). -/
def Dev.gateReport (t : Nat) (c : Check) (access rule : Nat) (d : Dev) : Dev :=
  let ms := t / 1000000
  let used := if d.gate.window.1 = ms then d.gate.window.2 else 0
  if used < d.rd GateR.REPORT_LIMIT then
    ({ d with gate := { d.gate with window := (ms, used + 1) } }).logErr t
      { cls := 7, severity := 1, source := 8, access, master := c.master, rule, addr := c.addr, detail := d.rd GateR.RULE_EPOCH }
  else
    (({ d with gate := { d.gate with window := (ms, used) } }).inc GateR.REPORTS_SUPPRESSED).mon t 52 0x404 c.master c.addr

/-- Check one access; the answer is the rule index of a denial, none when the access passes. -/
def Dev.gateCheck (t : Nat) (c : Check) (need access : Nat) (d : Dev) : Dev × Option Nat :=
  let d := d.mon t 52 0x401 c.master c.addr
  let deny (quiet : Bool) (rule : Nat) (d : Dev) : Dev × Option Nat :=
    let d := ((d.inc GateR.DENIALS).hbCount 18 1).mon t 52 0x402 c.master c.addr
    let d := if rule = 0xffff then (d.inc GateR.DEFAULT_DENIALS).mon t 52 0x403 c.master c.addr else d
    (if quiet then d else d.gateReport t c access rule, some rule)
  match decider d.gate.active c with
  | none => deny false 0xffff d
  | some (i, r) =>
    let d := { d with gate := { d.gate with active := Tab.set d.gate.active i { r with hits := saturate 32 (r.hits + 1) } } }
    if r.passes need then (d, none) else deny (decide (r.action = 2) && !r.damaged) i d

/-- Check an access to host memory; `true` lets it pass. -/
def Dev.gateHost (t vi master addr access : Nat) (write : Bool) (d : Dev) : Dev × Bool :=
  let (d, r) := d.gateCheck t { space := 1, vi, master, addr } (if write then 2 else 1) access
  (d, r.isNone)

/-! ### Accesses in flight (R363) -/

/-- A continuation holds an access that was checked under another epoch. -/
def Cont.access : Cont → Option Access
  | .direct a => some a
  | .atomicWrite a _ => some a
  | .snoopWrite _ _ a => some a
  | _ => Option.none

/-- The access counts as in flight under an older epoch: it was checked and is not the Churn's own. -/
def Access.old (e : Nat) (a : Access) : Bool :=
  decide (a.ruleEpoch ≠ e) && (match a.origin with
    | .churn _ => false
    | _ => true)

/-- Accesses still in flight that an earlier epoch checked (R362): trackers, requests that wait at a slice with a ticket or for an
access weight, requests at the memory agents, dual writes, buffered writes, requests and writes toward remote owners, host memory reads of the
Ladles, and the destination of a piece that still reads. A write of the Churn counts with the epoch of the access that caused it; epoch 0
passes no access, and stands for none. -/
def Dev.inFlightOld (d : Dev) : Nat :=
  let e := d.rd GateR.RULE_EPOCH
  let reqs := (d.agents.queue ++ d.agents.reads).filter (fun r => match r.cont.access with
    | some a => a.old e
    | none => false)
  let held := (d.chn.stalled ++ d.chn.tickets.filterMap (·.waiting) ++ (d.binder.migrations.map (fun x => x.2.held)).flatten).filter (·.old e)
  let duals := d.agents.duals.filter (fun x => match x.2.2.access with
    | some a => a.old e
    | none => false)
  let trs := d.chn.trackers.filter (fun x => x.acc.old e)
  let refs := (d.buf.entries ++ d.buf.waiting).foldl (fun n x =>
    n + (x.writes.filter (fun w => w.ruleEpoch ≠ e ∧ (w.master / 4096 ≠ 3 ∨ w.ruleEpoch ≠ 0))).length) 0
  let outs := (d.fab.outstanding.map (·.cont) ++ d.fab.waiting.map (·.2)).filter (fun k => match k.access with
    | some a => a.old e
    | none => false)
  let dsts := (d.ladles.runs.map (fun r => r.pieces.filter (fun p =>
    (decide (r.desc.opcode = 1) || decide (r.desc.opcode = 7)) && !p.turned && decide (p.ruleEpoch ≠ e)))).flatten
  let reads := d.ladles.hostReads.filter (fun x => match x.origin with
    | .ladle run i _ _ => d.ladles.runs.any (fun r => r.id = run ∧ r.pieces.any (fun p => p.index = i ∧ p.ruleEpoch ≠ e))
    | .ring q _ => decide ((Tab.getD d.ladles.pairs q {}).fetchEpoch ≠ e)
    | _ => false)
  reqs.length + held.length + duals.length + trs.length + refs + outs.length + dsts.length + reads.length + (d.buf.remote.filter (fun w => w.ruleEpoch ≠ e)).length

/-! ### Commands (R361, R362, R365) -/

/-- Where a Gate command's chain address leads (R361). -/
inductive GateTarget where
  | own | member (a : Nat) | refused (st : Status)
deriving DecidableEq, Repr

/-- Resolve the chain address of a Gate command. -/
def Dev.gateTarget (d : Dev) (addr : Nat) : GateTarget :=
  if addr = 0 ∨ addr = d.chainAddr then .own
  else if 16 < addr then .refused .badParam
  else if ¬ d.acting then .refused .notPermitted
  else if d.alive addr then .member addr
  else .refused .targetLost

/-- The primary's copy of a member's tables. -/
def Dev.copyOf (d : Dev) (a : Nat) : MemberCopy := Tab.getD d.memb.copies a {}
/-- Replace it. -/
def Dev.setCopy (d : Dev) (a : Nat) (c : MemberCopy) : Dev :=
  { d with memb := { d.memb with copies := Tab.put d.memb.copies a c {} } }

/-- Write rules from index `first` on; HIT_COUNT of a staging rule is that of the active table it will replace. -/
def stageRules (table : Tab Rule) (first : Nat) : List (BitVec 256) → Tab Rule
  | [] => table
  | b :: l => stageRules (Tab.put table first (Rule.ofBits b) {}) (first + 1) l

/-- The staging table that becomes active: a rule that did not change keeps its HIT_COUNT; a damaged active rule counts as
changed (R355, R362). -/
def commitRule (old : Rule) (new : Rule) : Rule :=
  if { old with hits := 0 } = { new with hits := 0 } then { new with hits := old.hits } else { new with hits := 0 }

/-- The active table after step 2 of a commit. -/
def commitTable (active staging : Tab Rule) : Tab Rule :=
  staging.map (fun x => (x.1, commitRule (Tab.getD active x.1 {}) x.2))

/-- The staging and active tables differ (STAGING_DIRTY). -/
def Gate.dirty (g : Gate) : Bool :=
  decide (g.active.map (fun x => (x.1, { x.2 with hits := 0 })) ≠ g.staging.map (fun x => (x.1, { x.2 with hits := 0 })))

/-- Step 2 of R362 on this device: the tables switch and RULE_EPOCH advances. -/
def Dev.switchRules (d : Dev) : Dev :=
  let d := { d with gate := { d.gate with active := commitTable d.gate.active d.gate.staging } }
  d.wr GateR.RULE_EPOCH (d.rd GateR.RULE_EPOCH + 1)

/-- Rules arrive for this device: the staging table takes them, and during a join or rejoin both tables do (step 3 of R398). -/
def Dev.loadRules (first : Nat) (rules : List (BitVec 256)) (d : Dev) : Dev :=
  { d with gate := { d.gate with
      staging := stageRules d.gate.staging first rules
      active := if d.memb.rejoining then stageRules d.gate.active first rules else d.gate.active } }

/-- GATE_WRITE on this device or, at the acting primary, for a member. -/
def Dev.gateWrite (t addr first : Nat) (rules : List (BitVec 256)) (d : Dev) : Dev × Result :=
  if rules.length < 1 ∨ 64 < rules.length ∨ 4096 < first + rules.length ∨ rules.any ruleBad then (d, .err .badParam)
  else
    match d.gateTarget addr with
    | .refused st => (d, .err st)
    | .own => (d.loadRules first rules, .final .ok [])
    | .member a =>
      let c := d.copyOf a
      let n := d.silek.nextId
      let d := d.setCopy a { c with gate := { c.gate with staging := stageRules c.gate.staging first rules } }
      (d.sendCommand t a 0x401 n (leBytes 1 a ++ leBytes 2 first ++ leBytes 2 rules.length ++
        (rules.map (fun r => leBytes 32 r.toNat)).flatten), .run (.fan n))

/-- GATE_COMMIT (R362, R365): the switch happens here and at every other member; the reply waits for the drains. During a join or
rejoin the primary's GATE_COMMIT opens the transfer of step 3 of R398: the tables empty and RULE_EPOCH is the fabric's (log entry 150). -/
def Dev.gateCommit (t expected : Nat) (d : Dev) : Dev × Result :=
  if d.memb.rejoining then (({ d with gate := { d.gate with active := [], staging := [] } } : Dev).wr GateR.RULE_EPOCH expected, .final .ok (leBytes 4 (expected % 2 ^ 32)))
  else if d.flag GateR.COMMIT_BUSY ∨ d.silek.running.any (fun r => r.work = .commit) then (d, .err .busy)
  else if expected ≠ d.rd GateR.RULE_EPOCH then (d, .err .notPermitted)
  else
    let d := (d.raise1 GateR.COMMIT_BUSY).switchRules
    let d := d.otherMembers.foldl (fun (d : Dev) a =>
      let c := d.copyOf a
      let g := c.gate
      (d.setCopy a { c with gate := { g with active := commitTable g.active g.staging } }).sendCommand t a 0x402 0 (leBytes 4 expected)) d
    (d, .run .commit)

/-- The commit replies once this device and every member has drained. -/
def Dev.commitReply (t : Nat) (d : Dev) : Dev :=
  if d.flag GateR.COMMIT_BUSY ∨ d.silek.sent.any (fun c => c.opcode = 0x402) then d
  else d.finish t (· = .commit) .ok (leBytes 4 (d.rd GateR.RULE_EPOCH))

/-- COMMIT_DRAIN_DONE (R362). -/
def execCommitDrainDone (s : State) : Host.Outcome State Fault Refusal :=
  onDev (fun t d => if d.flag GateR.COMMIT_BUSY ∧ d.inFlightOld = 0 then (d.wrFlag GateR.COMMIT_BUSY false).commitReply t else d) s

/-- GATE_READ (R361). -/
def Dev.gateRead (d : Dev) (addr sel first count : Nat) : Result :=
  if 1 < sel ∨ count < 1 ∨ 64 < count ∨ 4096 < first + count then .err .badParam
  else
    let show' (g : Gate) : Result :=
      .final .ok ((List.range count).map (fun i =>
        leBytes 32 (Tab.getD (if sel = 0 then g.active else g.staging) (first + i) {}).bits)).flatten
    match d.gateTarget addr with
    | .refused st => .err st
    | .own => show' d.gate
    | .member a => show' (d.copyOf a).gate

/-- GATE_READ. -/
def execGateRead (h : SilekHdr) (addr sel first count : Nat) (s : State) : Host.Outcome State Fault Refusal :=
  runSilek h { opcode := 0x403, key := .gateRead h.key addr sel first count }
    (queryBody fun s => s.dev.gateRead addr sel first count) s

/-- GATE_DISCARD (R361): the staging table becomes equal to the active table. -/
def Dev.gateDiscard (t addr : Nat) (d : Dev) : Dev × Result :=
  match d.gateTarget addr with
  | .refused st => (d, .err st)
  | .own => ({ d with gate := { d.gate with staging := d.gate.active } }, .final .ok [])
  | .member a =>
    let c := d.copyOf a
    let n := d.silek.nextId
    ((d.setCopy a { c with gate := { c.gate with staging := c.gate.active } }).sendCommand t a 0x404 n (leBytes 1 a), .run (.fan n))

/-- GATE_SCRUB (R355, R524): a corrected word is counted; an uncorrectable one makes its rule deny everything. -/
def execGateScrub (staging : Bool) (index : Fin 4096) (fixed : Nat) (s : State) : Host.Outcome State Fault Refusal :=
  onDev (fun t d =>
    if d.mode = 0 then d
    else if fixed = 1 then d.logCorrected t 7 8 (32 * index) (7 + 256)
    else if fixed = 0 then d
    else
      let d := d.hbCount 4 1
      let d := d.logErr t { cls := 2, severity := 1, source := 8, addr := 32 * index, detail := 7 }
      let d := d.raise1 GateR.RULE_ECC_EVT
      if staging then
        let r := Tab.getD d.gate.staging index {}
        { d with gate := { d.gate with staging := Tab.set d.gate.staging index { r with damaged := true } } }
      else
        let r := Tab.getD d.gate.active index {}
        { d with gate := { d.gate with active := Tab.set d.gate.active index { r with damaged := true } } }) s

end Sys2Proof.Machine
end

