-- ==== Sys2Proof/Machine/Extents.lean ====
section
/-! DEFINITION. Fabric addresses, the extent map, host decoder windows and binding slots, with the commands that register capacity
and configure windows (R156 to R169, R190). -/
namespace Sys2Proof.Machine
open Sys2Proof

/-! ### Fabric addresses (R156) -/

/-- CHAIN of a fabric address. -/
def faChain (fa : Nat) : Nat := fieldOf fa 46 5
/-- EXTENT. -/
def faExtent (fa : Nat) : Nat := fieldOf fa 28 18
/-- LINE. -/
def faLine (fa : Nat) : Nat := fieldOf fa 6 22
/-- BYTE. -/
def faByte (fa : Nat) : Nat := fieldOf fa 0 6
/-- The line address LA (R192). -/
def lineAddr (fa : Nat) : Nat := fieldOf fa 6 45
/-- The slice of a line (R192): the XOR of the nine 5-bit fields of LA. -/
def sliceOf (la : Nat) : Nat := (List.range 9).foldl (fun x i => Nat.xor x (fieldOf la (5 * i) 5)) 0
/-- The fabric address of byte `off` of an extent. -/
def faOf (chain e off : Nat) : Nat := chain * 2 ^ 46 + e * 2 ^ 28 + off
/-- The fabric address of a line address. -/
def laFa (la : Nat) : Nat := 64 * la

/-! ### The extent map (R161) -/

/-- Extent e of this device's map. -/
def Dev.ext (d : Dev) (e : Nat) : Extent := Tab.getD d.extents e {}
/-- Replace an extent's entry. -/
def Dev.setExt (d : Dev) (e : Nat) (x : Extent) : Dev := { d with extents := Tab.put d.extents e x {} }
/-- Change an extent's entry. -/
def Dev.modExt (d : Dev) (e : Nat) (f : Extent → Extent) : Dev := d.setExt e (f (d.ext e))

/-- An extent map entry as its 64 bits (R161). -/
def Extent.bits (x : Extent) : Nat :=
  x.state + 2 ^ 4 * flagBit x.migrating + 2 ^ 5 * flagBit x.unbinding + 2 ^ 6 * flagBit x.poisonCapable +
    2 ^ 7 * flagBit (decide (0 < x.lostCount)) + 2 ^ 8 * x.port + 2 ^ 14 * x.ld + 2 ^ 18 * x.dpaUnit + 2 ^ 32 * x.ownerChain +
    2 ^ 37 * x.ownerVi + 2 ^ 43 * x.bindCount + 2 ^ 54 * x.migIndex

/-- An extent map entry from its 64 bits; LOST_LINES stands for one LOST line at least. -/
def Extent.ofBits (n : Nat) : Extent := {
  state := fieldOf n 0 4, migrating := decide (fieldOf n 4 1 = 1), unbinding := decide (fieldOf n 5 1 = 1)
  poisonCapable := decide (fieldOf n 6 1 = 1), lostCount := fieldOf n 7 1, port := fieldOf n 8 6, ld := fieldOf n 14 4
  dpaUnit := fieldOf n 18 14, ownerChain := fieldOf n 32 5, ownerVi := fieldOf n 37 6, bindCount := fieldOf n 43 11
  migIndex := fieldOf n 54 5, home := decide (fieldOf n 0 4 = 4) }

/-- A window entry as its 128 bits (R165). -/
def Window.bits (w : Window) : Nat :=
  flagBit w.enabled + 2 * flagBit w.committed + 2 ^ 2 * w.vi + 2 ^ 8 * w.region + 2 ^ 11 * w.kind + 2 ^ 32 * w.slotBase +
    2 ^ 64 * w.slotCount + 2 ^ 96 * w.hpaUnit

/-- A window entry from its 128 bits. -/
def Window.ofBits (n : Nat) : Window := {
  enabled := decide (fieldOf n 0 1 = 1), committed := decide (fieldOf n 1 1 = 1), vi := fieldOf n 2 6, region := fieldOf n 8 3
  kind := fieldOf n 11 2, slotBase := fieldOf n 32 32, slotCount := fieldOf n 64 32, hpaUnit := fieldOf n 96 32 }

/-- A binding slot from its 32 bits. -/
def BindSlot.ofBits (n : Nat) : BindSlot := {
  valid := decide (fieldOf n 0 1 = 1), pending := decide (fieldOf n 1 1 = 1), chain := fieldOf n 2 5, extent := fieldOf n 7 18 }

/-- A binding slot as its 32 bits (R168). -/
def BindSlot.bits (b : BindSlot) : Nat :=
  flagBit b.valid + 2 * flagBit b.pending + 2 ^ 2 * b.chain + 2 ^ 7 * b.extent

/-- Extents of this device in a state. -/
def Dev.extentsIn (d : Dev) (st : Nat) : Nat :=
  let n := (d.extents.filter (fun x => x.2.state = st)).length
  if st = 0 then 262144 - (d.extents.filter (fun x => x.2.state ≠ 0)).length else n

/-- The extent is homed at this device (R193, R377). -/
def Dev.isHome (d : Dev) (fa : Nat) : Bool := decide (faChain fa = d.homeAddr)

/-- Backing of a line of one of this device's extents: port, logical device and DPA of the line. -/
def Dev.backing (d : Dev) (fa : Nat) : Nat × Nat × Nat :=
  let x := d.ext (faExtent fa)
  (x.port, x.ld, x.dpaUnit * 2 ^ 28 + 64 * faLine fa)

/-- A DPA unit is registered: as extent backing, as tier 2 or as replica region (R159, R197, R381). -/
def Dev.registered (d : Dev) (p ld u : Nat) : Bool :=
  d.extents.any (fun x => x.2.state ≠ 0 ∧ x.2.port = p ∧ x.2.ld = ld ∧ x.2.dpaUnit = u) ||
    (d.flag ChurnR.TIER2_ACTIVE && decide (d.rd ChurnR.T2_PORT = p) && decide (d.rd ChurnR.T2_LD = ld) &&
      decide (d.rd ChurnR.T2_DPA_UNIT ≤ u) && decide (u < d.rd ChurnR.T2_DPA_UNIT + d.rd ChurnR.T2_UNITS)) ||
    (decide (d.rd Memb.REPLICA_PORT = p) && decide (d.rd Memb.REPLICA_LD = ld) && decide (d.rd Memb.REPLICA_DPA_UNIT ≤ u) &&
      decide (u < d.rd Memb.REPLICA_DPA_UNIT + d.rd Memb.REPLICA_UNITS))

/-- Register n extents from e on units from u on. -/
def Dev.register (p ld : Nat) : Nat → Nat → Nat → Dev → Dev
  | 0, _, _, d => d
  | n + 1, u, e, d =>
    Dev.register p ld n (u + 1) (e + 1)
      (d.setExt e { state := 1, port := p, ld, dpaUnit := u, poisonCapable := (d.port p).poisonCapable })

/-- A pair member that does not answer for PAIR_ADDR registers no capacity (R377). -/
def Dev.pairForeign (d : Dev) : Bool :=
  decide (d.mode = 6) || ((decide (d.mode = 5) || decide (d.mode = 8)) && decide (d.rd Memb.PAIR_ADDR ≠ 0) &&
    decide (d.homeAddr ≠ d.rd Memb.PAIR_ADDR))

/-- CAPACITY_ADD (R159). -/
def Dev.capacityAdd (p ld u n e : Nat) (d : Dev) : Dev × Result :=
  if d.pairForeign then (d, .err .notPermitted)
  else if ¬ d.isDevicePort p ∨ ¬ d.linkUp p then (d, .err .badParam)
  else if n = 0 ∨ (d.port p).capacity.length ≤ ld ∨ (d.port p).capacity.getD ld 0 < u + n then (d, .err .badParam)
  else if (List.range n).any (fun i => d.registered p ld (u + i)) then (d, .err .badParam)
  else if 262144 < e + n then (d, .err .badParam)
  else if d.extents.any (fun x => x.2.state ≠ 0 ∧ e ≤ x.1 ∧ x.1 < e + n) then (d, .err .noResource)
  else (Dev.register p ld n u e d, .final .ok [])

/-- CAPACITY_REMOVE (R160). An UNMAPPED extent of the range stays as it is (DESIGN CHOICE, log entry 172: R160 names no status for
it). -/
def Dev.capacityRemove (e n : Nat) (d : Dev) : Dev × Result :=
  let named := d.extents.filter (fun x => e ≤ x.1 ∧ x.1 < e + n)
  if n = 0 ∨ 262144 < e + n then (d, .err .badParam)
  else if named.any (fun x => x.2.migrating ∨ x.2.state = 7 ∨ 0 < x.2.bindCount) then (d, .err .busy)
  else ({ d with extents := d.extents.filter (fun x => ¬ (e ≤ x.1 ∧ x.1 < e + n)) }, .final .ok [])

/-- DEVICE_CAPACITY_QUERY (R579). -/
def Dev.capacityQuery (d : Dev) (p : Nat) : Result :=
  if ¬ d.isDevicePort p then .err .badParam
  else
    let caps := if d.linkUp p then (d.port p).capacity else []
    .final .ok (leBytes 4 caps.length ++
      (caps.zipIdx.map (fun x => leBytes 1 x.2 ++ leBytes 1 (flagBit (d.port p).poisonCapable) ++ leBytes 2 0 ++ leBytes 4 x.1)).flatten)

/-- DEVICE_CAPACITY_QUERY. -/
def execDeviceCapacityQuery (h : SilekHdr) (port : Nat) (s : State) : Host.Outcome State Fault Refusal :=
  runSilek h { opcode := 0x203, key := .deviceCapacityQuery h.key port } (queryBody fun s => s.dev.capacityQuery port) s

/-- EXTENT_QUERY (R171). -/
def execExtentQuery (h : SilekHdr) (first count : Nat) (s : State) : Host.Outcome State Fault Refusal :=
  runSilek h { opcode := 0x240, key := .extentQuery h.key first count }
    (queryBody fun s =>
      if count < 1 ∨ 384 < count ∨ 262144 < first + count then .err .badParam
      else .final .ok ((List.range count).map (fun i => leBytes 8 (s.dev.ext (first + i)).bits)).flatten) s

/-- A range of slots lies in one enabled window of an instance. -/
def Dev.slotsOwn (d : Dev) (vi first count : Nat) : Bool :=
  d.windows.any (fun w => w.2.enabled && decide (w.2.vi = vi) && decide (w.2.slotBase ≤ first) &&
    decide (first + count ≤ w.2.slotBase + w.2.slotCount))

/-- SLOT_QUERY (R171). -/
def execSlotQuery (h : SilekHdr) (first count : Nat) (s : State) : Host.Outcome State Fault Refusal :=
  runSilek h { opcode := 0x241, key := .slotQuery h.key first count, hostMay := fun d v => d.slotsOwn v first count }
    (queryBody fun s =>
      if count < 1 ∨ 768 < count ∨ 262144 < first + count then .err .badParam
      else .final .ok ((List.range count).map (fun i => leBytes 4 (Tab.getD s.dev.slots (first + i) {}).bits)).flatten) s

/-! ### Windows (R165 to R167) -/

/-- Window w. -/
def Dev.win (d : Dev) (w : Nat) : Window := Tab.getD d.windows w {}
/-- Replace window w. -/
def Dev.setWin (d : Dev) (w : Nat) (x : Window) : Dev := { d with windows := Tab.put d.windows w x {} }
/-- Slot k. -/
def Dev.slot (d : Dev) (k : Nat) : BindSlot := Tab.getD d.slots k {}
/-- Replace slot k. -/
def Dev.setSlot (d : Dev) (k : Nat) (x : BindSlot) : Dev := { d with slots := Tab.put d.slots k x {} }

/-- Enabled windows of an instance. -/
def Dev.windowsOf (d : Dev) (vi : Nat) : List (Nat × Window) := d.windows.filter (fun x => x.2.enabled ∧ x.2.vi = vi)

/-- The generation R578 gives two host ports: the older of theirs as last negotiated; one that did not train since OM0 counts as
CXL 3.x. -/
def Dev.portsGen (d : Dev) (a b : Option Nat) : Nat :=
  let g (p : Option Nat) : Nat := match p with
    | some p =>
      let n := if d.linkUp p then d.rd (Pg.CXL_GEN p) else (d.port p).lastGen
      if n = 0 then 3 else n
    | none => 3
  min (g a) (g b)

/-- The generation of an instance's host (R578). -/
def Dev.hostGen (d : Dev) (vi : Nat) : Nat := d.portsGen (d.instOf vi).portA (d.instOf vi).portB

/-- WINDOW_CONFIG (R166). -/
def Dev.windowConfig (w vi region kind base count : Nat) (enable : Bool) (d : Dev) : Dev × Result :=
  let old := d.win w
  let others := (d.windowsOf vi).filter (fun x => x.1 ≠ w)
  let gen := d.hostGen vi
  if 255 < w ∨ 63 < vi ∨ 7 < region ∨ 2 < kind then (d, .err .badParam)
  else if ¬ enable then
    (if d.heldSlots old ≠ [] ∧ old.enabled then (d, .err .busy) else (d.setWin w {}, .final .ok []))
  else if 8 ≤ others.length ∨ others.any (fun x => x.2.region = region) then (d, .err .badParam)
  else if 262144 < base + count ∨ d.windows.any (fun x => decide (x.1 ≠ w) && x.2.enabled &&
      decide (x.2.slotBase < base + count) && decide (base < x.2.slotBase + x.2.slotCount)) then (d, .err .badParam)
  else if count = 0 ∨ 32768 < count then (d, .err .badParam)
  else if old.enabled ∧ d.heldSlots old ≠ [] then (d, .err .busy)
  else if kind = 1 ∧ (gen = 1 ∨ gen = 2) then (d, .err .notPermitted)
  else
    let keep := old.enabled && decide (old.vi = vi) && decide (old.region = region) && decide (old.kind = kind) &&
      decide (old.size ≤ count)
    let x : Window := {
      enabled := true, committed := keep && old.committed, vi, region, kind, slotBase := base, slotCount := count,
      hpaUnit := if keep then old.hpaUnit else 0, size := if keep then old.size else 0 }
    (d.setWin w x, .final .ok [])

/-- WINDOW_QUERY (R432). -/
def execWindowQuery (h : SilekHdr) (first count : Nat) (s : State) : Host.Outcome State Fault Refusal :=
  runSilek h { opcode := 0x211, minMinor := 3, key := .windowQuery h.key first count }
    (queryBody fun s =>
      if count < 1 ∨ 64 < count ∨ 256 < first + count then .err .badParam
      else .final .ok ((List.range count).map (fun i => leBytes 16 (s.dev.win (first + i)).bits)).flatten) s

/-- HDM_DECODER_COMMIT (R167): base and size in bytes, interleave ways, first DPA; a decommit clears COMMITTED, and HPA_UNIT with it
(DESIGN CHOICE, log entry 174: R167 names COMMITTED only). -/
def Dev.decoderCommit (p w base size ways dpa : Nat) (commit : Bool) (d : Dev) : Dev :=
  let x := d.win w
  if ¬ x.enabled ∨ (d.viOfPort p) ≠ some x.vi then d
  else if ¬ commit then (d.setWin w { x with committed := false, hpaUnit := 0, size := 0 }).emit (.host p (.decoderCommit w true))
  else if base % 2 ^ 28 ≠ 0 ∨ size % 2 ^ 28 ≠ 0 ∨ x.slotCount * 2 ^ 28 < size ∨ ways ≠ 1 ∨ dpa ≠ x.region * 2 ^ 43 then
    d.emit (.host p (.decoderCommit w false))
  else
    (d.setWin w { x with committed := true, hpaUnit := base / 2 ^ 28 % 2 ^ 24, size := size / 2 ^ 28 }).emit
      (.host p (.decoderCommit w true))

/-! ### Decoding (R169) -/

/-- Stage 2 for an address of an instance: the fabric address, none for a decode miss; the kind of the window with it. -/
def Dev.decode (d : Dev) (vi hpa : Nat) : Option (Nat × Nat) :=
  match (d.windowsOf vi).find? (fun x => x.2.committed && decide (x.2.hpaUnit * 2 ^ 28 ≤ hpa) &&
      decide (hpa < (x.2.hpaUnit + x.2.size) * 2 ^ 28)) with
  | none => none
  | some (_, w) =>
    let b := d.slot (w.slotBase + (hpa / 2 ^ 28 - w.hpaUnit))
    if b.valid then some (faOf b.chain b.extent (hpa % 2 ^ 28), w.kind) else none

/-- The host physical address at which an instance sees a line, for snoops; the fabric address when no window maps it. -/
def Dev.hpaOf (d : Dev) (vi fa : Nat) : Nat :=
  let hit := (d.windowsOf vi).findSome? (fun x =>
    if ¬ x.2.committed then none else
    (d.slots.find? (fun b => x.2.holds b.1 ∧ b.2.chain = faChain fa ∧ b.2.extent = faExtent fa)).map
      (fun b => (x.2.hpaUnit + (b.1 - x.2.slotBase)) * 2 ^ 28 + fa % 2 ^ 28))
  hit.getD fa

/-- A decode miss is counted and logged (R169). -/
def Dev.decodeMiss (t vi access master hpa : Nat) (d : Dev) : Dev :=
  ((d.inc Ext.DECODE_MISSES).logErr t
    { cls := 6, severity := 1, source := 4, access, master, addr := hpa, detail := vi }).mon t 54 0x602 master hpa

/-- What the address adders of a decode predict and give (R169, R254): the window base subtracted, the slot index added, the fabric address
put together; each as the predicted residue and the right result. -/
def Dev.adderSteps (d : Dev) (vi hpa : Nat) : List (Nat × Nat) :=
  match (d.windowsOf vi).find? (fun x => x.2.committed && decide (x.2.hpaUnit * 2 ^ 28 ≤ hpa) &&
      decide (hpa < (x.2.hpaUnit + x.2.size) * 2 ^ 28)) with
  | none => []
  | some (_, w) =>
    let off := hpa - w.hpaUnit * 2 ^ 28
    let index := w.slotBase + off / 2 ^ 28
    let b := d.slot index
    [(subResidue 52 hpa (w.hpaUnit * 2 ^ 28), off), (addResidue 18 (w.slotBase % 2 ^ 18) (off / 2 ^ 28 % 2 ^ 18), index % 2 ^ 18),
      (joinResidue [(b.chain, 46), (b.extent, 28), (off % 2 ^ 28, 0)], faOf b.chain b.extent (off % 2 ^ 28))]

/-- The adders of a decode compute; one that fails gives a wrong result for each of its steps, and a step's residue check finds it. -/
def Dev.addersWrong (vi hpa : Nat) (d : Dev) : Dev × Bool :=
  match d.adderSteps vi hpa with
  | [] => (d, false)
  | s :: l =>
    match d.unitWrong .adder s.1 s.2 with
    | (d, wrong) => (d, wrong || l.any (fun x => decide (x.1 ≠ residue x.2)))

/-- Stage 2 for an address of an instance, which a device that does not serve leaves undecoded: a miss is recorded; a residue error of
the adders ends the request as a miss does (R169, R256). -/
def Dev.stage2 (t vi access master hpa : Nat) (serves : Bool) (d : Dev) : Dev × Option (Nat × Nat) :=
  let d := d.mon t 54 0x601 master hpa
  match (if serves then d.decode vi hpa else none) with
  | none => (d.decodeMiss t vi access master hpa, none)
  | some x =>
    match d.addersWrong vi hpa with
    | (d, true) => ((d.residueError t Ext.RESIDUE_DECODE 4 access master hpa 2).mon t 54 0x603 master hpa, none)
    | (d, false) => (d, some x)

end Sys2Proof.Machine
end

