-- ==== Sys2Proof/Machine/Fabric.lean ====
section
/-! DEFINITION. QFL transactions between devices: sending filtered requests, answering them, the duplicate filter, the epoch check
and the matching of responses (R119, R144 to R148, R225, R390). -/
namespace Sys2Proof.Machine
open Sys2Proof

/-! ### Request, completion and NAK words (R225) -/

/-- The request word of an access. -/
def reqWord (w : ReqWord) : BitVec 64 :=
  BitVec.ofNat 64 (w.addr % 2 ^ 51 + 2 ^ 51 * w.naks + 2 ^ 53 * flagBit w.ticket.isSome + 2 ^ 54 * w.ticket.getD 0 + 2 ^ 62 * w.keep)

/-- The completion word. -/
def completionWord (grant : Nat) (poison err : Bool) : BitVec 64 :=
  BitVec.ofNat 64 (grant + 2 ^ 2 * flagBit poison + 2 ^ 3 * flagBit err)

/-- The NAK word. -/
def nakWord (cause hint : Nat) (ticket : Option Nat) : BitVec 64 :=
  BitVec.ofNat 64 (cause + 2 ^ 4 * hint + 2 ^ 16 * flagBit ticket.isSome + 2 ^ 17 * ticket.getD 0)

/-- The eight units of a line. -/
def lineUnits (x : Line) : List (BitVec 64) := natWords 8 x.toNat

/-- The opcode of VC0 for a request kind. -/
def Kind.op : Kind → Nat
  | .rdShared => 1 | .rdOwn => 2 | .invOwn => 3 | .flush => 4 | .evictClean => 5 | .wb => 6 | .rdNc => 7 | .wrNc => 8
  | .atomic => 9 | _ => 10

/-- ACCESS code of a kind (R517). -/
def Kind.code : Kind → Nat
  | .rdShared => 1 | .rdOwn => 2 | .invOwn => 3 | .flush => 4 | .evictClean => 5 | .wb => 6 | .rdNc => 7 | .wrNc => 8
  | .atomic => 9 | .recall => 10 | .recallAll => 11 | .reclaim => 12

/-- Units 2 onward of an ATOMIC (R252). -/
def atomUnits (a : AtomArgs) : List (BitVec 64) :=
  BitVec.ofNat 64 a.op ::
    (if a.op ≤ 2 then [BitVec.ofNat 64 a.a] else if a.op = 3 then [BitVec.ofNat 64 a.a, BitVec.ofNat 64 a.b]
     else natWords 2 a.a ++ natWords 2 a.b)

/-- Units 2 onward of a VC0 request of opcode `op` for an access, keeping `keep`. -/
def Access.units (a : Access) (op keep : Nat) : List (BitVec 64) :=
  let w := reqWord { addr := a.fa, naks := a.naks, ticket := a.ticket, keep }
  match op with
  | 6 => w :: lineUnits a.data
  | 8 => w :: BitVec.ofNat 64 a.be.toNat :: lineUnits a.data
  | 9 => w :: (match a.atom with
    | some x => atomUnits x
    | none => [])
  | _ => [w]

/-! ### Answering -/

/-- Answer a request: the answer echoes TAG, master ID and E2E_SEQ (R147). -/
def Dev.respond (t : Nat) (h : QflHdr) (vc op : Nat) (units : List (BitVec 64)) (d : Dev) : Dev :=
  d.enqueueMsg t {
    vc, opcode := op, src := h.dst, dst := h.src, master := h.master, tag := h.tag, epoch := d.epoch, e2e := h.e2e, units }

/-! ### Receiving -/

/-- The epoch check of R390 on a message that reached its destination. -/
def Dev.msgEpoch (t : Nat) (h : QflHdr) (d : Dev) : Dev × Bool :=
  if h.epoch = d.epoch then (d, true)
  else if (h.epoch + 1) % 2 ^ 32 = d.epoch ∧ h.epoch ≠ 0 ∧ d.alive h.src ∧ t < d.memb.lastAdvance + 2000000 then (d, true)
  else if h.epoch = 0 then (d, false)
  else if newerEpoch h.epoch d.epoch then (d.inc Memb.NEWER_EPOCH_DROPS, false)
  else ((d.inc Memb.STALE_DROPS).fencedNotice t h.src, false)

/-- A message leaves its receive buffer and passes the epoch check. -/
def Dev.receive (t vc op : Nat) (h : QflHdr) (d : Dev) : Dev × Bool :=
  let m : QflMsg := { vc, opcode := op, src := h.src, dst := h.dst, master := h.master, tag := h.tag, epoch := h.epoch, e2e := h.e2e }
  let d := d.takeRx m
  if ¬ d.ownAddr h.dst then (d, false) else d.msgEpoch t h

/-- The duplicate filter of the message's source. -/
def Dev.passFilter (t : Nat) (h : QflHdr) (d : Dev) : Dev × Bool := d.filterSource t h.src h.e2e

/-- A filtered message passes the duplicate filter as well. -/
def Dev.receiveFiltered (t vc op : Nat) (h : QflHdr) (d : Dev) : Dev × Bool :=
  let (d, ok) := d.receive t vc op h
  if ok then d.passFilter t h else (d, false)

/-- The port whose receive buffer holds a message. -/
def Dev.arrivedOn (m : QflMsg) (d : Dev) : Option Nat := (d.fab.links.find? (fun x => x.2.rx.any (fun y => y.same m))).map (·.1)

/-- The port a message came over: the one whose receive buffer holds it, else the one its source is routed on. -/
def Dev.portOf (d : Dev) (vc op : Nat) (h : QflHdr) : Option Nat :=
  match d.arrivedOn { vc, opcode := op, src := h.src, dst := h.dst, tag := h.tag, e2e := h.e2e } with
  | some p => some p
  | none => d.routePort h.src

/-- The outstanding request a response answers; any other response is discarded and counted for the port it came over (R147, log entry
64). -/
def Dev.matchResponse (t vc op : Nat) (h : QflHdr) (d0 : Dev) : Dev × Option Outst :=
  let (d, ok) := d0.receive t vc op h
  if ¬ ok then (d, none) else
  match d.fab.outstanding.find? (fun o => o.dst = h.src ∧ o.tag = h.tag ∧ o.e2e = h.e2e) with
  | none =>
    (match d0.portOf vc op h with
     | some p => d.countPort p .response
     | none => { d with fab := { d.fab with discarded := d.fab.discarded + 1 } }, none)
  | some o => (({ d with fab := { d.fab with outstanding := d.fab.outstanding.erase o } }).sendWaiting t, some o)

/-- Put a piece of work off to the end of the command. -/
def Dev.later (w : Task) (d : Dev) : Dev := { d with work := d.work ++ [w] }

/-- A request is answered: what it was for goes on. -/
def Dev.closeOutst (o : Outst) (r : Answer) (d : Dev) : Dev := d.later (.ended o.cont r)

end Sys2Proof.Machine
end

