-- ==== Sys2Proof/Machine/Agents.lean ====
section
/-! DEFINITION. Memory port agents, atomics, egress posted-write buffers and barriers (R247 to R290, R339, R340, R580). -/
namespace Sys2Proof.Machine
open Sys2Proof

/-! ### Numbers, weighted grants (R340) -/

/-- A fresh number for an access or a write. -/
def Dev.newId (d : Dev) : Nat × Dev := (d.buf.nextId, { d with buf := { d.buf with nextId := d.buf.nextId + 1 } })

/-- The competitor a master ID belongs to: its instance for kinds 0 and 2, the fabric partition (64) otherwise (R339). -/
def competitor (master : Nat) : Nat :=
  if master / 4096 = 0 then master % 64 else if master / 4096 = 2 then master / 64 % 64 else 64

/-- ACCESS_WEIGHT of a competitor. -/
def Dev.accessWeight (d : Dev) (c : Nat) : Nat := if c = 64 then d.rd InstR.FABRIC_WEIGHT else (d.instOf c).accessWeight

/-- The largest credit, the first on a tie. -/
def bestCredit : List (Nat × Int) → Option (Nat × Int)
  | [] => none
  | x :: l =>
    match bestCredit l with
    | none => some x
    | some y => if x.2 < y.2 then some y else some x

/-- One grant among waiting competitors, given in rising order (R340): the winner and the new credits; a competitor that does
not wait is back at 0. -/
def grantCredits (c : Tab Int) (ws : List Nat) (w : Nat → Nat) : Option (Nat × Tab Int) :=
  let ws := ws.filter (fun x => 0 < w x)
  let total : Int := (ws.map (fun x => (w x : Int))).foldl (· + ·) 0
  let added := ws.map (fun x => (x, Tab.getD c x 0 + (w x : Int)))
  (bestCredit added).map (fun y => (y.1, added.map (fun x => if x.1 = y.1 then (x.1, x.2 - total) else x)))

/-! ### Atomics (R247) -/

/-- Size of an atomic in bytes. -/
def AtomArgs.size (a : AtomArgs) : Nat := if a.op = 4 then 16 else 8

/-- The value of `n` bytes at byte `off` of a line. -/
def lineValue (x : Line) (off n : Nat) : Nat := x.toNat / 2 ^ (8 * off) % 2 ^ (8 * n)

/-- Enables of bytes `off` to `off + n − 1`. -/
def enablesAt (off n : Nat) : Enables := BitVec.ofNat 64 ((2 ^ n - 1) * 2 ^ off)

/-- A value of `n` bytes placed at byte `off`. -/
def placeAt (off n v : Nat) : Line := BitVec.ofNat 512 (v % 2 ^ (8 * n) * 2 ^ (8 * off))

/-- The value an atomic writes for an old value; none when a compare fails (R247). -/
def AtomArgs.compute (a : AtomArgs) (old : Nat) : Option Nat :=
  if a.op = 1 then some ((old + a.a) % 2 ^ 64)
  else if a.op = 2 then some (a.a % 2 ^ 64)
  else if old = a.a % 2 ^ (8 * a.size) then some (a.b % 2 ^ (8 * a.size)) else none

/-- What an atomic access returns: its old value in the low bytes of the line. -/
def Access.oldValue (a : Access) (x : Line) : Nat :=
  match a.atom with
  | some g => lineValue x (faByte a.fa) g.size
  | none => 0

/-- What the ALU gives for an old value: the value it writes, 0 where a compare fails. -/
def AtomArgs.aluResult (a : AtomArgs) (old : Nat) : Nat := (a.compute old).getD 0

/-- The residue the ALU predicts (R255): an addition's, or that of the operand which a swap passes through; the comparator's verdict is
compared with its duplicate's. -/
def AtomArgs.aluPredicted (a : AtomArgs) (old : Nat) : Nat :=
  if a.op = 1 then addResidue 64 (old % 2 ^ 64) (a.a % 2 ^ 64)
  else if a.op = 2 then residue (a.a % 2 ^ 64)
  else if old = a.a % 2 ^ (8 * a.size) then residue (a.b % 2 ^ (8 * a.size)) else 0

/-- The ALU computes an atomic on a line; `true` tells that its residue check fails (R254). -/
def Dev.aluWrong (f : Flaw) (a : Access) (x : Line) (d : Dev) : Dev × Bool :=
  match a.atom with
  | some g => d.unitWrong f (g.aluPredicted (a.oldValue x)) (g.aluResult (a.oldValue x))
  | none => d.unitWrong f 0 0

/-- The write of an atomic on a line: enables and data, none when nothing is written. -/
def Access.atomWrite (a : Access) (x : Line) : Option (Enables × Line) :=
  match a.atom with
  | none => none
  | some g => (g.compute (a.oldValue x)).map (fun v => (enablesAt (faByte a.fa) g.size, placeAt (faByte a.fa) g.size v))

/-! ### Requests at a memory port agent (R260, R262, R251) -/

/-- A line has buffered writes at its agent. -/
def Dev.lineBuffered (d : Dev) (p ld dpa : Nat) : Bool :=
  d.buf.entries.any (fun e => decide (e.port = p) && decide (e.ld = ld) && (match e.body with
    | .line _ a _ _ _ => decide (a = dpa)
    | _ => false))

/-- LOCKS_BUSY follows the locks (R258). -/
def Dev.syncLocks (p : Nat) (d : Dev) : Dev := d.wr (Pg.LOCKS_BUSY p) (d.agents.locks.filter (fun l => l.port = p)).length

/-- A request enters an agent's input; a read that finds buffered writes of its line is counted (R262). -/
def Dev.agentPush (t : Nat) (r : AgentReq) (d : Dev) : Dev :=
  let d := { d with agents := { d.agents with queue := d.agents.queue ++ [r] } }
  let d := d.mon t (r.port / 4) 0x101 r.acc.master r.acc.fa
  if ¬ r.write ∧ d.lineBuffered r.port r.ld r.dpa then
    (d.inc (Pg.READ_WAITS r.port)).mon t (r.port / 4) 0x109 r.acc.master r.acc.fa
  else if r.write ∧ ¬ d.hasRoom r.port then d.mon t (r.port / 4) 0x104 r.acc.master r.acc.fa
  else d

/-- The migration of which an extent is the source. -/
def Dev.migrationOf (d : Dev) (e : Nat) : Option Migration :=
  let x := d.ext e
  if ¬ x.migrating then none else
  match Tab.get d.binder.migrations x.migIndex with
  | some m => if m.source = e then some m else none
  | none => none

/-- A piece of the migration is being copied. -/
def Dev.pieceOpen (d : Dev) (m : Migration) : Bool :=
  d.ladles.runs.any (fun r => decide (r.purpose = 2) && decide (faExtent r.desc.src = m.source) && !r.pieces.isEmpty)

/-- A line lies in the open piece while it is being copied (R186). -/
def Dev.inPiece (d : Dev) (m : Migration) (line : Nat) : Bool :=
  decide (m.watermark ≤ line) && decide (line < m.watermark + 64) && d.pieceOpen m

/-- The Ladle holds its copy of a line of the open piece: what is written to the source from now on is not in it. -/
def Dev.copied (d : Dev) (m : Migration) (line : Nat) : Bool :=
  d.inPiece m line && d.ladles.runs.any (fun r => decide (r.purpose = 2) && decide (faExtent r.desc.src = m.source) &&
    r.pieces.any (fun p => p.turned || (Tab.get p.data (line - m.watermark)).isSome))

/-- A CXL port carries traffic: it is up, and its IDE stream is not insecure (R71). -/
def Dev.carries (d : Dev) (p : Nat) : Bool := d.linkUp p && decide (d.rd (Pg.IDE_STATE p) ≠ 3)

/-- The backing of an extent can be reached: it has one, it is not OFFLINE, its port carries traffic. -/
def Dev.reachable (d : Dev) (e : Nat) : Bool :=
  let x := d.ext e
  decide (x.state ≠ 0) && decide (x.state ≠ 6) && d.carries x.port

/-- An exerciser line: one of extent 262,143 of this device in OM11 (R546). -/
def Dev.exercises (d : Dev) (fa : Nat) : Bool :=
  decide (d.mode = 11) && decide (faExtent fa = 262143) && decide (faChain fa = d.homeAddr)

/-- The responder model takes a memory request of an exerciser line (R547). -/
def Dev.respondLater (write : Bool) (c : Cont) (d : Dev) : Dev :=
  { d with exer := { d.exer with memory := d.exer.memory ++ [(write, c)] } }

/-- Read a line of an extent of this device from its backing; for a migrating extent, from the source (R186). -/
def Dev.readLine (t : Nat) (a : Access) (cont : Cont) (d : Dev) : Dev :=
  let e := faExtent a.fa
  if d.exercises a.fa then d.respondLater false cont
  else if ¬ d.reachable e then d.later (.ended cont { ending := .absent })
  else if (d.ext e).poisonAll then d.later (.ended cont { poison := true })
  else
    let (p, ld, dpa) := d.backing a.fa
    let (id, d) := if cont = .direct a then (a.id, d) else d.newId
    d.agentPush t { id, port := p, ld, dpa, write := false, acc := a, cont }

/-- Write a line of an extent of this device: to both backings below the end of a migration's open piece (R186). A write of the Churn's own
to a line that the Ladle has copied waits until the piece closes; one to a line still to be copied is in the copy (DEDUCED, log entry
175). -/
def Dev.writeLine (t : Nat) (a : Access) (cont : Cont) (d : Dev) : Dev :=
  let e := faExtent a.fa
  if d.exercises a.fa then d.respondLater true cont
  else if ¬ d.reachable e then d.later (.ended cont { ending := .absent })
  else
    let (p, ld, dpa) := d.backing a.fa
    let single (d : Dev) : Dev :=
      let (id, d) := if cont = .direct a then (a.id, d) else d.newId
      d.agentPush t { id, port := p, ld, dpa, write := true, acc := a, cont }
    match d.migrationOf e with
    | none => single d
    | some m =>
      if m.watermark + 64 ≤ faLine a.fa then single d
      else if d.copied m (faLine a.fa) then
        let w := { m with heldWrites := m.heldWrites ++ [(a, cont)] }
        { d with binder := { d.binder with migrations := Tab.set d.binder.migrations (d.ext e).migIndex w } }
      else
      let y := d.ext m.dest
      let (g, d) := d.newId
      let d := { d with agents := { d.agents with duals := Tab.set d.agents.duals g (2, cont) } }
      let (i, d) := d.newId
      let d := d.agentPush t { id := i, port := p, ld, dpa, write := true, acc := a, cont := .dual g }
      let (j, d) := d.newId
      d.agentPush t {
        id := j, port := y.port, ld := y.ld, dpa := y.dpaUnit * 2 ^ 28 + 64 * faLine a.fa, write := true
        acc := { a with master := masterChurn (sliceOf (lineAddr a.fa)) 3, poison := a.poison && y.poisonCapable }, cont := .dual g }

/-- A request can be granted (R580, R251, R262, R386). -/
def Dev.grantable (d : Dev) (r : AgentReq) : Bool :=
  let locked := d.agents.locks.any (fun l => l.port = r.port ∧ l.ld = r.ld ∧ l.dpa = r.dpa ∧ l.owner ≠ r.acc.id)
  let earlier := (d.agents.queue.takeWhile (fun x => x.id ≠ r.id ∨ x.write ≠ r.write)).any (fun x =>
    x.write && decide (x.port = r.port) && decide (x.ld = r.ld) && decide (x.dpa = r.dpa))
  let mine := (d.agents.locks.filter (fun l => l.port = r.port)).length
  let atomic := decide (r.cont = .direct r.acc) && decide (r.acc.kind = .atomic)
  d.carries r.port && (decide (d.mode ≠ 5) || d.flag Memb.PAIR_LEASE) && !locked && !earlier &&
    (if r.write then d.hasRoom r.port else !d.lineBuffered r.port r.ld r.dpa && (!atomic || decide (mine < 64)))

/-- The oldest entry of an idle device-port target leaves (log entry 20: one write at a time per logical device). -/
def Dev.sendNext (t p ld : Nat) (d : Dev) : Dev :=
  let mine := d.buf.entries.filter (fun e => e.port = p ∧ e.ld = ld)
  if mine.any (fun e => e.sent) ∨ ¬ d.carries p then d else
  match mine with
  | [] => d
  | e :: _ =>
    match e.body with
    | .line fa dpa be data poison =>
      let es := d.buf.entries.map (fun x => if x = e then { e with sent := true } else x)
      let d := { d with buf := { d.buf with entries := es } }
      match d.readArray t 4 p (0x20 + p / 4) (fun _ => true) with
      | (d, false) => d.emit (.device p (.memWr ld dpa be data poison))
      | (d, true) =>
        -- an uncorrectable entry: performed as a poisoned write, recorded as LOST where the backing stores no poison (R243, R524)
        let x := d.ext (faExtent fa)
        if x.poisonCapable then d.emit (.device p (.memWr ld dpa be data true))
        else
          let (id, d) := d.newId
          (d.emit (.device p (.memWr ld dpa (BitVec.allOnes 64) 0 false))).later (.route {
            id, kind := .wrNc, origin := .churn 0, master := masterChurn (sliceOf (lineAddr fa)) 2, fa, poison := true, time := t })
    | _ => d

/-- One copy of a dual write ended; the last one ends the write (R186). -/
def Dev.dualEnd (g : Nat) (r : Answer) (d : Dev) : Dev :=
  match Tab.get d.agents.duals g with
  | some (n, c) =>
    if n ≤ 1 then ({ d with agents := { d.agents with duals := Tab.erase d.agents.duals g } }).later (.ended c r)
    else { d with agents := { d.agents with duals := Tab.set d.agents.duals g (n - 1, c) } }
  | none => d

/-- The access that a write at a memory port agent serves: the writeback itself where it was taken as a snoop's data. -/
def Dev.writerOf (d : Dev) (r : AgentReq) : Access :=
  let c := match r.cont with
    | .dual g => (match Tab.get d.agents.duals g with
      | some (_, c) => c
      | none => .none)
    | c => c
  match c with
  | .snoopWrite _ _ a => a
  | _ => r.acc

/-- A write of a peer's access was accepted: the access is answered when it is performed (R260). -/
def Dev.notePeerWrite (r : AgentReq) (d : Dev) : Dev :=
  let a := d.writerOf r
  let ws := d.agents.peerWrites
  match a.origin with
  | .peer _ _ _ _ =>
    let ws := if ws.any (fun w => w.access = a.id) then
        ws.map (fun (w : PeerWrite) => if w.access = a.id then { w with left := w.left ++ [r.id] } else w)
      else ws ++ [PeerWrite.mk a.id [r.id] false none]
    { d with agents := { d.agents with peerWrites := ws } }
  | _ => d

/-- A granted write enters the egress buffer: it is accepted (R260). A peer's write is answered only when it is performed. -/
def Dev.acceptWrite (t : Nat) (r : AgentReq) (d : Dev) : Dev :=
  let a := r.acc
  let e : EgressEntry := {
    port := r.port, ld := r.ld, body := .line a.fa r.dpa a.be a.data a.poison, incarnation := d.rd (Pg.INCARNATION r.port)
    writes := [{ id := r.id, master := a.master, time := t, ruleEpoch := a.ruleEpoch }] }
  let d := ((d.acceptEntry e).sendNext t r.port r.ld).mon t (r.port / 4) 0x103 a.master a.fa
  let d := match a.origin with
    | .ladle run _ _ _ =>
      match d.ladles.runs.find? (fun (x : Run) => x.id = run) with
      | some x =>
        let q := Tab.getD d.ladles.pairs x.pair {}
        { d with ladles := { d.ladles with pairs := Tab.set d.ladles.pairs x.pair { q with openWrites := q.openWrites ++ [r.id] } } }
      | none => d
    | _ => d
  let d := d.notePeerWrite r
  match r.cont with
  | .dual g => d.dualEnd g {}
  | c => d.later (.ended c {})

/-- Grant a request at its agent. -/
def Dev.grant (t : Nat) (r : AgentReq) (d : Dev) : Dev :=
  let d := { d with agents := { d.agents with queue := d.agents.queue.erase r } }
  if r.write then d.acceptWrite t r
  else
    let r := { r with incarnation := d.rd (Pg.INCARNATION r.port) }
    let d := { d with agents := { d.agents with reads := d.agents.reads ++ [r] } }
    let d := if r.cont = .direct r.acc ∧ r.acc.kind = .atomic then
        ({ d with agents := { d.agents with
          locks := d.agents.locks ++ [LineLock.mk r.port r.ld r.dpa r.acc.id] } }).syncLocks r.port
      else d
    d.emit (.device r.port (.memRd r.id r.ld r.dpa))

/-- One grant of a memory port agent (R339, R340): the Churn's own requests first, then the weighted choice. -/
def Dev.agentGrant (t p : Nat) (d : Dev) : Dev :=
  let ready := d.agents.queue.filter (fun r => decide (r.port = p) && d.grantable r)
  match ready.find? (fun r => r.acc.master / 4096 = 3) with
  | some r => d.grant t r
  | none =>
    let ws := (List.range 65).filter (fun c => ready.any (fun r => competitor r.acc.master = c))
    match grantCredits (Tab.getD d.agents.credit p []) ws d.accessWeight with
    | none => d
    | some (c, credit) =>
      let d := { d with agents := { d.agents with credit := Tab.put d.agents.credit p credit [] } }
      match ready.find? (fun r => competitor r.acc.master = c) with
      | some r => d.grant t r
      | none => d

/-- Release an atomic's line lock. -/
def Dev.unlock (p id : Nat) (d : Dev) : Dev :=
  ({ d with agents := { d.agents with locks := d.agents.locks.filter (fun l => l.owner ≠ id) } }).syncLocks p

/-! ### Performed and discarded writes, barriers (R261, R275, R279 to R282) -/

/-- The reply payload of a barrier (R279). -/
def Barrier.payload (b : Barrier) : List Byte :=
  leBytes 4 b.covered ++ leBytes 4 b.discarded ++ leBytes 1 (min 8 b.lost.length) ++
    ((List.range 8).map (fun i => leBytes 2 (b.lost.getD i 0))).flatten

/-- A barrier with nothing left replies. Scope 4 is the write drain of an instance's quiesce (R333). -/
def Dev.barrierDone (t : Nat) (d : Dev) : Dev :=
  let ready := d.buf.barriers.filter (fun b => decide (b.left = []) && decide (b.scope ≠ 4))
  let d := { d with buf := { d.buf with barriers := d.buf.barriers.filter (fun b => b.left ≠ [] ∨ b.scope = 4) } }
  ready.foldl (fun d b =>
    d.finish t (· = .barrier b.scope b.id) (if b.discarded = 0 then .ok else .targetLost) b.payload) d

/-- A barrier learns that a write it covers is gone; `lost` holds the target word of a write that was not performed. -/
def Barrier.drop (b : Barrier) (id : Nat) (lost : Option Nat) : Barrier :=
  if ¬ b.left.contains id then b else
  let b := { b with left := b.left.filter (fun x => x ≠ id) }
  match lost with
  | none => b
  | some w => { b with discarded := b.discarded + 1, lost := if b.lost.contains w then b.lost else b.lost ++ [w] }

/-- A write of a peer's access is performed or lost: after the last one the answer that waited leaves. -/
def Dev.peerWriteGone (id : Nat) (lost : Bool) (d : Dev) : Dev :=
  match d.agents.peerWrites.find? (fun w => w.left.contains id) with
  | none => d
  | some w =>
    let x := { w with left := w.left.filter (fun y => y ≠ id), lost := w.lost || lost }
    let others := d.agents.peerWrites.erase w
    match x.left, x.answer with
    | [], some (a, r) =>
      ({ d with agents := { d.agents with peerWrites := others } }).later
        (.answer a (if x.lost then { r with ending := .targetLost } else r))
    | [], none => { d with agents := { d.agents with peerWrites := if x.lost then others ++ [x] else others } }
    | _, _ => { d with agents := { d.agents with peerWrites := others ++ [x] } }

/-- A write is gone: barriers, fences and a waiting peer learn it. -/
def Dev.writeGone (t id : Nat) (lost : Option Nat) (d : Dev) : Dev :=
  let d := { d with buf := { d.buf with barriers := d.buf.barriers.map (fun (b : Barrier) => b.drop id lost) } }
  let d := if lost.isNone then d else
    (d.ladles.pairs.filter (fun x => x.2.recordWrites.contains id)).foldl (fun (d : Dev) x => d.later (.pairError x.1 5)) d
  let pairs := d.ladles.pairs.map (fun (x : Nat × Pair) =>
    if x.2.openWrites.contains id then
      (x.1, { x.2 with
        openWrites := x.2.openWrites.filter (fun y => y ≠ id), recordWrites := x.2.recordWrites.filter (fun y => y ≠ id)
        lostWrite := x.2.lostWrite || lost.isSome })
    else x)
  let d := { d with ladles := { d.ladles with pairs } }
  (d.peerWriteGone id lost.isSome).barrierDone t

/-- Waiting host writes enter the buffer as room appears (R271). -/
def Dev.admitWaiting : Nat → Nat → Dev → Dev
  | 0, _, d => d
  | n + 1, p, d =>
    match d.buf.waiting.find? (fun e => e.port = p) with
    | none => d
    | some e =>
      if ¬ d.hasRoom p then d
      else (({ d with buf := { d.buf with waiting := d.buf.waiting.erase e } }).acceptEntry e).admitWaiting n p

/-- An entry leaves the buffer. -/
def Dev.dropEntry (t : Nat) (e : EgressEntry) (lost : Option Nat) (d : Dev) : Dev :=
  let d := ({ d with buf := { d.buf with entries := d.buf.entries.erase e } }).syncBuf e.port
  let d := e.writes.foldl (fun (d : Dev) w => d.writeGone t w.id lost) d
  d.admitWaiting (d.buf.waiting.length) e.port

/-- A message that belongs to no request of a port's present incarnation is discarded and counted (R179). -/
def Dev.staleMessage (t p : Nat) (d : Dev) : Dev := (d.inc Ext.STALE_INCARNATION).mon t (p / 4) 0x10d 0xffff 0

/-- The entry was sent in its port's present incarnation. -/
def Dev.sentNow (d : Dev) (e : EgressEntry) : Bool := e.sent && decide (e.incarnation = d.rd (Pg.INCARNATION e.port))

/-- The entry of a target that was sent is performed (R261). -/
def Dev.writePerformed (t p ld : Nat) (d : Dev) : Dev :=
  match d.buf.entries.find? (fun e => e.port = p ∧ e.ld = ld ∧ d.sentNow e) with
  | some e => (d.dropEntry t e none).sendNext t p ld
  | none => d.staleMessage t p

/-- n Ack'd posted writes of a host port are performed, oldest first (R261). -/
def Dev.hostAcked (t p : Nat) : Nat → Dev → Dev
  | 0, d => d
  | n + 1, d =>
    match d.buf.entries.find? (fun e => e.port = p ∧ d.sentNow e) with
    | some e => (d.dropEntry t e none).hostAcked t p n
    | none => (d.staleMessage t p).hostAcked t p n

/-- The target word of R279. -/
def targetWord (port ld kind : Nat) : Nat := port + 2 ^ 6 * ld + 2 ^ 10 * kind

/-- The address an entry's record names: fabric address, or host physical address. -/
def EgressEntry.addr (e : EgressEntry) : Nat :=
  match e.body with
  | .line fa _ _ _ _ => fa
  | .host a _ _ => a
  | .msix _ _ => 0

/-- Discard every entry for a port, in order of acceptance (R275); each write is logged and counted. A discarded write of the Skimmer
stops it (R534). -/
def Dev.discardTarget (t p : Nat) (d : Dev) : Dev :=
  let kind := if d.personality p = 1 then 1 else 0
  let es := d.buf.entries.filter (fun e => e.port = p) ++ d.buf.waiting.filter (fun e => e.port = p)
  let d := { d with buf := { d.buf with waiting := d.buf.waiting.filter (fun e => e.port ≠ p) } }
  es.foldl (fun (d : Dev) e =>
    let d := e.writes.foldl (fun (d : Dev) w =>
      (d.inc (Pg.DISCARDS_LOST p)).logErr t {
        cls := 8, severity := 1, source := 0x20 + p / 4, access := 8, master := w.master, addr := e.addr, time := some w.time
        detail := saturate 32 ((t - w.time) / 1000) }) d
    let d := if e.writes.any (fun w => w.master = masterSkimmer) then d.skimFault 2 else d
    d.dropEntry t e (some (targetWord p e.ld kind))) d

/-- A write toward a remote owner is outstanding (R260, R280). -/
def Dev.remoteBegun (t : Nat) (a : Access) (d : Dev) : Dev :=
  if d.buf.remote.any (fun w => w.id = a.id) then d
  else { d with buf := { d.buf with remote := d.buf.remote ++ [RemoteWrite.mk a.id a.master (faChain a.fa) a.ruleEpoch t] } }

/-- A write toward a remote owner ended (R260, R146). -/
def Dev.remoteGone (t id : Nat) (ok : Bool) (d : Dev) : Dev :=
  match d.buf.remote.find? (fun w => w.id = id) with
  | none => d
  | some w =>
    ({ d with buf := { d.buf with remote := d.buf.remote.erase w } }).writeGone t id (if ok then none else some (targetWord w.owner 0 2))

/-! ### BARRIER (R279 to R282) -/

/-- A master ID is of kind 0 or 2 with an instance. -/
def ofInstance (vi master : Nat) : Bool :=
  (decide (master / 4096 = 0) || decide (master / 4096 = 2)) && decide (competitor master = vi)

/-- Writes a barrier covers. -/
def Dev.covered (d : Dev) (scope id : Nat) : List Nat :=
  let refs (p : EgressEntry → WriteRef → Bool) : List Nat :=
    (d.buf.entries.map (fun e => (e.writes.filter (p e)).map (·.id))).flatten
  match scope with
  | 0 => refs (fun _ w => ofInstance id w.master) ++ (d.buf.remote.filter (fun w => ofInstance id w.master)).map (·.id)
  | 1 => (Tab.getD d.ladles.pairs id {}).openWrites
  | 2 => refs (fun e _ => decide (e.port = id))
  | _ => refs (fun _ _ => true) ++ d.buf.remote.map (·.id)

/-- BARRIER. -/
def Dev.barrier (t scope id : Nat) (d : Dev) : Dev × Result :=
  let bad := match scope with
    | 0 => decide (63 < id)
    | 1 => decide (8191 < id)
    | 2 => decide (63 < id) || !d.present id
    | 3 => decide (id ≠ 0)
    | _ => true
  if bad then (d, .err .badParam)
  else if d.buf.barriers.any (fun b => b.scope = scope ∧ b.id = id) then (d, .err .busy)
  else if 16 ≤ (d.buf.barriers.filter (fun b => b.scope ≠ 4)).length then (d, .err .noResource)
  else
    let ids := d.covered scope id
    let b : Barrier := { scope, id, left := ids, covered := ids.length }
    if ids = [] then (d, .final .ok b.payload)
    else ({ d with buf := { d.buf with barriers := d.buf.barriers ++ [b] } }, .run (.barrier scope id))

/-- BARRIER; the mailbox of an instance may name its instance and its own queues. -/
def execBarrierCmd (h : SilekHdr) (scope id : Nat) (s : State) : Host.Outcome State Fault Refusal :=
  runSilek h { opcode := 0xa20, key := .barrierCmd h.key scope id, hostMay := fun d vi =>
      (decide (scope = 0) && decide (id = vi)) ||
        (decide (scope = 1) && (let q := Tab.getD d.ladles.pairs id {}; decide (q.state ≠ 0) && !q.fm && decide (q.inst = vi))) }
    (devBody fun t d => d.barrier t scope id) s

end Sys2Proof.Machine
end

