-- ==== Sys2Proof/Machine/Directory.lean ====
section
/-! DEFINITION. The directory: where a line is kept, tier 1, tier 2, LOST lines, sharer slots (R192 to R201, R216 to R220,
R241). -/
namespace Sys2Proof.Machine
open Sys2Proof

/-! ### Placement (R192, R198) -/

/-- The set of a line. -/
def setOf (la : Nat) : Nat := Nat.xor (fieldOf la 5 12) (fieldOf la 17 12)
/-- Key of a tier-1 way. -/
def wayKey (slice set way : Nat) : Nat := (slice * 4096 + set) * 16 + way

/-- The line is homed at this device (R193). -/
def Dev.homeLine (d : Dev) (la : Nat) : Bool := d.isHome (laFa la)

/-- The ways of a set: way number and entry. -/
def Dev.ways (d : Dev) (slice set : Nat) : List (Nat × DirEntry) :=
  (List.range 16).filterMap (fun w => (Tab.get d.chn.tier1 (wayKey slice set w)).map (fun e => (w, e)))

/-- The tier-1 way that holds a line. -/
def Dev.findWay (d : Dev) (la : Nat) : Option (Nat × DirEntry) :=
  (d.ways (sliceOf la) (setOf la)).find? (fun x => x.2.la = la)

/-- The image entry that holds a line (R394). -/
def Dev.findImage (d : Dev) (la : Nat) : Option (Nat × DirEntry) := d.chn.image.find? (fun x => x.2.la = la)

/-- Bucket of a line (R198). -/
def Dev.bucketOf (d : Dev) (la : Nat) : Nat :=
  Nat.xor (fieldOf la 0 26) (fieldOf la 26 19) % (max 1 (d.rd ChurnR.T2_UNITS * 4194304))

/-- Entries of a bucket. -/
def Dev.bucket (d : Dev) (b : Nat) : List (Nat × DirEntry) :=
  (List.range 4).filterMap (fun e => (Tab.get d.chn.tier2 (b * 4 + e)).map (fun x => (e, x)))

/-- The bucket entry that holds a line. -/
def Dev.findBucket (d : Dev) (la : Nat) : Option (Nat × DirEntry) :=
  if d.chn.badBuckets.contains (d.bucketOf la) then none else (d.bucket (d.bucketOf la)).find? (fun x => x.2.la = la)

/-- An empty entry of a bucket that is usable. -/
def Dev.bucketRoom (d : Dev) (b : Nat) : Option Nat :=
  if ¬ d.flag ChurnR.TIER2_ACTIVE ∨ d.chn.badBuckets.contains b then none
  else (List.range 4).find? (fun e => (Tab.get d.chn.tier2 (b * 4 + e)).isNone)

/-- Where a line's entry lies, with its state and sharers. -/
def Dev.findLine (d : Dev) (la : Nat) : Place × Nat × Nat :=
  match d.findWay la with
  | some (w, e) => (.way w, e.state, e.sharers)
  | none =>
    match d.findImage la with
    | some (k, x) => (.image k, x.state, x.sharers)
    | none =>
      match d.findBucket la with
      | some (e, x) => (.bucket (d.bucketOf la) e, x.state, x.sharers)
      | none => (.none, 0, 0)

/-! ### Entry layouts (R194, R199) -/

/-- CRC-8 of bits [111:0], bit 111 first: polynomial x^8 + x^2 + x + 1, initial value 0xFF. -/
def crc8 : Nat → Nat → Nat → Nat
  | 0, _, r => r
  | n + 1, v, r =>
    let b := Nat.xor (v / 2 ^ n % 2) (r / 128 % 2)
    crc8 n v (if b = 1 then Nat.xor (r * 2 % 256) 7 else r * 2 % 256)

/-- An entry in the layout of R199. -/
def DirEntry.bits (e : DirEntry) : Nat :=
  let body := e.state + 2 ^ 3 * e.la + 2 ^ 48 * e.sharers
  body + 2 ^ 112 * crc8 112 body 0xff

/-- An entry from its 128 bits; none for an empty one. -/
def DirEntry.ofBits (n : Nat) : Option DirEntry :=
  if fieldOf n 0 3 = 0 then none else some { state := fieldOf n 0 3, la := fieldOf n 3 45, sharers := fieldOf n 48 64 }

/-- A tier-1 way in the layout of R194. -/
def DirEntry.wayBits (e : DirEntry) : Nat :=
  e.state + 2 ^ 3 * (e.la / 2 ^ 17) + 2 ^ 31 * e.sharers + 2 ^ 95 * flagBit e.pinned + 2 ^ 96 * e.tracker + 2 ^ 105 * flagBit e.ref

/-! ### Sharer slots (R220) -/

/-- Sharer slot i. -/
def Dev.sharer (d : Dev) (i : Nat) : SharerSlot := Tab.getD d.chn.slots i {}
/-- The slot of a local host port. -/
def Dev.slotOfPort (d : Dev) (p : Nat) : Option Nat :=
  (d.chn.slots.find? (fun x => x.2.valid ∧ x.2.kind = 0 ∧ x.2.port = p)).map (·.1)
/-- The slot of a remote device. -/
def Dev.slotOfChain (d : Dev) (c : Nat) : Option Nat :=
  (d.chn.slots.find? (fun x => x.2.valid ∧ x.2.kind = 1 ∧ x.2.chain = c)).map (·.1)
/-- The slot is under reclaim (R232). -/
def Dev.isDead (d : Dev) (s : Nat) : Bool :=
  decide (fieldOf (if s < 32 then d.rd ChurnR.DEAD_SLOTS_LO else d.rd ChurnR.DEAD_SLOTS_HI) (s % 32) 1 = 1)
/-- Set or clear a slot's bit of DEAD_SLOTS. -/
def Dev.markDead (s : Nat) (on : Bool) (d : Dev) : Dev :=
  let f := if s < 32 then ChurnR.DEAD_SLOTS_LO else ChurnR.DEAD_SLOTS_HI
  let v := d.rd f
  d.wr f (if on then Nat.lor v (2 ^ (s % 32)) else v - (if fieldOf v (s % 32) 1 = 1 then 2 ^ (s % 32) else 0))
/-- REFS of a slot. -/
def Dev.refs (d : Dev) (s : Nat) : Nat :=
  (d.chn.tier1.filter (fun x => fieldOf x.2.sharers s 1 = 1)).length + (d.chn.image.filter (fun x => fieldOf x.2.sharers s 1 = 1)).length +
    (d.chn.tier2.filter (fun x => fieldOf x.2.sharers s 1 = 1)).length
/-- A sharer slot entry as its 64 bits. -/
def Dev.sharerBits (d : Dev) (i : Nat) : Nat :=
  let x := d.sharer i
  flagBit x.valid + 2 * x.kind + 2 ^ 2 * x.port + 2 ^ 8 * x.chain + 2 ^ 32 * d.refs i

/-- Slots of a SHARERS set. -/
def slotsIn (v : Nat) : List Nat := (List.range 64).filter (fun i => fieldOf v i 1 = 1)
/-- A set with a slot in, or out. -/
def withSlot (v s : Nat) : Nat := Nat.lor v (2 ^ s)
/-- A set without a slot. -/
def dropSlot (v s : Nat) : Nat := if fieldOf v s 1 = 1 then v - 2 ^ s else v

/-! ### Writing entries -/

/-- Write, or clear, a way. -/
def Dev.setWay (la w : Nat) (e : Option DirEntry) (d : Dev) : Dev :=
  let k := wayKey (sliceOf la) (setOf la) w
  { d with chn := { d.chn with tier1 := match e with
    | some x => Tab.set d.chn.tier1 k x
    | none => Tab.erase d.chn.tier1 k } }

/-- Write, or clear, an image entry. -/
def Dev.setImage (k : Nat) (e : Option DirEntry) (d : Dev) : Dev :=
  { d with chn := { d.chn with image := match e with
    | some x => Tab.set d.chn.image k x
    | none => Tab.erase d.chn.image k } }

/-- The 64 bytes of a bucket. -/
def Dev.bucketLine (d : Dev) (b : Nat) : Line :=
  BitVec.ofNat 512 ((d.bucket b).foldl (fun n x => n + x.2.bits * 2 ^ (128 * x.1)) 0)

/-- The slices leave their low-power state (R38). -/
def Dev.wakeChurn (d : Dev) : Dev := { d with chn := { d.chn with gated := false } }

/-- The slices may be gated (R38): no shared extent is homed here, tier 1 holds no entry and nothing is in progress, and no extent migrates
or has LOST lines. -/
def Dev.churnIdle (d : Dev) : Bool :=
  d.extents.all (fun x => decide (x.2.state ≠ 4) && !x.2.home && !x.2.migrating && decide (x.2.lostCount = 0)) &&
    decide (d.chn.tier1 = []) && decide (d.chn.image = []) && decide (d.chn.trackers = []) && decide (d.chn.waiting = [])

/-- The slices of the device gate together once they may (R38). -/
def Dev.gateChurn (d : Dev) : Dev := if d.churnIdle then { d with chn := { d.chn with gated := true } } else d

/-- Write, or clear, a bucket entry; the whole bucket goes to the expander, under the master ID of the slice whose line it is (R198,
R40). -/
def Dev.setBucket (t b e : Nat) (x : Option DirEntry) (d : Dev) : Dev :=
  let line := match x, Tab.get d.chn.tier2 (b * 4 + e) with
    | some y, _ => y.la
    | none, some y => y.la
    | none, none => 0
  let d := { d with chn := { d.chn with tier2 := match x with
    | some y => Tab.set d.chn.tier2 (b * 4 + e) y
    | none => Tab.erase d.chn.tier2 (b * 4 + e) } }
  let (id, d) := d.newId
  let a : Access := { id, kind := .wrNc, origin := .churn 0, master := masterChurn (sliceOf line) 0, data := d.bucketLine b, time := t }
  let p := d.rd ChurnR.T2_PORT
  if ¬ d.linkUp p then d
  else d.agentPush t {
    id, port := p, ld := d.rd ChurnR.T2_LD, dpa := d.rd ChurnR.T2_DPA_UNIT * 2 ^ 28 + 64 * b, write := true, acc := a, cont := .none }

/-! ### Mirroring (R227, R383, R401) -/

/-- Trackers wait for the mirror: in OM5 once a resynchronisation has completed and none runs. -/
def Dev.mirroring (d : Dev) : Bool := decide (d.mode = 5) && decide (d.rd Memb.RESYNC_PHASE = 4)

/-- Entry changes go to the mirror: as above, and once the walks of a resynchronisation have passed every entry. -/
def Dev.mirrorSends (d : Dev) : Bool := d.mirroring || (d.acting && decide (d.rd Memb.RESYNC_PHASE = 3))

/-- The location word of R382. -/
def locationWord (la : Nat) (p : Place) (copy : Bool) : BitVec 64 :=
  BitVec.ofNat 64 ((match p with
    | .bucket b e => 1 + 2 * b + 2 ^ 27 * e
    | .way w => 2 * sliceOf la + 2 ^ 6 * setOf la + 2 ^ 18 * w
    | _ => 2 * sliceOf la + 2 ^ 6 * setOf la) + 2 ^ 63 * flagBit copy)

/-- Send one entry to the mirror as MIR_ENTRY. -/
def Dev.mirEntry (t la : Nat) (p : Place) (state sharers : Nat) (copy : Bool) (cont : Cont) (d : Dev) : Dev :=
  let bits := if state = 0 then 0 else (DirEntry.bits { state, la, sharers })
  let d := (d.mon t 55 0x704 0xffff (laFa la)).inc Memb.MIRROR_WRITES
  d.qflSend t 4 1 (d.rd Memb.MIRROR_ADDR) (masterFabric d.chainAddr 2) true (locationWord la p copy :: natWords 2 bits) cont

/-- The tracker that changes a line's entry: the line's own, or the one that frees the line's way for another. -/
def Dev.changer (d : Dev) (la : Nat) : Option Tracker :=
  match d.chn.trackers.find? (fun x => x.la = la) with
  | some tr => some tr
  | none => d.chn.trackers.find? (fun x => x.victim = some la)

/-- Tell the mirror of a change of a home entry. The tracker that makes it waits for the acknowledgement while the pair is in sync (R227).
The Copy phase ends with an empty image only, so no image entry changes while changes are sent (R394, R400). -/
def Dev.mirrorNote (t la : Nat) (p : Place) (state sharers : Nat) (d : Dev) : Dev :=
  match p with
  | .image _ => d
  | .none => d
  | _ =>
    if ¬ d.mirrorSends ∨ ¬ d.homeLine la then d else
    match (if d.mirroring then d.changer la else none) with
    | none => d.mirEntry t la p state sharers false .none
    | some tr =>
      let n := tr.acc.id
      let d := { d with chn := { d.chn with mirrorWaits := Tab.bump d.chn.mirrorWaits n 1 } }
      (d.mirEntry t la p state sharers false (.mirrorEntry tr.slice tr.id n)).mon t (16 + tr.slice) 0x20d tr.acc.master tr.acc.fa

/-! ### LOST entries (R219, R241) -/

/-- Start a piece of the Churn's own work: it opens a reserved tracker for its line, or waits (R214). -/
def Dev.churnWork (w : ChurnWork) (d : Dev) : Dev := { d with chn := { d.chn with waiting := d.chn.waiting ++ [w] } }

/-- A recall of every holder of a line, for the Churn itself. -/
def Dev.recallAllOf (t la work : Nat) (d : Dev) : Dev :=
  let (id, d) := d.newId
  let a : Access := { id, kind := .recallAll, origin := .churn work, master := masterChurn (sliceOf la) 1, fa := laFa la, time := t }
  (d.churnWork { slice := sliceOf la, acc := a, la }).later (.lineFree (sliceOf la) la)

/-- A recall of the line from every holder runs or waits. -/
def Dev.recallQueued (d : Dev) (la : Nat) : Bool :=
  d.chn.waiting.any (fun w => w.la = la ∧ w.acc.kind = .recallAll) || d.chn.trackers.any (fun x => x.la = la ∧ x.acc.kind = .recallAll)

/-- A LOST entry in a tier-1 way goes to tier 2 when its bucket has room (R219). When the bucket is full, the Churn recalls a line of it
that is not LOST, so that the LOST entry takes its place; until then, and where every entry is LOST, it stays in tier 1, pinned. -/
def Dev.sinkLost (t la w : Nat) (d : Dev) : Dev :=
  let b := d.bucketOf la
  let e : DirEntry := { state := 4, la, sharers := 0 }
  match d.bucketRoom b with
  | some i =>
    let d := ((d.setBucket t b i (some e)).setWay la w none).modExt (faExtent (laFa la)) (fun x => { x with spill := true })
    (d.mirrorNote t la (.bucket b i) 4 0).mirrorNote t la (.way w) 0 0
  | none =>
    let d := d.setWay la w (some { e with pinned := true })
    if ¬ d.flag ChurnR.TIER2_ACTIVE ∨ d.chn.badBuckets.contains b then d
    else
      match (d.bucket b).find? (fun x => decide (x.2.state ≠ 4) && !d.recallQueued x.2.la) with
      | some x => d.recallAllOf t x.2.la 0
      | none => d

/-- LOST entries that wait in tier 1 for a bucket try again once a line of that bucket is free (R219); `none` tries every one. -/
def Dev.sinkWaiting (t : Nat) (b : Option Nat) (d : Dev) : Dev :=
  (d.chn.tier1.filter (fun x => decide (x.2.state = 4))).foldl (fun (d : Dev) x =>
    let q := d.bucketOf x.2.la
    if (b = none ∨ b = some q) ∧ ¬ d.chn.trackers.any (fun tr => tr.la = x.2.la) ∧
        ((d.bucketRoom q).isSome ∨ ¬ (d.bucket q).any (fun y => d.recallQueued y.2.la)) then
      match d.findWay x.2.la with
      | some (w, _) => d.sinkLost t x.2.la w
      | none => d
    else d) d

/-- Write a line's entry where it lies; state 0 clears it. -/
def Dev.putEntry (t la : Nat) (p : Place) (state sharers : Nat) (d : Dev) : Dev :=
  match p with
  | .way w =>
    if state = 0 then d.setWay la w none
    else if state = 4 then d.sinkLost t la w
    else
      let ref := ((Tab.get d.chn.tier1 (wayKey (sliceOf la) (setOf la) w)).map (·.ref)).getD false
      d.setWay la w (some { state, la, sharers, ref })
  | .image k => d.setImage k (if state = 0 then none else some { state, la, sharers })
  | .bucket b e => d.setBucket t b e (if state = 0 then none else some { state, la, sharers })
  | .none => d

/-- An unpinned or empty way for a line, pinned ways apart. -/
inductive Pick where
  | empty (w : Nat) | victim (w : Nat) (e : DirEntry) | full
deriving DecidableEq, Repr

/-- Choose a way of a set (R217): the lowest empty way, else the lowest unpinned one whose REF is clear, REF being cleared in every
candidate when all have it set. -/
def Dev.pickWay (slice set : Nat) (d : Dev) : Dev × Pick :=
  let ws := d.ways slice set
  match (List.range 16).find? (fun w => (Tab.get d.chn.tier1 (wayKey slice set w)).isNone) with
  | some w => (d, .empty w)
  | none =>
    let cand := ws.filter (fun x => ¬ x.2.pinned)
    if cand = [] then (d, .full) else
    let swept := cand.all (fun x => x.2.ref)
    let d := if swept then cand.foldl (fun (d : Dev) x =>
        { d with chn := { d.chn with tier1 := Tab.set d.chn.tier1 (wayKey slice set x.1) { x.2 with ref := false } } }) d
      else d
    match (if swept then cand else cand.filter (fun x => ¬ x.2.ref)) with
    | x :: _ => (d, .victim x.1 x.2)
    | [] => (d, .full)

/-- The access is the Churn's own work. -/
def Access.isChurn (a : Access) : Bool := match a.origin with
  | .churn _ => true
  | _ => false

/-- A line's backing stores poison (R67): both backings where a write goes to both (R186). -/
def Dev.storesPoison (d : Dev) (fa : Nat) : Bool :=
  (d.ext (faExtent fa)).poisonCapable && (match d.migrationOf (faExtent fa) with
    | some m => decide (m.watermark + 64 ≤ faLine fa) || (d.ext m.dest).poisonCapable
    | none => true)

/-- A line still to be recorded LOST waits for its turn. -/
def Dev.lostQueued (d : Dev) (la : Nat) : Bool :=
  d.chn.waiting.any (fun w => decide (w.la = la) && decide (w.acc.kind = .wrNc))

/-- The Churn records a line LOST that has no entry and no room for one: its own write of the line opens a reserved tracker and waits for
a way in phase EVICT (R216). -/
def Dev.queueLost (t la cause master : Nat) (d : Dev) : Dev :=
  if d.lostQueued la then d else
  let (id, d) := d.newId
  let a : Access := { id, kind := .wrNc, origin := .churn cause, master, fa := laFa la, poison := true, time := t }
  (d.churnWork { slice := sliceOf la, acc := a, la }).later (.lineFree (sliceOf la) la)

/-- Where the LOST entry of a line goes: where its entry lies, else a bucket with room, else an empty way. -/
def Dev.lostPlace (la : Nat) (p : Place) (d : Dev) : Dev × Option Place :=
  match p with
  | .none =>
    match d.bucketRoom (d.bucketOf la) with
    | some i => (d.modExt (faExtent (laFa la)) (fun x => { x with spill := true }), some (.bucket (d.bucketOf la) i))
    | none =>
      match d.pickWay (sliceOf la) (setOf la) with
      | (d, .empty w) => (d, some (.way w))
      | (d, _) => (d, none)
  | q => (d, some q)

/-- A line becomes LOST (R241): entry, LOST count, records, one poisoned or zero write of the backing. A line without an entry and without
room for one is recorded when a way of its set is free (R216). -/
def Dev.makeLost (t la : Nat) (p : Place) (cause master : Nat) (d : Dev) : Dev :=
  let e := faExtent (laFa la)
  let slice := sliceOf la
  match d.lostPlace la p with
  | (d, none) => d.queueLost t la cause master
  | (d, some q) =>
    let d := d.wakeChurn.putEntry t la q 4 0
    let d := if (d.findLine la).1 = q then d.mirrorNote t la q 4 0 else d
    let d := d.modExt e (fun x => { x with lostCount := x.lostCount + 1, home := true })
    let d := (d.inc ChurnR.LOST_CREATED).hbCount 19 1
    let d := d.logErr t { cls := 4, severity := 1, source := 5, access := 12, master, addr := laFa la, detail := cause }
    let d := d.mon t (16 + slice) 0x20f master (laFa la)
    let (id, d) := d.newId
    let a : Access := {
      id, kind := .wrNc, origin := .churn 0, master := masterChurn slice 2, fa := laFa la, poison := (d.ext e).poisonCapable
      time := t, ruleEpoch := d.rd GateR.RULE_EPOCH }
    (d.inc ChurnR.POISON_WRITES).writeLine t a .none

/-- A LOST entry leaves: the extent's LOST count falls (R241), and the home of an unbound extent goes with its last one (R245). -/
def Dev.unLost (la : Nat) (d : Dev) : Dev :=
  d.modExt (faExtent (laFa la)) (fun x =>
    let n := x.lostCount - 1
    if n = 0 ∧ x.bindCount = 0 then { x with lostCount := n, home := false, spill := false, poisonAll := false }
    else { x with lostCount := n })

/-! ### Loss of directory state (R201) -/

/-- An extent joins the sweep: once while it waits, again when its sweep runs or is over. -/
def joinSweep (ss : List Nat) (e : Nat) : List Nat :=
  match ss with
  | [] => [e]
  | x :: l => if l.contains e then x :: l else x :: (l ++ [e])

/-- Directory state of some extents is lost: record, TIER2_LOST_EVT, sweep, and poison for lost poison records. -/
def Dev.directoryLost (t cause addr : Nat) (es : List Nat) (d : Dev) : Dev :=
  let d := d.logErr t { cls := 3, severity := 1, source := 5, addr, detail := cause }
  let d := d.raise1 ChurnR.TIER2_LOST_EVT
  let d := es.foldl (fun (d : Dev) e =>
    let d := d.modExt e (fun x => { x with poisonAll := x.poisonAll || (decide (0 < x.lostCount) && !x.poisonCapable) })
    { d with chn := { d.chn with
      sweeps := joinSweep d.chn.sweeps e, sweepLine := if d.chn.sweeps = [] then [] else d.chn.sweepLine } }) d
  d.wrFlag ChurnR.SWEEP_BUSY (decide (d.chn.sweeps ≠ []))

/-- The ways of a set are read (R194): a word with an uncorrectable error is lost, and with it the directory state of every shared
extent homed here (R201). -/
def Dev.readWays (t la : Nat) (d : Dev) : Dev :=
  let slice := sliceOf la
  match d.flaws.findSome? (Flaw.inRead 1 slice (fun i => i / 16 = setOf la)) with
  | none => d
  | some (i, _) =>
    let (d, lost) := d.readArray t 1 slice 5 (· = i)
    if lost then
      let d := { d with chn := { d.chn with tier1 := Tab.erase d.chn.tier1 (wayKey slice (i / 16) (i % 16)) } }
      d.directoryLost t 3 0 ((d.extents.filter (fun x => x.2.state = 4)).map (·.1))
    else (d.inc (ChurnR.ECC_CORRECTED slice)).mon t (16 + slice) 0x20e 0xffff (laFa la)

/-- A line of the set of way `i` of a slice. -/
def wayLine (slice i : Nat) : Nat :=
  ((List.range 32).map (fun k => 32 * (i / 16) + k)).find? (fun la => sliceOf la = slice) |>.getD 0

/-- A scan reads every tier-1 way of every slice (R194, R226, R234, R238): a way with a wrong word is corrected, or lost. -/
def Dev.scanWays (t : Nat) (d : Dev) : Dev :=
  d.flaws.foldl (fun (d : Dev) f =>
    match f with
    | .word 1 slice i _ => d.readWays t (wayLine slice i)
    | _ => d) d

/-- The master ID of a dead slot's agent (R241): its host port and instance, or the peer's Churn. -/
def Dev.slotMaster (d : Dev) (s : Nat) : Nat :=
  let x := d.sharer s
  if x.kind = 0 then masterHost x.port ((d.viOfPort x.port).getD 0) else masterFabric x.chain 0

end Sys2Proof.Machine
end

