-- ==== Sys2Proof/Machine/Churn.lean ====
section
/-! DEFINITION. The Churn's slices: admission, NAKs and tickets, home and proxy trackers, snoops and recalls, mirroring of entry
changes (R202 to R227). -/
namespace Sys2Proof.Machine
open Sys2Proof

/-! ### Trackers -/

/-- The open tracker of a line. -/
def Dev.trackerOn (d : Dev) (la : Nat) : Option Tracker := d.chn.trackers.find? (fun x => x.la = la)
/-- Tracker `id` of a slice. -/
def Dev.tracker (d : Dev) (slice id : Nat) : Option Tracker := d.chn.trackers.find? (fun x => x.slice = slice ∧ x.id = id)
/-- Replace a tracker. -/
def Dev.setTracker (tr : Tracker) (d : Dev) : Dev :=
  { d with chn := { d.chn with trackers := d.chn.trackers.map (fun x => if x.slice = tr.slice ∧ x.id = tr.id then tr else x) } }

/-- The lowest free tracker of a range. -/
def Dev.freeTracker (d : Dev) (slice lo n : Nat) : Option Nat :=
  ((List.range n).map (· + lo)).find? (fun i => (d.tracker slice i).isNone)

/-- TRACKER_MIN and TRACKER_MAX of a partition (R342). -/
def Dev.partition (d : Dev) (c : Nat) : Nat × Nat :=
  if c = 64 then (d.rd InstR.FABRIC_TRACKER_MIN, d.rd InstR.FABRIC_TRACKER_MAX)
  else ((d.instOf c).trackerMin, (d.instOf c).trackerMax)

/-- Sum of every TRACKER_MIN (R348). -/
def Dev.minSum (d : Dev) : Nat := d.rd InstR.FABRIC_TRACKER_MIN + (d.inst.map (fun x => x.2.trackerMin)).foldl (· + ·) 0

/-- Shared trackers a partition uses in a slice. -/
def Dev.trackersOf (d : Dev) (slice c : Nat) : Nat :=
  (d.chn.trackers.filter (fun x => x.slice = slice ∧ x.id < 480 ∧ competitor x.acc.master = c)).length

/-- Trackers a partition may still take in a slice, from its reservation and the common pool (R342). -/
def Dev.trackerRoom (d : Dev) (slice c : Nat) : Nat :=
  let used := d.trackersOf slice c
  let (lo, hi) := d.partition c
  let excess := (List.range 65).foldl (fun n x => n + (d.trackersOf slice x - (d.partition x).1)) 0
  (lo - used) + min (hi - max used lo) (480 - d.minSum - excess)

/-! ### NAKs and tickets (R210 to R213) -/

/-- The hint of the n-th NAK. -/
def Dev.hint (d : Dev) (n : Nat) : Nat := min (d.rd ChurnR.BACKOFF_MAX) (d.rd ChurnR.BACKOFF_BASE * 2 ^ (n - 1))

/-- Count a NAK by its cause (R230). -/
def Dev.countNak (t slice cause : Nat) (a : Access) (d : Dev) : Dev :=
  let d := match cause with
    | 1 => d.inc (ChurnR.NAK_LINE_BUSY slice)
    | 4 => d.inc (ChurnR.NAK_LINE_BUSY slice)
    | 2 => d.inc (ChurnR.NAK_SET_PINNED slice)
    | 3 => d.inc (ChurnR.NAK_NO_TRACKER slice)
    | _ => d
  ({ d with hbk := { d.hbk with nakWindow := Tab.bump d.hbk.nakWindow slice 1 } }).mon t (16 + slice) (0x203 + cause) a.master a.fa

/-- NAK a request: its agent keeps it for a retry, a peer is told by a NAK message. The fourth NAK carries a ticket when the pool has
one (R212). -/
def Dev.nak (t slice cause : Nat) (a : Access) (d : Dev) : Dev :=
  let d := d.countNak t slice cause a
  let la := lineAddr a.fa
  let (d, hint, ticket) : Dev × Nat × Option Nat :=
    if a.naks < 3 then (d, d.hint (a.naks + 1), none) else
    match (List.range 256).find? (fun n => ¬ d.chn.tickets.any (fun x => x.slice = slice ∧ x.number = n)) with
    | none => (d, d.rd ChurnR.BACKOFF_MAX, none)
    | some n =>
      let d := { d with chn := { d.chn with tickets := d.chn.tickets ++ [Ticket.mk slice n la a.master cause none] } }
      ((d.inc (ChurnR.TICKETS_ISSUED slice)).mon t (16 + slice) 0x209 a.master a.fa, 0, some n)
  match a.origin with
  | .peer chain _ tag e2e =>
    d.respond t { src := chain, dst := d.homeAddr, master := a.master, tag, epoch := d.epoch, e2e } 2 2 [nakWord cause hint ticket]
  | _ => { d with chn := { d.chn with retries := d.chn.retries ++ [{ acc := { a with naks := min 3 (a.naks + 1), ticket }, hint }] } }

/-- The ticket an access validly presents: bound to its line and master ID (R213). -/
def Dev.validTicket (d : Dev) (slice : Nat) (a : Access) : Option Ticket :=
  match a.ticket with
  | none => none
  | some n => d.chn.tickets.find? (fun x => x.slice = slice ∧ x.number = n ∧ x.la = lineAddr a.fa ∧ x.master = a.master)

/-- Ticket holders that a cause reserves for, ahead of a request: all of them, or for a holder of a ticket of that cause those whose tickets
were issued before its own (R213). -/
def Dev.reservedBefore (d : Dev) (slice cause : Nat) (ticket : Option Ticket) (p : Ticket → Bool) : Nat :=
  let earlier := match ticket with
    | some k => if k.cause = cause then d.chn.tickets.takeWhile (fun x => x ≠ k) else d.chn.tickets.filter (fun x => x ≠ k)
    | none => d.chn.tickets
  (earlier.filter (fun x => x.slice = slice ∧ x.cause = cause ∧ p x)).length

/-- A ticket is released. -/
def Dev.releaseTicket (k : Ticket) (d : Dev) : Dev :=
  { d with chn := { d.chn with tickets := d.chn.tickets.filter (fun x => ¬ (x.slice = k.slice ∧ x.number = k.number)) } }

/-- A ticket holder waits in the slice's ticket queue. -/
def Dev.holdTicket (k : Ticket) (a : Access) (d : Dev) : Dev :=
  { d with chn := { d.chn with tickets := d.chn.tickets.map (fun x =>
      if x.slice = k.slice ∧ x.number = k.number then { x with waiting := some a } else x) } }

/-- FORCE_NAK of the Rennet (R546, class 3): the chance is a free value. -/
def Dev.forcedNak (slice : Nat) (d : Dev) : Dev × Bool :=
  match (List.range 16).find? (fun i => d.rd (Ren.CLASS i) = 3 ∧ d.rd (Ren.TARGET i) = slice) with
  | none => (d, false)
  | some i =>
    if d.mode ≠ 11 then (d, false)
    else (d.drawn, decide (d.freeVal 4 % 65536 < fieldOf (d.rd (Ren.SETTING i)) 0 16))

/-! ### Snoops and recalls (R204, R205, R223) -/

/-- Accesses that slices and agents keep: NAKed ones, those of a stalled instance, ticket holders, those a migration holds. -/
def Dev.keptAccesses (d : Dev) : List Access :=
  d.chn.retries.map (·.acc) ++ d.chn.stalled ++ d.chn.tickets.filterMap (·.waiting) ++ (d.binder.migrations.map (fun x => x.2.held)).flatten

/-- A write of a slot to a line was accepted and has not reached its slice (R233). -/
def Dev.writeOwed (d : Dev) (s la : Nat) : Bool :=
  d.keptAccesses.any (fun a => decide (a.slot = some s) && (decide (a.kind = .wb) || decide (a.kind = .wrNc)) && decide (lineAddr a.fa = la))

/-- Send a snoop (0 Inv, 1 Data, 2 Cur) for a tracker to a slot: a BISnp to a local host, a recall to a remote device. -/
def Dev.sendSnoop (t : Nat) (tr : Tracker) (kind : Nat) (s : Nat) (d : Dev) : Dev :=
  let x := d.sharer s
  let d := d.mon t (16 + tr.slice) 0x20c 0xffff (laFa tr.la)
  if d.exercises (laFa tr.la) then { d with exer := { d.exer with snoops := d.exer.snoops ++ [(tr.slice, tr.id, s)] } }
  else if x.kind = 0 then
    let tag := d.edge.nextTag % 65536
    let vi := (d.viOfPort x.port).getD 0
    let snoop : HostSnoop := {
      port := x.port, tag, slice := tr.slice, tracker := tr.id, slot := s, incarnation := d.rd (Pg.INCARNATION x.port) }
    let d := { d with edge := { d.edge with
      snoops := d.edge.snoops ++ [snoop]
      nextTag := d.edge.nextTag + 1 } }
    let d := (d.mon t (x.port / 4) 0x10c 0xffff (laFa tr.la)).emit (.host x.port (.biSnp kind tag (d.hpaOf vi (laFa tr.la))))
    if d.writeOwed s tr.la then d.later .passAnswers else d
  else
    d.qflSend t 1 (kind + 1) x.chain (masterFabric d.chainAddr 0) true [reqWord { addr := laFa tr.la }] (.recallRsp tr.slice tr.id s)

/-! ### Closing a tracker -/

/-- A tracker closes: the way it kept for another tracker's line passes to that tracker, and what waited may go on. -/
def Dev.closeTracker (tr : Tracker) (d : Dev) : Dev :=
  ({ d with chn := { d.chn with
    trackers := d.chn.trackers.filter (fun x => ¬ (x.slice = tr.slice ∧ x.id = tr.id))
    mirrorWaits := Tab.erase d.chn.mirrorWaits tr.acc.id } }).later (.lineFree tr.slice tr.la)

/-- Answer a recall as its proxy: the state kept, with dirty data when there is any (R223). -/
def Dev.answerRecall (t : Nat) (tr : Tracker) (kept : Nat) (d : Dev) : Dev :=
  match tr.reply with
  | none => d
  | some (chain, tag, e2e) =>
    let h : QflHdr := { src := chain, dst := d.chainAddr, master := masterFabric chain 0, tag, epoch := d.epoch, e2e }
    match tr.data with
    | some (x, poison) =>
      if tr.dirty then d.respond t h 3 2 (completionWord kept poison false :: lineUnits x)
      else d.respond t h 2 3 [completionWord kept false false]
    | none => d.respond t h 2 3 [completionWord kept false false]

/-- The answer a closing tracker gives. A poisoned read grants no copy and carries zeros (R244). -/
def Tracker.result (tr : Tracker) : Answer :=
  let a := tr.acc
  let (x, poison) := tr.data.getD (0, false)
  match a.kind with
  | .rdShared => if poison then { poison := true, ending := tr.answer.ending } else { tr.answer with data := x, grant := 1 }
  | .rdOwn => if poison then { poison := true, ending := tr.answer.ending } else { tr.answer with data := x, grant := 2 }
  | .invOwn =>
    if poison then { poison := true, ending := tr.answer.ending }
    else { tr.answer with data := x, grant := 3, bare := tr.data.isNone }
  | .rdNc => if poison then { poison := true, ending := tr.answer.ending } else { tr.answer with data := x }
  | .atomic => tr.answer
  | _ => { ending := tr.answer.ending }

/-- Count what a reclaim did: entries of its scan, and lines made LOST (R234). -/
def Dev.countReclaim (s entries lost : Nat) (d : Dev) : Dev :=
  { d with chn := { d.chn with reclaims := d.chn.reclaims.map (fun x =>
    if x.slot = s then { x with entries := x.entries + entries, lost := x.lost + lost } else x) } }

/-- Why a tracker that leaves its line LOST does so, as its record tells it (R241, R516), and the master ID of the record: 1 a RECLAIM by
the Churn, 2 a PLOST, 3 a poisoned write, or the cause that the Churn's own write carries. -/
def Dev.lostCause (d : Dev) (tr : Tracker) : Nat × Nat :=
  match tr.acc.kind, tr.acc.origin with
  | .reclaim, .churn _ => (1, d.slotMaster (tr.acc.slot.getD 0))
  | .reclaim, _ => (2, d.slotMaster (tr.acc.slot.getD 0))
  | _, .churn c => (if c = 0 then 3 else c, tr.acc.master)
  | _, _ => (3, tr.acc.master)

/-- The entry a tracker leaves. No copy is recorded for a dead requester (R232), nor for one whose data is poisoned (R244). -/
def Dev.leaves (d : Dev) (tr : Tracker) : Nat × Nat :=
  let r := tr.result
  let ownCopy : Bool := decide (r.grant ≠ 0) || (decide (tr.acc.keep ≠ 0) && (tr.acc.kind == .wb || tr.acc.kind == .wrNc))
  let dead : Bool := match tr.acc.slot with
    | some q => d.isDead q && ownCopy
    | none => false
  let poisoned : Bool := (tr.acc.kind == .rdShared || tr.acc.kind == .rdOwn || tr.acc.kind == .invOwn) && r.poison
  if (dead ∨ poisoned) ∧ tr.nextState ≠ 4 then
    let v := match tr.acc.slot with
      | some q => if tr.state ≠ 0 ∧ fieldOf tr.sharers q 1 = 1 ∧ ¬ dead then tr.nextSharers else dropSlot tr.nextSharers q
      | none => tr.nextSharers
    if v = 0 then (0, 0) else (if tr.nextState = 1 then 1 else tr.nextState, v)
  else (tr.nextState, tr.nextSharers)

/-- The changes of the entry that are made, or told to the mirror, only once the tracker has its answers: a line becomes LOST, or no copy
is recorded after all. The tracker is left with nothing more to change. -/
def Dev.lastChange (t : Nat) (tr : Tracker) (d : Dev) : Dev × Tracker :=
  let (st, v) := d.leaves tr
  if st = 4 ∧ tr.state ≠ 4 ∧ ¬ tr.proxy then
    let (cause, master) := d.lostCause tr
    let d := d.makeLost t tr.la tr.place cause master
    let d := if cause = 2 then d.inc ChurnR.PLOST_RECEIVED else d
    let d := if cause = 1 then d.countReclaim (tr.acc.slot.getD 0) 0 1 else d
    let (p, st, v) := d.findLine tr.la
    (d, { tr with place := p, state := st, sharers := v, nextState := st, nextSharers := v })
  else
    let d := if ¬ tr.proxy ∧ (st, v) ≠ (tr.nextState, tr.nextSharers) then d.mirrorNote t tr.la tr.place st v else d
    (d, { tr with nextState := st, nextSharers := v })

/-- Entry changes of a tracker that the mirror has still to acknowledge. -/
def Dev.mirrorsOf (d : Dev) (tr : Tracker) : Nat := Tab.getD d.chn.mirrorWaits tr.acc.id 0

/-- The access reclaims a slot for the scan of a reclaim. -/
def Access.scans (a : Access) : Bool := a.isChurn && decide (a.kind = .reclaim)

/-- SEND: the entry takes its next state, the answer leaves, the tracker closes. A change that the mirror must acknowledge first keeps the
tracker in phase MIRROR (R227). -/
def Dev.finishTracker (t : Nat) (tr : Tracker) (d : Dev) : Dev :=
  let answer := tr.result
  let (d, tr) := d.lastChange t tr
  if 0 < d.mirrorsOf tr then d.setTracker { tr with phase := .mirror }
  else
    let (st, v) := (tr.nextState, tr.nextSharers)
    let d := d.closeTracker tr
    let inWay : Bool := match tr.place with
      | .way _ => true
      | _ => false
    let d := if inWay ∨ (d.findLine tr.la).2 ≠ (st, v) then d.putEntry t tr.la tr.place st v else d
    let d := if tr.acc.kind = .recall ∧ tr.proxy then d.answerRecall t tr (if st = 0 then 0 else st) else d
    d.later (.answer tr.acc answer)

/-- Nothing is left to wait for, the mirror apart. -/
def Tracker.idle (tr : Tracker) : Bool :=
  tr.settled && decide (tr.snooped = []) && decide (tr.reads = 0) && decide (tr.writes = 0) && decide (tr.plan = []) && decide (tr.step = 0)

/-- Keep a tracker, or close it when it has nothing left to wait for; in phase MIRROR it waits for the mirror alone. -/
def Dev.settleTracker (t : Nat) (tr : Tracker) (d : Dev) : Dev :=
  if ¬ tr.idle then d.setTracker tr
  else if 0 < d.mirrorsOf tr then d.setTracker { tr with phase := .mirror }
  else (d.setTracker tr).finishTracker t tr

/-! ### The state table at the home (R204) -/

/-- The recorded owner of an EXC or MOD line. -/
def ownerIn (state v : Nat) : Option Nat := if state = 2 ∨ state = 3 then (slotsIn v).head? else none

/-- The slot is the owner. -/
def isOwner (state v : Nat) (q : Option Nat) : Bool := (ownerIn state v).isSome && decide (ownerIn state v = q)

/-- The kind a write has: WB from the recorded owner, WR_NC otherwise (R203). -/
def Access.asWrite (a : Access) (state v : Nat) : Access :=
  match a.origin with
  | .peer _ _ _ _ => a
  | _ =>
    if a.kind = .wb ∨ a.kind = .wrNc then { a with kind := if isOwner state v a.slot then .wb else .wrNc } else a

/-- A holder recorded in the set. -/
def holds (v : Nat) (q : Option Nat) : Bool := match q with
  | some s => decide (fieldOf v s 1 = 1)
  | none => false

/-- The request completes at the lookup: the rows of R204 without a tracker, and requests from a slot that the entry does not record
in a row that assumes it (R203). -/
def noTracker (a : Access) (state v : Nat) : Bool :=
  match state, a.kind with
  | 0, .flush => true
  | 0, .evictClean => true
  | _, .evictClean => true
  | 4, .wrNc => false
  | 4, _ => true
  | 0, .recall => true
  | 0, .recallAll => true
  | 0, .reclaim => true
  | _, .reclaim => if a.isChurn then !holds v a.slot else !isOwner state v a.slot
  | _, .wb => !isOwner state v a.slot
  | _, .recall => !holds v a.slot
  | _, _ => false

/-- Whom the tracker snoops, and how (0 Inv, 1 Data, 2 Cur). -/
def snoopSet (a : Access) (state v : Nat) : List Nat × Nat :=
  let others := (slotsIn v).filter (fun s => some s ≠ a.slot)
  match state with
  | 1 =>
    match a.kind with
    | .rdOwn => (others, 0)
    | .invOwn => (others, 0)
    | .wrNc => (others, 0)
    | .flush => (slotsIn v, 0)
    | .atomic => (slotsIn v, 0)
    | .recallAll => (slotsIn v, 0)
    | .recall => ((slotsIn v).filter (fun s => some s = a.slot), 0)
    | _ => ([], 0)
  | 0 => ([], 0)
  | 4 => ([], 0)
  | _ =>
    match a.kind with
    | .rdShared => (others, 1)
    | .rdOwn => (others, 0)
    | .invOwn => (others, 0)
    | .wrNc => (others, 0)
    | .rdNc => (slotsIn v, 2)
    | .flush => (slotsIn v, 0)
    | .atomic => (slotsIn v, 0)
    | .recallAll => (slotsIn v, 0)
    | .recall => ((slotsIn v).filter (fun s => some s = a.slot), 0)
    | _ => ([], 0)

/-- The next state of a line (R204): state and SHARERS, from the state found, whether the snooped owner kept a shared copy, and the
request. -/
def nextEntry (a : Access) (state v : Nat) (kept : Bool) : Nat × Nat :=
  let mine (k : Nat) : Nat × Nat := match a.slot with
    | some q => if k = 0 then (0, 0) else (k, 2 ^ q)
    | none => (0, 0)
  let whole := decide (a.be = BitVec.allOnes 64)
  match a.kind with
  | .rdShared =>
    (match a.slot with
     | none => (state, v)
     | some q =>
      if state = 1 then (1, withSlot v q)
      else if state = 0 ∨ isOwner state v a.slot then (1, 2 ^ q)
      else if kept then (1, withSlot v q) else (1, 2 ^ q))
  | .rdOwn => mine 2
  | .invOwn => mine 3
  | .rdNc => if state = 2 ∨ state = 3 then (2, v) else (state, v)
  | .wrNc => if state = 4 ∧ ¬ whole then (4, 0) else mine a.keep
  | .wb => mine a.keep
  | .evictClean =>
    if ¬ holds v a.slot then (state, v)
    else
      let w := dropSlot v (a.slot.getD 0)
      if w = 0 then (0, 0) else (state, w)
  | .recall =>
    let w := dropSlot v (a.slot.getD 0)
    if w = 0 then (0, 0) else (state, w)
  | .reclaim =>
    if isOwner state v a.slot then (4, 0)
    else if ¬ holds v a.slot then (state, v)
    else
      let w := dropSlot v (a.slot.getD 0)
      if w = 0 then (0, 0) else (state, w)
  | _ => (0, 0)

/-- The request allocates a tier-1 way when the line has none (R202, R217). -/
def needsWay (a : Access) (state : Nat) : Bool :=
  match a.kind with
  | .rdShared => decide (state ≠ 4)
  | .rdOwn => decide (state ≠ 4)
  | .invOwn => decide (state ≠ 4)
  | .wrNc => decide (a.keep ≠ 0) && a.slot.isSome && (decide (state ≠ 4) || decide (a.be = BitVec.allOnes 64))
  | .wb => decide (a.keep ≠ 0) && a.slot.isSome
  | _ => false

/-- The accesses of the final part of a home tracker: nothing, a read, the write (R204). -/
def Dev.homeMemory (t : Nat) (tr : Tracker) (d : Dev) : Dev :=
  let a := tr.acc
  let read (d : Dev) : Dev :=
    if tr.data.isSome then d.settleTracker t tr
    else
      let tr := { tr with reads := 1, phase := .memory }
      (d.setTracker tr).readLine t a (.tracker tr.slice tr.id 0)
  match a.kind with
  | .rdShared => read d
  | .rdOwn => read d
  | .rdNc => read d
  | .invOwn => if tr.state = 1 ∧ holds tr.sharers a.slot then d.settleTracker t tr else read d
  | .atomic =>
    (match tr.data with
     | none => read d
     | some (x, poison) =>
      let (d, wrong) := d.aluWrong (.homeAlu tr.slice) a x
      if wrong then
        (d.residueError t ChurnR.RESIDUE_HOME 5 9 a.master a.fa 1).settleTracker t { tr with answer := { poison := true, ending := .residue } }
      else
      let d := d.inc ChurnR.ATOMICS_HOME
      if poison then d.settleTracker t { tr with answer := { poison := true } }
      else
        let tr := { tr with answer := { data := BitVec.ofNat 512 (a.oldValue x) } }
        match a.atomWrite x with
        | none => d.settleTracker t tr
        | some (be, w) =>
          let tr := { tr with writes := tr.writes + 1, phase := .memory }
          (d.setTracker tr).writeLine t { a with be, data := w } (.tracker tr.slice tr.id 2))
  | .wrNc =>
    let tr := { tr with writes := tr.writes + 1, phase := .memory }
    (d.setTracker tr).writeLine t a (.tracker tr.slice tr.id 2)
  | .wb =>
    let tr := { tr with writes := tr.writes + 1, phase := .memory }
    (d.setTracker tr).writeLine t a (.tracker tr.slice tr.id 2)
  | _ => d.settleTracker t tr

/-- The write makes its line LOST, or leaves it LOST: it carries poison and a backing stores none (R243), or the Churn records the loss. -/
def Dev.recordsLost (d : Dev) (a : Access) : Bool :=
  (decide (a.kind = .wrNc) || decide (a.kind = .wb)) && a.poison && (a.isChurn || !d.storesPoison a.fa)

/-- The last answer to a home tracker's snoops is in: its next state is fixed and told to the mirror, and memory is accessed (R204, R227,
R384). A write that makes its line LOST writes no data of its own (R243). -/
def Dev.homeGo (t : Nat) (tr : Tracker) (d : Dev) : Dev :=
  let a := tr.acc
  if d.recordsLost a then
    let counted : Bool := match a.origin with
      | .churn c => decide (c = 0)
      | _ => true
    let d := if counted then d.inc Ext.POISON_RECORDED else d
    d.settleTracker t { tr with nextState := 4, nextSharers := 0, settled := true }
  else
    let (st, v) := nextEntry a tr.state tr.sharers tr.kept
    let d := if tr.state = 4 ∧ st ≠ 4 then d.unLost tr.la else d
    let tr := { tr with nextState := st, nextSharers := v, settled := true }
    let d := if a.scans ∧ (st, v) ≠ (tr.state, tr.sharers) then d.countReclaim (a.slot.getD 0) 1 0 else d
    let d := if st ≠ 4 ∧ (d.findLine tr.la).2 ≠ (st, v) then d.mirrorNote t tr.la tr.place st v else d
    (d.setTracker tr).homeMemory t tr

/-- RECLAIM of slots that a tracker would snoop and that are dead (R232): the state that results. A line it makes LOST counts for the
reclaim, an entry does not: the scan has not reached it. -/
def Dev.reclaimDead (t : Nat) (tr : Tracker) (targets : List Nat) (d : Dev) : Dev × Tracker :=
  match targets.filter (fun s => d.isDead s) with
  | [] => (d, tr)
  | s :: l =>
    if tr.state = 1 then
      let v := (s :: l).foldl dropSlot tr.sharers
      (d, { tr with sharers := v, state := if v = 0 then 0 else 1 })
    else
      let d := (d.makeLost t tr.la tr.place 1 (d.slotMaster s)).countReclaim s 0 1
      let (p, st, v) := d.findLine tr.la
      (d, { tr with state := st, sharers := v, place := if st = 0 then tr.place else p })

/-- The answer of a row without a tracker: poison for a LOST line's reads and atomics (R204). -/
def quickAnswer (a : Access) (state : Nat) : Answer :=
  match a.kind with
  | .flush => {}
  | .evictClean => {}
  | .recall => {}
  | .recallAll => {}
  | .reclaim => {}
  | .wb => {}
  | _ => { poison := decide (state = 4) }

/-- Serve a home tracker by the state table. -/
def Dev.serveHome (t : Nat) (tr : Tracker) (d : Dev) : Dev :=
  let own := isOwner tr.state tr.sharers tr.acc.slot
  let d := if own ∧ (tr.acc.kind = .rdShared ∨ tr.acc.kind = .rdOwn ∨ tr.acc.kind = .invOwn) then
    d.inc (ChurnR.OWNER_REREQUESTS tr.slice) else d
  let (ts, _) := snoopSet tr.acc tr.state tr.sharers
  let (d, tr) := d.reclaimDead t tr ts
  if noTracker tr.acc tr.state tr.sharers then
    -- the state found, or left by the reclaim, completes the request at once
    let (st, v) := nextEntry tr.acc tr.state tr.sharers false
    let (st, v) := if tr.state = 4 ∨ tr.acc.kind = .wb then (tr.state, tr.sharers) else (st, v)
    let d := if (d.findLine tr.la).2 ≠ (st, v) then d.mirrorNote t tr.la tr.place st v else d
    d.settleTracker t { tr with
      nextState := st, nextSharers := v, settled := true, answer := quickAnswer tr.acc tr.state, data := some (0, decide (tr.state = 4)) }
  else
  let (ts, k) := snoopSet tr.acc tr.state tr.sharers
  let tr := { tr with snooped := ts, snoop := k, phase := if ts = [] then tr.phase else .snoop }
  let d := d.setTracker tr
  if ts = [] then d.homeGo t tr else ts.foldl (fun (d : Dev) s => d.sendSnoop t tr k s) d

/-! ### Proxy trackers (R222, R223) -/

/-- The instance that holds the Type 2 device of a device port. -/
def Dev.viOfType2 (d : Dev) (p : Nat) : Option Nat := (d.inst.find? (fun x => x.2.type2.any (fun y => y.2 = p))).map (·.1)

/-- The master ID of a proxy's request: the originating instance's, else the Churn's (R40, R224). -/
def Dev.peerMaster (d : Dev) (master : Nat) : Nat :=
  if master / 4096 = 0 ∨ master / 4096 = 1 ∨ master / 4096 = 2 then
    masterPeer d.chainAddr (if master / 4096 = 1 then (d.viOfType2 (master / 64 % 64)).getD 0 else competitor master)
  else if master / 4096 = 4 then masterFabric d.chainAddr 1
  else masterFabric d.chainAddr 0

/-- Whom a proxy snoops and how. Several sharers of an EXC or MOD line hold shared copies. -/
def proxySnoops (a : Access) (state v : Nat) : List Nat × Nat :=
  let others := (slotsIn v).filter (fun s => some s ≠ a.slot)
  let single := decide ((slotsIn v).length = 1)
  match a.kind with
  | .rdShared => if (state = 2 ∨ state = 3) ∧ single then (others, 1) else ([], 0)
  | .rdNc => if (state = 2 ∨ state = 3) ∧ single then (slotsIn v, 2) else ([], 0)
  | .rdOwn => (others, 0)
  | .invOwn => (others, 0)
  | .wrNc => (others, 0)
  | .flush => (slotsIn v, 0)
  | .recallAll => (slotsIn v, 0)
  | .recall =>
    if a.slot.isSome then ((slotsIn v).filter (fun s => some s = a.slot), 0)
    else if a.keep = 0 then (slotsIn v, 0)
    else if (state = 2 ∨ state = 3) ∧ single then (slotsIn v, a.keep) else ([], 0)
  | _ => ([], 0)

/-- The local holders left after the snoops of a proxy tracker's request. -/
def Tracker.left (tr : Tracker) : Nat :=
  let (ts, k) := proxySnoops tr.acc tr.state tr.sharers
  if k = 0 ∨ ¬ tr.kept then ts.foldl dropSlot tr.sharers else tr.sharers

/-- What a proxy then asks of the home, as VC0 opcodes with KEEP, and its next state. -/
def proxyPlan (tr : Tracker) : List (Nat × Nat) × Nat × Nat :=
  let a := tr.acc
  let st := tr.state
  let v := tr.sharers
  let owned := st = 2 ∨ st = 3
  let q := a.slot.getD 0
  let whole := a.be = BitVec.allOnes 64
  match a.kind with
  | .rdShared =>
    if ¬ owned then ([(1, 0)], 1, withSlot v q)
    else (if tr.dirty then [(6, 2)] else [(2, 0)], 2,
      if (slotsIn v).length = 1 ∧ ¬ holds v a.slot ∧ ¬ tr.kept then 2 ^ q else withSlot v q)
  | .rdOwn => (if owned ∧ tr.dirty then [(6, 2)] else [(2, 0)], 2, 2 ^ q)
  | .invOwn =>
    if ¬ owned then ([(3, 0)], 3, 2 ^ q)
    else if tr.dirty then ([(6, 2)], 2, 2 ^ q)
    else if holds v a.slot then ([], st, 2 ^ q)
    else ([(3, 0)], 3, 2 ^ q)
  | .rdNc => if ¬ owned then ([(7, 0)], st, v) else if tr.dirty then ([(6, 2)], 2, v) else ([(2, 0)], 2, v)
  | .wrNc =>
    let fetch : List (Nat × Nat) := if owned ∧ (whole ∨ tr.dirty) then [] else [(2, 0)]
    if a.keep = 0 then (fetch ++ [(6, 0)], 0, 0) else (fetch ++ [(6, 2)], 2, 2 ^ q)
  | .wb =>
    let fetch : List (Nat × Nat) := if whole then [] else [(2, 0)]
    let w := dropSlot v q
    if a.keep = 0 then
      (if w = 0 then (fetch ++ [(6, 0)], 0, 0) else (fetch ++ [(6, 2)], 2, w))
    else (fetch ++ [(6, 2)], 2, 2 ^ q)
  | .evictClean =>
    let w := dropSlot v q
    if ¬ holds v a.slot then ([], st, v) else if w = 0 then ([(5, 0)], 0, 0) else ([], st, w)
  | .flush =>
    ((if st = 0 then [] else if owned ∧ tr.dirty then [(6, 0)] else [(5, 0)]) ++ [(4, 0)], 0, 0)
  | .recallAll => (if st = 0 then [] else if owned ∧ tr.dirty then [(6, 0)] else [(5, 0)], 0, 0)
  | .recall =>
    let w := dropSlot v q
    if a.slot.isSome then
      (if st = 0 ∨ w = v then ([], st, v)
       else if w = 0 then (if owned ∧ tr.dirty then [(6, 0)] else [(5, 0)], 0, 0)
       else if owned ∧ tr.dirty then ([(6, 2)], 2, w) else ([], st, w))
    else if st = 0 ∨ a.keep = 0 then ([], 0, 0)
    else if a.keep = 2 then ([], if owned then 2 else 1, v)
    else if (slotsIn v).length = 1 ∧ owned ∧ ¬ tr.kept then ([], 0, 0)
    else ([], 1, v)
  | .reclaim =>
    let w := dropSlot v q
    if w ≠ 0 then ([], st, w) else (if owned then [(10, 0)] else [(5, 0)], 0, 0)
  | _ => ([], st, v)

/-- The data a PWB carries: the request's bytes over what is known of the line. -/
def Tracker.line (tr : Tracker) : Line :=
  let old := (tr.data.getD (0, false)).1
  match tr.acc.kind with
  | .wb => mergeLine old tr.acc.data tr.acc.be
  | .wrNc => mergeLine old tr.acc.data tr.acc.be
  | _ => old

/-- Send the next request of a proxy's plan. -/
def Dev.proxyStep (t : Nat) (tr : Tracker) (d : Dev) : Dev :=
  match tr.plan with
  | [] => d.settleTracker t { tr with step := 0 }
  | (op, keep) :: _ =>
    let tr := { tr with step := 1, phase := .memory }
    let a := { tr.acc with data := tr.line, fa := laFa tr.la }
    let d := if op = 6 ∨ op = 8 then d.remoteBegun t a else d
    (d.setTracker tr).qflSend t 0 op (faChain (laFa tr.la)) (d.peerMaster tr.acc.master) false (a.units op keep)
      (.tracker tr.slice tr.id 3)

/-- The last answer to a proxy's snoops is in. -/
def Dev.proxyGo (t : Nat) (tr : Tracker) (d : Dev) : Dev :=
  let (plan, st, v) := proxyPlan tr
  let c := faChain (laFa tr.la)
  let orphan := decide (tr.acc.kind = .recallAll) && (d.memb.discarding || (!d.alive c && decide (c ≠ d.rd Memb.PAIR_ADDR)))
  let d := if orphan && tr.dirty then d.logErr t {
      cls := 8, severity := 1, source := 5, access := 6, master := tr.acc.master, addr := laFa tr.la, time := some tr.acc.time
      detail := saturate 32 ((t - tr.acc.time) / 1000) } else d
  let d := if tr.acc.scans ∧ v ≠ tr.sharers then d.countReclaim (tr.acc.slot.getD 0) 1 0 else d
  d.proxyStep t { tr with plan := if orphan then [] else tr.plan ++ plan, nextState := st, nextSharers := v, settled := true }

/-- Dead slots that a proxy would snoop are reclaimed first (R232, R237): one among several, or of a SHR line, is dropped; with the only
holder of an EXC or MOD line the line goes, and PLOST comes before anything else the home is asked. -/
def Dev.proxyReclaimDead (d : Dev) (tr : Tracker) : Tracker :=
  let dead := (proxySnoops tr.acc tr.state tr.sharers).1.filter (fun s => d.isDead s)
  let v := dead.foldl dropSlot tr.sharers
  if dead = [] then tr
  else if v ≠ 0 then { tr with sharers := v }
  else { tr with state := 0, sharers := 0, plan := if 2 ≤ tr.state then [(10, 0)] else [] }

/-- Serve a proxy tracker. A SHR line's request for ownership goes to the home together with the local snoops (R222). -/
def Dev.serveProxy (t : Nat) (tr : Tracker) (d : Dev) : Dev :=
  let tr := d.proxyReclaimDead tr
  let (ts, k) := proxySnoops tr.acc tr.state tr.sharers
  let tr := { tr with snooped := ts, snoop := k, phase := if ts = [] then tr.phase else .snoop }
  if ts = [] then (d.setTracker tr).proxyGo t tr
  else if tr.state = 1 ∧ (tr.acc.kind = .rdOwn ∨ tr.acc.kind = .invOwn) then
    let (plan, st, v) := proxyPlan tr
    let tr := { tr with plan := tr.plan ++ plan, nextState := st, nextSharers := v, settled := true }
    (ts.foldl (fun (d : Dev) s => d.sendSnoop t tr k s) (d.setTracker tr)).proxyStep t tr
  else ts.foldl (fun (d : Dev) s => d.sendSnoop t tr k s) (d.setTracker tr)

/-- Serve a tracker. -/
def Dev.serve (t : Nat) (tr : Tracker) (d : Dev) : Dev := if tr.proxy then d.serveProxy t tr else d.serveHome t tr

/-- Go on once no snoop is outstanding. -/
def Dev.go (t : Nat) (tr : Tracker) (d : Dev) : Dev := if tr.proxy then d.proxyGo t tr else d.homeGo t tr

/-! ### Lookup, ways and victims (R216 to R218) -/

/-- Install a line's entry in a way that the tracker pins. -/
def Dev.install (t : Nat) (tr : Tracker) (w : Nat) (d : Dev) : Dev × Tracker :=
  let d := match tr.place with
    | .bucket b e => (d.setBucket t b e none).mirrorNote t tr.la (.bucket b e) 0 0
    | .image k => d.setImage k none
    | _ => d
  let d := if tr.state = 0 then d else d.mirrorNote t tr.la (.way w) tr.state tr.sharers
  let d := d.setWay tr.la w (some { state := tr.state, la := tr.la, sharers := tr.sharers, pinned := true, tracker := tr.id })
  let tr := { tr with place := .way w, wayFor := none, victim := none, phase := .lookup }
  (d.setTracker tr, tr)

/-- A victim's way is freed by a back-invalidating recall (R218); a request that finds no reserved tracker for it is NAKed (R210). -/
def Dev.recallVictim (t : Nat) (tr : Tracker) (w : Nat) (e : DirEntry) (d : Dev) : Dev :=
  if (d.freeTracker tr.slice 480 32).isNone ∧ ¬ tr.acc.isChurn ∧ (d.validTicket tr.slice tr.acc).isNone then
    let d := d.setWay e.la w (some { e with pinned := false })
    (d.closeTracker tr).nak t tr.slice 3 tr.acc
  else
    let d := (d.setTracker { tr with phase := .evict, wayFor := some w, victim := some e.la }).inc (ChurnR.BI_EVICTIONS tr.slice)
    ((d.setWay e.la w (some { e with pinned := true, tracker := tr.id })).mon t (16 + tr.slice) 0x20b 0xffff (laFa e.la)).recallAllOf
      t e.la 0

/-- A way for a tracker's line (R217): an empty one, a victim's, or a wait. -/
def Dev.takeWay (t : Nat) (tr : Tracker) (d : Dev) : Dev :=
  let (d, p) := d.pickWay tr.slice (setOf tr.la)
  let ticket := d.validTicket tr.slice tr.acc
  let reserved := (d.reservedBefore tr.slice 2 ticket (fun x => setOf x.la = setOf tr.la ∧ x.la ≠ tr.la))
  let free := 16 - ((d.ways tr.slice (setOf tr.la)).filter (fun x => x.2.pinned)).length
  if ticket.isNone ∧ ¬ tr.acc.isChurn ∧ (p = .full ∨ free ≤ reserved) then (d.closeTracker tr).nak t tr.slice 2 tr.acc
  else
    match (if free ≤ reserved then Pick.full else p) with
    | .empty w =>
      let d := match ticket with
        | some k => d.releaseTicket k
        | none => d
      let (d, tr) := d.install t tr w
      d.serve t tr
    | .full => d.setTracker { tr with phase := .evict, wayFor := none, victim := none }
    | .victim w e =>
      let d := d.setWay e.la w (some { e with pinned := true, tracker := tr.id })
      if d.homeLine e.la ∧ d.flag ChurnR.TIER2_ACTIVE ∧ ¬ d.chn.badBuckets.contains (d.bucketOf e.la) then
        (d.mon t (16 + tr.slice) 0x203 0xffff (laFa e.la)).setTracker { tr with phase := .evict, wayFor := some w, victim := some e.la }
      else d.recallVictim t tr w e

/-- The victim's bucket has been read: the victim is spilled when it has room (R218). -/
def Dev.spillVictim (t : Nat) (tr : Tracker) (w : Nat) (e : DirEntry) (d : Dev) : Dev :=
  let b := d.bucketOf e.la
  match d.bucketRoom b with
  | some i =>
    let d := d.setBucket t b i (some { state := e.state, la := e.la, sharers := e.sharers })
    let d := d.modExt (faExtent (laFa e.la)) (fun x => { x with spill := true })
    let d := (d.inc (ChurnR.SPILLS tr.slice)).mon t (16 + tr.slice) 0x20a 0xffff (laFa e.la)
    let d := (d.mirrorNote t e.la (.bucket b i) e.state e.sharers).mirrorNote t e.la (.way w) 0 0
    let d := d.setWay e.la w none
    let d := match d.validTicket tr.slice tr.acc with
      | some k => d.releaseTicket k
      | none => d
    let (d, tr) := d.install t tr w
    d.serve t tr
  | none => d.recallVictim t tr w e

/-- The lookup of an open tracker is complete (R217): state and place are known. -/
def Dev.looked (t : Nat) (tr : Tracker) (d : Dev) : Dev :=
  let a := if tr.proxy then tr.acc else tr.acc.asWrite tr.state tr.sharers
  let tr := { tr with acc := a }
  let d := match tr.place with
    | .way w =>
      d.setWay tr.la w (some { state := tr.state, la := tr.la, sharers := tr.sharers, pinned := true, tracker := tr.id, ref := true })
    | _ => d
  let d := d.setTracker tr
  let inWay : Bool := match tr.place with
    | .way _ => true
    | _ => false
  -- a write that records the line LOST is served where the entry lies; a line without an entry needs a bucket entry or a way (R216, R217)
  let needs : Bool := if d.recordsLost a then decide (tr.place = .none) && (d.bucketRoom (d.bucketOf tr.la)).isNone
    else needsWay a tr.state && !inWay
  if needs then d.takeWay t tr
  else
    let d := match d.validTicket tr.slice tr.acc with
      | some k => d.releaseTicket k
      | none => d
    d.serve t tr

/-- A lookup that misses tier 1 reads tier 2: home lines, tier 2 active, the extent's spill bit set, the bucket usable (R200). -/
def Dev.needsBucket (d : Dev) (la : Nat) : Bool :=
  d.homeLine la && d.flag ChurnR.TIER2_ACTIVE && (d.ext (faExtent (laFa la))).spill &&
    !d.chn.badBuckets.contains (d.bucketOf la) && (d.findWay la).isNone && (d.findImage la).isNone

/-- Open a tracker for a request, then look its line up. -/
def Dev.openTracker (t id : Nat) (a : Access) (reply : Option (Nat × Nat × Nat)) (d : Dev) : Dev :=
  let la := lineAddr a.fa
  let (p, st, v) := d.findLine la
  let home := d.homeLine la
  let d := if (d.findWay la).isSome then d.mon t (16 + sliceOf la) 0x202 a.master a.fa else d
  let tr : Tracker := { slice := sliceOf la, id, acc := a, la, proxy := !home, place := p, state := st, sharers := v, reply }
  let d := { d with chn := { d.chn with trackers := d.chn.trackers ++ [tr] } }
  if d.needsBucket la ∧ ¬ a.isChurn then
    (d.mon t (16 + sliceOf la) 0x203 a.master a.fa).setTracker { tr with phase := .tier2, place := .none, state := 0, sharers := 0 }
  else d.looked t tr

/-- A tracker that waits for one last answer is read (R524): one with an uncorrectable error closes, its requester is told, and the
line is recalled from every holder. -/
def Dev.readTracker (t : Nat) (tr : Tracker) (d : Dev) : Dev × Bool :=
  if 1 < tr.reads + tr.writes + d.mirrorsOf tr + tr.step + tr.snooped.length then (d, false) else
  let (d, lost) := d.readArray t 2 tr.slice 5 (· = tr.id)
  if ¬ lost then (d, false) else
  let d := d.putEntry t tr.la tr.place tr.state tr.sharers
  let d := if tr.acc.kind = .recall ∧ tr.proxy then d.answerRecall t { tr with data := none } tr.state else d
  (((d.closeTracker tr).later (.answer tr.acc { poison := true, ending := .errorResponse })).recallAllOf t tr.la 0, true)

/-! ### Admission at a slice (R208 to R214) -/

/-- A sweep has not yet passed the line (R201): its extent waits, or the current line of its home slice is not beyond it. -/
def Dev.sweepBlocks (d : Dev) (la : Nat) : Bool :=
  let e := faExtent (laFa la)
  d.homeLine la && (match d.chn.sweeps with
    | [] => false
    | x :: l => (decide (x = e) && decide (Tab.getD d.chn.sweepLine (sliceOf la) 0 ≤ faLine (laFa la))) || l.contains e)

/-- The cause that keeps a request from being admitted, 0 for none (R210). While a ticket for the line stands, a request without one meets
LINE_RESERVED, and a holder waits for those whose tickets are older (R213, R215). A line about to be recorded LOST is busy (R216). -/
def Dev.blocked (d : Dev) (slice : Nat) (a : Access) (ticket : Option Ticket) : Nat :=
  let la := lineAddr a.fa
  let c := competitor a.master
  let mine (x : Ticket) : Bool := decide (x.slice = slice) && decide (x.la = la)
  let older := match ticket with
    | some k => d.chn.tickets.takeWhile (fun x => x ≠ k)
    | none => d.chn.tickets
  let reserved := d.reservedBefore slice 3 ticket (fun x => competitor x.master = c)
  if older.any mine then 4
  else if (d.trackerOn la).isSome ∨ d.sweepBlocks la ∨ d.lostQueued la then 1
  else if d.trackerRoom slice c ≤ reserved ∨ (d.freeTracker slice 0 480).isNone then 3
  else 0

/-- A writeback of the line by a snooped slot is the snoop's data (R205): it is written and completed with Cmp when accepted. -/
def Dev.takeSnoopData (t : Nat) (tr : Tracker) (a : Access) (d : Dev) : Dev :=
  let whole := a.be = BitVec.allOnes 64
  if tr.proxy then
    let x := mergeLine (tr.data.getD (0, false)).1 a.data a.be
    ((d.setTracker { tr with data := some (x, a.poison), dirty := true }).later (.answer a {})).later .passAnswers
  else if a.poison ∧ ¬ d.storesPoison a.fa then
    let d := d.makeLost t tr.la tr.place 3 a.master
    let (p, st, v) := d.findLine tr.la
    let d := d.inc Ext.POISON_RECORDED
    ((d.setTracker { tr with place := p, state := st, sharers := v, data := some (0, true) }).later (.answer a {})).later .passAnswers
  else
    let tr := { tr with
      writes := tr.writes + 1, data := if whole then some (a.data, a.poison) else none, dirty := true }
    ((d.setTracker tr).writeLine t { a with master := masterChurn tr.slice 1, origin := .churn 0 } (.snoopWrite tr.slice tr.id a)).later
      .passAnswers

/-- A recall of the line waits for its tracker. -/
def Dev.recallWaits (d : Dev) (la : Nat) : Bool := d.chn.waiting.any (fun w => decide (w.la = la) && w.reply.isSome)

/-- A proxy whose request the home has NAKed answers a recall of the line first, from the state its line now has (R223): an eviction
that is no longer needed ends, a writeback goes on and is taken as the recall's data, any other request starts afresh at its retry once
the snoops it sent are answered. -/
def Dev.proxyYield (t la : Nat) (d : Dev) : Dev :=
  match d.trackerOn la with
  | none => d
  | some tr =>
    if ¬ tr.proxy ∨ tr.step ≠ 2 ∨ tr.snooped ≠ [] ∨ ¬ d.recallWaits la then d else
    match tr.plan with
    | (5, _) :: _ =>
      let d := { d with chn := { d.chn with retries := d.chn.retries.filter (fun r => r.acc.id ≠ tr.acc.id) } }
      d.settleTracker t { tr with plan := [], step := 0 }
    | (6, _) :: _ => d
    | (10, _) :: _ => d
    | _ => (d.putEntry t la tr.place (if tr.left = 0 then 0 else tr.state) tr.left).closeTracker tr

/-- A slot has answered a tracker's snoop, keeping state `keeps` (0 I, 1 S, 2 exclusive). A proxy that asked its home meanwhile goes on once
both are complete. -/
def Dev.snoopAnswered (t : Nat) (tr : Tracker) (s keeps : Nat) (d : Dev) : Dev :=
  let tr := { tr with snooped := tr.snooped.filter (fun x => x ≠ s), kept := tr.kept || decide (keeps = 1) }
  let d := d.setTracker tr
  if tr.snooped ≠ [] then d
  else if tr.settled then (d.settleTracker t tr).proxyYield t tr.la
  else if ¬ tr.proxy ∧ tr.state = 4 then d.serveHome t tr
  else d.go t tr

/-- A lookup that ends without a tracker hits the line's way, if it has one: REF is set (R194). -/
def Dev.touchWay (la : Nat) (d : Dev) : Dev :=
  match d.findWay la with
  | some (w, e) => d.setWay la w (some { e with ref := true })
  | none => d

/-- A request completes at the lookup (R204): an EVICT_CLEAN updates the entry, anything else leaves it. -/
def Dev.quickServe (t : Nat) (a : Access) (d : Dev) : Dev :=
  let la := lineAddr a.fa
  let d := d.touchWay la
  let (p, st, v) := d.findLine la
  let (st', v') := nextEntry a st v false
  let d := if a.kind = .evictClean ∧ (st', v') ≠ (st, v) then (d.putEntry t la p st' v').mirrorNote t la p st' v' else d
  d.later (.answer a (quickAnswer a st))

/-- Take a request into a slice: accept it, answer it at the lookup, NAK it, or let a ticket holder wait. The Churn's own is never NAKed
(R214). -/
def Dev.sliceAdmit (t : Nat) (a : Access) (d : Dev) : Dev :=
  let la := lineAddr a.fa
  let slice := sliceOf la
  let c := competitor a.master
  let snooping : Option Tracker := match d.trackerOn la, a.slot with
    | some tr, some q =>
      if tr.snooped.contains q ∧ (a.kind = .wb ∨ a.kind = .wrNc) then some tr else none
    | _, _ => none
  match snooping with
  | some tr => d.takeSnoopData t tr a
  | none =>
    let d := d.wakeChurn
    if a.isChurn then (d.churnWork { slice, acc := a, la }).later (.lineFree slice la)
    else if c < 64 ∧ d.accessWeight c = 0 then { d with chn := { d.chn with stalled := d.chn.stalled ++ [a] } } else
    let d := (d.mon t (16 + slice) 0x201 a.master a.fa).readWays t la
    let ticket := d.validTicket slice a
    let (d, forced) := if ticket.isNone then d.forcedNak slice else (d, false)
    let cause := if forced then 5 else d.blocked slice a ticket
    if cause ≠ 0 then
      match ticket with
      | some k => d.holdTicket k a
      | none => d.nak t slice cause a
    else
      let (_, st, v) := d.findLine la
      let b := if d.homeLine la then a.asWrite st v else a
      if d.homeLine la ∧ ¬ d.needsBucket la ∧ noTracker b st v then
        (match ticket with
         | some k => d.releaseTicket k
         | none => d).quickServe t b
      else
        match d.freeTracker slice 0 480 with
        | some id => d.openTracker t id a none
        | none => d.nak t slice 3 a

/-- Start the Churn's waiting work where the line and a reserved tracker are free (R214). A reclaim lets the dead slot's own accepted writes
go first (R233). -/
def Dev.startWork (t slice : Nat) (d : Dev) : Dev :=
  (d.chn.waiting.filter (fun w => w.slice = slice)).foldl (fun (d : Dev) w =>
    match d.freeTracker slice 480 32 with
    | none => d
    | some id =>
      if (d.trackerOn w.la).isSome ∨ (w.acc.kind = .reclaim ∧ d.writeOwed (w.acc.slot.getD 0) w.la) then d else
      (({ d with chn := { d.chn with waiting := d.chn.waiting.erase w } }).readWays t w.la).openTracker t id w.acc w.reply) d

/-- A ticket holder whose blocking condition has cleared is admitted (R213). -/
def Dev.ticketTurn (t slice number : Nat) (d : Dev) : Dev :=
  match d.chn.tickets.find? (fun x => x.slice = slice ∧ x.number = number) with
  | none => d
  | some k =>
    match k.waiting with
    | some a => if d.blocked slice a (some k) = 0 then
        ({ d with chn := { d.chn with tickets := d.chn.tickets.map (fun x => if x = k then { k with waiting := none } else x) } }).sliceAdmit
          t a
      else d
    | none =>
      -- admitted, and waiting for a way of its set
      match d.trackerOn k.la with
      | some tr =>
        if tr.phase = .evict ∧ tr.victim = none ∧ tr.wayFor = none ∧ tr.acc.ticket = some number then d.takeWay t tr else d
      | none => d

/-- A line's tracker closed: a tracker that waits for its way takes it, and waiting work starts. -/
def Dev.lineFree (t slice la : Nat) (d : Dev) : Dev :=
  let d := match d.chn.trackers.find? (fun x => x.slice = slice ∧ x.victim = some la ∧ x.phase = .evict) with
    | some tr =>
      (match tr.wayFor with
       | some w =>
        if (d.trackerOn la).isSome then d
        else if (Tab.get d.chn.tier1 (wayKey slice (setOf tr.la) w)).isSome then d.takeWay t { tr with wayFor := none, victim := none }
        else
          let d := match d.validTicket tr.slice tr.acc with
            | some k => d.releaseTicket k
            | none => d
          let (d, tr) := d.install t tr w
          d.serve t tr
       | none => d)
    | none => d
  d.startWork t slice

end Sys2Proof.Machine
end

