-- ==== Sys2Proof/Machine/Ladle.lean ====
section
/-! DEFINITION. The Ladles: queue pairs, descriptors, pieces and completion records (R291 to R319). -/
namespace Sys2Proof.Machine
open Sys2Proof

/-! ### Pairs and descriptors -/

/-- Pair q. -/
def Dev.pair (d : Dev) (q : Nat) : Pair := Tab.getD d.ladles.pairs q {}
/-- Replace pair q. -/
def Dev.setPair (q : Nat) (x : Pair) (d : Dev) : Dev := { d with ladles := { d.ladles with pairs := Tab.put d.ladles.pairs q x {} } }
/-- A running descriptor. -/
def Dev.run (d : Dev) (id : Nat) : Option Run := d.ladles.runs.find? (fun x => x.id = id)
/-- Replace a running descriptor. -/
def Dev.setRun (r : Run) (d : Dev) : Dev :=
  { d with ladles := { d.ladles with runs := d.ladles.runs.map (fun x => if x.id = r.id then r else x) } }

/-- Entries of a pair's rings (R293). -/
def Pair.size (q : Pair) : Nat := if q.fm then 64 else 2 ^ q.log2Size

/-- Master ID of a pair's Ladle (R39). -/
def Pair.master (q : Pair) : Nat := if q.fm then masterFmLadle q.ladle else masterLadle q.inst q.ladle

/-- A descriptor from its 512 bits (R299). -/
def Desc.ofBits (b : BitVec 512) : Desc :=
  let n := b.toNat
  { opcode := fieldOf n 0 4, fence := decide (fieldOf n 4 1 = 1), irq := decide (fieldOf n 5 1 = 1), srcSpace := fieldOf n 6 2
    dstSpace := fieldOf n 8 2, atomicOp := fieldOf n 10 3, zeroAfter := decide (fieldOf n 13 1 = 1)
    reserved := decide (fieldOf n 14 18 ≠ 0) || decide (fieldOf n 480 32 ≠ 0), length := fieldOf n 32 32, src := fieldOf n 64 64
    dst := fieldOf n 128 64, opA := fieldOf n 192 128, opB := fieldOf n 320 128, tag := fieldOf n 448 32 }

/-- Fields that R301 leaves unused are zero, and LENGTH is in its range. -/
def Desc.fieldsOk (x : Desc) : Bool :=
  !x.reserved && decide (x.srcSpace ≠ 3) && decide (x.dstSpace ≠ 3) && (decide (x.opcode = 5) || decide (x.atomicOp = 0)) &&
    (decide (x.opcode = 7) || !x.zeroAfter) &&
    (match x.opcode with
     | 1 => decide (1 ≤ x.length) && decide (x.opA = 0) && decide (x.opB = 0)
     | 2 => decide (1 ≤ x.length) && decide (x.src = 0) && decide (x.srcSpace = 0) && decide (x.opB = 0)
     | 3 => decide (1 ≤ x.length) && decide (x.opA = 0) && decide (x.opB = 0)
     | 4 => decide (1 ≤ x.length) && decide (x.dst = 0) && decide (x.dstSpace = 0) && decide (x.opA < 2 ^ 32) && decide (x.opB = 0)
     | 5 => decide (1 ≤ x.atomicOp) && decide (x.atomicOp ≤ 4) && decide (x.length = (if x.atomicOp = 4 then 16 else 8)) &&
        decide (x.src = 0) && decide (x.srcSpace = 0) && (decide (x.atomicOp = 4) || decide (x.opA < 2 ^ 64)) &&
        (if x.atomicOp ≤ 2 then decide (x.opB = 0) else decide (x.atomicOp = 4) || decide (x.opB < 2 ^ 64))
     | _ => decide (x.length = 0x10000000) && decide (x.opA = 0) && decide (x.opB = 0) && decide (x.dst % 2 ^ 28 = 0) &&
        (if x.opcode = 6 then decide (x.src = 0) && decide (x.srcSpace = 0) else decide (x.src % 2 ^ 28 = 0)))

/-- A range passes the end of its space. -/
def passesEnd (space a len : Nat) : Bool := decide (2 ^ 64 < a + len) || (decide (space = 2) && decide (2 ^ 51 < a + len))

/-- The first status of R302 that a descriptor fails with, none when it may run; `posted` marks the device's own MIGRATE and
ZERO_RELEASE. -/
def Desc.check (x : Desc) (fm posted : Bool) : Option Nat :=
  let usesSrc : Bool := x.opcode = 1 || x.opcode = 3 || x.opcode = 4 || x.opcode = 7
  let usesDst : Bool := x.opcode ≠ 4
  if x.opcode = 0 ∨ 7 < x.opcode then some 0x10
  else if (¬ fm ∧ 6 ≤ x.opcode) ∨ (x.opcode = 7 ∧ ¬ posted) ∨
      (¬ fm ∧ ((usesSrc ∧ x.srcSpace = 2) ∨ (usesDst ∧ x.dstSpace = 2))) ∨
      (fm ∧ ((usesSrc ∧ x.srcSpace < 2) ∨ (usesDst ∧ x.dstSpace < 2))) ∨ (x.opcode = 5 ∧ x.dstSpace = 1) then some 0x12
  else if ¬ x.fieldsOk then some 0x11
  else if x.opcode = 5 ∧ x.dst % x.length ≠ 0 then some 0x13
  else if (usesSrc ∧ passesEnd x.srcSpace x.src x.length) ∨ (usesDst ∧ passesEnd x.dstSpace x.dst x.length) then some 0x14
  else none

/-- STATUS of an ending (R308): status and DETAIL. -/
def Ending.status : Ending → Nat × Nat
  | .done => (0, 0xffff)
  | .decodeMiss => (0x20, 0xffff)
  | .gateDenied r => (0x21, r)
  | .targetLost => (0x23, 0xffff)
  | .absent => (0x23, 0xffff)
  | .timedOut => (0x24, 0xffff)
  | .errorResponse => (0x25, 0xffff)
  | .residue => (0x26, 0xffff)
  | .fenced => (0x27, 0xffff)

/-! ### Completion records (R309 to R312) -/

/-- A record as its 32 bytes. -/
def Completion.bytes (c : Completion) (q : Pair) : List Byte :=
  leBytes 2 q.sqHead ++ leBytes 1 c.status ++ leBytes 1 (flagBit q.phase + 8 * q.ladle) ++ leBytes 4 c.tag ++ leBytes 4 c.offset ++
    leBytes 4 c.detail ++ leBytes 16 c.result

/-- An ENABLED pair enters ERROR (R298): cause, event records to its host and to the fabric manager, vector once. Only an ENABLED pair
enters ERROR (R294): a SUSPENDED one does when it is ENABLED again (DEDUCED, log entry 177). -/
def Dev.pairError (t q cause : Nat) (d : Dev) : Dev :=
  let x := d.pair q
  if x.fm then d
  else if x.state = 3 then d.setPair q { x with heldError := if x.heldError = 0 then cause else x.heldError, granted := false }
  else if x.state ≠ 2 then d
  else
    let d := d.setPair q { x with state := 4, errorCause := cause, granted := false }
    let d := (d.inc LadleR.QUEUE_ERRORS).post t 6 (q + 2 ^ 16 * cause)
    let d := match d.hostPortOf x.inst with
      | some p => if d.linkUp p then d.emit (.host p (.queueError q cause)) else d
      | none => d
    d.irqEvent t x.inst x.vector true

/-- Post a Ladle's write toward host memory and note it for its pair's FENCEs. -/
def Dev.ladlePost (t q epoch addr : Nat) (bs : List Byte) (ep : Bool) (d : Dev) : Dev :=
  let x := d.pair q
  (lineParts addr bs (bs.length + 1)).foldl (fun (d : Dev) y =>
    let id := d.buf.nextId
    let d := d.postHost t x.inst x.master epoch (.host y.1 y.2 ep)
    let z := d.pair q
    if id < d.buf.nextId then d.setPair q { z with openWrites := z.openWrites ++ [id] } else d) d

/-- Write one record of a pair into its ring, or keep it for LADLE_SUBMIT (R293, R311, R312). -/
def Dev.writeRecord (t q : Nat) (c : Completion) (irq : Bool) (order : Nat) (d : Dev) : Dev :=
  let x := d.pair q
  let bad := decide (2 ≤ c.status)
  let d := (d.inc (LadleR.DESCRIPTORS_DONE x.ladle))
  let d := if bad then (d.inc (LadleR.ERROR_COMPLETIONS x.ladle)).mon t (48 + x.ladle / 8) 0x306 x.master 0 else d
  let tail := (x.cqTail + 1) % x.size
  let y := { x with cqTail := tail, cqUsed := x.cqUsed + 1, phase := if tail = 0 then !x.phase else x.phase }
  if x.fm then
    let subs := d.ladles.submits.map (fun s =>
      if s.pair = q ∧ s.orders.contains order then
        { s with orders := s.orders.filter (fun o => o ≠ order), records := Tab.set s.records order c }
      else s)
    let d := d.setPair q { y with cqUsed := 0, cqHead := tail }
    { d with ladles := { d.ladles with submits := subs } }
  else
    let (d, ok) := d.gateHost t x.inst x.master (x.cqBase + 32 * x.cqTail) 8 true
    if ¬ ok then d.pairError t q 5
    else
      let d := (d.setPair q y).ladlePost t q (d.rd GateR.RULE_EPOCH) (x.cqBase + 32 * x.cqTail) (c.bytes x) false
      let z := d.pair q
      let d := d.setPair q { z with recordWrites := z.recordWrites ++ z.openWrites.filter (fun i => ¬ x.openWrites.contains i) }
      if irq ∨ bad then d.irqEvent t x.inst x.vector bad else d

/-- Records waiting for room are written as the CQ allows (R311). -/
def Dev.flushRecords : Nat → Nat → Nat → Dev → Dev
  | 0, _, _, d => d
  | n + 1, t, q, d =>
    let x := d.pair q
    match x.ready with
    | [] => d
    | (order, c, irq) :: rest =>
      if x.size ≤ x.cqUsed then d
      else Dev.flushRecords n t q ((d.setPair q { x with ready := rest }).writeRecord t q c irq order)

/-- A pair being disabled is DISABLED once nothing of it is fetched, running or unrecorded (R296). A SUSPENDED pair is left for ENABLED
or by an instance reset first (R294; DEDUCED, log entry 177). -/
def Dev.pairIdle (t q : Nat) (d : Dev) : Dev :=
  let x := d.pair q
  if x.disabling ∧ x.state ≠ 3 ∧ x.fetched = [] ∧ x.fetching = none ∧ x.ready = [] ∧ ¬ d.ladles.runs.any (fun r => r.pair = q) then
    (d.setPair q { x with state := 1, disabling := false, doorbells := [], heldError := 0 }).finish t (· = .queueDisable q) .ok []
  else d

/-- A finished LADLE_SUBMIT replies with its records (R293). -/
def Dev.submitsDone (t : Nat) (d : Dev) : Dev :=
  let ready := d.ladles.submits.filter (fun s => s.orders = [])
  let d := { d with ladles := { d.ladles with submits := d.ladles.submits.filter (fun s => s.orders ≠ []) } }
  ready.foldl (fun (d : Dev) s =>
    d.finish t (· = .fan s.id) .ok ((s.records.map (fun x => x.2.bytes (d.pair s.pair))).flatten)) d

/-- A descriptor completes. -/
def Dev.complete (t q order : Nat) (c : Completion) (irq : Bool) (d : Dev) : Dev :=
  let x := d.pair q
  ((((d.setPair q { x with ready := x.ready ++ [(order, c, irq)] }).flushRecords 64 t q).submitsDone t).pairIdle t q)

/-! ### Pieces (R306 to R308) -/

/-- The line parts of a range: address, offset in the piece, bytes. -/
def rangeParts : Nat → Nat → Nat → Nat → List (Nat × Nat × Nat)
  | 0, _, _, _ => []
  | f + 1, a, len, off =>
    if len = 0 then [] else
    let n := min len (64 - a % 64)
    (a, off, n) :: rangeParts f (a + n) (len - n) (off + n)

/-- Bytes `off` to `off + n − 1` of a line. -/
def lineBytes (x : Line) (off n : Nat) : List Byte := ((leBytes 64 x.toNat).drop off).take n

/-- A line with bytes placed at `off`. -/
def bytesLine (off : Nat) (bs : List Byte) : Line := BitVec.ofNat 512 (leNat bs * 2 ^ (8 * off))

/-- The bytes read for a piece's side, in order. -/
def partsBytes (t : Tab (List Byte)) : List Byte := (t.map (·.2)).flatten

/-- Pieces in flight on a Ladle. -/
def Dev.piecesOn (d : Dev) (l : Nat) : Nat := ((d.ladles.runs.filter (fun r => r.ladle = l)).map (fun r => r.pieces.length)).foldl (· + ·) 0

/-- Length of the next piece: to the next 4 KiB boundary of either side (R306). -/
def Run.nextLen (r : Run) : Nat :=
  let x := r.desc
  let rest := x.length - r.next
  let s := if x.opcode = 2 ∨ x.opcode = 5 ∨ x.opcode = 6 then rest else 4096 - (x.src + r.next) % 4096
  let e := if x.opcode = 4 ∨ x.opcode = 5 then rest else 4096 - (x.dst + r.next) % 4096
  min rest (min s e)

/-- Stages 2 and 3 for one side of a piece (R306): the fabric or host address, or the ending. -/
def Dev.pieceSide (t : Nat) (q : Pair) (space addr need access : Nat) (d : Dev) : Dev × Option Ending × Nat :=
  if space = 1 then
    match d.gateCheck t { space := 1, vi := q.inst, master := q.master, addr } need access with
    | (d, some r) => (d, some (.gateDenied r), 0)
    | (d, none) => (d, none, addr)
  else
    let (d, fa) : Dev × Option Nat :=
      if space = 2 then (d, some addr)
      else
        match d.stage2 t q.inst access q.master addr true with
        | (d, none) => (d, none)
        | (d, some (f, _)) => (d, some f)
    match fa with
    | none => (d, some .decodeMiss, 0)
    | some f =>
      match d.gateCheck t { space := 0, vi := 0, master := q.master, addr := f } need access with
      | (d, some r) => (d, some (.gateDenied r), 0)
      | (d, none) => (d, none, f)

/-- Replace a piece of a run. -/
def Run.setPiece (r : Run) (p : Piece) : Run := { r with pieces := r.pieces.map (fun x => if x.index = p.index then p else x) }

/-- A line access of a Ladle. One in pooled space keeps its host physical address, by which a retry is decoded again (R306). -/
def Dev.ladleAccess (t : Nat) (r : Run) (p : Piece) (side line fa : Nat) (kind : Kind) (be : Enables) (data : Line) (poison : Bool)
    (atom : Option AtomArgs) (d : Dev) : Dev :=
  let (id, d) := d.newId
  let q := d.pair r.pair
  let (space, base, start) := if side = 0 ∧ kind ≠ .atomic then (r.desc.srcSpace, r.desc.src, p.src) else (r.desc.dstSpace, r.desc.dst, p.dst)
  let hpa := if space = 0 then some (q.inst, base + p.offset + (fa - start)) else none
  d.later (.route {
    id, kind, origin := .ladle r.id p.index side line, master := q.master, hpa, fa, be, data, poison, atom, time := t
    ruleEpoch := p.ruleEpoch })

/-- A read of host memory as it leaves: it carries the port's incarnation (R179). -/
def Dev.hostRead (d : Dev) (tag p : Nat) (origin : Origin) : HostRead :=
  { tag, port := p, origin, incarnation := d.rd (Pg.INCARNATION p) }

/-- Read one side of a piece: its lines, or one host memory read. -/
def Dev.readSide (t : Nat) (r : Run) (p : Piece) (side space addr : Nat) (d : Dev) : Dev :=
  if space = 1 then
    let tag := d.ladles.nextTag
    let q := d.pair r.pair
    let d := { d with ladles := { d.ladles with
      nextTag := tag + 1, hostReads := d.ladles.hostReads ++ [d.hostRead tag ((d.hostPortOf q.inst).getD 64) (.ladle r.id p.index side 0)] } }
    match d.hostPortOf q.inst with
    | some hp => if d.linkUp hp then d.emit (.host hp (.read tag addr p.len)) else d.later (.hostData tag false false [])
    | none => d.later (.hostData tag false false [])
  else
    (rangeParts 65 addr p.len 0).zipIdx.foldl (fun (d : Dev) x =>
      d.ladleAccess t r p side x.2 x.1.1 .rdNc (BitVec.allOnes 64) 0 false none) d

/-- Line parts of a side. -/
def sideParts (space addr len : Nat) : Nat := if space = 1 then 1 else (rangeParts 65 addr len 0).length

/-- Write the bytes of a piece to its destination. -/
def Dev.writeSide (t : Nat) (r : Run) (p : Piece) (bs : List Byte) (bad : Nat → Nat → Bool) (d : Dev) : Dev :=
  let x := r.desc
  let parts := rangeParts 65 p.dst p.len 0
  if x.dstSpace = 1 then
    parts.foldl (fun (d : Dev) y => d.ladlePost t r.pair p.ruleEpoch y.1 ((bs.drop y.2.1).take y.2.2) (bad y.2.1 y.2.2)) d
  else
    let d := d.setRun (r.setPiece { p with writes := parts.length })
    parts.zipIdx.foldl (fun (d : Dev) z =>
      let (a, off, n) := z.1
      d.ladleAccess t r p 1 z.2 a .wrNc (enablesAt (a % 64) n) (bytesLine (a % 64) ((bs.drop off).take n)) (bad off n) none) d

/-- The bytes of a FILL or ZERO_RELEASE piece. -/
def Run.fillBytes (r : Run) (p : Piece) : List Byte :=
  if r.desc.opcode = 6 then zeros p.len
  else (List.range p.len).map (fun i => BitVec.ofNat 8 (r.desc.opA / 2 ^ (8 * ((p.offset + i) % 16))))

/-- Issue one piece of a descriptor: both checks, then its reads or its writes (R306, R307). -/
def Dev.issuePiece (t : Nat) (r : Run) (d : Dev) : Dev :=
  let x := r.desc
  let q := d.pair r.pair
  let len := r.nextLen
  let p : Piece := { index := r.issued, offset := r.next, len, ruleEpoch := d.rd GateR.RULE_EPOCH }
  let r := { r with next := r.next + len, issued := r.issued + 1 }
  let d := d.mon t (48 + q.ladle / 8) 0x302 q.master 0
  let reads : Bool := x.opcode = 1 || x.opcode = 3 || x.opcode = 4 || x.opcode = 7
  let (d, e1, src) := if reads then d.pieceSide t q x.srcSpace (x.src + p.offset) 1 7 else (d, none, 0)
  let (d, e2, dst) :=
    if x.opcode = 4 ∨ e1.isSome then (d, none, 0)
    else if x.opcode = 3 then d.pieceSide t q x.dstSpace (x.dst + p.offset) 1 7
    else if x.opcode = 5 then d.pieceSide t q x.dstSpace x.dst 4 9
    else d.pieceSide t q x.dstSpace (x.dst + p.offset) 2 8
  match e1.or e2 with
  | some e => d.setRun { r with pieces := r.pieces ++ [{ p with fail := some e.status, turned := true }], stopped := true }
  | none =>
    let p := { p with src, dst }
    let add (p : Piece) (d : Dev) : Dev := d.setRun { r with pieces := r.pieces ++ [p] }
    match x.opcode with
    | 2 => (add { p with turned := true } d).writeSide t { r with pieces := r.pieces ++ [{ p with turned := true }] } { p with turned := true }
        (r.fillBytes p) (fun _ _ => false)
    | 6 => (add { p with turned := true } d).writeSide t { r with pieces := r.pieces ++ [{ p with turned := true }] } { p with turned := true }
        (r.fillBytes p) (fun _ _ => false)
    | 5 =>
      let p := { p with reads := 1 }
      (add p d).ladleAccess t r p 0 0 dst .atomic (BitVec.allOnes 64) 0 false (some { op := x.atomicOp, a := x.opA, b := x.opB })
    | 3 =>
      let p := { p with reads := sideParts x.srcSpace src len + sideParts x.dstSpace dst len }
      ((add p d).readSide t r p 0 x.srcSpace src).readSide t r p 1 x.dstSpace dst
    | _ =>
      let p := { p with reads := sideParts x.srcSpace src len }
      (add p d).readSide t r p 0 x.srcSpace src

/-- Issue pieces while the descriptor may and the Ladle has room for them; MIGRATE runs one piece at a time (R185). -/
def Dev.issuePieces : Nat → Nat → Nat → Dev → Dev
  | 0, _, _, d => d
  | n + 1, t, id, d =>
    match d.run id with
    | none => d
    | some r =>
      let above : Bool := match r.mismatch with
        | some m => decide (m < r.next)
        | none => false
      if d.stopped || r.stopped || decide (r.desc.length ≤ r.next) || above || decide (32 ≤ d.piecesOn r.ladle) ||
          (decide (r.desc.opcode = 7) && decide (r.pieces ≠ [])) then d
      else Dev.issuePieces n t id (d.issuePiece t r)

/-- The lowest difference of two byte strings. -/
def firstDiff : List Byte → List Byte → Nat → Option Nat
  | a :: l, b :: m, i => if a = b then firstDiff l m (i + 1) else some i
  | _, _, _ => none

/-- Every read of a piece is in: COPY and MIGRATE write, COMPARE compares, CRC32C keeps the bytes for their turn. -/
def Dev.turnPiece (t : Nat) (r : Run) (p : Piece) (d : Dev) : Dev :=
  let x := r.desc
  let p := { p with turned := true }
  let p := if p.poisoned ≠ [] ∧ p.fail.isNone then { p with fail := some (0x22, 0xffff) } else p
  let stop : Bool := (p.fail.map (fun f => decide (f.1 ≠ 0x22) || !(x.opcode = 1 || x.opcode = 7))).getD false
  let r := { r with stopped := r.stopped || stop }
  let srcParts := rangeParts 65 p.src p.len 0
  let bad (off n : Nat) : Bool := p.poisoned.any (fun i =>
    let y := srcParts.getD i (0, 0, p.len)
    decide (y.2.1 < off + n) && decide (off < y.2.1 + y.2.2))
  if stop then d.setRun (r.setPiece p)
  else
    match x.opcode with
    | 1 =>
      let r := r.setPiece p
      (d.setRun r).writeSide t r p (partsBytes p.data) bad
    | 7 =>
      let p := { p with fail := none }
      let r := r.setPiece p
      let e := faExtent x.dst
      let d := (d.setRun r)
      if (d.ext e).poisonCapable then d.writeSide t r p (partsBytes p.data) bad
      else
        -- R188: poison toward a backing without it is recorded as LOST of the source extent
        let d := p.poisoned.foldl (fun (d : Dev) i =>
          let la := lineAddr (srcParts.getD i (0, 0, 0)).1
          let (pl, st, _) := d.findLine la
          if st = 4 then d else d.makeLost t la pl 4 (d.pair r.pair).master) d
        d.writeSide t r p (partsBytes p.data) (fun _ _ => false)
    | 3 =>
      let m := (firstDiff (partsBytes p.data) (partsBytes p.data2) 0).map (· + p.offset)
      let r := match m, r.mismatch with
        | some a, some b => { r with mismatch := some (min a b) }
        | some a, none => { r with mismatch := some a }
        | none, y => { r with mismatch := y }
      d.setRun (r.setPiece p)
    | 4 => d.setRun ({ r with crcHold := Tab.set r.crcHold p.offset (partsBytes p.data) }.setPiece p)
    | _ => d.setRun (r.setPiece p)

/-- A line of a piece has ended. -/
def Dev.ladleAnswer (t run piece side line : Nat) (a : Access) (res : Answer) (d : Dev) : Dev :=
  match d.run run with
  | none => d
  | some r =>
    match r.pieces.find? (fun p => p.index = piece) with
    | none => d
    | some p =>
      let failed := decide (res.ending ≠ .done)
      let p := if failed ∧ p.fail.isNone then { p with fail := some res.ending.status } else p
      if a.kind = .wrNc then
        let p := { p with writes := p.writes - 1 }
        let d := d.mon t (48 + r.ladle / 8) 0x304 a.master a.fa
        d.setRun { r.setPiece p with stopped := r.stopped || failed }
      else if a.kind = .atomic then
        let p := { p with reads := 0, turned := true, result := if res.poison then 0 else res.data.toNat % 2 ^ 128 }
        let p := if res.poison ∧ p.fail.isNone then { p with fail := some (0x22, 0xffff) } else p
        d.setRun (r.setPiece p)
      else
        let addr := if side = 0 then p.src else p.dst
        let y := (rangeParts 65 addr p.len 0).getD line (0, 0, 0)
        let bs := lineBytes res.data (y.1 % 64) y.2.2
        let p := { p with reads := p.reads - 1, poisoned := if res.poison ∧ side = 0 then p.poisoned ++ [line] else p.poisoned }
        let p := if res.poison ∧ side = 1 ∧ p.fail.isNone then { p with fail := some (0x22, 0xffff) } else p
        let p := if side = 0 then { p with data := Tab.set p.data line bs } else { p with data2 := Tab.set p.data2 line bs }
        let d := d.mon t (48 + r.ladle / 8) 0x303 a.master a.fa
        let r := r.setPiece p
        let d := d.setRun r
        if p.reads = 0 then d.turnPiece t r p else d

/-- A host memory read of a Ladle has ended: its bytes, poison, or an error completion (R308). -/
def Dev.ladleHostData (t run piece side : Nat) (ok poison : Bool) (bs : List Byte) (d : Dev) : Dev :=
  match d.run run with
  | none => d
  | some r =>
    match r.pieces.find? (fun p => p.index = piece) with
    | none => d
    | some p =>
      let p := if ¬ ok ∧ p.fail.isNone then { p with fail := some (0x25, 0xffff) } else p
      let p := if ok ∧ poison then
          (if side = 0 then { p with poisoned := p.poisoned ++ [0] }
           else if p.fail.isNone then { p with fail := some (0x22, 0xffff) } else p)
        else p
      let p := { p with reads := p.reads - 1 }
      let p := if side = 0 then { p with data := Tab.set p.data 0 bs } else { p with data2 := Tab.set p.data2 0 bs }
      let r := r.setPiece p
      let d := d.setRun r
      if p.reads = 0 then d.turnPiece t r p else d

/-- A piece has ended. -/
def Piece.over (p : Piece) : Bool := p.turned && decide (p.reads = 0) && decide (p.writes = 0)

/-- The CRC register takes the bytes that have become next in order. -/
def Run.takeCrc : Nat → Run → Run
  | 0, r => r
  | n + 1, r =>
    match Tab.get r.crcHold r.crcAt with
    | none => r
    | some bs => Run.takeCrc n { r with
        crc := (crc32cFrom (BitVec.ofNat 32 r.crc) bs).toNat, crcAt := r.crcAt + bs.length, crcHold := Tab.erase r.crcHold r.crcAt }

/-- The completion of a run whose pieces are all over. -/
def Run.completion (r : Run) : Completion :=
  let x := r.desc
  match r.fail with
  | some (off, st, detail) => { status := st, offset := off, detail, tag := x.tag }
  | none =>
    match x.opcode, r.mismatch with
    | 3, some m => { status := 1, offset := m, tag := x.tag }
    | 4, _ => { status := 0, tag := x.tag, result := Nat.xor r.crc 0xffffffff }
    | _, _ => { status := 0, tag := x.tag, result := r.result }

/-- No piece remains to be issued. -/
def Run.exhausted (r : Run) : Bool :=
  r.stopped || decide (r.desc.length ≤ r.next) || (match r.mismatch with
    | some m => decide (m < r.next)
    | none => false)

/-- A piece that is over leaves: its failure counts by lowest offset, and pieces may follow (R308). -/
def Dev.retirePiece (t : Nat) (r : Run) (p : Piece) (d : Dev) : Dev :=
  let fail : Option (Nat × Nat × Nat) := match p.fail, r.fail with
    | some (st, dt), some (o, st', dt') => if p.offset < o then some (p.offset, st, dt) else some (o, st', dt')
    | some (st, dt), none => some (p.offset, st, dt)
    | none, f => f
  let r := { r with
    pieces := r.pieces.filter (fun x => x.index ≠ p.index), fail, result := if r.desc.opcode = 5 then p.result else r.result }
  let r := r.takeCrc 40
  let d := ((d.setRun r).inc (LadleR.PIECES_DONE r.ladle)).issuePieces 33 t r.id
  (d.ladles.runs.filter (fun x => x.ladle = r.ladle ∧ x.id ≠ r.id)).foldl (fun (d : Dev) x => d.issuePieces 33 t x.id) d

/-! ### Starting descriptors (R276, R277, R311, R316) -/

/-- Descriptor places of a Ladle in use: descriptors in progress, and places kept for a pair whose ring is being read (R316). -/
def Dev.placesUsed (d : Dev) (l : Nat) : Nat :=
  (d.ladles.runs.filter (fun r => r.ladle = l)).length + (d.ladles.pairs.filter (fun x => x.2.ladle = l ∧ x.2.granted)).length

/-- The oldest fetched descriptor of a pair may start: the Ladle runs and has a place, the CQ has room, and a FENCE finds everything
earlier done. -/
def Dev.mayStart (d : Dev) (q : Nat) : Bool :=
  let x := d.pair q
  match x.fetched with
  | [] => false
  | (_, y, _) :: _ =>
    decide (4 ≤ d.mode) && decide (d.mode ≤ 10) && (x.granted || decide (d.placesUsed x.ladle < 8)) &&
      !d.flag (LadleR.GATED x.ladle) && decide (x.cqUsed + x.ready.length < x.size) && !d.stopped &&
      (!y.fence || (decide (x.openWrites = []) && decide (x.ready = []) && !d.ladles.runs.any (fun r => r.pair = q)))

/-- Pending descriptors of a pair: in its ring and not fetched. -/
def Pair.pending (q : Pair) : Nat := if q.fm then 0 else (q.sqTail + q.size - q.sqHead % (max 1 q.size)) % (max 1 q.size)

/-- The device runs its Ladles and acts on doorbells (R32). -/
def Dev.ladlesRun (d : Dev) : Bool := decide (4 ≤ d.mode) && decide (d.mode ≤ 9)

/-- A pair may fetch: ENABLED, something pending, nothing fetched or being fetched, room in its CQ. -/
def Dev.mayFetch (d : Dev) (q : Nat) : Bool :=
  let x := d.pair q
  d.ladlesRun && decide (x.state = 2) && !x.fm && !x.disabling && decide (x.fetching = none) && decide (x.fetched = []) &&
    decide (0 < x.pending) && decide (x.cqUsed + x.ready.length < x.size)

/-- LADLE_WEIGHT of an instance. -/
def Dev.ladleWeight (d : Dev) (vi : Nat) : Nat := (d.instOf vi).ladleWeight

/-- The next of some pairs after the one served last, in rising order. -/
def nextPair (last : Nat) (qs : List Nat) : Option Nat := (qs.filter (fun q => last < q)).head?.or qs.head?

/-- The pair that a free descriptor place of a Ladle goes to, with the credits after that grant (R316, R340): fabric-manager pairs first,
then an instance by its Ladle share, and its next ready pair in turn. -/
def Dev.ladleTurn (d : Dev) (l : Nat) : Option (Nat × Tab Int) :=
  let ready := d.ladles.pairs.filter (fun x => decide (x.2.ladle = l) && (d.mayStart x.1 || d.mayFetch x.1))
  let last (c : Nat) : Nat := Tab.getD d.ladles.lastPair (128 * l + c) 8192
  let credit := Tab.getD d.ladles.credit l []
  match nextPair (last 64) ((ready.filter (fun x => x.2.fm)).map (·.1)) with
  | some q => some (q, credit)
  | none =>
    let ws := (List.range 64).filter (fun vi => ready.any (fun x => x.2.inst = vi))
    match grantCredits credit ws d.ladleWeight with
    | none => none
    | some (vi, credit) => (nextPair (last vi) ((ready.filter (fun x => x.2.inst = vi)).map (·.1))).map (fun q => (q, credit))

/-- The Ladle of a pair has granted it a place. -/
def Dev.takeTurn (q : Nat) (credit : Tab Int) (d : Dev) : Dev :=
  let x := d.pair q
  { d with ladles := { d.ladles with
    credit := Tab.put d.ladles.credit x.ladle credit []
    lastPair := Tab.set d.ladles.lastPair (128 * x.ladle + (if x.fm then 64 else x.inst)) q } }

/-- Start the oldest fetched descriptor: it completes at once when a check fails (R302) or its FENCE covers a discarded write
(R277), and issues its first pieces otherwise. -/
def Dev.startHead (t q : Nat) (d : Dev) : Dev :=
  let x := d.pair q
  match x.fetched with
  | [] => d
  | (order, y, purpose) :: rest =>
    let d := d.setPair q { x with fetched := rest, lostWrite := if y.fence then false else x.lostWrite, granted := false }
    let d := d.mon t (48 + x.ladle / 8) 0x301 x.master 0
    let stop (st : Nat) (d : Dev) : Dev :=
      (d.complete t q order { status := st, tag := y.tag } y.irq).later (.descDone y.opcode purpose st y.src y.dst)
    if y.fence ∧ x.lostWrite then stop 0x23 d
    else
      match y.check x.fm (decide (purpose ≠ 0)) with
      | some st => stop st d
      | none =>
        if y.opcode = 6 ∧ ((d.ext (faExtent y.dst)).state ≠ 7 ∨ ¬ d.isHome y.dst) then stop 0x12 d
        else
          let id := d.ladles.nextRun
          let crc := Nat.xor (y.opA % 2 ^ 32) 0xffffffff
          let r : Run := { id, pair := q, ladle := x.ladle, desc := y, order, crc, purpose }
          ({ d with ladles := { d.ladles with runs := d.ladles.runs ++ [r], nextRun := id + 1 } }).issuePieces 33 t id

/-- Start the head of a pair where it may and the place is the pair's: kept since its ring read, or granted now (R316). -/
def Dev.startTurn (t q : Nat) (d : Dev) : Dev :=
  if ¬ d.mayStart q then d
  else if (d.pair q).granted then d.startHead t q
  else match d.ladleTurn (d.pair q).ladle with
    | some (w, credit) => if w = q then (d.takeTurn q credit).startHead t q else d
    | none => d

/-- Start the head of a pair when it is a descriptor of the opcode and the turn is the pair's. -/
def Dev.startOpcode (t q op : Nat) (d : Dev) : Dev :=
  match (d.pair q).fetched with
  | (_, y, _) :: _ => if y.opcode = op then d.startTurn t q else d
  | [] => d

/-- Descriptors with an invalid OPCODE at the head of a pair complete in their turn. -/
def Dev.rejectHeads : Nat → Nat → Nat → Dev → Dev
  | 0, _, _, d => d
  | n + 1, t, q, d =>
    match (d.pair q).fetched with
    | (_, y, _) :: _ => if y.opcode = 0 ∨ 7 < y.opcode then Dev.rejectHeads n t q (d.startTurn t q) else d
    | [] => d

/-- Add descriptors to those fetched: SQ_HEAD passes them, and with it the SQ_TAIL of a ring inside the QX964. -/
def Pair.take (x : Pair) (ds : List Desc) (purpose : Nat) : Pair :=
  { x with
    fetched := x.fetched ++ ds.zipIdx.map (fun y => (x.nextOrder + y.2, y.1, purpose)), nextOrder := x.nextOrder + ds.length
    sqHead := (x.sqHead + ds.length) % (max 1 x.size), sqTail := if x.fm then (x.sqTail + ds.length) % x.size else x.sqTail }

/-- Entries of a fabric-manager ring in use: fetched and running descriptors. -/
def Dev.ringUsed (d : Dev) (q : Nat) : Nat := (d.pair q).fetched.length + (d.ladles.runs.filter (fun r => r.pair = q)).length

/-- Entries kept free for running migrations (R305). -/
def Dev.ringKept (d : Dev) (q : Nat) : Nat := (d.binder.migrations.filter (fun x => x.2.queue = q)).length

/-- The pair is an ENABLED fabric-manager pair. -/
def Dev.fmPair (d : Dev) (q : Nat) : Bool := decide (q < 8192) && (d.pair q).fm && decide ((d.pair q).state = 2)

/-- Post a descriptor of the device's own on a fabric-manager pair; `purpose` 1 ZERO_RELEASE, 2 MIGRATE. -/
def Dev.postDesc (q : Nat) (x : Desc) (purpose : Nat) (d : Dev) : Dev := d.setPair q ((d.pair q).take [x] purpose)

/-- The ZERO_RELEASE of an extent. -/
def Dev.zeroDesc (d : Dev) (e : Nat) : Desc := {
  opcode := 6, dstSpace := 2, length := 0x10000000, dst := faOf d.homeAddr e 0 }

/-- Waiting ZERO_RELEASEs are posted on ZERO_QUEUE as its ring has room; without an enabled fabric-manager pair the extent becomes
FREE_UNCLEAN (R305). -/
def Dev.postZeros : Nat → Nat → Dev → Dev
  | 0, _, d => d
  | n + 1, t, d =>
    match d.binder.zeroWait with
    | [] => d
    | e :: rest =>
      let q := d.rd LadleR.ZERO_QUEUE
      let d' := { d with binder := { d.binder with zeroWait := rest } }
      if ¬ d.fmPair q then
        Dev.postZeros n t ((d'.modExt e (fun x => { x with state := 2 })).post t 9 (d.homeAddr * 2 ^ 18 + e + 2 ^ 32 * 0xff))
      else if 64 ≤ d.ringUsed q + d.ringKept q then d
      else Dev.postZeros n t (d'.postDesc q (d.zeroDesc e) 1)

/-! ### Stopping (R313 to R315) -/

/-- Stop every descriptor of an instance at its piece boundary without a record; its pairs become DISABLED (R314). The answer lists
the pairs that had descriptors in progress. -/
def Dev.abortPairs (vi : Nat) (d : Dev) : Dev × List Nat :=
  let mine := d.ladles.pairs.filter (fun x => decide (x.2.state ≠ 0) && !x.2.fm && decide (x.2.inst = vi))
  let busy := (mine.filter (fun x => d.ladles.runs.any (fun r => r.pair = x.1 ∧ ¬ r.silent))).map (·.1)
  let runs := d.ladles.runs.map (fun r => if mine.any (fun x => x.1 = r.pair) then { r with stopped := true, silent := true } else r)
  let d := { d with ladles := { d.ladles with runs } }
  (mine.foldl (fun (d : Dev) x =>
    d.setPair x.1 { x.2 with
      state := if x.2.state = 4 then 4 else 1, fetched := [], fetching := none, ready := [], doorbells := [], granted := false
      heldError := 0 }) d, busy)

/-- SUSPEND an instance's ENABLED pairs (R313). -/
def Dev.suspendPairs (vi : Nat) (d : Dev) : Dev :=
  { d with ladles := { d.ladles with pairs := d.ladles.pairs.map (fun x =>
    if x.2.state = 2 ∧ ¬ x.2.fm ∧ x.2.inst = vi then (x.1, { x.2 with state := 3 }) else x) } }

end Sys2Proof.Machine
end

