-- ==== Sys2Proof/Machine/Reclaim.lean ====
section
/-! DEFINITION. Agents that die: reclaim of sharer slots and of removed device ports, the death of a peer, loss of directory state
and its sweep (R201, R231 to R240). -/
namespace Sys2Proof.Machine
open Sys2Proof

/-! ### Reclaim of a sharer slot (R232 to R237) -/

/-- RECLAIM of a slot on a line whose entry records it, as the Churn's own work: it waits for the line and for a reserved tracker (R234,
R235). -/
def Dev.reclaimLine (t s la : Nat) (d : Dev) : Dev :=
  let queued := d.chn.waiting.any (fun w => decide (w.la = la) && decide (w.acc.kind = .reclaim) && decide (w.acc.slot = some s)) ||
    d.chn.trackers.any (fun tr => decide (tr.la = la) && decide (tr.acc.kind = .reclaim) && decide (tr.acc.slot = some s))
  if fieldOf (d.findLine la).2.2 s 1 = 0 ∨ queued then d else
  let (id, d) := d.newId
  let a : Access := {
    id, kind := .reclaim, origin := .churn 0, master := masterChurn (sliceOf la) 1, fa := laFa la, slot := some s, time := t }
  (d.churnWork { slice := sliceOf la, acc := a, la }).later (.lineFree (sliceOf la) la)

/-- Lines whose entry records a slot. -/
def Dev.linesOf (d : Dev) (s : Nat) : List Nat :=
  ((d.chn.tier1 ++ d.chn.image ++ d.chn.tier2).filter (fun x => fieldOf x.2.sharers s 1 = 1)).map (fun x => x.2.la)

/-- A tracker waits for the response of a slot that died: it applies RECLAIM and goes on from the state that results (R232, R233, R237).
Data the slot gave before its death stands. `cause` is that of the record: 1 a reclaim, 2 a PLOST. A proxy whose only owner died tells its home before anything else; the home takes a PLOST
as the answer to a recall it waits for (log entry 81). -/
def Dev.deadAnswer (t cause s : Nat) (tr : Tracker) (d : Dev) : Dev :=
  if tr.dirty then d.snoopAnswered t tr s 0
  else if tr.state = 1 ∨ (tr.proxy ∧ 1 < (slotsIn tr.sharers).length) then
    d.snoopAnswered t { tr with sharers := dropSlot tr.sharers s } s 0
  else if tr.proxy then
    let tr := { tr with state := 0, sharers := 0, snooped := [], plan := [(10, 0)] }
    (d.setTracker tr).go t tr
  else
    let d := d.makeLost t tr.la tr.place cause (d.slotMaster s)
    let (p, st, v) := d.findLine tr.la
    (if cause = 1 then d.countReclaim s 0 1 else d.inc ChurnR.PLOST_RECEIVED).snoopAnswered t { tr with state := st, sharers := v, place := if st = 0 then tr.place else p } s 0

/-- The scan of tier 1 and tier 2 for every slot it covers (R234, R235). -/
def Dev.startScan (t : Nat) (d : Dev) : Dev :=
  let d := d.scanWays t
  (d.chn.reclaims.filter (·.scanned)).foldl (fun (d : Dev) r => (d.linesOf r.slot).foldl (fun (d : Dev) la => d.reclaimLine t r.slot la) d) d

/-- A slot enters DEAD_SLOTS (R232): its host's snoops and their responses are gone, and trackers that wait on it go on. -/
def Dev.enterDead (t s : Nat) (d : Dev) : Dev :=
  let x := d.sharer s
  let away (p : Nat) : Bool := decide (x.kind = 0) && decide (p = x.port)
  let d := d.markDead s true
  let trackers := d.chn.trackers.map (fun (tr : Tracker) => { tr with conflict := tr.conflict.filter (fun y => !away y.1) })
  let d : Dev := { d with
    chn := { d.chn with trackers }
    edge := { d.edge with
      snoops := d.edge.snoops.filter (fun y => !away y.port), answers := d.edge.answers.filter (fun y => !away y.snoop.port) } }
  (d.chn.trackers.filter (fun tr => tr.snooped.contains s)).foldl (fun (d : Dev) (tr : Tracker) =>
    match d.tracker tr.slice tr.id with
    | some y => if y.snooped.contains s then d.deadAnswer t 1 s y else d
    | none => d) d

/-- Slots die: they enter DEAD_SLOTS, and one scan covers them all, at once or, while a scan runs, after it (R234, R235). -/
def Dev.slotsDead (t : Nat) (ss : List Nat) (d : Dev) : Dev :=
  let ss := ss.filter (fun s => !d.isDead s)
  if ss = [] then d else
  let now := !d.chn.reclaims.any (·.scanned)
  let d := { d.raise1 ChurnR.RECLAIM_SCAN with
    chn := { d.chn with reclaims := d.chn.reclaims ++ ss.map (fun s => { slot := s, scanned := now }) } }
  let d := ss.foldl (fun (d : Dev) s => d.enterDead t s) d
  if now then d.startScan t else d

/-- A slot dies. -/
def Dev.slotDead (t s : Nat) (d : Dev) : Dev := d.slotsDead t [s]

/-- Slots that the running scan covers look at a line again once its tracker has closed. -/
def Dev.reclaimAgain (t la : Nat) (d : Dev) : Dev :=
  (d.chn.reclaims.filter (·.scanned)).foldl (fun (d : Dev) r => d.reclaimLine t r.slot la) d

/-- Poison and zero writes of LOST lines not yet accepted (R234). -/
def Dev.poisonPending (d : Dev) : Bool :=
  let mine (a : Access) : Bool := decide (a.master / 4096 = 3) && decide (a.master % 64 = 2)
  d.agents.queue.any (fun r => r.write && mine r.acc) || d.binder.migrations.any (fun x => x.2.heldWrites.any (fun y => mine y.1))

/-- The reclaim of a removed CXL port is over; a PORT_CONTROL that waited for it replies (R23). -/
def Dev.portReclaimed (t p : Nat) (d : Dev) : Dev := (d.wrFlag (Pg.RECLAIM_BUSY p) false).finish t (· = .portControl p) .ok []

/-- A declared death is over for the manager: the members have the new epoch, and the Churn has reclaimed the dead member's slot (R23). -/
def Dev.deathOver (d : Dev) (a : Nat) : Bool :=
  d.memb.advancing.isNone && (match d.slotOfChain a with
    | some s => !d.isDead s
    | none => true)

/-- Declarations of death that are over reply. -/
def Dev.finishDeaths (t : Nat) (d : Dev) : Dev :=
  d.finish t (fun w => match w with
    | .declareDead a => d.deathOver a
    | _ => false) .ok []

/-- One slot's reclaim ends: it leaves DEAD_SLOTS, and the fabric manager gets its record (R234). -/
def Dev.slotReclaimed (t : Nat) (r : Reclaim) (d : Dev) : Dev :=
  let s := r.slot
  let d := d.markDead s false
  let d := { d with chn := { d.chn with reclaims := d.chn.reclaims.filter (fun x => x.slot ≠ s) } }
  let d := d.raise1 ChurnR.RECLAIM_DONE_EVT
  let x := d.sharer s
  let d := if x.valid ∧ x.kind = 0 then d.portReclaimed t x.port else d
  (d.finishDeaths t).post t 4 (s + 2 ^ 32 * r.entries + 2 ^ 64 * r.lost)

/-- A slot of the running scan has nothing left: its REFS is zero and no tracker waits on it. -/
def Dev.slotScanned (d : Dev) (s : Nat) : Bool := decide (d.refs s = 0) && !d.chn.trackers.any (fun tr => tr.snooped.contains s)

/-- RECLAIM_DONE for a slot of the running scan: once nothing is left of any slot it covers and every write of the reclaim is accepted, the
slots leave DEAD_SLOTS together, and the next scan starts (R234, R235). -/
def Dev.reclaimDone (t s : Nat) (d : Dev) : Dev :=
  if ¬ d.chn.reclaims.any (fun r => decide (r.slot = s) && r.scanned) then d else
  let d := (List.range 32).foldl (fun (d : Dev) c => d.startWork t c) d
  let scan := d.chn.reclaims.filter (·.scanned)
  if scan.any (fun r => !d.slotScanned r.slot) ∨ d.poisonPending ∨ ¬ d.chn.mirrorWaits.isEmpty then d else
  let d := scan.foldl (fun (d : Dev) r => d.slotReclaimed t r) d
  let d := { d with chn := { d.chn with reclaims := d.chn.reclaims.map (fun (r : Reclaim) => { r with scanned := true }) } }
  (d.wrFlag ChurnR.RECLAIM_SCAN (!d.chn.reclaims.isEmpty)).startScan t

/-! ### Removed device ports (R238) -/

/-- The extents of this device backed by a port. -/
def Dev.extentsBehind (d : Dev) (p : Nat) : List Nat := (d.extents.filter (fun x => x.2.state ≠ 0 ∧ x.2.port = p)).map (·.1)

/-- Lines of an extent of this device that have an entry. -/
def Dev.linesIn (d : Dev) (e : Nat) : List Nat :=
  ((d.chn.tier1 ++ d.chn.image ++ d.chn.tier2).filter (fun x => d.homeLine x.2.la ∧ faExtent (laFa x.2.la) = e)).map (fun x => x.2.la)

/-- The line is recalled from every holder already, or about to be. -/
def Dev.recalling (d : Dev) (la : Nat) : Bool :=
  d.chn.waiting.any (fun w => w.la = la ∧ w.acc.kind = .recallAll) || (d.trackerOn la).isSome

/-- Remove an entry for a line of a removed port: a LOST entry goes at once, another is recalled from every holder. -/
def Dev.removeEntry (t la : Nat) (d : Dev) : Dev :=
  if d.recalling la then d else
  match d.findLine la with
  | (_, 0, _) => d
  | (p, 4, _) => ((d.putEntry t la p 0 0).mirrorNote t la p 0 0).unLost la
  | _ => d.recallAllOf t la 0

/-- Start, or look at again, the reclaim of the entries behind a removed port. -/
def Dev.portReclaim (t p : Nat) (d : Dev) : Dev :=
  let d := d.scanWays t
  ((d.extentsBehind p).map d.linesIn).flatten.foldl (fun (d : Dev) la => d.removeEntry t la) d

/-- DEVICE_PORT_RECLAIM_DONE: no entry of the port's extents is left; their spill bits, LOST counts and LOST_LINES clear. -/
def Dev.portReclaimDone (t p : Nat) (d : Dev) : Dev :=
  if ¬ d.chn.portReclaims.any (fun x => x.port = p) then d else
  let d := d.portReclaim t p
  let es := d.extentsBehind p
  if es.any (fun e => d.linesIn e ≠ [] ∨ d.chn.trackers.any (fun tr => ¬ tr.proxy ∧ faExtent (laFa tr.la) = e)) then d else
  let d := es.foldl (fun (d : Dev) e => d.modExt e (fun x => { x with spill := false, lostCount := 0, poisonAll := false })) d
  (({ d with chn := { d.chn with portReclaims := d.chn.portReclaims.filter (fun x => x.port ≠ p) } }).portReclaimed t p).later .recheck

/-! ### Loss of directory state (R201) -/

/-- Extents whose spill bit is set. -/
def Dev.spilled (d : Dev) : List Nat := (d.extents.filter (fun x => x.2.spill)).map (·.1)

/-- Tier 2 is lost with its backing port. -/
def Dev.tier2Lost (t : Nat) (d : Dev) : Dev :=
  if ¬ d.flag ChurnR.TIER2_ACTIVE then d else
  let es := d.spilled
  let d := { d with chn := { d.chn with tier2 := [], zeroing := false } }
  (d.wrFlag ChurnR.TIER2_ACTIVE false).directoryLost t 1 0 es

/-- A bucket is unusable for the rest of the power-on. -/
def Dev.bucketLost (t b la : Nat) (d : Dev) : Dev :=
  let es := d.spilled
  let d := { d with chn := { d.chn with
    badBuckets := if d.chn.badBuckets.contains b then d.chn.badBuckets else d.chn.badBuckets ++ [b]
    tier2 := d.chn.tier2.filter (fun x => x.1 / 4 ≠ b) } }
  d.directoryLost t 2 (laFa la) es

/-- Instances bound to an extent of this device: through valid slots of enabled windows. -/
def Dev.boundTo (d : Dev) (e : Nat) : List Nat :=
  (List.range 64).filter (fun vi => (d.windowsOf vi).any (fun w =>
    d.slots.any (fun b => b.2.valid && w.2.holds b.1 && decide (b.2.chain = d.homeAddr) && decide (b.2.extent = e))))

/-- The slots a sweep snoops for an extent: every local host slot whose instance is bound to it, and every remote slot. -/
def Dev.sweepSlots (d : Dev) (e : Nat) : Nat :=
  (d.chn.slots.filter (fun x => x.2.valid && (decide (x.2.kind = 1) ||
    (match d.viOfPort x.2.port with
     | some vi => (d.boundTo e).contains vi
     | none => false)))).foldl (fun v x => withSlot v x.1) 0

/-- The first line at or after `line` of an extent of this device that slice `c` homes, 2^22 for none. Any 32 lines that differ in their
lowest five bits alone belong to 32 slices (R192). -/
def Dev.sliceLine (d : Dev) (e c line : Nat) : Nat :=
  (((List.range 64).map (· + line)).find? (fun l =>
    decide (l < 4194304) && decide (sliceOf (lineAddr (faOf d.homeAddr e (64 * l))) = c))).getD 4194304

/-- The sweep of a line at its home slice: nothing where it is recorded LOST, which stays, or may have no holder; else a reserved tracker
recalls it from every slot that may hold it. None while the line's tracker or every reserved tracker is taken. -/
def Dev.sweepLine (t e line : Nat) (d : Dev) : Option Dev :=
  let la := lineAddr (faOf d.homeAddr e (64 * line))
  if (d.trackerOn la).isSome then none else
  let d := d.readWays t la
  let (p, st, sh) := d.findLine la
  let v := d.sweepSlots e
  if st = 4 then some d
  else if v = 0 then some (if st = 0 then d else (d.putEntry t la p 0 0).mirrorNote t la p 0 0)
  else
    match d.freeTracker (sliceOf la) 480 32 with
    | none => none
    | some id =>
      let (n, d) := d.newId
      let a : Access := {
        id := n, kind := .recallAll, origin := .churn 0, master := masterChurn (sliceOf la) 1, fa := laFa la, time := t }
      let tr : Tracker := { slice := sliceOf la, id, acc := a, la, place := p, state := 1, sharers := v }
      let d := match p with
        | .way w => d.setWay la w (some { state := st, la, sharers := sh, pinned := true, tracker := id, ref := true })
        | _ => d
      some (({ d with chn := { d.chn with trackers := d.chn.trackers ++ [tr] } }).serveHome t tr)

/-- The sweep of an extent is over when every slice has passed its last line. -/
def Dev.sweepOver (d : Dev) : Bool := (List.range 32).all (fun c => decide (4194304 ≤ Tab.getD d.chn.sweepLine c 0))

/-- One slice's current line moves past one line, if it can. -/
def Dev.sweepSlice (t e c : Nat) (d : Dev) : Dev :=
  let line := d.sliceLine e c (Tab.getD d.chn.sweepLine c 0)
  let pass (n : Nat) (d : Dev) : Dev := { d with chn := { d.chn with sweepLine := Tab.put d.chn.sweepLine c n 0 } }
  if 4194304 ≤ line then pass 4194304 d
  else match d.sweepLine t e line with
    | some d => pass (line + 1) d
    | none => pass line d

/-- The sweep goes on: each slice moves its own current line in the extent under way (R201). -/
def Dev.sweepStep (t : Nat) (d : Dev) : Dev :=
  match d.chn.sweeps with
  | [] => d
  | e :: _ =>
    let d := (List.range 32).foldl (fun (d : Dev) c => d.sweepSlice t e c) d
    if ¬ d.sweepOver then d
    else
      let rest := d.chn.sweeps.drop 1
      ({ d with chn := { d.chn with sweeps := rest, sweepLine := [] } }).wrFlag ChurnR.SWEEP_BUSY (decide (rest ≠ []))

/-! ### Death of a peer (R239) -/

/-- Every filtered request outstanding toward a dead peer completes: a read with poison, any other with an error. -/
def Dev.peerRequests (c : Nat) (d : Dev) : Dev :=
  let mine := d.fab.outstanding.filter (fun o => o.dst = c)
  let held := d.fab.waiting.filter (fun x => x.1.dst = c)
  let d := { d with fab := { d.fab with
    outstanding := d.fab.outstanding.filter (fun o => o.dst ≠ c), waiting := d.fab.waiting.filter (fun x => x.1.dst ≠ c) } }
  (mine.map (·.cont) ++ held.map (·.2)).foldl (fun (d : Dev) k =>
    (d.inc ChurnR.PEER_DEAD_COMPLETIONS).later (.ended k { poison := true, ending := .errorResponse })) d

/-- A QFL peer is dead: its filter window is empty (R148), its remote slot is reclaimed, proxy entries of its lines are recalled and freed, requests toward it complete.
The pair's address stays in service through its survivor: entries of lines homed there are kept. -/
def Dev.peerDead (t c : Nat) (d : Dev) : Dev :=
  let d := { d with fab := { d.fab with filters := Tab.erase d.fab.filters c } }
  let d := match d.slotOfChain c with
    | some s => d.slotDead t s
    | none => d
  if c = d.rd Memb.PAIR_ADDR then d else
  let d := d.peerRequests c
  let las := ((d.chn.tier1).filter (fun x => faChain (laFa x.2.la) = c)).map (fun x => x.2.la)
  las.foldl (fun (d : Dev) la => if d.recalling la then d else d.recallAllOf t la 0) d

end Sys2Proof.Machine
end

