-- ==== Sys2Proof/Machine/Binder.lean ====
section
/-! DEFINITION. Binding, unbinding, older hosts, migration and zeroing of extents (R163, R172 to R178, R184 to R189, R226, R305). -/
namespace Sys2Proof.Machine
open Sys2Proof

/-! ### Fabric extents -/

/-- Chain address of a fabric extent (R410). -/
def fxChain (x : Nat) : Nat := x / 2 ^ 18
/-- Extent number of a fabric extent. -/
def fxExtent (x : Nat) : Nat := x % 2 ^ 18
/-- The fabric extent is one of this device's. -/
def Dev.ownExtent (d : Dev) (x : Nat) : Bool := decide (fxChain x = d.homeAddr)
/-- Change the owner's entry of a fabric extent; another owner keeps its own. -/
def Dev.modOwn (d : Dev) (x : Nat) (f : Extent → Extent) : Dev := if d.ownExtent x then d.modExt (fxExtent x) f else d
/-- Send to the host of an instance. -/
def Dev.toHost (d : Dev) (vi : Nat) (m : HostMsg) : Dev :=
  match d.hostPortOf vi with
  | some p => if d.linkUp p then d.emit (.host p m) else d
  | none => d
/-- A bitmap of n items, true ones set. -/
def bitmapBytes (l : List Bool) : List Byte :=
  leBytes ((l.length + 7) / 8) ((l.zipIdx.map (fun x => if x.1 then 2 ^ x.2 else 0)).foldl (· + ·) 0)
/-- A slot's fabric extent. -/
def BindSlot.fx (b : BindSlot) : Nat := b.chain * 2 ^ 18 + b.extent

/-! ### Binding (R172, R173, R221) -/

/-- The status an extent's state fails a bind of a kind with. -/
def Extent.bindStatus (x : Extent) (kind : Nat) : Option Status :=
  match x.state with
  | 0 => some .badParam
  | 1 => if x.migrating then some .busy else none
  | 2 => some .notPermitted
  | 7 => some .notPermitted
  | 6 => some .busy
  | s =>
    if s ≠ kind + 2 then some .badParam
    else if kind = 1 ∨ x.unbinding ∨ x.migrating then some .busy else none

/-- A primary in OM5 whose pair memory no mirror in OM6 has completed a resynchronisation of: it takes no SHARED binding there (R379). -/
def Dev.pairUnsynced (d : Dev) : Bool :=
  let m := d.rd Memb.MIRROR_ADDR
  decide (d.mode = 5) && !(d.memb.synced && decide (m ≠ 0) && decide (d.rd (Memb.peer_MODE_SEEN (m - 1)) = 6))

/-- The first extent of a list that fails its check; an owner that is no member backs nothing (log entry 52). A member that runs its
part of the manager's bind leaves other owners to the manager (log entry 171). -/
def Dev.bindRefusal (d : Dev) (kind : Nat) : List Nat → Option Status
  | [] => none
  | x :: l =>
    if d.ownExtent x then
      ((d.ext (fxExtent x)).bindStatus kind).or (if kind = 2 ∧ d.pairUnsynced then some .notPermitted else d.bindRefusal kind l)
    else if (d.acting ∧ d.alive (fxChain x)) ∨ d.mode = 6 ∨ d.mode = 7 then d.bindRefusal kind l
    else some .badParam

/-- A list that names a PRIVATE extent twice, or lifts a count above 1,024. -/
def Dev.bindCounts (d : Dev) (kind : Nat) (l : List Nat) : Option Status :=
  if kind = 1 ∧ ¬ l.Nodup then some .busy
  else if l.any (fun x => d.ownExtent x && decide (1024 < (d.ext (fxExtent x)).bindCount + l.count x)) then some .noResource
  else none

/-- A slot names every path of an instance at the owner: each host port of an own instance. -/
def Dev.pathsNamed (d : Dev) (vi : Nat) : Bool :=
  let i := d.instOf vi
  let ok (p : Option Nat) : Bool := match p with
    | some p => (d.slotOfPort p).isSome
    | none => true
  ok i.portA && ok i.portB

/-- Step 2 of R172 for one extent, bound to instance vi of the device at chain address `who`. -/
def Dev.takeExtent (kind who vi x : Nat) (d : Dev) : Dev :=
  let d := d.modOwn x (fun e => { e with
    bindCount := e.bindCount + 1, state := if e.state = 1 then kind + 2 else e.state
    ownerChain := if kind = 1 then who else e.ownerChain, ownerVi := if kind = 1 then vi else e.ownerVi
    home := e.home || decide (kind = 2), remote := if who = d.chainAddr then e.remote else e.remote ++ [who] })
  if kind = 2 ∧ d.ownExtent x then d.wakeChurn else d

/-- Step 2 of R172 for the extents of this device in a list, and which of them were FREE. -/
def Dev.takeOwn (kind who vi : Nat) (list : List Nat) (d : Dev) : Dev × List Bool :=
  (list.foldl (fun (d : Dev) y => d.takeExtent kind who vi y) d,
    list.map (fun y => d.ownExtent y && decide ((d.ext (fxExtent y)).state = 1)))

/-- An owner reverses step 2 of R172 for a declined extent, bound from the device at `who`. -/
def Dev.untake (who x : Nat) (fresh : Bool) (d : Dev) : Dev :=
  d.modOwn x (fun e =>
    let n := e.bindCount - 1
    let e := { e with remote := e.remote.erase who }
    if n ≠ 0 then { e with bindCount := n }
    else if e.state = 6 then { e with bindCount := 0 }
    else { e with
      bindCount := 0, state := if fresh then 1 else 2, ownerChain := 0, ownerVi := 0, home := decide (0 < e.lostCount)
      spill := e.spill && decide (0 < e.lostCount) })

/-! ### Other owners (R171)

The acting primary applies a binding at an owner by an owner's part: an EXTENT_BIND whose window is 0xFFFF, whose offset gives chain
address and instance of the binding, and whose kind gives the operation (DESIGN CHOICE, log entry 171): 1 to 3 take, 4 and 5 decline
(5 for an extent that was FREE), 6 and 7 begin an unbind (7 with FORCE), 8 give it up, 9 and 10 drop the binding (10 with ZERO). -/

/-- Chain addresses of the other owners a list names. -/
def Dev.otherOwners (d : Dev) (list : List Nat) : List Nat := ((list.filter (fun x => ¬ d.ownExtent x)).map fxChain).eraseDups

/-- Parameters of EXTENT_BIND (R410). -/
def bindPayload (w off kind : Nat) (list : List Nat) : List Byte :=
  leBytes 2 w ++ leBytes 2 off ++ leBytes 2 list.length ++ leBytes 1 kind ++ (list.map (leBytes 4)).flatten

/-- Ask one owner for its part of an operation; a reply matters where `wait`. -/
def Dev.askOwner (t c who vi op : Nat) (list : List Nat) (wait : Bool) (d : Dev) : Dev :=
  d.sendCommand t c 0x220 (flagBit wait) (bindPayload 0xffff (who + 256 * vi) op list)

/-- Ask owners for their parts: the commands whose replies are awaited. -/
def Dev.askOwners (t who vi op : Nat) (list owners : List Nat) (d : Dev) : Dev × List Nat :=
  owners.foldl (fun (x : Dev × List Nat) c =>
    (x.1.askOwner t c who vi op (list.filter (fun y => fxChain y = c)) true, x.2 ++ [x.1.silek.nextId])) (d, [])

/-- Owners that need give no answer are told. -/
def Dev.tellOwners (t who op : Nat) (list owners : List Nat) (d : Dev) : Dev :=
  owners.foldl (fun (d : Dev) c =>
    let mine := list.filter (fun y => fxChain y = c)
    if mine = [] then d else d.askOwner t c who 0 op mine false) d

/-- Owners reverse step 2 for extents, each with whether it was FREE. -/
def Dev.declineAt (t who : Nat) (xs : List (Nat × Bool)) (owners : List Nat) (d : Dev) : Dev :=
  let d := d.tellOwners t who 4 ((xs.filter (fun x => ¬ x.2)).map (·.1)) owners
  d.tellOwners t who 5 ((xs.filter (fun x => x.2)).map (·.1)) owners

/-- A DC extent as the host of a window is told of it (R174). -/
def Dev.dcExtent (d : Dev) (w : Window) (k : Nat) : DcExtent :=
  let b := d.slot k
  { dpa := w.region * 2 ^ 43 + (k - w.slotBase) * 2 ^ 28, length := 2 ^ 28
    tag := leBytes 4 b.extent ++ leBytes 1 b.chain ++ leBytes 1 (w.kind + 1) ++ leBytes 10 0
    sequence := if w.kind = 0 then none else some (k - w.slotBase) }

/-- Send a Dynamic Capacity event record of slots of a window: type 0 add, 1 release, 2 forced release. -/
def Dev.toDcHost (d : Dev) (w type : Nat) (slots : List Nat) : Dev :=
  let x := d.win w
  d.toHost x.vi (.dcEvent x.vi type (slots.map (d.dcExtent x)))

/-! ### EXTENT_BIND -/

/-- Step 3 of R172: the slots become PENDING and the host is offered them, or the older host's order starts (R178). -/
def Dev.offer (b : Binding) (d : Dev) : Dev × Result :=
  let x := d.win b.window
  let gen := d.hostGen x.vi
  let d := (b.slots.zip b.list).foldl (fun (d : Dev) y =>
    d.setSlot y.1 { pending := true, chain := fxChain y.2, extent := fxExtent y.2 }) d
  let others := d.binder.bindings.filter (fun y => y.id ≠ b.id)
  if gen = 3 then
    (({ d with binder := { d.binder with bindings := others ++ [b] } }).toDcHost b.window 0 b.slots, .run (.bind b.id))
  else if gen = 2 then
    (({ d with binder := { d.binder with
      bindings := others ++ [b], hotPlug := d.binder.hotPlug ++ [(x.vi, b.slots, [], false)] } }).toHost x.vi
        (.slotPresence x.vi 0 false), .run (.bind b.id))
  else
    ({ d with binder := { d.binder with
      bindings := others, deferred := d.binder.deferred ++ [(x.vi, b.slots, [], false)] } }, .final .ok [])

/-- EXTENT_BIND of given slots of a window (R172): the checks of step 1 from the instance on, then step 2 here and at the other
owners; step 3 follows at once where there are none. -/
def Dev.bindSlots (t w : Nat) (slots : List Nat) (kind : Nat) (list : List Nat) (d : Dev) : Dev × Result :=
  let x := d.win w
  let gen := d.hostGen x.vi
  let st := d.rd (Vi.STATE x.vi)
  if gen = 1 ∧ st ≠ 3 then (d, .err .notQuiesced)
  else if gen ≠ 1 ∧ 2 ≤ st then (d, .err .busy)
  else if slots.any (fun k => (d.slot k).valid || (d.slot k).pending ||
      d.binder.bindings.any (fun b => decide (b.member = 0) && b.slots.contains k)) then (d, .err .busy)
  else match (d.bindRefusal kind list).or (d.bindCounts kind list) with
  | some s => (d, .err s)
  | none =>
    if kind = 2 ∧ gen ≠ 3 then (d, .err .notPermitted)
    else if kind = 2 ∧ d.mode = 5 ∧ d.rd Memb.RESYNC_PHASE ≠ 4 ∧ list.any (fun x => d.ownExtent x) then (d, .err .notPermitted)
    else if kind = 2 ∧ list.any (fun x => d.ownExtent x) ∧ ¬ d.pathsNamed x.vi then (d, .err .noResource)
    else
      let (d, fresh) := d.takeOwn kind d.chainAddr x.vi list
      let id := d.binder.nextId
      let b : Binding := { id, window := w, slots, fresh, list, kind }
      let d := { d with binder := { d.binder with nextId := id + 1 } }
      let owners : List Nat := if d.acting then d.otherOwners list else []
      if owners.isEmpty then d.offer b
      else
        let (d, asked) := d.askOwners t d.chainAddr x.vi kind list owners
        ({ d with binder := { d.binder with bindings := d.binder.bindings ++ [{ b with asked }] } }, .run (.bind id))

/-- EXTENT_BIND on a window of this device. -/
def Dev.bind (t w off n kind : Nat) (list : List Nat) (d : Dev) : Dev × Result :=
  let x := d.win w
  if 255 < w ∨ n < 1 ∨ 64 < n ∨ list.length ≠ n ∨ list.any (fun y => decide (2 ^ 23 ≤ y)) then (d, .err .badParam)
  else if ¬ x.enabled ∨ x.kind + 1 ≠ kind ∨ x.slotCount < off + n then (d, .err .badParam)
  else d.bindSlots t w ((List.range n).map (fun i => x.slotBase + off + i)) kind list

/-- The extent of a slot of a binding was FREE. -/
def Binding.wasFree (b : Binding) (k : Nat) : Bool := (b.slots.zip b.fresh).any (fun y => decide (y.1 = k) && y.2)

/-- One offered slot is answered. -/
def Dev.answerSlot (b : Binding) (k : Nat) (ok : Bool) (d : Dev) : Dev :=
  let s := d.slot k
  if ok then d.setSlot k { s with valid := true, pending := false }
  else (d.untake d.chainAddr s.fx (b.wasFree k)).setSlot k {}

/-- Answer every slot of a binding and reply: the slots in `accepted` become VALID, the others are declined, here and at their
owners. -/
def Dev.endBinding (t : Nat) (b : Binding) (accepted : List Nat) (timeout : Bool) (d : Dev) : Dev :=
  let d := b.slots.foldl (fun (d : Dev) k => d.answerSlot b k (accepted.contains k)) d
  let refused := ((b.slots.zip b.list).filter (fun y => ¬ accepted.contains y.1)).map (fun y => (y.2, b.wasFree y.1))
  let d := d.declineAt t d.chainAddr refused b.taken
  let d := { d with binder := { d.binder with bindings := d.binder.bindings.filter (fun y => y.id ≠ b.id) } }
  let map := bitmapBytes (b.slots.map (fun k => accepted.contains k))
  if timeout then d.finish t (· = .bind b.id) .timeout map
  else if b.slots.all (fun k => accepted.contains k) then d.finish t (· = .bind b.id) .ok []
  else d.finish t (· = .bind b.id) .aborted map

/-- Bindings offered to the host of an instance of this device. -/
def Dev.offersOf (d : Dev) (vi : Nat) : List Binding :=
  d.binder.bindings.filter (fun b => b.member = 0 ∧ b.asked = [] ∧ (d.win b.window).vi = vi)

/-- Add Dynamic Capacity Response of an instance's host (R172, R173). -/
def Dev.addResponse (t vi : Nat) (accepted : List Nat) (d : Dev) : Dev :=
  let mine := (d.offersOf vi).filter (fun b => ¬ d.binder.hotPlug.any (fun h => h.2.1 = b.slots))
  let pick := match accepted with
    | [] => mine.head?
    | k :: _ => mine.find? (fun b => b.slots.contains k)
  match pick with
  | none => d.toHost vi (.dcResult vi false)
  | some b =>
    if accepted.any (fun k => ¬ b.slots.contains k) then d.toHost vi (.dcResult vi false)
    else (d.toHost vi (.dcResult vi true)).endBinding t b accepted false

/-- A binding whose owners still answer ends with ABORTED once they have. -/
def Binding.abort (vi : Nat) (d : Dev) (b : Binding) : Binding :=
  if b.member = 0 ∧ b.asked ≠ [] ∧ (d.win b.window).vi = vi then { b with failed := some .aborted } else b

/-- Offers of an instance are declined (R336). -/
def Dev.declineOffers (t vi : Nat) (d : Dev) : Dev :=
  let d := { d with binder := { d.binder with bindings := d.binder.bindings.map (Binding.abort vi d) } }
  (d.offersOf vi).foldl (fun (d : Dev) b => d.endBinding t b [] false)
    { d with binder := { d.binder with hotPlug := d.binder.hotPlug.filter (fun h => ¬ (h.1 = vi ∧ h.2.1 ≠ [])) } }

/-! ### Unbinding (R175 to R177, R226) -/

/-- Sharer slots of an instance's host ports. -/
def Dev.slotsOfVi (d : Dev) (vi : Nat) : List Nat :=
  let i := d.instOf vi
  (i.portA.toList ++ i.portB.toList).filterMap (fun p => d.slotOfPort p)

/-- Replace an unbinding. -/
def Dev.setUnbinding (u : Unbinding) (d : Dev) : Dev :=
  { d with binder := { d.binder with unbindings := d.binder.unbindings.map (fun x => if x.id = u.id then u else x) } }

/-- The extent loses its last binding once what is released of it is gone. -/
def Dev.lastBinding (d : Dev) (x : Nat) : Bool :=
  decide ((d.ext (fxExtent x)).bindCount ≤ ((d.binder.unbindings.map (fun u => u.finishing)).flatten.filter (fun y => y.2 = x)).length)

/-- The fabric extent of a line. -/
def laExtent (la : Nat) : Nat := la / 2 ^ 22

/-- RECALL of one slot's copy of a line (R226). -/
def Dev.recallSlot (t s la : Nat) (d : Dev) : Dev :=
  if d.chn.waiting.any (fun w => w.la = la ∧ w.acc.kind = .recall ∧ w.acc.slot = some s) then d else
  let (id, d) := d.newId
  let a : Access := {
    id, kind := .recall, origin := .churn 0, master := masterChurn (sliceOf la) 1, fa := laFa la, slot := some s, time := t }
  (d.churnWork { slice := sliceOf la, acc := a, la }).later (.lineFree (sliceOf la) la)

/-- The recalls of a scan of one extent: RECALL_ALL when the last binding goes, RECALL of the instance's slots otherwise (R226). -/
def Dev.scanExtent (t vi x : Nat) (d : Dev) : Dev :=
  let e := fxExtent x
  let mine := d.slotsOfVi vi
  if ¬ d.ownExtent x then
    -- an extent of another owner: the instance's copies, which the proxy entries of its lines record
    (d.chn.tier1.filter (fun y => laExtent y.2.la = x)).foldl (fun (d : Dev) y =>
      (mine.filter (fun s => fieldOf y.2.sharers s 1 = 1)).foldl (fun (d : Dev) s => d.recallSlot t s y.2.la) d) d
  else if (d.ext e).state ≠ 4 then d else
  let d := d.scanWays t
  let last := d.lastBinding x
  (d.linesIn e).foldl (fun (d : Dev) la =>
    let (_, st, v) := d.findLine la
    if last then
      (if st = 4 ∨ d.chn.waiting.any (fun w => w.la = la ∧ w.acc.kind = .recallAll) then d else d.recallAllOf t la 0)
    else
      (mine.filter (fun s => fieldOf v s 1 = 1)).foldl (fun (d : Dev) s => d.recallSlot t s la) d) d

/-- No entry of the extent that the scan must recall is left, and no recall runs. -/
def Dev.scanClean (d : Dev) (vi x : Nat) : Bool :=
  let e := fxExtent x
  let mine := d.slotsOfVi vi
  if ¬ d.ownExtent x then
    !d.chn.tier1.any (fun y => decide (laExtent y.2.la = x) && mine.any (fun s => decide (fieldOf y.2.sharers s 1 = 1))) &&
    !d.chn.waiting.any (fun w => decide (laExtent w.la = x) && decide (w.acc.kind = .recall) && w.acc.slot.isSome) &&
    !d.chn.trackers.any (fun tr => decide (laExtent tr.la = x) &&
      ((decide (tr.acc.kind = .recall) && tr.acc.slot.isSome) || ofInstance vi tr.acc.master))
  else if (d.ext e).state ≠ 4 then true else
  let last := d.lastBinding x
  !(d.linesIn e).any (fun la =>
    let (_, st, v) := d.findLine la
    if last then decide (st ≠ 4) else mine.any (fun s => decide (fieldOf v s 1 = 1))) &&
  !d.chn.waiting.any (fun w => decide (faExtent (laFa w.la) = e) && d.homeLine w.la) &&
  !d.chn.trackers.any (fun tr => !tr.proxy && decide (faExtent (laFa tr.la) = e) &&
    (tr.acc.isChurn || ofInstance vi tr.acc.master))

/-- The writes accepted from an instance to an extent have been performed or discarded (step 2 of R176). -/
def Dev.drained (d : Dev) (vi x : Nat) : Bool :=
  !(d.buf.entries ++ d.buf.waiting).any (fun e => (match e.body with
    | .line fa _ _ _ _ => decide (faChain fa = fxChain x) && decide (faExtent fa = fxExtent x)
    | _ => false) && e.writes.any (fun w => ofInstance vi w.master)) &&
  !d.buf.remote.any (fun w => decide (w.owner = fxChain x) && ofInstance vi w.master)

/-- Start the steps of R176 for released slots of an unbinding. -/
def Dev.releaseSlots (t : Nat) (u : Unbinding) (ks : List Nat) (d : Dev) : Dev :=
  let pairs := ks.map (fun k => (k, (d.slot k).fx))
  let u := { u with
    waiting := u.waiting.filter (fun k => ¬ ks.contains k), finishing := u.finishing ++ pairs, released := u.released ++ ks }
  let d := (ks.foldl (fun (d : Dev) k => d.setSlot k {}) d).setUnbinding u
  (pairs.foldl (fun (d : Dev) y => (d.modOwn y.2 (fun e => { e with unbinding := true })).scanExtent t u.vi y.2) d).later .recheck

/-- Step 4 of R176 for a binding from the device at `who`: BIND_COUNT falls; at zero the extent is unclean, or waits to be zeroed. -/
def Dev.dropBinding (t who : Nat) (zero : Bool) (x : Nat) (d : Dev) : Dev :=
  if ¬ d.ownExtent x then d else
  let d := d.modOwn x (fun e => { e with remote := e.remote.erase who })
  let e := d.ext (fxExtent x)
  let n := e.bindCount - 1
  if n ≠ 0 then d.modOwn x (fun e => { e with bindCount := n })
  else if e.state = 6 then d.modOwn x (fun e => { e with bindCount := 0, unbinding := false })
  else
    let keep := decide (0 < e.lostCount)
    let d := d.modOwn x (fun e => { e with
      bindCount := 0, unbinding := false, state := if zero then 7 else 2, ownerChain := 0, ownerVi := 0, home := keep, spill := e.spill && keep })
    if zero then
      ({ d with binder := { d.binder with zeroWait := d.binder.zeroWait ++ [fxExtent x] } }).postZeros 64 t
    else d

/-- An unbinding with nothing left replies (R175, R176). -/
def Dev.unbindEnd (t : Nat) (u : Unbinding) (d : Dev) : Dev :=
  if u.waiting ≠ [] ∨ u.finishing ≠ [] ∨ u.asked ≠ [] ∨ d.binder.hotPlug.any (fun h => h.1 = u.vi ∧ h.2.2.1 = u.slots) then d else
  let d := { d with binder := { d.binder with unbindings := d.binder.unbindings.filter (fun x => x.id ≠ u.id) } }
  if u.timedOut then d.finish t (· = .unbind u.id) .timeout (bitmapBytes (u.slots.map (fun k => u.released.contains k)))
  else d.finish t (· = .unbind u.id) .ok []

/-- An extent is no longer UNBINDING once no unbinding names it. -/
def Dev.clearUnbinding (x : Nat) (d : Dev) : Dev :=
  if (d.binder.unbindings.map (fun u => u.finishing)).flatten.any (fun y => y.2 = x) ∨
      d.binder.unbindings.any (fun u => u.waiting.any (fun k => (d.slot k).fx = x) ∨ (u.stage < 2 ∧ u.list.contains x)) ∨
      d.binder.remoteUnbinds.contains x then d
  else d.modOwn x (fun e => { e with unbinding := false })

/-- Chain address of the device whose instance an unbinding is about. -/
def Dev.whose (d : Dev) (u : Unbinding) : Nat := if u.member = 0 then d.chainAddr else u.member

/-- Step 4 for released extents at the other owners, which the acting primary tells; a member posts the record of a release its host
began once its own part is over, and the acting primary takes it as the notice to do so (log entry 171). -/
def Dev.dropElsewhere (t : Nat) (u : Unbinding) (ready : List (Nat × Nat)) (d : Dev) : Dev × Unbinding :=
  let xs := (ready.map (·.2)).filter (fun x => ¬ d.ownExtent x)
  if xs = [] then (d, u)
  else if d.acting then
    let (d, ids) := d.askOwners t (d.whose u) u.vi (if u.zero then 10 else 9) xs ((d.otherOwners xs).filter (fun c => d.alive c))
    (d, { u with asked := u.asked ++ ids })
  else if u.byHost then
    ((ready.filter (fun y => ¬ d.ownExtent y.2)).foldl (fun (d : Dev) y => d.post t 3 (u.vi + 2 ^ 32 * y.1)) d, u)
  else (d, u)

/-- Step 4 for every released slot of an unbinding whose writes and recalls are over; a recall still needed is asked again. -/
def Dev.unbindFinish (t id : Nat) (d : Dev) : Dev :=
  match d.binder.unbindings.find? (fun u => u.id = id) with
  | none => d
  | some u =>
    let ready := u.finishing.filter (fun y => d.drained u.vi y.2 && d.scanClean u.vi y.2)
    let late := u.finishing.filter (fun y => ¬ ready.contains y)
    let d := late.foldl (fun (d : Dev) y => d.scanExtent t u.vi y.2) d
    let (d, u) := d.dropElsewhere t { u with finishing := late } ready
    let d := d.setUnbinding u
    let d := ready.foldl (fun (d : Dev) y => (d.dropBinding t (d.whose u) u.zero y.2).clearUnbinding y.2) d
    d.unbindEnd t u

/-- Unbindings of extents that need no recall end with their writes; a proxy's recalls end by themselves. -/
def Dev.unbindCheck (t : Nat) (d : Dev) : Dev :=
  d.binder.unbindings.foldl (fun (d : Dev) u =>
    if u.finishing ≠ [] ∧ u.finishing.all (fun y => ¬ d.ownExtent y.2 ∨ (d.ext (fxExtent y.2)).state ≠ 4) ∧
        u.finishing.any (fun y => d.drained u.vi y.2 && d.scanClean u.vi y.2) then d.unbindFinish t u.id
    else d) d

/-- An unbinding whose owners have agreed goes on at the instance (R175, R178). -/
def Dev.startUnbind (t : Nat) (u : Unbinding) (d : Dev) : Dev × Result :=
  let gen := d.hostGen u.vi
  let slots := u.slots
  let others := d.binder.unbindings.filter (fun y => y.id ≠ u.id)
  let put (u : Unbinding) (d : Dev) : Dev := { d with binder := { d.binder with unbindings := others ++ [{ u with stage := 2 }] } }
  let mark (d : Dev) : Dev := slots.foldl (fun (d : Dev) k => d.modOwn (d.slot k).fx (fun e => { e with unbinding := true })) d
  if gen = 1 then
    ({ d with binder := { d.binder with unbindings := others, deferred := d.binder.deferred ++ [(u.vi, [], slots, u.zero)] } },
      .final .ok [])
  else if gen = 2 then
    ((mark (put u { d with binder := { d.binder with hotPlug := d.binder.hotPlug ++ [(u.vi, [], slots, u.zero)] } })).toHost u.vi
      (.slotPresence u.vi 0 false), .run (.unbind u.id))
  else if u.force then
    (((mark (put u d)).toDcHost u.window 2 slots).releaseSlots t { u with stage := 2 } slots, .run (.unbind u.id))
  else ((mark (put { u with waiting := slots } d)).toDcHost u.window 1 slots, .run (.unbind u.id))

/-- EXTENT_UNBIND of given slots of a window (R175): the checks here and at the other owners, then the release. -/
def Dev.unbindSlots (t w : Nat) (slots : List Nat) (force zero : Bool) (d : Dev) : Dev × Result :=
  let x := d.win w
  let gen := d.hostGen x.vi
  let st := d.rd (Vi.STATE x.vi)
  if slots.any (fun k => ¬ (d.slot k).valid) then (d, .err .badParam)
  else if slots.any (fun k => d.ownExtent (d.slot k).fx && (d.ext (d.slot k).extent).migrating) then (d, .err .busy)
  else if ¬ force ∧ slots.any (fun k => d.ownExtent (d.slot k).fx && decide ((d.ext (d.slot k).extent).state = 6)) then
    (d, .err .notPermitted)
  else if gen = 1 ∧ st ≠ 3 then (d, .err .notQuiesced)
  else if gen ≠ 1 ∧ ¬ force ∧ 2 ≤ st then (d, .err .busy)
  else if d.binder.unbindings.any (fun u => u.waiting.any (fun k => slots.contains k) ∨
      (u.member = 0 ∧ u.stage < 2 ∧ u.slots.any (fun k => slots.contains k))) then (d, .err .busy)
  else
    let id := d.binder.nextId
    let d := { d with binder := { d.binder with nextId := id + 1 } }
    let list : List Nat := slots.map (fun k => (d.slot k).fx)
    let u : Unbinding := { id, vi := x.vi, slots, waiting := [], zero, list, window := w, force }
    let owners : List Nat := if d.acting then (d.otherOwners list).filter (fun c => d.alive c) else []
    if owners.isEmpty then d.startUnbind t u
    else
      let (d, asked) := d.askOwners t d.chainAddr x.vi (if force then 7 else 6) list owners
      let d := list.foldl (fun (d : Dev) y => d.modOwn y (fun e => { e with unbinding := true })) d
      ({ d with binder := { d.binder with unbindings := d.binder.unbindings ++ [{ u with asked, stage := 0 }] } }, .run (.unbind id))

/-- EXTENT_UNBIND on a window of this device. -/
def Dev.unbind (t w off n : Nat) (force zero : Bool) (d : Dev) : Dev × Result :=
  let x := d.win w
  if 255 < w ∨ n < 1 ∨ 64 < n ∨ ¬ x.enabled ∨ x.slotCount < off + n then (d, .err .badParam)
  else d.unbindSlots t w ((List.range n).map (fun i => x.slotBase + off + i)) force zero

/-- Release Dynamic Capacity of an instance's host, prompted or not (R175, R177). -/
def Dev.hostRelease (t vi : Nat) (ks : List Nat) (d : Dev) : Dev :=
  let own (k : Nat) : Bool := (d.windowsOf vi).any (fun w => w.2.holds k) && (d.slot k).valid
  if ks.any (fun k => ¬ own k) then d.toHost vi (.dcResult vi false) else
  let d := d.toHost vi (.dcResult vi true)
  ks.foldl (fun (d : Dev) k =>
    match d.binder.unbindings.find? (fun u => u.waiting.contains k) with
    | some u => d.releaseSlots t u [k]
    | none =>
      let id := d.binder.nextId
      let u : Unbinding := { id, vi, slots := [k], waiting := [k], command := false, byHost := true, list := [(d.slot k).fx] }
      let d := if d.acting ∨ d.ownExtent (d.slot k).fx then d.post t 3 (vi + 2 ^ 32 * k) else d
      ({ d with binder := { d.binder with nextId := id + 1, unbindings := d.binder.unbindings ++ [u] } }).releaseSlots t u [k]) d

/-- RELEASE_HOST_TIMEOUT: what the host did not release stays bound. -/
def Dev.releaseTimeout (t id : Nat) (d : Dev) : Dev :=
  match d.binder.unbindings.find? (fun u => u.id = id) with
  | none => d
  | some u =>
    if u.waiting = [] then d else
    let kept := u.waiting.map (fun k => (d.slot k).fx)
    let u := { u with waiting := [], timedOut := true }
    let d := kept.foldl (fun (d : Dev) x => d.clearUnbinding x) (d.setUnbinding u)
    let d := if d.acting then d.tellOwners t d.chainAddr 8 kept ((d.otherOwners kept).filter (fun c => d.alive c)) else d
    d.unbindEnd t u

/-- Extents awaiting a host's release are released as with FORCE (R336). -/
def Dev.forceReleases (t vi : Nat) (d : Dev) : Dev :=
  (d.binder.unbindings.filter (fun u => u.vi = vi ∧ u.waiting ≠ [])).foldl (fun (d : Dev) u => d.releaseSlots t u u.waiting) d

/-! ### Older hosts (R178, R66) -/

/-- The waiting changes of a virtual hot-remove or of a CXL 1.1 host take effect: slots become VALID, slots are cleared. -/
def Dev.applySlots (t : Nat) (h : Nat × List Nat × List Nat × Bool) (d : Dev) : Dev :=
  let (vi, add, clear, zero) := h
  let d := add.foldl (fun (d : Dev) k => d.setSlot k { d.slot k with valid := true, pending := false }) d
  let d := (d.binder.bindings.filter (fun b => b.member = 0 ∧ b.asked = [] ∧ b.slots = add)).foldl (fun (d : Dev) b => d.endBinding t b add false) d
  if clear = [] then d else
  match d.binder.unbindings.find? (fun u => u.member = 0 ∧ u.stage = 2 ∧ u.slots = clear) with
  | some u => d.releaseSlots t u clear
  | none =>
    let id := d.binder.nextId
    let u : Unbinding := {
      id, vi, slots := clear, waiting := [], zero, command := false, list := clear.map (fun k => (d.slot k).fx) }
    ({ d with binder := { d.binder with nextId := id + 1, unbindings := d.binder.unbindings ++ [u] } }).releaseSlots t u clear

/-- The virtual device of a CXL 2.0 instance is added again. -/
def Dev.hotAdd (t vi : Nat) (d : Dev) : Dev :=
  let mine := d.binder.hotPlug.filter (fun h => h.1 = vi)
  if mine = [] then d else
  let d := { d with binder := { d.binder with hotPlug := d.binder.hotPlug.filter (fun h => h.1 ≠ vi) } }
  (mine.foldl (fun (d : Dev) h => d.applySlots t h) d).toHost vi (.slotPresence vi 0 true)

/-- A CXL 1.1 host leaves reset: its capacity is the set bound then. -/
def Dev.leaveReset (t vi : Nat) (d : Dev) : Dev :=
  let mine := d.binder.deferred.filter (fun h => h.1 = vi)
  let d := { d with binder := { d.binder with deferred := d.binder.deferred.filter (fun h => h.1 ≠ vi) } }
  mine.foldl (fun (d : Dev) h => d.applySlots t h) d

/-! ### Zeroing (R163, R305) -/

/-- A queue number and its ring may take a descriptor of the device's own, with `keep` entries besides. -/
def Dev.queueRefusal (d : Dev) (q keep : Nat) : Option Status :=
  if 8191 < q then some .badParam
  else if ¬ d.fmPair q then some .notPermitted
  else if 64 < d.ringUsed q + d.ringKept q + 1 + keep then some .noResource
  else none

/-- EXTENT_ZERO. A FREE_UNCLEAN extent that is the destination of a migration is zeroed too (DESIGN CHOICE, log entry 173: R163 tests the
state only). -/
def Dev.extentZero (e q : Nat) (d : Dev) : Dev × Result :=
  if 262143 < e then (d, .err .badParam)
  else if (d.ext e).state ≠ 2 then (d, .err .notPermitted)
  else match d.queueRefusal q 0 with
  | some s => (d, .err s)
  | none => ((d.modExt e (fun x => { x with state := 7 })).postDesc q (d.zeroDesc e) 1, .run (.zero e))

/-- A ZERO_RELEASE completed on an extent (R163, R200, R245). -/
def Dev.zeroDone (t e st : Nat) (d : Dev) : Dev :=
  let d := if (d.ext e).state ≠ 7 then d
    else if st ≠ 0 then d.modExt e (fun x => { x with state := 2 })
    else
      let d := (d.linesIn e).foldl (fun (d : Dev) la => let (p, _, _) := d.findLine la; (d.putEntry t la p 0 0).mirrorNote t la p 0 0) d
      d.modExt e (fun x => { x with state := 1, lostCount := 0, spill := false, poisonAll := false, home := false })
  let d := d.post t 9 (d.homeAddr * 2 ^ 18 + e + 2 ^ 32 * st)
  ((d.finish t (· = .zero e) (if st = 0 then .ok else if st = 0x23 then .targetLost else .aborted) []).postZeros 64 t).later .recheck

/-! ### Migration (R184 to R189) -/

/-- EXTENT_MIGRATE. -/
def Dev.migrate (src dst q : Nat) (zero : Bool) (d : Dev) : Dev × Result :=
  let x := d.ext src
  let y := d.ext dst
  if 262143 < src ∨ 262143 < dst then (d, .err .badParam)
  else if ¬ (3 ≤ x.state ∧ x.state ≤ 5) ∨ x.unbinding ∨ x.migrating then (d, .err .busy)
  else if ¬ (y.state = 1 ∨ y.state = 2) ∨ y.migrating then (d, .err .badParam)
  else if ¬ d.linkUp y.port ∨ (x.port = y.port ∧ x.ld = y.ld ∧ x.dpaUnit = y.dpaUnit) then (d, .err .badParam)
  else if x.state = 4 ∧ ¬ y.poisonCapable ∧ ¬ d.flag ChurnR.TIER2_ACTIVE then (d, .err .notPermitted)
  else match (List.range 32).find? (fun i => (Tab.get d.binder.migrations i).isNone), d.queueRefusal q 1 with
  | none, _ => (d, .err .noResource)
  | _, some s => (d, .err s)
  | some i, none =>
    let m : Migration := { source := src, dest := dst, zero, queue := q }
    let d := { d.wakeChurn with binder := { d.binder with migrations := Tab.set d.binder.migrations i m } }
    let d := (d.modExt src (fun e => { e with migrating := true, migIndex := i })).modExt dst
      (fun e => { e with migrating := true, migIndex := i })
    let desc : Desc := {
      opcode := 7, srcSpace := 2, dstSpace := 2, length := 0x10000000, zeroAfter := zero, src := faOf d.homeAddr src 0
      dst := faOf d.homeAddr dst 0 }
    (d.postDesc q desc 2, .run (.migrate src))

/-- Accesses that the slice held for a migration go on. -/
def Dev.releaseHeld (i : Nat) (d : Dev) : Dev :=
  match Tab.get d.binder.migrations i with
  | none => d
  | some m =>
    let d := { d with binder := { d.binder with migrations := Tab.set d.binder.migrations i { m with held := [] } } }
    m.held.foldl (fun (d : Dev) a => d.later (.route a)) d

/-- The Churn's own writes that waited for a piece to close go on. -/
def Dev.releaseWrites (t i : Nat) (d : Dev) : Dev :=
  match Tab.get d.binder.migrations i with
  | none => d
  | some m =>
    let d := { d with binder := { d.binder with migrations := Tab.set d.binder.migrations i { m with heldWrites := [] } } }
    m.heldWrites.foldl (fun (d : Dev) x => d.writeLine t x.1 x.2) d

/-- Abandon a migration (R189): both flags clear, the destination takes a state, the descriptor stops. -/
def Dev.abandon (t i destState : Nat) (status : Status) (d : Dev) : Dev :=
  match Tab.get d.binder.migrations i with
  | none => d
  | some m =>
    let d := d.releaseHeld i
    let d := { d with binder := { d.binder with migrations := Tab.erase d.binder.migrations i } }
    let d := (d.modExt m.source (fun e => { e with migrating := false, migIndex := 0 })).modExt m.dest
      (fun e => { e with migrating := false, migIndex := 0, state := destState })
    let d := m.heldWrites.foldl (fun (d : Dev) x => d.writeLine t x.1 x.2) d
    let mine (x : Desc) : Bool := decide (x.opcode = 7) && decide (faExtent x.src = m.source)
    let q := d.pair m.queue
    let d := d.setPair m.queue { q with fetched := q.fetched.filter (fun y => ¬ (y.2.2 = 2 ∧ mine y.2.1)) }
    let runs := d.ladles.runs.map (fun r =>
      if r.purpose = 2 ∧ mine r.desc then { r with stopped := true, silent := true } else r)
    (({ d with ladles := { d.ladles with runs } }).finish t (· = Work.migrate m.source) status []).later .recheck

/-- EXTENT_MIGRATE_ABORT. -/
def Dev.migrateAbort (t src : Nat) (d : Dev) : Dev × Result :=
  match d.binder.migrations.find? (fun x => x.2.source = src) with
  | none => (d, .err .badParam)
  | some (i, m) =>
    if m.phase ≠ 1 then (d, .err .busy)
    else (d.abandon t i 2 .aborted, .final .ok [])

/-- A piece of a MIGRATE closed: the watermark moves past it and what the slice held goes on; at the end the slice holds every new
access (R185 to R187). -/
def Dev.advanceWatermark (t src : Nat) (d : Dev) : Dev :=
  match d.binder.migrations.find? (fun x => x.2.source = src) with
  | none => d
  | some (i, m) =>
    let w := m.watermark + 64
    let d := { d with binder := { d.binder with migrations := Tab.set d.binder.migrations i { m with
      watermark := w, phase := if 4194304 ≤ w then 2 else m.phase } } }
    let d := d.releaseWrites t i
    if 4194304 ≤ w then d else d.releaseHeld i

/-- Dual writes of an extent still to be accepted. -/
def Dev.dualsOpen (d : Dev) (src : Nat) : Bool :=
  d.agents.queue.any (fun r => (match r.cont with
    | .dual _ => decide (faExtent r.acc.fa = src)
    | _ => false))

/-- A line of an extent is still to be recorded LOST (R188, R216). -/
def Dev.lostWork (d : Dev) (e : Nat) : Bool :=
  let mine (a : Access) : Bool := a.isChurn && decide (a.kind = .wrNc) && decide (faExtent a.fa = e)
  d.chn.waiting.any (fun w => mine w.acc) || d.chn.trackers.any (fun tr => mine tr.acc)

/-- MIGRATION_COMPLETE: the backings are exchanged in one update (R187). -/
def Dev.migrationComplete (t i : Nat) (d : Dev) : Dev :=
  match Tab.get d.binder.migrations i with
  | none => d
  | some m =>
    if m.phase ≠ 2 ∨ d.dualsOpen m.source ∨ d.lostWork m.source then d else
    let x := d.ext m.source
    let y := d.ext m.dest
    let d := (d.setExt m.source { x with
      port := y.port, ld := y.ld, dpaUnit := y.dpaUnit, poisonCapable := y.poisonCapable, migrating := false, migIndex := 0 }).setExt
      m.dest { y with
        port := x.port, ld := x.ld, dpaUnit := x.dpaUnit, poisonCapable := x.poisonCapable, migrating := false, migIndex := 0
        state := if m.zero then 7 else 2 }
    let d := d.releaseHeld i
    let d := { d with binder := { d.binder with migrations := Tab.erase d.binder.migrations i } }
    let d := if m.zero then d.postDesc m.queue (d.zeroDesc m.dest) 1 else d
    let mine (r : Run) : Bool := decide (r.purpose = 2) && decide (faExtent r.desc.src = m.source)
    let ended := d.ladles.runs.filter mine
    let d := { d with ladles := { d.ladles with runs := d.ladles.runs.filter (fun r => !mine r) } }
    let d := ended.foldl (fun (d : Dev) (r : Run) => d.complete t r.pair r.order { status := 0, tag := r.desc.tag } r.desc.irq) d
    (d.finish t (· = Work.migrate m.source) .ok []).later .recheck

/-- Migrations that name a removed port end: its destination's, or its source's, loss (R189). -/
def Dev.portMigrations (t p : Nat) (d : Dev) : Dev :=
  d.binder.migrations.foldl (fun (d : Dev) x =>
    if (d.ext x.2.dest).port = p then d.abandon t x.1 6 .targetLost
    else if (d.ext x.2.source).port = p then d.abandon t x.1 2 .targetLost
    else d) d

end Sys2Proof.Machine
end

