-- ==== Sys2Proof/Machine/Owners.lean ====
section
/-! DEFINITION. Bindings across the fabric: the manager applies them at the owners of the extents and at the instance's device (R171,
R172, R175 to R177, R376). -/
namespace Sys2Proof.Machine
open Sys2Proof

/-! ### The owner's part

A window parameter of the acting primary's commands names a member by its high byte, none being the primary itself, and an extent
number of a migration or a zeroing may carry its owner's chain address in bits [22:18] as a fabric extent does (DESIGN CHOICE, log
entry 90). -/

/-- The first extent of a list that fails its check at its owner. -/
def Dev.ownRefusal (d : Dev) (kind who : Nat) (list : List Nat) : Option Status :=
  if list.any (fun x => ¬ d.ownExtent x) then some .badParam
  else ((d.bindRefusal kind list).or (d.bindCounts kind list)).or
    (if kind = 2 ∧ (d.slotOfChain who).isNone then some .noResource else none)

/-- Extents of this device are being unbound from an instance of the device at `who`: the checks of R175. -/
def Dev.ownBegin (force : Bool) (list : List Nat) (d : Dev) : Dev × Result :=
  if list.any (fun x => ¬ d.ownExtent x) then (d, .err .badParam)
  else if list.any (fun x => (d.ext (fxExtent x)).migrating) then (d, .err .busy)
  else if ¬ force ∧ list.any (fun x => decide ((d.ext (fxExtent x)).state = 6)) then (d, .err .notPermitted)
  else
    let d := { d with binder := { d.binder with remoteUnbinds := d.binder.remoteUnbinds ++ list } }
    (list.foldl (fun (d : Dev) x => d.modOwn x (fun e => { e with unbinding := true })) d, .final .ok [])

/-- The manager's unbindings of extents of this device from another device's instance are over, one for each extent named. -/
def Dev.forgetUnbinds (list : List Nat) (d : Dev) : Dev :=
  { d with binder := { d.binder with remoteUnbinds := list.foldl (fun l x => l.erase x) d.binder.remoteUnbinds } }

/-- The unbinding of extents of this device from another device's instance is given up. -/
def Dev.ownKeep (list : List Nat) (d : Dev) : Dev :=
  list.foldl (fun (d : Dev) x => d.clearUnbinding x) (d.forgetUnbinds list)

/-- Extents of this device lose a binding of an instance of the device at `who`: recalls where it is the last, then step 4 of R176. -/
def Dev.ownDrop (t who : Nat) (zero command : Bool) (list : List Nat) (d : Dev) : Dev × Result :=
  let id := d.binder.nextId
  let u : Unbinding := {
    id, vi := 64, slots := [], waiting := [], finishing := list.map (fun x => (0, x)), zero, command, member := who, list }
  let d := { d.forgetUnbinds list with binder := { (d.forgetUnbinds list).binder with
    nextId := id + 1, unbindings := d.binder.unbindings ++ [u] } }
  ((list.foldl (fun (d : Dev) x => (d.modOwn x (fun e => { e with unbinding := true })).scanExtent t 64 x) d).later .recheck,
    .run (.unbind id))

/-- An owner's part of an operation for instance vi of the device at `who`. -/
def Dev.ownerPart (t who vi op : Nat) (list : List Nat) (d : Dev) : Dev × Result :=
  match op with
  | 4 => (list.foldl (fun (d : Dev) x => d.untake who x false) d, .final .ok [])
  | 5 => (list.foldl (fun (d : Dev) x => d.untake who x true) d, .final .ok [])
  | 6 => d.ownBegin false list
  | 7 => d.ownBegin true list
  | 8 => (d.ownKeep list, .final .ok [])
  | 9 => d.ownDrop t who false true list
  | 10 => d.ownDrop t who true true list
  | kind =>
    if kind = 0 ∨ 3 < kind then (d, .err .badParam) else
    match d.ownRefusal kind who list with
    | some st => (d, .err st)
    | none =>
      let (d, fresh) := d.takeOwn kind who vi list
      (d, .final .ok (bitmapBytes fresh))

/-- Binding slots of a member that joins: a transfer of step 3 of R398 makes them VALID (log entry 150). -/
def Dev.loadSlots (w off : Nat) (list : List Nat) (d : Dev) : Dev × Result :=
  let x := d.win w
  (list.zipIdx.foldl (fun (d : Dev) y =>
    d.setSlot (x.slotBase + off + y.2) { valid := true, chain := fxChain y.1, extent := fxExtent y.1 }) d, .final .ok [])

/-! ### An instance of a member -/

/-- The member a window parameter names: none for this device itself. -/
def Dev.memberOf (d : Dev) (w : Nat) : Option Nat := if w / 256 = 0 ∨ w / 256 = d.chainAddr then none else some (w / 256)

/-- The status with which the manager refuses a member. -/
def Dev.memberRefusal (d : Dev) (a : Nat) : Option Status :=
  if 16 < a then some .badParam else if ¬ d.acting then some .notPermitted else if ¬ d.alive a then some .targetLost else none

/-- Replace a binding. -/
def Dev.setBinding (b : Binding) (d : Dev) : Dev :=
  { d with binder := { d.binder with bindings := d.binder.bindings.map (fun x => if x.id = b.id then b else x) } }

/-- The owners have taken their parts: the member runs EXTENT_BIND on its window. -/
def Dev.passBinding (t : Nat) (b : Binding) (d : Dev) : Dev :=
  let x := Tab.getD (d.copyOf b.member).windows b.window {}
  let id := d.silek.nextId
  let b : Binding := { b with passed := true, asked := [id] }
  let d := d.setBinding b
  d.sendCommand t b.member 0x220 1 (bindPayload b.window (b.slots.headD 0 - x.slotBase) b.kind b.list)

/-- EXTENT_BIND on a window of a member: the manager's checks and its own extents, the other owners, then the member. -/
def Dev.bindMember (t a w off n kind : Nat) (list : List Nat) (d : Dev) : Dev × Result :=
  match d.memberRefusal a with
  | some st => (d, .err st)
  | none =>
  let c := d.copyOf a
  let x := Tab.getD c.windows w {}
  let slots := (List.range n).map (fun i => x.slotBase + off + i)
  let own := list.filter (fun y => d.ownExtent y)
  if n < 1 ∨ 64 < n ∨ list.length ≠ n ∨ list.any (fun y => decide (2 ^ 23 ≤ y)) then (d, .err .badParam)
  else if ¬ x.enabled ∨ x.kind + 1 ≠ kind ∨ x.slotCount < off + n then (d, .err .badParam)
  else if slots.any (fun k => (Tab.getD c.slots k {}).valid ||
      d.binder.bindings.any (fun b => decide (b.member = a) && b.slots.contains k)) then (d, .err .busy)
  else match (d.bindRefusal kind list).or (d.bindCounts kind list) with
  | some st => (d, .err st)
  | none =>
    if kind = 2 ∧ d.mode = 5 ∧ d.rd Memb.RESYNC_PHASE ≠ 4 ∧ own ≠ [] then (d, .err .notPermitted)
    else if kind = 2 ∧ own ≠ [] ∧ (d.slotOfChain a).isNone then (d, .err .noResource)
    else
      let (d, fresh) := d.takeOwn kind a x.vi list
      let id := d.binder.nextId
      let b : Binding := { id, window := w, slots, fresh, list, kind, member := a }
      let (d, asked) := ({ d with binder := { d.binder with nextId := id + 1 } }).askOwners t a x.vi kind list
        ((d.otherOwners list).filter (fun c => c ≠ a))
      let d := { d with binder := { d.binder with bindings := d.binder.bindings ++ [{ b with asked }] } }
      (if asked.isEmpty then d.passBinding t b else d, .run (.bind id))

/-- Items of a bitmap (R410). -/
def bitmapOf (n : Nat) (p : List Byte) : List Bool := (List.range n).map (fun i => decide (fieldOf (leNat p) i 1 = 1))

/-- What an owner says of its extents joins what is known of all of them. -/
def mergeFresh (c : Nat) : List Bool → List (Nat × Bool) → List Bool
  | _, [] => []
  | bits, (x, f) :: l => if fxChain x = c then bits.headD false :: mergeFresh c bits.tail l else f :: mergeFresh c bits l

/-- Extents of a binding on a member's window that are not bound after all: this device and the other owners reverse step 2; the
member has done so for its own. -/
def Dev.reverseBinding (t : Nat) (b : Binding) (who : Nat) (accepted : List Bool) (d : Dev) : Dev :=
  let xs := (((b.list.zip b.fresh).zip (accepted ++ List.replicate b.list.length false)).filter (fun y => ¬ y.2)).map (·.1)
  let d := xs.foldl (fun (d : Dev) x => d.untake who x.1 x.2) d
  d.declineAt t who xs b.taken

/-- A binding leaves with a reply. -/
def Dev.closeBinding (t : Nat) (b : Binding) (st : Status) (payload : List Byte) (d : Dev) : Dev :=
  ({ d with binder := { d.binder with bindings := d.binder.bindings.filter (fun x => x.id ≠ b.id) } } : Dev).finish t
    (· = Work.bind b.id) st payload

/-- The copy of a member's binding slots takes what changed. -/
def Dev.copySlots (a : Nat) (xs : List (Nat × BindSlot)) (d : Dev) : Dev :=
  let c := d.copyOf a
  d.setCopy a { c with slots := xs.foldl (fun (s : Tab BindSlot) x => Tab.put s x.1 x.2 {}) c.slots }

/-- A reply for a binding: an owner's, or the member's. -/
def Dev.bindReply (t : Nat) (b : Binding) (c : SentCommand) (st : Status) (payload : List Byte) (d : Dev) : Dev :=
  let who := if b.member = 0 then d.chainAddr else b.member
  if b.passed then
    let acc : List Bool := match st with
      | .ok => b.slots.map (fun _ => true)
      | .aborted => bitmapOf b.slots.length payload
      | .timeout => bitmapOf b.slots.length payload
      | _ => b.slots.map (fun _ => false)
    let bound := (((b.slots.zip b.list).zip acc).filter (·.2)).map (fun y =>
      (y.1.1, ({ valid := true, chain := fxChain y.1.2, extent := fxExtent y.1.2 } : BindSlot)))
    ((d.reverseBinding t b who acc).copySlots b.member bound).closeBinding t b st
      (if st = .aborted ∨ st = .timeout then bitmapBytes acc else [])
  else
    let b := { b with asked := b.asked.filter (fun x => x ≠ c.id) }
    let b := if st = .ok then
        { b with taken := b.taken ++ [c.dst], fresh := mergeFresh c.dst (bitmapOf 64 payload) (b.list.zip b.fresh) }
      else { b with failed := b.failed.or (some st) }
    let d := d.setBinding b
    if b.asked ≠ [] then d
    else match b.failed with
    | some st => (d.reverseBinding t b who []).closeBinding t b st []
    | none =>
      if b.member ≠ 0 then d.passBinding t b
      else match d.offer b with
      | (d, .final st p) => d.closeBinding t b st p
      | (d, _) => d

/-! ### EXTENT_UNBIND on a member's window -/

/-- The owners agree: the member runs EXTENT_UNBIND on its window. -/
def Dev.passUnbinding (t : Nat) (u : Unbinding) (d : Dev) : Dev :=
  let x := Tab.getD (d.copyOf u.member).windows u.window {}
  let id := d.silek.nextId
  (d.setUnbinding { u with stage := 1, asked := [id] }).sendCommand t u.member 0x221 1
    (leBytes 2 u.window ++ leBytes 2 (u.slots.headD 0 - x.slotBase) ++ leBytes 2 u.slots.length ++ leBytes 1 (flagBit u.force) ++
      leBytes 1 (flagBit u.zero))

/-- EXTENT_UNBIND on a window of a member. -/
def Dev.unbindMember (t a w off n : Nat) (force zero : Bool) (d : Dev) : Dev × Result :=
  match d.memberRefusal a with
  | some st => (d, .err st)
  | none =>
  let c := d.copyOf a
  let x := Tab.getD c.windows w {}
  let slots := (List.range n).map (fun i => x.slotBase + off + i)
  let list := slots.map (fun k => (Tab.getD c.slots k {}).fx)
  if n < 1 ∨ 64 < n ∨ ¬ x.enabled ∨ x.slotCount < off + n then (d, .err .badParam)
  else if slots.any (fun k => ¬ (Tab.getD c.slots k {}).valid) then (d, .err .badParam)
  else if d.binder.unbindings.any (fun u => u.member = a ∧ u.slots.any (fun k => slots.contains k)) then (d, .err .busy)
  else match d.ownBegin force (list.filter (fun y => d.ownExtent y)) with
  | (d, .final .ok _) =>
    let id := d.binder.nextId
    let u : Unbinding := { id, vi := 64, slots, waiting := [], zero, list, window := w, force, member := a, stage := 0 }
    let (d, asked) := ({ d with binder := { d.binder with nextId := id + 1 } }).askOwners t a x.vi (if force then 7 else 6) list
      ((d.otherOwners list).filter (fun c => c ≠ a ∧ d.alive c))
    let d := { d with binder := { d.binder with unbindings := d.binder.unbindings ++ [{ u with asked }] } }
    (if asked.isEmpty then d.passUnbinding t u else d, .run (.unbind id))
  | (d, r) => (d, r)

/-- Extents of an unbinding stay bound: this device's, and the other owners', are UNBINDING no longer. -/
def Dev.keepBound (t : Nat) (u : Unbinding) (list owners : List Nat) (d : Dev) : Dev :=
  let own := list.filter (fun x => d.ownExtent x)
  let d := if u.member = 0 then own.foldl (fun (d : Dev) x => d.clearUnbinding x) d else d.ownKeep own
  d.tellOwners t (d.whose u) 8 list owners

/-- An unbinding leaves with a reply. -/
def Dev.closeUnbinding (t : Nat) (u : Unbinding) (st : Status) (payload : List Byte) (d : Dev) : Dev :=
  ({ d with binder := { d.binder with unbindings := d.binder.unbindings.filter (fun x => x.id ≠ u.id) } } : Dev).finish t
    (· = Work.unbind u.id) st payload

/-- The member has run its part: the extents released lose the binding at this device and at the other owners, the others keep it. -/
def Dev.memberUnbound (t : Nat) (u : Unbinding) (st : Status) (payload : List Byte) (d : Dev) : Dev :=
  let free : List Bool := match st with
    | .ok => u.slots.map (fun _ => true)
    | .timeout => bitmapOf u.slots.length payload
    | _ => u.slots.map (fun _ => false)
  let all : List ((Nat × Nat) × Bool) := (u.slots.zip u.list).zip free
  let gone : List (Nat × Nat) := (all.filter (fun y => y.2)).map (·.1)
  let kept := (all.filter (fun y => ¬ y.2)).map (fun y => y.1.2)
  let d := (d.keepBound t u kept u.began).copySlots u.member (gone.map (fun y => (y.1, {})))
  if st ≠ .ok ∧ st ≠ .timeout then d.closeUnbinding t u st []
  else
    let own : List (Nat × Nat) := gone.filter (fun y => d.ownExtent y.2)
    let others : List Nat := (gone.map (·.2)).filter (fun x => ¬ d.ownExtent x ∧ fxChain x ≠ u.member)
    let (d, asked) := d.askOwners t u.member 64 (if u.zero then 10 else 9) others ((d.otherOwners others).filter (fun c => d.alive c))
    let d := d.forgetUnbinds (own.map (fun y => y.2))
    let u := { u with stage := 2, asked, finishing := own, released := gone.map (·.1), timedOut := decide (st = .timeout) }
    let d := (own.foldl (fun (d : Dev) y => d.scanExtent t 64 y.2) (d.setUnbinding u)).later .recheck
    d.unbindEnd t u

/-- A reply for an unbinding: an owner's, or the member's. -/
def Dev.unbindReply (t : Nat) (u : Unbinding) (c : SentCommand) (st : Status) (payload : List Byte) (d : Dev) : Dev :=
  let u := { u with asked := u.asked.filter (fun x => x ≠ c.id) }
  match u.stage with
  | 0 =>
    let u := if st = .ok then { u with began := u.began ++ [c.dst] } else { u with failed := u.failed.or (some st) }
    let d := d.setUnbinding u
    if u.asked ≠ [] then d
    else (match u.failed with
      | some st => ((d.setUnbinding { u with stage := 2 }).keepBound t u u.list u.began).closeUnbinding t u st []
      | none =>
        if u.member ≠ 0 then d.passUnbinding t u
        else match d.startUnbind t u with
        | (d, .final st p) => d.closeUnbinding t u st p
        | (d, _) => d)
  | 1 => d.memberUnbound t u st payload
  | _ => (d.setUnbinding u).unbindEnd t u

/-- A reply to an owner's part or to a member's (R426). -/
def Dev.ownerReply (t : Nat) (c : SentCommand) (st : Status) (payload : List Byte) (d : Dev) : Dev :=
  match d.binder.bindings.find? (fun b => b.asked.contains c.id) with
  | some b => d.bindReply t b c st payload
  | none =>
    match d.binder.unbindings.find? (fun u => u.asked.contains c.id) with
    | some u => d.unbindReply t u c st payload
    | none => d

/-- A member reports that its host released an extent by itself (R177): the owner's binding goes (log entry 171). -/
def Dev.noticeRelease (t a : Nat) (data : Nat) (d : Dev) : Dev :=
  let k := fieldOf data 32 32
  let b := Tab.getD (d.copyOf a).slots k {}
  if ¬ d.acting ∨ a = d.chainAddr ∨ ¬ b.valid then d else
  let d := d.copySlots a [(k, {})]
  if d.ownExtent b.fx then (d.ownDrop t a false false [b.fx]).1
  else if fxChain b.fx = a then d else d.tellOwners t a 9 [b.fx] [fxChain b.fx]

/-! ### The commands of group 0x02xx at the manager -/

/-- EXTENT_BIND: an owner's part, a transfer to a member that joins, or a bind on a window of this device or of a member. -/
def Dev.bindAt (t w off n kind : Nat) (list : List Nat) (member : Bool) (d : Dev) : Dev × Result :=
  if w = 0xffff ∧ member then d.ownerPart t (off % 256) (off / 256) kind list
  else if kind = 0xff ∧ d.memb.rejoining then d.loadSlots w off list
  else match d.memberOf w with
  | some a => d.bindMember t a (w % 256) off n kind list
  | none => d.bind t (w % 256) off n kind list

/-- EXTENT_UNBIND on a window of this device or of a member. -/
def Dev.unbindAt (t w off n : Nat) (force zero : Bool) (d : Dev) : Dev × Result :=
  match d.memberOf w with
  | some a => d.unbindMember t a (w % 256) off n force zero
  | none => d.unbind t (w % 256) off n force zero

/-- Pass a command to the member that is to run it; its reply is the reply. -/
def Dev.passOn (t a op : Nat) (payload : List Byte) (d : Dev) : Dev × Result :=
  match d.memberRefusal a with
  | some st => (d, .err st)
  | none =>
    let n := d.silek.nextId
    (d.sendCommand t a op n payload, .run (.fan n))

/-- WINDOW_CONFIG on a window of this device or of a member. -/
def Dev.windowConfigAt (t w vi region kind base count : Nat) (enable : Bool) (d : Dev) : Dev × Result :=
  match d.memberOf w with
  | some a => d.passOn t a 0x210 (leBytes 2 (w % 256) ++ leBytes 1 vi ++ leBytes 1 region ++ leBytes 1 kind ++ leBytes 4 base ++
      leBytes 2 count ++ leBytes 1 (flagBit enable))
  | none => d.windowConfig (w % 256) vi region kind base count enable

/-- A member has taken a WINDOW_CONFIG: the copy of its windows follows (R376). -/
def Dev.windowTaken (a : Nat) (p : List Byte) (d : Dev) : Dev :=
  let f (i n : Nat) : Nat := leNat ((p.drop i).take n)
  let c := d.copyOf a
  let x : Window := if f 11 1 = 0 then {} else
    { enabled := true, vi := f 2 1, region := f 3 1, kind := f 4 1, slotBase := f 5 4, slotCount := f 9 2 }
  d.setCopy a { c with windows := Tab.put c.windows (f 0 2) x {} }

/-- The owner named by an extent parameter: none for this device itself. -/
def Dev.ownerOf (d : Dev) (x : Nat) : Option Nat := if fxChain x = 0 ∨ d.ownExtent x then none else some (fxChain x)

/-- EXTENT_MIGRATE at the source's owner, which must own the destination (R184). -/
def Dev.migrateAt (t src dst q : Nat) (zero : Bool) (d : Dev) : Dev × Result :=
  if d.ownerOf src ≠ d.ownerOf dst then (d, .err .badParam)
  else match d.ownerOf src with
  | some a => d.passOn t a 0x230 (leBytes 4 (fxExtent src) ++ leBytes 4 (fxExtent dst) ++ leBytes 2 q ++ leBytes 1 (flagBit zero))
  | none => d.migrate (fxExtent src) (fxExtent dst) q zero

/-- EXTENT_MIGRATE_ABORT at the owner. -/
def Dev.migrateAbortAt (t src : Nat) (d : Dev) : Dev × Result :=
  match d.ownerOf src with
  | some a => d.passOn t a 0x231 (leBytes 4 (fxExtent src))
  | none => d.migrateAbort t (fxExtent src)

/-- EXTENT_ZERO at the owner. -/
def Dev.extentZeroAt (t e q : Nat) (d : Dev) : Dev × Result :=
  match d.ownerOf e with
  | some a => d.passOn t a 0x232 (leBytes 4 (fxExtent e) ++ leBytes 2 q)
  | none => d.extentZero (fxExtent e) q

end Sys2Proof.Machine
end

