-- ==== Sys2Proof/Machine/Edge.lean ====
section
/-! DEFINITION. The CXL edge: requests of hosts and Type 2 devices, their admission and ordering, their completions (R62 to R74,
R169, R179, R202 to R207, R244, R267, R323, R332, R357). -/
namespace Sys2Proof.Machine
open Sys2Proof

/-! ### Completions toward an originator (R73, R146, R169, R244, R357) -/

/-- An error record for a completion that a removal caused (R73, R516). -/
def Dev.edgeRecord (t : Nat) (a : Access) (detail : Nat) (d : Dev) : Dev :=
  d.logErr t {
    cls := 0xa, severity := 1, source := 0x20 + (d.ext (faExtent a.fa)).port / 4, access := a.kind.code, master := a.master
    addr := a.fa, detail }

/-- The message still reaches the partner it is addressed to (R179): the port is up in the same incarnation. A message for an older
incarnation is discarded and counted. -/
def Dev.reaches (t p inc : Nat) (d : Dev) : Dev × Bool :=
  if d.rd (Pg.INCARNATION p) ≠ inc then (d.staleMessage t p, false)
  else (d, d.linkUp p && decide (d.rd (Pg.IDE_STATE p) ≠ 3))

/-- Send to the partner of a CXL port: a host, or a Type 2 device. -/
def Dev.ioComplete (p tag status : Nat) (poison : Bool) (bs : List Byte) (d : Dev) : Dev :=
  if d.personality p = 1 then d.emit (.host p (.ioCompletion tag status poison bs))
  else d.emit (.device p (.ioCompletion tag status poison bs))

/-- The access is a read of some kind. -/
def Kind.isRead (k : Kind) : Bool := k == .rdShared || k == .rdOwn || k == .rdNc
/-- The access is a write. -/
def Kind.isWrite (k : Kind) : Bool := k == .wb || k == .wrNc

/-- A CXL.mem request completes toward its host. -/
def Dev.memAnswer (t p tag : Nat) (a : Access) (r : Answer) (d : Dev) : Dev :=
  let d := if r.ending = .targetLost ∨ r.ending = .absent then d.edgeRecord t a (if a.kind.isRead then 1 else 4) else d
  let (d, ok) := d.reaches t p a.inc
  if ¬ ok then d else
  let grant := if a.kind = .rdShared then min 1 r.grant else if r.grant = 0 then 0 else 2
  if a.kind.isRead then
    (if r.ending = .done then d.emit (.host p (.memData tag (if r.poison then 0 else r.data) r.poison (if r.poison then 0 else grant)))
     else d.emit (.host p (.memData tag 0 true 0)))
  else if a.kind = .invOwn then
    (if r.ending ≠ .done then d.emit (.host p (.memCmp tag 0))
     else if r.poison then d.emit (.host p (.memData tag 0 true 0))
     else if r.bare then d.emit (.host p (.memCmp tag 2))
     else d.emit (.host p (.memData tag r.data false 2)))
  else d.emit (.host p (.memCmp tag 0))

/-- Replace a job. -/
def Dev.setJob (j : IoJob) (d : Dev) : Dev :=
  { d with edge := { d.edge with jobs := d.edge.jobs.map (fun x => if x.id = j.id then j else x) } }

/-- The completion status of a CXL.io request for an ending: Successful, Unsupported Request or Completer Abort. -/
def Ending.ioStatus : Ending → Nat
  | .done => 0 | .residue => 0 | .fenced => 0
  | .decodeMiss => 1 | .absent => 1
  | _ => 2

/-- A finished CXL.io job: a non-posted request gets its completion; what waited behind a posted write goes on. -/
def Dev.jobDone (t : Nat) (j : IoJob) (inc : Nat) (d : Dev) : Dev :=
  let d := { d with edge := { d.edge with jobs := d.edge.jobs.filter (fun x => x.id ≠ j.id) } }
  if j.kind = 1 then d.later (.takeHeld j.port) else
  let (d, ok) := d.reaches t j.port inc
  if ¬ ok then d else
  let st := j.ending.ioStatus
  let ep := j.poison || j.ending == .residue || j.ending == .fenced
  let bs : List Byte := if st ≠ 0 then [] else if ep then zeros j.len
    else if j.kind = 2 then leBytes j.len (Tab.getD j.parts 0 0)
    else ((rangeParts 66 j.addr j.len 0).zipIdx.map (fun x =>
      leBytes x.1.2.2 (Tab.getD j.parts x.2 0 / 2 ^ (8 * (x.1.1 % 64))))).flatten
  d.ioComplete j.port j.tag st ep bs

/-- A line of a CXL.io job ended. -/
def Dev.ioAnswer (t job line : Nat) (a : Access) (r : Answer) (d : Dev) : Dev :=
  match d.edge.jobs.find? (fun x => x.id = job) with
  | none => d
  | some j =>
    let d := if r.ending = .targetLost ∨ r.ending = .absent then
        d.edgeRecord t a (if j.kind = 1 then 4 else if r.ending = .absent then 3 else 2)
      else d
    let j := { j with
      left := j.left - 1, poison := j.poison || r.poison, ending := if j.ending = .done then r.ending else j.ending
      parts := if j.kind = 1 then j.parts else Tab.set j.parts line r.data.toNat }
    let d := d.setJob j
    if j.left = 0 then d.jobDone t j a.inc else d

/-- A request of a QFL peer is answered (R225, R252, R357). -/
def Dev.peerAnswer (t chain op tag e2e : Nat) (a : Access) (r : Answer) (d : Dev) : Dev :=
  let h : QflHdr := {
    src := chain, dst := if d.isHome a.fa then d.homeAddr else d.chainAddr, master := a.master, tag, epoch := d.epoch, e2e }
  let bad := decide (r.ending ≠ .done)
  if op = 9 then
    d.respond t h 3 3 (completionWord 0 (r.poison && !bad) bad :: natWords 2 (if r.poison || bad then 0 else r.data.toNat % 2 ^ 128))
  else if op = 1 ∨ op = 2 ∨ op = 7 then
    d.respond t h 3 1 (completionWord (if r.poison || bad then 0 else r.grant) (r.poison || bad) false ::
      lineUnits (if r.poison || bad then 0 else r.data))
  else if op = 3 ∧ ¬ bad ∧ ¬ r.bare then
    d.respond t h 3 1 (completionWord (if r.poison then 0 else r.grant) r.poison false :: lineUnits (if r.poison then 0 else r.data))
  else d.respond t h 2 1 [completionWord (if bad then 0 else r.grant) false bad]

/-- A request of an exerciser is answered: the responder keeps the holder's state as the grant leaves it (R547). -/
def Dev.exerciserAnswer (a : Access) (r : Answer) (d : Dev) : Dev :=
  match a.slot with
  | none => d
  | some q =>
    let rest := d.exer.holders.filter (fun x => ¬ (x.1 = q ∧ x.2.1 = lineAddr a.fa))
    if r.grant ≠ 0 then { d with exer := { d.exer with holders := rest ++ [(q, lineAddr a.fa, r.grant)] } }
    else if a.kind = .wb ∨ a.kind = .wrNc ∨ a.kind = .evictClean ∨ a.kind = .recall then { d with exer := { d.exer with holders := rest } }
    else if a.kind = .flush ∨ a.kind = .atomic ∨ a.kind = .recallAll then
      { d with exer := { d.exer with holders := d.exer.holders.filter (fun x => x.2.1 ≠ lineAddr a.fa) } }
    else d

/-- An access ends toward its originator. -/
def Dev.answer (t : Nat) (a : Access) (r : Answer) (d : Dev) : Dev :=
  let d := if d.buf.remote.any (fun w => w.id = a.id) then d.remoteGone t a.id (decide (r.ending = .done)) else d
  match a.origin with
  | .mem p tag =>
    let d := d.memAnswer t p tag a r
    if a.kind.isWrite ∧ ¬ d.edge.answers.isEmpty then d.later .passAnswers else d
  | .io job line => d.ioAnswer t job line a r
  | .ladle run piece side line =>
    let d := if r.ending = .targetLost ∨ r.ending = .absent then d.edgeRecord t a 5 else d
    d.ladleAnswer t run piece side line a r
  | .peer chain op tag e2e =>
    match d.agents.peerWrites.find? (fun w => w.access = a.id) with
    | some w =>
      let others := d.agents.peerWrites.erase w
      if w.left = [] then
        (({ d with agents := { d.agents with peerWrites := others } }).edgeRecord t a 6).peerAnswer t chain op tag e2e a
          { r with ending := .targetLost }
      else { d with agents := { d.agents with peerWrites := others ++ [{ w with answer := some (a, r) }] } }
    | none =>
    let d := if r.ending = .targetLost ∨ r.ending = .absent then d.edgeRecord t a 6 else d
    d.peerAnswer t chain op tag e2e a r
  | .exerciser => d.exerciserAnswer a r
  | _ => d

/-! ### Stages 2 and 3 (R20) -/

/-- The permissions an access needs (R354): 1 READ, 2 WRITE, 4 ATOMIC. -/
def Kind.need : Kind → Nat
  | .rdOwn => 3
  | .invOwn => 2
  | .wb => 2
  | .wrNc => 2
  | .atomic => 4
  | _ => 1

/-- The Gate does not check an access: the Churn's, and fabric-internal ones of peers (R350). -/
def Access.unchecked (a : Access) : Bool :=
  decide (a.master / 4096 = 3) || (decide (a.master / 4096 = 5) && decide (2048 ≤ a.master % 4096))

/-- A host whose link negotiated CXL 2.0 or 1.1: its accesses to shared extents complete with poison (R68). -/
def Dev.olderHost (d : Dev) (p : Nat) : Bool :=
  decide (d.personality p = 1) && (decide (d.rd (Pg.CXL_GEN p) = 1) || decide (d.rd (Pg.CXL_GEN p) = 2))

/-- Stages 2 and 3 for an access: decoding, the sharer slot of a caching host, the Gate check; then stage 4. -/
def Dev.launch (t : Nat) (a : Access) (d : Dev) : Dev :=
  let check (a : Access) (d : Dev) : Dev :=
    let a := { a with ruleEpoch := d.rd GateR.RULE_EPOCH }
    if a.unchecked then d.later (.route a) else
    match d.gateCheck t { space := 0, vi := 0, master := a.master, addr := a.fa } a.kind.need a.kind.code with
    | (d, some rule) => d.later (.answer a { ending := .gateDenied rule })
    | (d, none) => d.later (.route a)
  match a.hpa with
  | none => check a d
  | some (vi, hpa) =>
    match d.stage2 t vi a.kind.code a.master hpa d.serves with
    | (d, none) => d.later (.answer a { ending := .decodeMiss })
    | (d, some (fa, kind)) =>
      let a := { a with fa }
      match a.origin with
      | .mem p _ =>
        if kind ≠ 1 then check { a with slot := none, keep := 0 } d
        else if d.olderHost p then d.later (.answer a { poison := true })
        else
          match d.slotOfPort p with
          | some s => check { a with slot := some s } d
          | none =>
            let k := if a.kind = .rdShared ∨ a.kind = .rdOwn then Kind.rdNc else if a.kind = .invOwn then Kind.flush else a.kind
            check { a with kind := k, keep := 0 } d
      | _ => check a d

/-! ### Admission and ordering (R267, R332) -/

/-- The instance a port's traffic belongs to: a host port's, or a Type 2 device's; none joins the instance of a CXL 1.1 host (R66). -/
def Dev.trafficVi (d : Dev) (p : Nat) : Option Nat :=
  if d.personality p = 1 then d.viOfPort p
  else if (d.port p).type2 then (d.viOfType2 p).filter (fun vi => decide (d.hostGen vi ≠ 1)) else none

/-- Master ID of a port's traffic. -/
def Dev.portMaster (d : Dev) (p vi : Nat) : Nat := if d.personality p = 1 then masterHost p vi else masterDevice p 0

/-- Admission is held for an instance (R331, R332): while it is quiesced or reset; a host function reset leaves CXL.mem alone (R335). -/
def Dev.holding (d : Dev) (vi : Nat) (mem : Bool) : Bool :=
  let i := d.instOf vi
  decide (2 ≤ d.rd (Vi.STATE vi)) && !(mem && decide (i.resetKind = 2) && !i.managed)

/-- The request is a posted write: to memory, or of a queue doorbell. -/
def isPosted : Instr → Bool
  | .mwr _ _ _ _ _ => true
  | .sqTail _ _ _ => true
  | .cqHead _ _ _ => true
  | _ => false

/-- A posted write of the port is not yet accepted. -/
def Dev.postedOpen (d : Dev) (p : Nat) : Bool :=
  d.edge.jobs.any (fun j => decide (j.port = p) && decide (j.kind = 1)) ||
    d.edge.held.any (fun h => decide (h.port = p) && isPosted h.cmd)

/-- The port at which a doorbell of an instance waits: one with a posted write still to be accepted (R267), or its host port while
admission is stopped. -/
def Dev.doorbellPort (d : Dev) (vi : Nat) : Option Nat :=
  match [(d.instOf vi).portA, (d.instOf vi).portB].filterMap id |>.find? (fun p => d.postedOpen p) with
  | some p => some p
  | none => if d.stopped then d.hostPortOf vi else none

/-- The request must wait: admission is stopped or held, or an earlier posted write of the port stands before it. -/
def Dev.mustHold (d : Dev) (p vi : Nat) (c : Instr) (stopped : Bool) : Bool :=
  stopped || match c with
  | .memrd _ _ _ _ => d.holding vi true
  | .meminv _ _ _ _ => d.holding vi true
  | .memspecrd _ _ => d.holding vi true
  | .mrd _ _ _ _ => d.holding vi false || d.postedOpen p
  | .atomicop _ _ _ _ _ _ _ => d.holding vi false || d.postedOpen p
  | .mwr _ _ _ relaxed _ => d.holding vi false || (d.postedOpen p && !(relaxed && d.flag Glob.RO_HONOUR))
  | _ => false

/-- A CXL.mem request enters stage 2. -/
def Dev.memRequest (t p vi tag hpa : Nat) (kind : Kind) (keep : Nat) (be : Enables) (data : Line) (poison : Bool) (d : Dev) : Dev :=
  let (id, d) := d.newId
  d.later (.launch {
    id, kind, origin := .mem p tag, master := d.portMaster p vi, hpa := some (vi, hpa), inc := d.rd (Pg.INCARNATION p), be, data
    poison, keep, time := t })

/-- A CXL.io request enters stage 2: one check on its first byte, then one access per line. `addr` is its host physical address. -/
def Dev.ioRequest (t p vi tag addr len kind : Nat) (bs : List Byte) (poison : Bool) (atom : Option AtomArgs) (d : Dev) : Dev :=
  let master := d.portMaster p vi
  let inc := d.rd (Pg.INCARNATION p)
  let k := if kind = 0 then Kind.rdNc else if kind = 1 then Kind.wrNc else Kind.atomic
  let parts := if kind = 2 then [(addr, 0, len)] else rangeParts 66 addr len 0
  let job : IoJob := { id := d.edge.nextJob, port := p, tag, kind, left := parts.length, addr, len }
  let d := { d with edge := { d.edge with jobs := d.edge.jobs ++ [job], nextJob := job.id + 1 } }
  if parts = [] then d.jobDone t job inc else
  let stop (e : Ending) (d : Dev) : Dev := d.jobDone t { job with left := 0, ending := e } inc
  match d.stage2 t vi k.code master addr d.serves with
  | (d, none) => stop .decodeMiss d
  | (d, some (fa, shared)) =>
    if shared = 1 ∧ d.olderHost p then d.jobDone t { job with left := 0, poison := true } inc else
    match d.gateCheck t { space := 0, vi := 0, master, addr := fa } k.need k.code with
    | (d, some rule) => stop (.gateDenied rule) d
    | (d, none) =>
      parts.zipIdx.foldl (fun (d : Dev) y =>
        let (a, off, n) := y.1
        let (id, d) := d.newId
        let be := if kind = 1 then enablesAt (a % 64) n else BitVec.allOnes 64
        d.later (.route {
          id, kind := k, origin := .io job.id y.2, master, hpa := some (vi, a), fa := fa + off, inc, be
          data := bytesLine (a % 64) ((bs.drop off).take n), poison, atom, time := t, ruleEpoch := d.rd GateR.RULE_EPOCH })) d

/-- The host physical address a CXL.io request names: through the atomic window for a host (R323), as it stands for a Type 2 device. -/
def Dev.ioAddr (d : Dev) (p vi addr : Nat) : Option Nat :=
  if d.personality p = 1 then
    (if d.flag (Vi.ATOMIC_EN vi) then some (d.rd (Vi.ATOMIC_HPA vi) * 2 ^ 36 + addr % 2 ^ 36) else none)
  else some addr

/-- A request that an instance admits. -/
def Dev.hostRequest (t p vi : Nat) (c : Instr) (d : Dev) : Dev :=
  let all := BitVec.allOnes 64
  match c with
  | .memrd _ tag hpa keep =>
    d.memRequest t p vi tag hpa (if keep = 1 then .rdShared else if keep = 2 then .rdOwn else .rdNc) 0 all 0 false
  | .meminv _ tag hpa keep => d.memRequest t p vi tag hpa (if keep = 2 then .invOwn else .flush) 0 all 0 false
  | .memclnevct _ tag hpa => d.memRequest t p vi tag hpa .evictClean 0 all 0 false
  | .memwr _ tag hpa keep be data poison => d.memRequest t p vi tag hpa .wrNc keep be data poison
  | .memspecrd _ hpa =>
    (match d.stage2 t vi 7 (d.portMaster p vi) hpa d.serves with
     | (d, none) => d
     | (d, some (fa, _)) => (d.gateCheck t { space := 0, vi := 0, master := d.portMaster p vi, addr := fa } 1 7).1)
  | .mrd _ tag addr len =>
    (match d.ioAddr p vi addr with
     | some x => d.ioRequest t p vi tag x len 0 [] false none
     | none => d.ioComplete p tag 1 false [])
  | .mwr _ addr bs _ poison =>
    (match d.ioAddr p vi addr with
     | some x => d.ioRequest t p vi 0 x bs.length 1 bs poison none
     | none => d)
  | .atomicop _ tag addr op size a b =>
    (if size = 4 ∨ ¬ (1 ≤ op ∧ op ≤ 3) ∨ ¬ (size = 8 ∨ (size = 16 ∧ op = 3)) ∨ d.personality p ≠ 1 then d.ioComplete p tag 1 false []
     else
      match d.ioAddr p vi addr with
      | none => d.ioComplete p tag 1 false []
      | some x =>
        if x % size ≠ 0 then d.inc (Pg.ATOMIC_MISALIGNED p)
        else d.ioRequest t p vi tag x size 2 [] false (some { op := if size = 16 then 4 else op, a, b }))
  | _ => d

/-- A request for which there is no hierarchy: no instance, or an UNCONFIGURED one (R326). -/
def Dev.noHierarchy (p : Nat) (c : Instr) (d : Dev) : Dev :=
  match c with
  | .memrd _ tag _ _ => d.emit (.host p (.memData tag 0 true 0))
  | .meminv _ tag _ _ => d.emit (.host p (.memCmp tag 0))
  | .memclnevct _ tag _ => d.emit (.host p (.memCmp tag 0))
  | .memwr _ tag _ _ _ _ _ => d.emit (.host p (.memCmp tag 0))
  | .mrd _ tag _ _ => d.ioComplete p tag 1 false []
  | .atomicop _ tag _ _ _ _ _ => d.ioComplete p tag 1 false []
  | _ => d

/-- A request whose packet buffer word is damaged (R524): its data goes on with poison, and a request without data completes with an
error. -/
def Dev.damagedRequest (t p vi : Nat) (c : Instr) (d : Dev) : Dev :=
  match c with
  | .memwr q tag hpa keep be data _ => d.hostRequest t p vi (.memwr q tag hpa keep be data true)
  | .mwr q addr bs relaxed _ => d.hostRequest t p vi (.mwr q addr bs relaxed true)
  | .mrd _ tag _ _ => d.ioComplete p tag 2 false []
  | .atomicop _ tag _ _ _ _ _ => d.ioComplete p tag 2 false []
  | .memspecrd _ _ => d
  | _ => d.noHierarchy p c

/-- An admitted request passes its packet buffer. -/
def Dev.admitRequest (t p vi : Nat) (c : Instr) (d : Dev) : Dev :=
  match d.readArray t 3 p (0x20 + p / 4) (fun _ => true) with
  | (d, true) => d.damagedRequest t p vi c
  | (d, false) => d.hostRequest t p vi c

/-- Stage 1 for a request, with admission stopped or not. -/
def Dev.takeIn (t p : Nat) (c : Instr) (stopped : Bool) (d : Dev) : Dev :=
  if ¬ (d.isHostPort p || d.isDevicePort p) ∨ ¬ d.linkUp p ∨ d.rd (Pg.IDE_STATE p) = 3 then d
  else if d.flaws.contains (.credit p) then
    -- the credit counters fail: the link goes down, which removes the agent (R72, R256)
    (((d.residueFails (.credit p)).1).residueError t (Pg.RESIDUE_PORT p) (0x20 + p / 4) 0 0xffff 0 4).later (.remove p)
  else
  match d.trafficVi p with
  | none => d.noHierarchy p c
  | some vi =>
    if d.rd (Vi.STATE vi) = 0 then d.noHierarchy p c
    else if d.mustHold p vi c stopped then { d with edge := { d.edge with held := d.edge.held ++ [HeldReq.mk p c (!d.stopped)] } }
    else d.admitRequest t p vi c

/-- Stage 1: a request arrives at a CXL port (R71, R326, R332). It uses a request credit of the port (R343). -/
def Dev.arrive (t p : Nat) (c : Instr) (d : Dev) : Dev :=
  let out := Tab.getD d.edge.credits p 0
  ({ d with edge := { d.edge with credits := Tab.put d.edge.credits p (out - 1) 0 } }).takeIn t p c d.stopped

/-- A held doorbell goes on, or waits on behind a posted write of its port. -/
def Dev.admitDoorbell (h : HeldReq) (stopped : Bool) (vi q : Nat) (cq : Bool) (v : Nat) (d : Dev) : Dev :=
  if stopped ∨ d.postedOpen h.port then { d with edge := { d.edge with held := d.edge.held ++ [h] } } else d.later (.doorbell vi q cq v)

/-- Requests held at a port are looked at again, oldest first. A posted write that was acknowledged before admission stopped is still
accepted (R286). -/
def Dev.admitHeld (t p : Nat) (d : Dev) : Dev :=
  let mine := d.edge.held.filter (fun h => h.port = p)
  let d := { d with edge := { d.edge with held := d.edge.held.filter (fun h => h.port ≠ p) } }
  mine.foldl (fun (d : Dev) h =>
    let stopped := d.stopped && !(h.acked && isPosted h.cmd)
    match h.cmd with
    | .sqTail vi q v => d.admitDoorbell h stopped vi q false v
    | .cqHead vi q v => d.admitDoorbell h stopped vi q true v
    | c => d.takeIn t p c stopped) d

/-- The host command is CXL.mem. -/
def Instr.isMem : Instr → Bool
  | .memrd _ _ _ _ => true
  | .meminv _ _ _ _ => true
  | .memclnevct _ _ _ => true
  | .memwr _ _ _ _ _ _ _ => true
  | .memspecrd _ _ => true
  | _ => false

/-- A held request that a reset completes toward its host (R336), with its record. -/
def Dev.completeHeld (t vi : Nat) (h : HeldReq) (d : Dev) : Dev :=
  let record (access detail addr : Nat) (d : Dev) : Dev := d.logErr t {
    cls := 0xa, severity := 1, source := 0x20 + h.port / 4, access, master := d.portMaster h.port vi, addr, detail }
  match h.cmd with
  | .memrd _ tag hpa _ => (record 7 1 hpa d).emit (.host h.port (.memData tag 0 true 0))
  | .meminv _ tag hpa _ => (record 4 4 hpa d).emit (.host h.port (.memCmp tag 0))
  | .mrd _ tag addr _ => (record 7 2 addr d).ioComplete h.port tag 2 false []
  | .atomicop _ tag addr _ _ _ _ => (record 9 2 addr d).ioComplete h.port tag 2 false []
  | .mwr _ addr _ _ _ => record 8 4 addr d
  | _ => d

/-! ### Snoop responses (R205 to R207) -/

/-- The snoop of a host port's present incarnation outstanding under a tag. -/
def Dev.snoopOf (d : Dev) (p tag : Nat) : Option HostSnoop :=
  d.edge.snoops.find? (fun x => x.port = p ∧ x.tag = tag ∧ x.incarnation = d.rd (Pg.INCARNATION p))

/-- Writebacks of a line by a host that its port or a slice keeps (R205). -/
def Dev.writesBefore (d : Dev) (p la : Nat) : List Nat :=
  (d.keptAccesses.filter (fun a => a.kind.isWrite && decide (lineAddr a.fa = la) && (match a.origin with
    | .mem q _ => decide (q = p)
    | _ => false))).map (·.id)

/-- A writeback of the line waits at the port itself, where admission is stopped (R284). -/
def Dev.writeHeld (d : Dev) (p la : Nat) : Bool :=
  d.edge.held.any (fun h => decide (h.port = p) && (match h.cmd with
    | .memwr _ _ hpa _ _ _ _ => decide (hpa / 64 = d.hpaOf ((d.viOfPort p).getD 0) (laFa la) / 64)
    | _ => false))

/-- The line a snoop is for. -/
def Dev.snoopLine (d : Dev) (x : HostSnoop) : Option Nat := (d.tracker x.slice x.tracker).map (·.la)

/-- A snoop response reaches its slice: a BIRsp answers the snoop; a BIConflict is acknowledged once the writeback that the tracker took as
data is completed (R206), and never to a dead slot (R232). -/
def Dev.takeAnswer (t : Nat) (h : HeldAnswer) (d : Dev) : Dev :=
  let x := h.snoop
  match d.tracker x.slice x.tracker, h.keeps with
  | some tr, some k =>
    if ¬ tr.snooped.contains x.slot then d else
    (match d.readTracker t tr with
     | (d, true) => d
     | (d, false) => d.snoopAnswered t tr x.slot k)
  | some tr, none =>
    if d.isDead x.slot then d
    else if 0 < tr.writes ∧ tr.dirty then d.setTracker { tr with conflict := some (x.port, x.tag) }
    else d.emit (.host x.port (.biConflictAck x.tag))
  | none, some _ => d
  | none, none => if d.isDead x.slot then d else d.emit (.host x.port (.biConflictAck x.tag))

/-- A kept snoop response may pass: the writebacks before it have reached their slice or ended, and so have earlier responses. -/
def Dev.answerFree (d : Dev) (h : HeldAnswer) : Bool :=
  let x := h.snoop
  let earlier := d.edge.answers.takeWhile (fun y => y ≠ h)
  !earlier.any (fun y => decide (y.snoop.port = x.port) && decide (y.snoop.tag = x.tag)) &&
    (match d.snoopLine x with
     | some la => !(d.writesBefore x.port la).any (fun i => h.before.contains i) && !d.writeHeld x.port la
     | none => true)

/-- Kept snoop responses that may pass do. -/
def Dev.passFree (t : Nat) (d : Dev) : Dev :=
  d.edge.answers.foldl (fun (d : Dev) h =>
    if d.edge.answers.contains h ∧ d.answerFree h then
      ({ d with edge := { d.edge with answers := d.edge.answers.erase h } }).takeAnswer t h
    else d) d

/-- Writes of a snooped slot that wait at a slice, for a ticket, a weight or a migration, are the snoop's data (R205). -/
def Dev.takeKept (t : Nat) (d : Dev) : Dev :=
  d.keptAccesses.foldl (fun (d : Dev) a =>
    match d.trackerOn (lineAddr a.fa), a.slot with
    | some tr, some q =>
      if ¬ a.kind.isWrite ∨ ¬ tr.snooped.contains q ∨ d.chn.retries.any (fun r => r.acc = a) then d else
      let migrations := d.binder.migrations.map (fun (x : Nat × Migration) => (x.1, { x.2 with held := x.2.held.filter (fun y => y ≠ a) }))
      let d : Dev := { d with
        chn := { d.chn with
          stalled := d.chn.stalled.filter (fun y => y ≠ a), tickets := d.chn.tickets.filter (fun k => k.waiting ≠ some a) }
        binder := { d.binder with migrations } }
      d.takeSnoopData t tr a
    | _, _ => d) d

/-- What waits for the answers of a snooped host goes on (R205, R206). -/
def Dev.passAnswers (t : Nat) (d : Dev) : Dev := (d.takeKept t).passFree t

/-- A snoop response with the writebacks of the line that the host sent before it. -/
def Dev.heldAnswer (d : Dev) (x : HostSnoop) (keeps : Option Nat) : HeldAnswer where
  snoop := x
  keeps := keeps
  before :=
    match d.snoopLine x with
    | some la => d.writesBefore x.port la
    | none => []

/-- A snoop response arrives at its port, which keeps it behind the writebacks of the line that the host sent before it. -/
def Dev.answerSnoop (t : Nat) (x : HostSnoop) (keeps : Option Nat) (d : Dev) : Dev :=
  ({ d with edge := { d.edge with answers := d.edge.answers ++ [d.heldAnswer x keeps] } }).passFree t

/-- BIRSP. One that answers no snoop of the port's present incarnation is discarded and counted (R179). -/
def Dev.birsp (t p tag keeps : Nat) (d : Dev) : Dev :=
  if ¬ d.carries p then d else
  match d.snoopOf p tag with
  | none => d.staleMessage t p
  | some x =>
    ({ d with edge := { d.edge with snoops := d.edge.snoops.filter (fun y => ¬ (y.port = p ∧ y.tag = tag)) } }).answerSnoop t x (some keeps)

/-- BICONFLICT. -/
def Dev.biconflict (t p tag : Nat) (d : Dev) : Dev :=
  if ¬ d.carries p then d else
  match d.snoopOf p tag with
  | none => d.staleMessage t p
  | some x => d.answerSnoop t x none

/-! ### Traffic that passes through (R6, R321) -/

/-- A device port holds a Type 2 device that is up: a slot's assignment alone says nothing of what trained there since (R6). -/
def Dev.type2Up (d : Dev) (p : Nat) : Bool := d.linkUp p && (d.port p).type2

/-- CXL_CACHE: forwarded between a host and the Type 2 device of a virtual downstream port of the same instance; not for CXL 1.1. -/
def Dev.cacheForward (p vport : Nat) (bs : List Byte) (d : Dev) : Dev :=
  if ¬ d.linkUp p ∨ d.rd (Pg.IDE_STATE p) = 3 then d else
  if d.isHostPort p then
    match (d.viOfPort p).bind (fun vi => Tab.get (d.instOf vi).type2 vport) with
    | some q => if d.rd (Pg.CXL_GEN p) ≠ 1 ∧ d.type2Up q ∧ d.rd (Pg.IDE_STATE q) ≠ 3 then d.emit (.device q (.forwarded bs)) else d
    | none => d
  else if d.isDevicePort p ∧ d.type2Up p then
    match (d.viOfType2 p).bind (fun vi => d.hostPortOf vi) with
    | some q => if d.rd (Pg.CXL_GEN q) ≠ 1 ∧ d.linkUp q ∧ d.rd (Pg.IDE_STATE q) ≠ 3 then d.emit (.host q (.forwarded bs)) else d
    | none => d
  else d

/-- Held messages of vectors that are no longer masked are sent (R330). -/
def Dev.sendUnmasked (t vi : Nat) (d : Dev) : Dev :=
  (d.irq.pba.filter (fun k => k / 2048 = vi)).foldl (fun (d : Dev) k =>
    if d.vecMasked vi (k % 2048) then d else d.sendVector t vi (k % 2048)) d

/-- Elements of the hierarchy an instance presents (R320, R66), as CONFIGURATION_WRITE numbers them (log entry 157): 0 the Dynamic Capacity
device, 1 the virtual upstream port, 8 to 15 virtual downstream ports 0 to 7. A CXL 1.1 host sees element 0 alone. -/
def Dev.presents (d : Dev) (vi fn : Nat) : Bool :=
  decide (d.rd (Vi.STATE vi) ≠ 0) &&
    (decide (fn = 0) || (decide (d.hostGen vi ≠ 1) && (decide (fn = 1) || (decide (8 ≤ fn) && decide (fn < 16)))))

/-- Slot Capabilities of a virtual downstream port (R63): Hot-Plug Surprise and Hot-Plug Capable alone. -/
def slotCapabilities : Nat := 0x60
/-- Slot Control bits that exist (R63): those of presence detect, command completed, hot-plug and data link layer state. -/
def slotControls : Nat := 0x1038
/-- The PTM capability of a responder (R60): PTM Responder Capable, PTM Root Capable, Local Clock Granularity 1 ns. -/
def ptmCapability : Nat := 0x106

/-- Something is present at a virtual downstream port: the Dynamic Capacity device unless it is hot-removed, or a Type 2 device. -/
def Dev.vportHolds (d : Dev) (vi k : Nat) : Bool :=
  if k = 0 then !d.binder.hotPlug.any (fun h => h.1 = vi)
  else match Tab.get (d.instOf vi).type2 k with
    | some q => d.type2Up q
    | none => false

/-- A word of an element's configuration space as the host reads it. The offsets of Slot Capabilities, of Slot Control and Status and of
the PTM capability are the model's (DESIGN CHOICE, log entry 157). -/
def Dev.configWord (d : Dev) (vi fn reg : Nat) : Nat :=
  let v := Tab.getD d.edge.config ((vi * 16 + fn) * 4096 + reg) 0
  if ¬ d.presents vi fn then 0
  else if fn < 8 then v
  else if reg = 0x54 then slotCapabilities
  else if reg = 0x58 then v + 2 ^ 22 * flagBit (d.vportHolds vi (fn - 8))
  else if reg = 0x104 then ptmCapability
  else v

/-- What a write leaves in a word: capabilities are read-only, and absent slot controls ignore it (R63). -/
def configKept (fn reg old value : Nat) : Nat :=
  if fn < 8 then value
  else if reg = 0x54 ∨ reg = 0x104 then old
  else if reg = 0x58 then Nat.land value slotControls
  else value

/-- Store a word of the configuration state. -/
def Dev.setConfig (k v : Nat) (d : Dev) : Dev := { d with edge := { d.edge with config := Tab.set d.edge.config k v } }

/-- CONFIGURATION_WRITE: one configuration state of the instance, seen through both ports (R321). -/
def Dev.configWrite (t p fn reg value : Nat) (mask : Option Bool) (d : Dev) : Dev :=
  if ¬ d.isHostPort p ∨ ¬ d.carries p then d else
  match d.viOfPort p with
  | none => d
  | some vi =>
    let fn := fn % 16
    let reg := reg % 4096
    if ¬ d.presents vi fn then d else
    let d := d.setConfig ((vi * 16 + fn) * 4096 + reg) (configKept fn reg (Tab.getD d.edge.config ((vi * 16 + fn) * 4096 + reg) 0) value)
    match mask with
    | none => d
    | some true =>
      { d with irq := { d.irq with functionMask := if d.irq.functionMask.contains vi then d.irq.functionMask else d.irq.functionMask ++ [vi] } }
    | some false => ({ d with irq := { d.irq with functionMask := d.irq.functionMask.filter (fun x => x ≠ vi) } }).sendUnmasked t vi

end Sys2Proof.Machine
end

