-- ==== Sys2Proof/Machine/Instances.lean ====
section
/-! DEFINITION. Virtual instances: configuration, quality of service, quiesce and reset (R320 to R348). -/
namespace Sys2Proof.Machine
open Sys2Proof

/-! ### Pools (R324, R327, R348) -/

/-- STATE of an instance (R345). -/
def Dev.viState (d : Dev) (vi : Nat) : Nat := d.rd (Vi.STATE vi)
/-- The configuration of an instance as its commands left it: the one that waits for a reset, or the one its host sees. -/
def Dev.cfgOf (d : Dev) (vi : Nat) : InstCfg :=
  let i := d.instOf vi
  i.next.getD { portA := i.portA, portB := i.portB, type2 := i.type2, msix := d.rd (Vi.MSIX_COUNT vi) }
/-- The vector allocations of some instances: base and count. -/
def Dev.runsOf (d : Dev) (vis : List Nat) : List (Nat × Nat) :=
  (vis.filter (fun v => (d.cfgOf v).msix ≠ 0)).map (fun v => ((d.instOf v).msixBase, (d.cfgOf v).msix))
/-- The vector allocations. -/
def Dev.vectorRuns (d : Dev) : List (Nat × Nat) := d.runsOf (List.range 64)
/-- A run of `n` vectors from `b` on is free. -/
def runFree (rs : List (Nat × Nat)) (b n : Nat) : Bool :=
  decide (b + n ≤ 32768) && rs.all (fun r => decide (b + n ≤ r.1) || decide (r.1 + r.2 ≤ b))
/-- The lowest base of a free run of `n` vectors (R327). -/
def lowestRun (rs : List (Nat × Nat)) (n : Nat) : Option Nat :=
  ((0 :: rs.map (fun r => r.1 + r.2)).filter (fun b => runFree rs b n)).foldl (fun m b => match m with
    | none => some b
    | some x => some (min x b)) none
/-- Free vectors of the pool. -/
def Dev.vectorsFree (d : Dev) : Nat := 32768 - (d.vectorRuns.map (·.2)).foldl (· + ·) 0
/-- The longest free run of vectors: from the end of an allocation, or 0, to the next allocation or the end of the pool. -/
def Dev.longestRun (d : Dev) : Nat :=
  let rs := d.vectorRuns
  ((0 :: rs.map (fun r => r.1 + r.2)).map (fun b =>
    if rs.any (fun r => decide (r.1 ≤ b) && decide (b < r.1 + r.2)) then 0
    else ((rs.filter (fun r => b ≤ r.1)).map (·.1)).foldl min 32768 - b)).foldl max 0
/-- Pairs assigned to an instance. -/
def Dev.pairsOf (d : Dev) (vi : Nat) : Nat :=
  (d.ladles.pairs.filter (fun x => x.2.state ≠ 0 ∧ ¬ x.2.fm ∧ x.2.inst = vi)).length
/-- Fabric-manager pairs. -/
def Dev.fmPairs (d : Dev) : Nat := (d.ladles.pairs.filter (fun x => x.2.state ≠ 0 ∧ x.2.fm)).length

/-- Ingress entries an instance uses: requests held, and requests that wait for a retry, a ticket, a weight or a memory agent. -/
def Dev.queueUsed (d : Dev) (vi : Nat) : Nat :=
  let edge (a : Access) : Bool := (match a.origin with
    | .mem p _ => decide (d.viOfPort p = some vi)
    | .io _ _ => ofInstance vi a.master
    | _ => false)
  (d.edge.held.filter (fun h => d.trafficVi h.port = some vi)).length + (d.chn.retries.filter (fun r => edge r.acc)).length +
    (d.chn.tickets.filter (fun k => (k.waiting.map edge).getD false)).length + (d.chn.stalled.filter edge).length +
    (d.agents.queue.filter (fun r => edge r.acc)).length
/-- Ingress entries the pool counts as taken for an instance (R344). -/
def Dev.queueTaken (d : Dev) (vi : Nat) : Nat :=
  let n := d.rd (Vi.REQ_QUEUE_LIMIT vi)
  if d.edge.limitPending.contains vi then max n (d.queueUsed vi) else n
/-- Free ingress entries. -/
def Dev.queueFree (d : Dev) : Nat := 32768 - ((List.range 64).map d.queueTaken).foldl (· + ·) 0
/-- LIMIT_PENDING: a lowered limit waits while the entries in use are not below it. -/
def Dev.limitPending (d : Dev) (vi : Nat) : Bool :=
  d.edge.limitPending.contains vi && decide (d.rd (Vi.REQ_QUEUE_LIMIT vi) ≤ d.queueUsed vi)

/-- Credits that the host ports of an instance may hold out (R343): REQ_QUEUE_LIMIT minus the entries in use, half of it at each of two
ports in DL_Active, the higher-numbered rounding down. -/
def Dev.creditShares (d : Dev) (vi : Nat) : Tab Nat :=
  let i := d.instOf vi
  let room := d.rd (Vi.REQ_QUEUE_LIMIT vi) - d.queueUsed vi
  match (i.portA.toList ++ i.portB.toList).filter (fun p => d.linkUp p) with
  | [p] => [(p, room)]
  | [p, q] => [(min p q, room - room / 2), (max p q, room / 2)]
  | _ => []

/-- Return request credits of an instance's host ports, none while its admission is held or the device is stopped (R284, R332, R344). -/
def Dev.returnCredits (vi : Nat) (d : Dev) : Dev :=
  let d := if d.limitPending vi then d
    else { d with edge := { d.edge with limitPending := d.edge.limitPending.filter (fun x => x ≠ vi) } }
  if d.rd (Vi.STATE vi) ≠ 1 ∨ d.stopped then d
  else (d.creditShares vi).foldl (fun (d : Dev) x =>
    let out := Tab.getD d.edge.credits x.1 0
    if x.2 ≤ out then d
    else ({ d with edge := { d.edge with credits := Tab.set d.edge.credits x.1 x.2 } }).emit (.host x.1 (.credits (x.2 - out)))) d

/-- Request credits follow the queues: a port whose link is down holds none out, the others are given what their instances allow. -/
def Dev.settleCredits (d : Dev) : Dev :=
  let d := { d with edge := { d.edge with credits := d.edge.credits.filter (fun x => d.linkUp x.1) } }
  d.inst.foldl (fun (d : Dev) x => d.returnCredits x.1) d

/-! ### The instance table (R345) -/

/-- Word w of an instance's entry. -/
def Dev.instWord (d : Dev) (vi w : Nat) : Nat :=
  let i := d.instOf vi
  let c := d.cfgOf vi
  match w with
  | 0 => d.viState vi + 2 ^ 3 * flagBit i.forced + 2 ^ 4 * c.portA.getD 0 + 2 ^ 10 * flagBit c.portA.isSome +
      2 ^ 11 * c.portB.getD 0 + 2 ^ 17 * flagBit c.portB.isSome + 2 ^ 18 * i.msixBase + 2 ^ 33 * c.msix +
      2 ^ 45 * d.rd (Vi.QUEUE_ALLOC vi)
  | 1 => d.rd (Vi.REQ_QUEUE_LIMIT vi) + 2 ^ 12 * (d.queueUsed vi % 4096) + 2 ^ 24 * flagBit (d.limitPending vi) +
      2 ^ 32 * i.accessWeight + 2 ^ 40 * i.ladleWeight
  | 2 => i.trackerMin + 2 ^ 9 * i.trackerMax
  | 3 => (c.type2.map (fun x => (x.2 + 64) * 2 ^ (7 * x.1 - 7))).foldl (· + ·) 0
  | _ => 0

/-- INSTANCE_QUERY. -/
def execInstanceQuery (h : SilekHdr) (vi : Nat) (s : State) : Host.Outcome State Fault Refusal :=
  runSilek h { opcode := 0x302, key := .instanceQuery h.key vi, hostMay := fun _ v => decide (v = vi) }
    (queryBody fun s => if 63 < vi then .err .badParam
      else .final .ok ((List.range 4).map (fun w => leBytes 8 (s.dev.instWord vi w))).flatten) s

/-! ### INSTANCE_CONFIG (R325 to R327) -/

/-- 0xFF stands for none. -/
def orNone (x : Nat) : Option Nat := if x = 0xff then none else some x

/-- A port is another instance's: in what its host sees, or in what its next reset brings. -/
def Dev.portTaken (d : Dev) (vi p : Nat) : Bool :=
  d.inst.any (fun x => decide (x.1 ≠ vi) && (decide (x.2.portA = some p) || decide (x.2.portB = some p) || x.2.type2.any (fun y => decide (y.2 = p)) ||
    (match x.2.next with
     | some c => decide (c.portA = some p) || decide (c.portB = some p) || c.type2.any (fun y => decide (y.2 = p))
     | none => false)))

/-- A host port may serve an instance. -/
def Dev.hostPortOk (d : Dev) (vi : Nat) (p : Option Nat) : Bool :=
  match p with
  | none => true
  | some p => d.isHostPort p && !d.portTaken vi p

/-- A device port holds a Type 2 device that is free for an instance. -/
def Dev.type2Ok (d : Dev) (vi p : Nat) : Bool := d.isDevicePort p && (d.port p).type2 && !d.portTaken vi p

/-- The configuration that waited becomes the one the host sees (R326). -/
def Dev.applyConfig (vi : Nat) (d : Dev) : Dev :=
  let i := d.instOf vi
  match i.next with
  | none => d
  | some c =>
    ((d.setInst vi { i with portA := c.portA, portB := c.portB, type2 := c.type2, next := none }).wr (Vi.MSIX_COUNT vi) c.msix).wrFlag
      (Vi.DUAL_PORT vi) c.portB.isSome

/-- An UNCONFIGURED instance: its allocations are back in their pools, and a Skimmer that writes there stops (R534). -/
def Dev.unconfigure (vi : Nat) (d : Dev) : Dev :=
  ((((d.setInst vi {}).wr (Vi.STATE vi) 0).wr (Vi.MSIX_COUNT vi) 0).wr (Vi.QUEUE_ALLOC vi) 0).wr (Vi.REQ_QUEUE_LIMIT vi) 0
    |>.skimLoses vi 4

/-- INSTANCE_CONFIG. No Type 2 device joins the instance of a CXL 1.1 host (R66); DESIGN CHOICE (log entry 155): that is refused with
NOT_PERMITTED. -/
def Dev.instanceConfig (vi a b : Nat) (t2 : List Nat) (msix queues : Nat) (enable : Bool) (d : Dev) : Dev × Result :=
  let st := d.viState vi
  let i := d.instOf vi
  let type2 : Tab Nat := (t2.zipIdx.filter (fun x => x.1 ≠ 0xff)).map (fun x => (x.2 + 1, x.1))
  let cfg : InstCfg := { portA := some a, portB := orNone b, type2, msix }
  let same := decide (d.cfgOf vi = cfg)
  if 63 < vi then (d, .err .badParam)
  else if ¬ enable then
    (if st ≠ 3 ∨ d.windowsOf vi ≠ [] ∨ 0 < d.pairsOf vi then (d, .err .busy)
     else (d.unconfigure vi, .final .ok []))
  else if msix < 1 ∨ 2048 < msix ∨ 1024 < queues ∨ t2.length ≠ 7 then (d, .err .badParam)
  else if ¬ d.hostPortOk vi (some a) ∨ ¬ d.hostPortOk vi (orNone b) ∨ orNone b = some a ∨
      type2.any (fun x => ¬ d.type2Ok vi x.2) ∨ ¬ (type2.map (·.2)).Nodup then (d, .err .badParam)
  else if ¬ (st = 0 ∨ st = 3) ∧ ¬ same then (d, .err .notPermitted)
  else if type2 ≠ [] ∧ d.portsGen (some a) (orNone b) = 1 then (d, .err .notPermitted)
  else if queues < d.pairsOf vi then (d, .err .busy)
  else
    let others := ((List.range 64).filter (fun v => v ≠ vi)).map (fun v => d.rd (Vi.QUEUE_ALLOC v))
    let base := if (d.cfgOf vi).msix = msix then some i.msixBase else lowestRun (d.runsOf ((List.range 64).filter (fun v => v ≠ vi))) msix
    let devices := ((List.range 64).filter (fun v => v ≠ vi)).map (fun v => (d.cfgOf v).type2.length)
    if 8192 < others.foldl (· + ·) 0 + queues + d.fmPairs ∨ 32 < devices.foldl (· + ·) 0 + type2.length then (d, .err .noResource)
    else match base with
    | none => (d, .err .noResource)
    | some base =>
      if st = 0 ∧ d.queueFree < 256 then (d, .err .noResource) else
      let i := { i with msixBase := base, next := if same then i.next else some cfg }
      let i := if i.enabledBefore then i else { i with
        trackerMin := 0, trackerMax := 480, accessWeight := 16, ladleWeight := 16, enabledBefore := true }
      let d := (d.setInst vi i).wr (Vi.QUEUE_ALLOC vi) queues
      (if st = 0 then ((d.applyConfig vi).wr (Vi.STATE vi) 1).wr (Vi.REQ_QUEUE_LIMIT vi) 256 else d, .final .ok [])

/-! ### QOS_SET, QOS_QUERY (R325, R342 to R344) -/

/-- QOS_SET on an instance. -/
def Dev.qosInstance (vi mask limit tmin tmax aw lw : Nat) (d : Dev) : Dev × Result :=
  let i := d.instOf vi
  let on (k : Nat) : Bool := decide (fieldOf mask k 1 = 1)
  let i' := { i with
    trackerMin := if on 1 then tmin else i.trackerMin, trackerMax := if on 2 then tmax else i.trackerMax
    accessWeight := if on 3 then aw else i.accessWeight, ladleWeight := if on 4 then lw else i.ladleWeight }
  if i'.trackerMax < i'.trackerMin then (d, .err .badParam)
  else if 480 < (d.setInst vi i').minSum then (d, .err .noResource)
  else if on 0 ∧ d.queueFree + d.queueTaken vi < limit then (d, .err .noResource)
  else
    let d := d.setInst vi i'
    if ¬ on 0 then (d, .final .ok [])
    else
      let used := d.queueUsed vi
      let rest := d.edge.limitPending.filter (fun x => x ≠ vi)
      ({ d.wr (Vi.REQ_QUEUE_LIMIT vi) limit with edge := { d.edge with limitPending := if limit ≤ used then rest ++ [vi] else rest } },
        .final .ok [])

/-- QOS_SET on the fabric partition, which has trackers and a weight only. -/
def Dev.qosFabric (mask tmin tmax aw : Nat) (d : Dev) : Dev × Result :=
  let on (k : Nat) : Bool := decide (fieldOf mask k 1 = 1)
  let lo := if on 1 then tmin else d.rd InstR.FABRIC_TRACKER_MIN
  let hi := if on 2 then tmax else d.rd InstR.FABRIC_TRACKER_MAX
  let d' := (d.wr InstR.FABRIC_TRACKER_MIN lo).wr InstR.FABRIC_TRACKER_MAX hi
  if on 0 ∨ on 4 ∨ hi < lo then (d, .err .badParam)
  else if 480 < d'.minSum then (d, .err .noResource)
  else (if on 3 then d'.wr InstR.FABRIC_WEIGHT aw else d', .final .ok [])

/-- QOS_SET. Requests that a weight of 0 held back go on when the weight rises. -/
def Dev.qosSet (vi mask limit tmin tmax aw lw : Nat) (d : Dev) : Dev × Result :=
  let on (k : Nat) : Bool := decide (fieldOf mask k 1 = 1)
  if ¬ (vi ≤ 63 ∨ vi = 0xff) ∨ 31 < mask then (d, .err .badParam)
  else if (on 0 ∧ (limit < 64 ∨ 2048 < limit)) ∨ (on 1 ∧ 480 < tmin) ∨ (on 2 ∧ (tmax < 1 ∨ 480 < tmax)) ∨ (on 3 ∧ 255 < aw) ∨
      (on 4 ∧ 255 < lw) then (d, .err .badParam)
  else
    let (d, r) := if vi = 0xff then d.qosFabric mask tmin tmax aw else d.qosInstance vi mask limit tmin tmax aw lw
    let go := d.chn.stalled.filter (fun a => 0 < d.accessWeight (competitor a.master))
    let d := { d with chn := { d.chn with stalled := d.chn.stalled.filter (fun a => ¬ 0 < d.accessWeight (competitor a.master)) } }
    (go.foldl (fun (d : Dev) a => d.later (.route a)) d, r)

/-- The QoS fields and occupancies (log entry 31): limit, tracker bounds, weights, entries in use, trackers in use by slice. -/
def Dev.qosReport (d : Dev) (vi : Nat) : List Byte :=
  let c := if vi = 0xff then 64 else vi
  let (lo, hi) := d.partition c
  let limit := if vi = 0xff then 0 else d.rd (Vi.REQ_QUEUE_LIMIT vi)
  let lw := if vi = 0xff then 0 else (d.instOf vi).ladleWeight
  leBytes 2 limit ++ leBytes 2 lo ++ leBytes 2 hi ++ leBytes 1 (d.accessWeight c) ++ leBytes 1 lw ++
    leBytes 2 (if vi = 0xff then 0 else d.queueUsed vi) ++ ((List.range 32).map (fun s => leBytes 2 (d.trackersOf s c))).flatten

/-- QOS_QUERY. -/
def execQosQuery (h : SilekHdr) (vi : Nat) (s : State) : Host.Outcome State Fault Refusal :=
  runSilek h { opcode := 0x321, minMinor := 2, key := .qosQuery h.key vi, hostMay := fun _ v => decide (v = vi) }
    (queryBody fun s => if vi ≤ 63 ∨ vi = 0xff then .final .ok (s.dev.qosReport vi) else .err .badParam) s

/-! ### Quiesce (R331 to R334) -/

/-- Post an event record with its MORE flag. -/
def Dev.postMore (t code data : Nat) (more : Bool) (d : Dev) : Dev :=
  d.enqueueEvent t { code, source := d.chainAddr, more, seq := 0, time := t, epoch := d.epoch, data }

/-- QUEUES_ABORTED records: up to five pairs each, MORE while further pairs follow. -/
def Dev.postAborted (t vi : Nat) : Nat → List Nat → Dev → Dev
  | 0, _, d => d
  | n + 1, qs, d =>
    let data := vi + ((List.range 5).map (fun i => 2 ^ (16 + 16 * i) * qs.getD i 0xffff)).foldl (· + ·) 0
    let d := d.postMore t 5 data (decide (5 < qs.length))
    if 5 < qs.length then Dev.postAborted t vi n (qs.drop 5) d else d

/-- A forced quiesce (R314, R334). -/
def Dev.forceQuiesce (t vi : Nat) (d : Dev) : Dev :=
  let i := d.instOf vi
  if i.forced then d else
  let (d, busy) := d.abortPairs vi
  let d := (d.setInst vi { i with forced := true, aborted := busy }).inc InstR.FORCED_QUIESCES
  (if busy = [] then d else d.postAborted t vi 2048 busy).later .recheck

/-- Start the quiesce of an ACTIVE instance: admission is held, pairs are SUSPENDED, its writes are covered. -/
def Dev.beginQuiesce (vi : Nat) (d : Dev) : Dev :=
  let d := (d.setInst vi { d.instOf vi with forced := false, aborted := [] }).wr (Vi.STATE vi) 2
  let ids := d.covered 0 vi
  let b : Barrier := { scope := 4, id := vi, left := ids, covered := ids.length }
  let d := { d with buf := { d.buf with barriers := d.buf.barriers.filter (fun (x : Barrier) => ¬ (x.scope = 4 ∧ x.id = vi)) ++ [b] } }
  (d.suspendPairs vi).later .recheck

/-- The hidden barrier of an instance's quiesce. -/
def Dev.quiesceBarrier (d : Dev) (vi : Nat) : Option Barrier := d.buf.barriers.find? (fun b => b.scope = 4 ∧ b.id = vi)

/-- Requests of an instance that were admitted and have not completed toward it. -/
def Dev.requestsOpen (d : Dev) (vi : Nat) (mem : Bool) : Bool :=
  let mine (a : Access) : Bool := (match a.origin with
    | .mem _ _ => mem && ofInstance vi a.master
    | .io _ _ => ofInstance vi a.master
    | _ => false)
  d.edge.jobs.any (fun j => decide (d.trafficVi j.port = some vi)) || d.chn.trackers.any (fun tr => mine tr.acc) ||
    d.chn.retries.any (fun r => mine r.acc) || d.chn.tickets.any (fun k => (k.waiting.map mine).getD false) ||
    (d.agents.queue ++ d.agents.reads).any (fun r => (match r.cont with
      | .direct a => mine a
      | .atomicWrite a _ => mine a
      | _ => false)) ||
    d.fab.outstanding.any (fun o => (o.cont.access.map mine).getD false) ||
    d.binder.migrations.any (fun m => m.2.held.any mine)

/-- A write of an instance's Ladles is accepted and not performed, or outstanding toward a remote owner. -/
def Dev.ladleWrites (d : Dev) (vi : Nat) : Bool :=
  let mine (m : Nat) : Bool := decide (m / 4096 = 2) && ofInstance vi m
  (d.buf.entries ++ d.buf.waiting).any (fun e => e.writes.any (fun w => mine w.master)) || d.buf.remote.any (fun w => mine w.master)

/-- Every quiesce condition of R333 holds. The writes of descriptors that were in progress are waited for as well, though they may be
accepted after the hold (R272; DEDUCED, log entry 178). -/
def Dev.quiesceReady (d : Dev) (vi : Nat) : Bool :=
  let i := d.instOf vi
  let mem := !(decide (i.resetKind = 2) && !i.managed)
  !d.requestsOpen vi mem &&
    !d.ladles.runs.any (fun r => (let q := d.pair r.pair; !q.fm && decide (q.inst = vi))) &&
    !d.ladles.pairs.any (fun x => !x.2.fm && decide (x.2.state ≠ 0) && decide (x.2.inst = vi) &&
      (decide (x.2.fetched ≠ []) || x.2.fetching.isSome || decide (x.2.ready ≠ []))) && !d.ladleWrites vi &&
    (match d.quiesceBarrier vi with
     | some b => decide (b.left = [])
     | none => true)

/-- Messages pending on an instance's vectors become due (R329). -/
def Dev.flushVectors (t vi : Nat) (d : Dev) : Dev :=
  (List.range (d.rd (Vi.MSIX_COUNT vi))).foldl (fun (d : Dev) v =>
    if d.rd (Vi.PENDING_EVENTS vi v) = 0 then d else d.sendVector t vi v) d

/-! ### Resets (R335 to R338) -/

/-- Return every register field of a range of BAR0 offsets to its reset value. -/
def Dev.clearRegs (lo hi : Nat) (d : Dev) : Dev :=
  { d with regs := d.regs.filter (fun x => ¬ (lo * 32 ≤ x.1 ∧ x.1 < hi * 32)) }

/-- The MSI-X table, the PBA and the moderation table of an instance at their reset values. -/
def Dev.clearVectors (vi : Nat) (d : Dev) : Dev :=
  let d := d.clearRegs (0x4000000 + 0x100000 * vi + 0x4000) (0x4000000 + 0x100000 * vi + 0x8000)
  { d with irq := { d.irq with
    table := d.irq.table.filter (fun x => x.1 / 8192 ≠ vi), pba := d.irq.pba.filter (fun k => k / 2048 ≠ vi)
    functionMask := d.irq.functionMask.filter (fun x => x ≠ vi), timers := d.irq.timers.filter (fun k => k / 2048 ≠ vi) } }

/-- Every path forgets what it latched of a register. -/
def Dev.dropLatch (a : Nat) (d : Dev) : Dev :=
  let drop (x : PathLatch) : PathLatch := { x with high := Tab.erase x.high a }
  { d with latchBar0 := drop d.latchBar0, latchReg := drop d.latchReg, latchCp := drop d.latchCp, latchJtag := drop d.latchJtag }

/-- FLR to every Type 2 device of an instance. -/
def Dev.resetType2 (vi : Nat) (d : Dev) : Dev :=
  (d.instOf vi).type2.foldl (fun (d : Dev) x => if d.linkUp x.2 then d.emit (.device x.2 .functionLevelReset) else d) d

/-- The actions of a reset begin (R336). The full scope is that of a managed or a link reset. -/
def Dev.startReset (t vi kind : Nat) (d : Dev) : Dev :=
  let full := decide (kind ≠ 2)
  let d := ((d.setInst vi { d.instOf vi with resetKind := kind }).wr (Vi.STATE vi) 4).skimLoses vi 3
  let held := d.edge.held.filter (fun h => d.trafficVi h.port = some vi ∧ (full ∨ ¬ Instr.isMem h.cmd))
  let d := { d with edge := { d.edge with held := d.edge.held.filter (fun h => ¬ held.contains h) } }
  let d := if kind = 3 then d else held.foldl (fun (d : Dev) h => d.completeHeld t vi h) d
  let pairs := d.ladles.pairs.map (fun (x : Nat × Pair) =>
    if x.2.state ≠ 0 ∧ ¬ x.2.fm ∧ x.2.inst = vi then (x.1, { x.2 with state := 1, doorbells := [], heldError := 0 }) else x)
  let d := (({ d with ladles := { d.ladles with pairs } }).clearVectors vi).dropLatch (0x4000000 + 0x100000 * vi + 0xc)
  let d := (d.wr (Vi.ATOMIC_HPA vi) 0).wrFlag (Vi.ATOMIC_EN vi) false
  let d := if full then
      { d with
        windows := d.windows.map (fun x => if x.2.vi = vi then (x.1, { x.2 with committed := false, hpaUnit := 0, size := 0 }) else x)
        edge := { d.edge with limitPending := d.edge.limitPending.filter (fun x => x ≠ vi) } }
    else d
  let d := (d.declineOffers t vi).forceReleases t vi
  ((if full then d.resetType2 vi else d).applyConfig vi).later .recheck

/-- The quiesce of an instance is complete (R333, R337): QUIESCED, and the reset that waits for it follows. -/
def Dev.quiesceComplete (t vi : Nat) (d : Dev) : Dev :=
  if d.viState vi ≠ 2 ∨ ¬ d.quiesceReady vi then d else
  let i := d.instOf vi
  let b := (d.quiesceBarrier vi).getD { scope := 4, id := vi, left := [], covered := 0 }
  let d := { d with buf := { d.buf with barriers := d.buf.barriers.filter (fun (x : Barrier) => ¬ (x.scope = 4 ∧ x.id = vi)) } }
  let d := (d.flushVectors t vi).wr (Vi.STATE vi) 3
  let d := d.finish t (· = .quiesce vi) .ok (leBytes 4 b.covered ++ leBytes 4 b.discarded ++ leBytes 1 (flagBit i.forced))
  if i.resetKind = 0 then d else d.startReset t vi i.resetKind

/-- A host resets the instance: kind 2 function, 3 link (R335, R338). -/
def Dev.hostReset (t vi kind : Nat) (d : Dev) : Dev :=
  let i := d.instOf vi
  match d.viState vi with
  | 1 => ((d.setInst vi { i with resetKind := kind, managed := false }).beginQuiesce vi).forceQuiesce t vi
  | 2 =>
    let k := max kind i.resetKind
    (d.setInst vi { i with resetKind := k, managed := i.managed || decide (i.resetKind = 0) }).forceQuiesce t vi
  | 3 => (d.setInst vi { i with managed := true, forced := false, aborted := [] }).startReset t vi kind
  | 4 => if kind = 3 ∧ i.resetKind = 2 then (d.startReset t vi 3) else d
  | _ => d

/-- Commands of the instance's mailbox that still run. -/
def Dev.mailboxRuns (d : Dev) (vi : Nat) : Bool := d.silek.running.any (fun r => decide (r.req = .host vi))

/-- RESET_COMPLETE (R337). -/
def Dev.resetComplete (t vi : Nat) (d : Dev) : Dev :=
  let i := d.instOf vi
  if d.viState vi ≠ 4 ∨ d.mailboxRuns vi ∨ d.binder.unbindings.any (fun u => u.vi = vi ∧ u.finishing ≠ []) ∨
      ¬ d.quiesceReady vi then d else
  -- the mailbox returns to idle; replies it holds are discarded
  let d := (d.clearRegs (0x4000000 + 0x100000 * vi + 0x1000) (0x4000000 + 0x100000 * vi + 0x2000))
  let d := { d with silek := { d.silek with mail := d.silek.mail.filter (fun x => x.1 ≠ vi) } }
  let d := ((d.raise1 (Vi.RESET_EVT vi)).wr (Vi.LAST_RESET vi) i.resetKind).inc InstR.INSTANCE_RESETS
  let stay := i.managed && decide (i.resetKind ≠ 1)
  let d := (d.setInst vi { i with resetKind := 0, managed := false, aborted := [] }).wr (Vi.STATE vi) (if stay then 3 else 1)
  let d := d.irqEvent t vi 0 true
  let d := d.post t 7 (vi + 2 ^ 8 * i.resetKind + 2 ^ 16 * flagBit i.forced + 2 ^ 32 * i.aborted.length)
  let d := (d.leaveReset t vi).finish t (· = .instanceReset vi) .ok []
  if stay then d else (i.portA.toList ++ i.portB.toList).foldl (fun (d : Dev) p => d.later (.takeHeld p)) d

/-- INSTANCE_QUIESCE; a TIMEOUT of 0 is none. -/
def Dev.instanceQuiesce (t vi : Nat) (force : Bool) (timeout : Nat) (d : Dev) : Dev × Result :=
  if 63 < vi ∨ 65535 < timeout then (d, .err .badParam) else
  let i := { d.instOf vi with timed := decide (timeout ≠ 0) }
  match d.viState vi with
  | 0 => (d, .err .notPermitted)
  | 1 =>
    let d := (d.setInst vi { i with managed := true, resetKind := 0 }).beginQuiesce vi
    (if force then d.forceQuiesce t vi else d, .run (.quiesce vi))
  | 2 => if force then ((d.setInst vi { i with managed := true }).forceQuiesce t vi, .run (.quiesce vi)) else (d, .err .busy)
  | 3 => (d, .final .ok (leBytes 4 0 ++ leBytes 4 0 ++ leBytes 1 (flagBit i.forced)))
  | _ => (d, .err .busy)

/-- INSTANCE_RESUME: pairs SUSPENDED become ENABLED, their doorbells are taken, held requests are admitted (R294, R331, R334). -/
def Dev.instanceResume (t vi : Nat) (d : Dev) : Dev × Result :=
  if 63 < vi then (d, .err .badParam) else
  let i := d.instOf vi
  if ¬ (d.viState vi = 3 ∨ (d.viState vi = 2 ∧ i.resetKind = 0)) then (d, .err .notPermitted) else
  let d := d.finish t (· = .quiesce vi) .aborted []
  let d := { d with buf := { d.buf with barriers := d.buf.barriers.filter (fun (x : Barrier) => ¬ (x.scope = 4 ∧ x.id = vi)) } }
  let d := (d.setInst vi { i with managed := false }).wr (Vi.STATE vi) 1
  let pairs := d.ladles.pairs.map (fun (x : Nat × Pair) =>
    if x.2.state = 3 ∧ ¬ x.2.fm ∧ x.2.inst = vi then (x.1, { x.2 with state := 2 }) else x)
  let errors := d.ladles.pairs.filter (fun x => x.2.state = 3 ∧ ¬ x.2.fm ∧ x.2.inst = vi ∧ x.2.heldError ≠ 0)
  let d := { d with ladles := { d.ladles with pairs } }
  let d := errors.foldl (fun (d : Dev) x => (d.setPair x.1 { d.pair x.1 with heldError := 0 }).later (.pairError x.1 x.2.heldError)) d
  ((i.portA.toList ++ i.portB.toList).foldl (fun (d : Dev) p => d.later (.takeHeld p)) (d.later .recheck), .final .ok [])

/-- INSTANCE_RESET. -/
def Dev.instanceReset (t vi : Nat) (d : Dev) : Dev × Result :=
  if 63 < vi then (d, .err .badParam) else
  match d.viState vi with
  | 0 => (d, .err .notPermitted)
  | 3 => (d.startReset t vi 1, .run (.instanceReset vi))
  | 4 => (d, .err .busy)
  | _ => (d, .err .notQuiesced)

end Sys2Proof.Machine
end

