-- ==== Sys2Proof/Machine/Symbols.lean ====
section
/-! DEFINITION. QFL symbols: the 8b/10b table code and running disparity (R77 to R79), the elements a port sends and their symbols on
each lane (R80, R81, R84, R89, R90), Whey words and their CRC-8 (R124), PRBS patterns (R109, R110). -/
namespace Sys2Proof.Machine
open Sys2Proof

/-! ### The table code (R77, R78) -/

/-- A symbol: a data byte, or one of the six special symbols of R78. -/
inductive Symbol where
  | data (b : Nat)
  | com | skp | sof | lcm | why | idl
deriving DecidableEq, Repr

/-- abcdei of the low five bits of a data byte at negative running disparity (PRESUMED, log entry 160). -/
def sixBits : List Nat :=
  [0b100111, 0b011101, 0b101101, 0b110001, 0b110101, 0b101001, 0b011001, 0b111000,
   0b111001, 0b100101, 0b010101, 0b110100, 0b001101, 0b101100, 0b011100, 0b010111,
   0b011011, 0b100011, 0b010011, 0b110010, 0b001011, 0b101010, 0b011010, 0b111010,
   0b110011, 0b100110, 0b010110, 0b110110, 0b001110, 0b101110, 0b011110, 0b101011]

/-- fghj of the high three bits of a data byte at negative running disparity (PRESUMED, log entry 160). -/
def fourBits : List Nat := [0b1011, 0b1001, 0b0101, 0b1100, 0b1101, 0b1010, 0b0110, 0b1110]

/-- Ones among the low n bits. -/
def ones (n v : Nat) : Nat := ((List.range n).map (fun i => fieldOf v i 1)).foldl (· + ·) 0

/-- Running disparity after n bits v: positive after more ones than zeros, negative after fewer, else as before. -/
def disparityAfter (n v : Nat) (rd : Bool) : Bool := if n < 2 * ones n v then true else if 2 * ones n v < n then false else rd

/-- A block whose code differs between the two disparities is complemented at positive disparity: one with unequal ones and zeros, D7's
six bits 111000 and the four bits 1100. -/
def atDisparity (n v : Nat) (rd : Bool) : Nat :=
  if rd ∧ (2 * ones n v ≠ n ∨ v = 0b111000 ∧ n = 6 ∨ v = 0b1100 ∧ n = 4) then 2 ^ n - 1 - v else v

/-- The code of a data byte: bit a is the highest, abcdei fghj. The alternate four bits of D.x.7 serve where the plain ones would make a
run of five. -/
def dataCode (b : Nat) (rd : Bool) : Nat :=
  let x := b % 32
  let y := b / 32 % 8
  let six := atDisparity 6 (sixBits.getD x 0) rd
  let mid := disparityAfter 6 six rd
  let alt := decide (y = 7) && (if mid then decide (x = 11) || decide (x = 13) || decide (x = 14)
    else decide (x = 17) || decide (x = 18) || decide (x = 20))
  let four := if alt then (if mid then 0b1000 else 0b0111) else atDisparity 4 (fourBits.getD y 0) mid
  six * 16 + four

/-- The code of a special symbol at negative running disparity (R78). -/
def Symbol.special : Symbol → Nat
  | .com => 0b0011111010
  | .skp => 0b0011110100
  | .sof => 0b1101101000
  | .lcm => 0b0011110011
  | .why => 0b0011110110
  | .idl => 0b0011110101
  | .data _ => 0

/-- The 10-bit code of a symbol at a running disparity; a special symbol's is complemented at positive disparity. -/
def Symbol.code (s : Symbol) (rd : Bool) : BitVec 10 :=
  match s with
  | .data b => BitVec.ofNat 10 (dataCode b rd)
  | _ => BitVec.ofNat 10 (if rd then 1023 - s.special else s.special)

/-- Every symbol of the table. -/
def tableSymbols : List Symbol := [.com, .skp, .sof, .lcm, .why, .idl] ++ (List.range 256).map Symbol.data

/-- The symbol a code stands for at a running disparity. -/
def symbolOf (c : BitVec 10) (rd : Bool) : Option Symbol := tableSymbols.find? (fun s => decide (s.code rd = c))

/-- What a receiver makes of a code: a symbol, a valid code of the wrong disparity, or a code outside the table, which K28.1, K28.4, K28.7,
K23.7, K29.7 and K30.7 are (R77, R79). -/
inductive CodeRead where
  | good (s : Symbol)
  | wrongDisparity (s : Symbol)
  | violation
deriving DecidableEq, Repr

/-- Read a code at a running disparity. -/
def readCode (c : BitVec 10) (rd : Bool) : CodeRead :=
  match symbolOf c rd with
  | some s => .good s
  | none =>
    match symbolOf c (!rd) with
    | some s => .wrongDisparity s
    | none => .violation

/-- The codes of symbols in a row, from a running disparity on. -/
def encodeSymbols (rd : Bool) : List Symbol → List (BitVec 10)
  | [] => []
  | s :: l => s.code rd :: encodeSymbols (disparityAfter 10 (s.code rd).toNat rd) l

/-! ### Whey words (R124) -/

/-- CRC-8 with polynomial x^8 + x^2 + x + 1, most significant bit first (log entry 161). -/
def crc8Step (crc : Nat) (b : Nat) : Nat :=
  (List.range 8).foldl (fun c _ => if 128 ≤ c then Nat.xor (2 * c - 256) 7 else 2 * c) (Nat.xor crc (b % 256))

/-- Bits [55:0] of a Whey word: type and payload. -/
def wheyBody (op : Nat) (fields : List Nat) : Nat :=
  op + (match op, fields with
    | 1, [seq, synced] => seq * 2 ^ 8 + synced * 2 ^ 20
    | 2, [seq, map, synced, resync] => seq * 2 ^ 8 + map * 2 ^ 20 + synced * 2 ^ 36 + resync * 2 ^ 37
    | 3, [vc, count] => vc * 2 ^ 8 + count * 2 ^ 11
    | 4, [next] => next * 2 ^ 8
    | 5, [sub, width, id] => sub * 2 ^ 8 + width * 2 ^ 10 + id * 2 ^ 13
    | 7, [t] => t * 2 ^ 8
    | 8, [t] => t * 2 ^ 8
    | _, _ => 0)

/-- The CRC-8 over bytes 0 to 6 of a Whey word. -/
def wheyCrc (op : Nat) (fields : List Nat) : BitVec 8 :=
  BitVec.ofNat 8 ((leBytes 7 (wheyBody op fields)).foldl (fun c b => crc8Step c b.toNat) 0xff)

/-- A Whey word. -/
def wheyWord (op : Nat) (fields : List Nat) : Nat := wheyBody op fields + 2 ^ 56 * (wheyCrc op fields).toNat

/-- Types of R124. -/
def wheyListed (op : Nat) : Bool := decide (1 ≤ op) && decide (op ≤ 8)

/-- Priority of a Whey type (R125): NAK, SEQ_SYNC, ACK, CREDIT, WIDTH, then the time types. -/
def wheyRank (op : Nat) : Nat :=
  match op with
  | 2 => 0
  | 4 => 1
  | 1 => 2
  | 3 => 3
  | 5 => 4
  | _ => 5

/-! ### Elements on the lanes (R80, R81) -/

/-- Bytes striped over w lanes: byte i travels on lane i mod w; what lane i carries. -/
def stripe (w lane : Nat) (bs : List Byte) : List Symbol :=
  (bs.zipIdx.filter (fun x => decide (x.2 % w = lane))).map (fun x => Symbol.data x.1.toNat)

/-- The symbols of a TS1 ordered set on one lane (R89). -/
def ts1Symbols (set : Ts1Set) (y : Ts1Lane) : List Symbol :=
  [.com, .data 0x4a, .data y.number, .data (set.widthCfg + 8 * flagBit set.locked),
   .data (y.reqKind + 4 * y.reqPreset + 32 * flagBit y.rejected), .data y.txPre, .data y.txPost, .data y.reqPre, .data y.reqPost] ++
  List.replicate 7 (.data 0x4a)

/-- Bytes of a number as data symbols, lowest first. -/
def leSymbols (n v : Nat) : List Symbol := (leBytes n v).map (fun b => Symbol.data b.toNat)

/-- The symbols of a TS2 ordered set on the lane with number `lane` (R90). -/
def ts2Symbols (set : Ts2Set) (lane : Nat) : List Symbol :=
  [.com, .data 0x45, .data lane, .data set.version] ++ leSymbols 2 set.features ++ leSymbols 4 set.nonce ++
  [.data set.chain, .data set.port] ++ leSymbols 4 set.laneMap ++ [.data set.widthSel, .data (flagBit set.seen)] ++
  List.replicate 8 (.data 0) ++ List.replicate 6 (.data 0x45)

/-- The symbols of an element on lane `lane` of a port, which is logical lane i of its active width w; a training or lane command set is
sent on the lanes it names. -/
def QflOut.symbols (w i lane : Nat) : QflOut → List Symbol
  | .lcm cmd a0 a1 lanes => if lanes.contains lane then [.lcm, .data cmd, .data a0, .data a1] else []
  | .ts1 set =>
    match set.lanes.find? (fun y => y.lane = lane) with
    | some y => ts1Symbols set y
    | none => []
  | .ts2 set lanes _ => if lanes.contains lane then ts2Symbols set lane else []
  | .skp => [.com, .skp, .skp, .skp]
  | .whey op fields =>
    .why :: (if 8 ≤ i then [.idl] else stripe (min w 8) i (leBytes 8 (wheyWord op fields)))
  | .flit bits => stripe w i (bitsBytes 128 bits)
  | .retimed _ _ => []

/-- Symbol times of an element at width w (R80); a training ordered set's own length (R89, R90). -/
def QflOut.length (w : Nat) : QflOut → Nat
  | .lcm _ _ _ _ => 4
  | .ts1 _ => 16
  | .ts2 _ _ n => 32 * max n 1
  | .skp => 4
  | .whey _ _ => 1 + (8 + w - 1) / w
  | .flit _ => 128 / w
  | .retimed _ l => l.length

/-- A flit stream begins with SOF, and so does the next flit after any other element (R81): what a lane carries for elements in a row. -/
def laneSymbols (w i lane : Nat) : Bool → List QflOut → List Symbol
  | _, [] => []
  | streaming, x :: l =>
    match x with
    | .flit _ => (if streaming then [] else [.sof]) ++ x.symbols w i lane ++ laneSymbols w i lane true l
    | _ => x.symbols w i lane ++ laneSymbols w i lane false l

/-- The elements port p has sent on a lane since that lane's transmitter last left electrical idle: those after its last EIOS. -/
def Dev.sentElements (d : Dev) (p lane : Nat) : List QflOut :=
  d.out.foldl (fun acc o =>
    match o with
    | .qfl q x => if q ≠ p then acc else
      (match x with
        | .lcm 2 _ _ lanes => if lanes.contains lane then [] else acc ++ [x]
        | _ => acc ++ [x])
    | _ => acc) []

/-- The codes that a lane of port p, logical lane i at width w, has sent: its transmitter starts at negative disparity when it leaves
electrical idle (R77). -/
def Dev.laneCodes (d : Dev) (p w i lane : Nat) : List (BitVec 10) :=
  encodeSymbols false (laneSymbols w i lane false (d.sentElements p lane))

/-- Whey messages by priority, with the flits that wait: at most two Whey messages between two flits (R125). -/
def interleave : List QflOut → List QflOut → List QflOut
  | [], fs => fs
  | ws, [] => ws
  | [a], f :: fs => a :: f :: fs
  | a :: b :: ws, f :: fs => a :: b :: f :: interleave ws fs

/-- The Whey messages among elements, by priority. -/
def wheyByRank (l : List QflOut) : List QflOut :=
  ((List.range 6).map (fun r => l.filter (fun x => match x with
    | .whey op _ => decide (wheyRank op = r)
    | _ => false))).flatten

/-- What a port put out from position n of `out` on goes in the order of R125. -/
def Dev.orderElements (n p : Nat) (d : Dev) : Dev :=
  let mine (o : Out) : Option QflOut := match o with
    | .qfl q x => if q = p then some x else none
    | _ => none
  let tail := d.out.drop n
  let l := tail.filterMap mine
  let ws := wheyByRank l
  let fs := l.filter (fun x => match x with
    | .whey _ _ => false
    | _ => true)
  { d with out := d.out.take n ++ tail.filter (fun o => (mine o).isNone) ++ (interleave ws fs).map (Out.qfl p) }

/-! ### PRBS (R109, R110) -/

/-- Order and second tap of a pattern: x^7 + x^6 + 1, x^15 + x^14 + 1, x^31 + x^28 + 1. -/
def prbsTaps (pattern : Nat) : Nat × Nat :=
  match pattern with
  | 1 => (7, 6)
  | 2 => (15, 14)
  | _ => (31, 28)

/-- The first n bits of a generator, which starts from the all-ones state: each new bit is the sum of the bits as far back as the taps
say. -/
def prbsBits (pattern : Nat) : Nat → List Bool
  | 0 => List.replicate (prbsTaps pattern).1 true
  | n + 1 =>
    let l := prbsBits pattern n
    let (a, b) := prbsTaps pattern
    l ++ [xor (l.getD (l.length - a) false) (l.getD (l.length - b) false)]

/-- A pair of bits as a PAM4 level, Gray coded. -/
def pam4Level (hi lo : Bool) : Nat :=
  match hi, lo with
  | false, false => 0
  | false, true => 1
  | true, true => 2
  | true, false => 3

/-- The last 64 of the received bits are all as the pattern predicts from those before them. -/
def prbsInSync (pattern : Nat) (received : List Bool) : Bool :=
  let (a, b) := prbsTaps pattern
  let n := received.length
  decide (a + 64 ≤ n) && (List.range 64).all (fun i =>
    let k := n - 1 - i
    received.getD k false == xor (received.getD (k - a) false) (received.getD (k - b) false))

end Sys2Proof.Machine
end

