-- ==== Sys2Proof/Machine/Phys.lean ====
section
/-! DEFINITION. The QFL physical layer: training, recovery, equalisation, loopback, PRBS, and link down with reroute (R76 to R113,
R140 to R143). -/
namespace Sys2Proof.Machine
open Sys2Proof

/-- Log2 of the configured width of a port (R41). -/
def Dev.widthCfg (d : Dev) (p : Nat) : Nat :=
  match d.rd (Pg.BIFURCATION (p / 4)) with
  | 0 => 4
  | 1 => 3
  | 2 => if p % 4 = 0 then 3 else 2
  | 3 => 2
  | 4 => 5
  | _ => 0

/-- The first lane of a port among the 256. -/
def laneBase (p : Nat) : Nat := 16 * (p / 4) + 4 * (p % 4)

/-- Lanes of a port, numbered within it. -/
def Dev.portLanes (d : Dev) (p : Nat) : List Nat := List.range (2 ^ d.widthCfg p)

/-- Lanes a port receives on: those selected at the last entry to ACTIVE, as far as the active width goes; logical lane 0 first. -/
def Dev.lanesInUse (d : Dev) (p : Nat) : List Nat := (d.qphy p).rxLanes.take (2 ^ d.rd (Pg.phy_WIDTH_ACTIVE p))

/-- Lanes a port sends on: those detected while it trains, those in use in ACTIVE and RECOVERY. -/
def Dev.sendLanes (d : Dev) (p : Nat) : List Nat :=
  let st := d.rd (Pg.phy_STATE p)
  if st = 2 ∨ st = 3 ∨ st = 4 then (d.qphy p).detected
  else if st = 5 ∨ st = 6 then (d.qphy p).txLanes.take (2 ^ d.rd (Pg.phy_WIDTH_ACTIVE p))
  else []

/-- An LCM ordered set leaves the port on the lanes it sends on. -/
def Dev.lcm (p cmd a0 a1 : Nat) (d : Dev) : Dev := d.emit (.qfl p (.lcm cmd a0 a1 (d.sendLanes p)))

/-- The IN_USE bits of a port follow the lanes that carry active traffic: none outside ACTIVE (R113). -/
def Dev.showInUse (p : Nat) (d : Dev) : Dev :=
  let used := if d.rd (Pg.phy_STATE p) = 5 then d.lanesInUse p else []
  (d.portLanes p).foldl (fun d i => d.wrFlag (Pg.lane_IN_USE (laneBase p + i)) (used.contains i)) d

/-- A QFL port's data link layer leaves DL_Active: PORT_STATUS shows it down (R49). -/
def Dev.qflPortDown (p : Nat) (d : Dev) : Dev :=
  if ¬ d.flag (Pg.DL_UP p) then d else
  (((d.wrFlag (Pg.DL_UP p) false).wr (Pg.RATE p) 0).wr (Pg.WIDTH p) 0).raise1 (Pg.LINK_DOWN_EVT p)

/-- A QFL port's data link layer is in DL_Active at 2^k lanes (R49). -/
def Dev.qflPortUp (p k : Nat) (d : Dev) : Dev :=
  ((d.raise1 (Pg.DL_UP p)).wr (Pg.RATE p) 7).wr (Pg.WIDTH p) (if 5 ≤ k then 0x1f else 2 ^ k)

/-- A message has been in this device for 500 µs (R144). -/
def QflMsg.expired (t : Nat) (m : QflMsg) : Bool := decide (m.born + 500000 ≤ t)

/-- A message past its lifetime is discarded and counted; a filtered one of another source is answered (R144). -/
def Dev.lifeDrop (t : Nat) (m : QflMsg) (d : Dev) : Dev :=
  let d := d.inc Qfab.LIFETIME_DROPS
  if d.ownAddr m.src then d else d.msgError t m 3

/-- The lanes of a port drop their locks. -/
def Dev.clearLanes (p : Nat) (d : Dev) : Dev :=
  (d.portLanes p).foldl (fun d i =>
    let l := laneBase p + i
    ((((d.wrFlag (Pg.lane_BIT_LOCK l) false).wrFlag (Pg.lane_SYMBOL_LOCK l) false).wrFlag (Pg.lane_INVERTED l) false).wrFlag
      (Pg.lane_IN_USE l) false).wrFlag (Pg.lane_DETECTED l) false) d

/-- Messages of the failed port move to its twin: those of unacknowledged flits first, then those queued; those past their lifetime are
discarded (R142). -/
def Dev.reroute (t p : Nat) (moved : List QflMsg) (d : Dev) : Dev :=
  let tw := d.rd (Pg.ll_TWIN_PORT p)
  if d.flag (Pg.ll_TWIN_EN p) ∧ tw ≠ p ∧ d.rd (Pg.ll_LL_STATE tw) = 2 ∧
      d.rd (Pg.phy_REMOTE_CHAIN tw) = d.rd (Pg.phy_REMOTE_CHAIN p) then
    let l := d.link tw
    let (old, fresh) := (moved.filter (fun m => m.expired t), moved.filter (fun m => !m.expired t))
    let d := (d.setLink tw { l with txq := l.txq ++ fresh }).setLink p { d.link p with txq := [] }
    let d := old.foldl (fun (d : Dev) m => d.lifeDrop t m) d
    ((d.raise1 (Pg.ll_ROUTED_AWAY p)).raise1 (Pg.ll_REROUTE_EVT p)).pump tw
  else d

/-- The link layer is DOWN: replay and reorder buffers, credits and keys go, and a twin takes the traffic (R141 to R143). -/
def Dev.linkDownOnly (t p : Nat) (d : Dev) : Dev :=
  if d.rd (Pg.ll_LL_STATE p) = 0 then d else
  let l := d.link p
  let moved := (l.replay.map (·.msgs)).flatten ++ l.txq
  let busy := d.flag (Pg.ll_WIDTH_BUSY p)
  let x : QflLink := { txq := l.txq, reqId := l.reqId }
  let d := (d.setLink p x).wr (Pg.ll_LL_STATE p) 0
  let d := ((d.raise1 (Pg.ll_LINK_DOWN_EVT p)).inc (Pg.ll_LINK_DOWNS p)).hbCount 0 1
  let d := ((d.wrFlag (Pg.ll_RX_SYNCED p) false).wrFlag (Pg.ll_ENCRYPTED p) false).wrFlag (Pg.ll_SELECTIVE p) false
  let d := if busy then (d.wrFlag (Pg.ll_WIDTH_BUSY p) false).raise1 (Pg.ll_WIDTH_FAIL_EVT p) else d
  let d := d.mon t (p / 4) 0x108 0xffff 0
  (d.reroute t p moved).syncLink p

/-- Enter DETECT (R88, R92, R112). PORT_STATUS shows the link up from ACTIVE until here: RECOVERY is no link down (R140, DEDUCED, log entry
166). -/
def Dev.enterDetect (t p : Nat) (d : Dev) : Dev :=
  let d := d.linkDownOnly t p
  let d := (d.clearLanes p).setQphy p { offer := d.rd (Pg.phy_FEATURE_OFFER p) }
  let d := (d.qflPortDown p).wrFlag (Pg.phy_FULL_RETRAIN p) false
  d.wr (Pg.phy_STATE p) 1

/-- Enter DISABLED. -/
def Dev.enterDisabled (t p : Nat) (d : Dev) : Dev :=
  let d := (d.linkDownOnly t p).clearLanes p
  ((d.setQphy p {}).qflPortDown p).wr (Pg.phy_STATE p) 0

/-- A QFL port may leave DISABLED (R88). -/
def Dev.mayTrain (d : Dev) (p : Nat) : Bool :=
  d.isQflPort p && !d.flag (Pg.phy_PORT_DISABLE p) && decide (3 ≤ d.mode) && d.flag (Pg.POWERED (p / 4)) && !d.scanHolds

/-- A training failure: LAST_FAIL, event and count, then 10 ms in DISABLED (R88). -/
def Dev.trainFail (t p code : Nat) (d : Dev) : Dev :=
  (((d.wr (Pg.phy_LAST_FAIL p) code).raise1 (Pg.phy_TRAIN_FAIL_EVT p)).countPort p .training).enterDisabled t p

/-- FULL_RETRAIN at any time: LCM EIOS, then DETECT; in DISABLED the bit stands until the port may leave it (R88, R107, R112). -/
def Dev.fullRetrain (t p : Nat) (d : Dev) : Dev :=
  if d.rd (Pg.phy_STATE p) = 0 ∧ ¬ d.mayTrain p then d.raise1 (Pg.phy_FULL_RETRAIN p) else (d.lcm p 2 0 0).enterDetect t p

/-- The link layer declares the link down (R141). -/
def Dev.qflLinkDown (t p : Nat) (d : Dev) : Dev :=
  if d.rd (Pg.ll_LL_STATE p) = 0 then d else
  let d := d.linkDownOnly t p
  let s := d.rd (Pg.phy_STATE p)
  if s = 0 ∨ s = 1 then d else d.fullRetrain t p

/-! ### Training sets sent (R89, R90) -/

/-- What the transmitter and receiver of a lane say in TS1: the request standing, or REQ_KIND 3 when the requests are over. -/
def Dev.ts1Lane (d : Dev) (p i : Nat) : Ts1Lane :=
  let q := d.qphy p
  let l := laneBase p + i
  let y : Ts1Lane := {
    lane := i, number := i, rejected := (d.laneOf l).rejected, txPre := d.rd (Pg.lane_TX_PRE l), txPost := d.rd (Pg.lane_TX_POST l) }
  if d.rd (Pg.phy_STATE p) = 6 ∨ q.eqDone then { y with reqKind := 3 } else
  match Tab.get q.eq i with
  | some e =>
    if e.kind = 1 then { y with reqKind := 1, reqPreset := e.requests - 1 }
    else { y with reqKind := e.kind, reqPre := e.pre, reqPost := e.post }
  | none => y

/-- TS1 goes out on the lanes the port sends on; in TRAIN1 and RECOVERY an LCM DESKEW follows every 64 of them (R82, R88, log entry 166). -/
def Dev.sendTs1 (p : Nat) (d : Dev) : Dev :=
  let st := d.rd (Pg.phy_STATE p)
  let set : Ts1Set := {
    widthCfg := d.widthCfg p, locked := (d.qphy p).lockedOwn, lanes := (d.sendLanes p).map (fun i => d.ts1Lane p i) }
  let d := d.emit (.qfl p (.ts1 set))
  if st = 2 ∨ st = 6 then d.lcm p 1 0 0 else d

/-- WIDTH_SEL as sent: the selection with VALID, or zero before there is one. -/
def QflPhy.widthSel (q : QflPhy) : Nat :=
  match q.selection with
  | some (k, up) => k + 8 * flagBit up + 128
  | none => 0

/-- TS2 goes out, `times` sets of it at least. -/
def Dev.sendTs2 (p times : Nat) (d : Dev) : Dev :=
  let q := d.qphy p
  let seen : Bool := match q.ts2 with
    | some x => decide (8 ≤ x.2)
    | none => false
  let set : Ts2Set := {
    version := 2, features := q.offer, nonce := d.rd (Pg.phy_NONCE_LOCAL p), chain := d.chainAddr, port := p, laneMap := q.laneMap
    widthSel := q.widthSel, seen }
  d.emit (.qfl p (.ts2 set (d.sendLanes p) times))

/-! ### RECOVERY -/

/-- Lanes that a widening under way wakes (R137). -/
def Dev.wakingLanes (d : Dev) (p : Nat) : List Nat :=
  match (d.link p).width with
  | some (k, _, _) => if (d.link p).widthStep < 2 then [] else ((d.qphy p).txLanes.take (2 ^ k)).drop (2 ^ d.rd (Pg.phy_WIDTH_ACTIVE p))
  | none => []

/-- No width change is under way any more; lanes that were waking are parked again, behind an EIOS (R139). WIDTH_TARGET keeps the width asked
for (DESIGN CHOICE, log entry 170). -/
def Dev.widthClear (p : Nat) (d : Dev) : Dev :=
  let w := d.wakingLanes p
  let d := if w = [] then d else d.emit (.qfl p (.lcm 2 0 0 w))
  (d.setLink p { d.link p with
    width := none, widthStep := 0, marks := 0, readySent := false, readySeen := false, switchSent := false, switchSeen := false }).wrFlag
    (Pg.ll_WIDTH_BUSY p) false

/-- Enter RECOVERY from ACTIVE: TS1 goes out with REQ_KIND 3, the link layer is HELD, a width change under way is abandoned (R105, R106,
R139, R140). -/
def Dev.enterRecovery (p : Nat) (d : Dev) : Dev :=
  if d.rd (Pg.phy_STATE p) ≠ 5 then d else
  let d := if d.flag (Pg.ll_WIDTH_BUSY p) then
      let d := (d.widthClear p).raise1 (Pg.ll_WIDTH_FAIL_EVT p)
      d.setLink p { d.link p with widthRetry := none }
    else d
  let q := d.qphy p
  let d := d.setQphy p { q with
    ts1 := none, ts2 := none, deskews := 0, ready := false, eqDone := true, partnerEqDone := false, selection := none, laneMap := 0 }
  let d := ((d.wr (Pg.phy_STATE p) 6).raise1 (Pg.phy_RECOVERY_EVT p)).inc (Pg.phy_RECOVERY_COUNT p)
  let d := if d.rd (Pg.ll_LL_STATE p) = 0 then d else d.wr (Pg.ll_LL_STATE p) 3
  (d.showInUse p).sendTs1 p

/-- The map of RECOVERY: the partner's lanes that the lanes in use receive (R94, R106). -/
def Dev.recoveryMap (d : Dev) (p : Nat) : Nat :=
  ((d.lanesInUse p).map (fun i => 2 ^ d.rd (Pg.lane_LOGICAL_LANE (laneBase p + i)))).foldl (· + ·) 0

/-- In RECOVERY, TS2 follows TS1 once 8 identical TS1 were received and the lanes are aligned on two LCM DESKEW sets (R91, R95, R106). -/
def Dev.recoverStep (p : Nat) (d : Dev) : Dev :=
  let q := d.qphy p
  let heard : Bool := match q.ts1 with
    | some x => decide (8 ≤ x.2)
    | none => false
  if d.rd (Pg.phy_STATE p) = 6 ∧ heard ∧ 2 ≤ q.deskews ∧ q.laneMap = 0 then
    (d.setQphy p { q with laneMap := d.recoveryMap p }).sendTs2 p 1
  else d

/-- DISABLED_HOLDOFF (R88). -/
def execDisabledHoldoff (port : Fin 64) (s : State) : Host.Outcome State Fault Refusal :=
  onDev (fun t d => if d.rd (Pg.phy_STATE port) = 0 ∧ d.mayTrain port then d.enterDetect t port else d) s

/-- Presets of the transmitter (R97): pre, post. -/
def preset (q : Nat) : Nat × Nat :=
  match q with
  | 0 => (0, 0)
  | 1 => (0, 4)
  | 2 => (0, 8)
  | 3 => (0, 12)
  | 4 => (4, 0)
  | 5 => (4, 8)
  | 6 => (6, 12)
  | _ => (4, 16)

/-- A lane's transmitter takes a setting (R96). -/
def Dev.setTaps (l pre post : Nat) (d : Dev) : Dev :=
  ((d.wr (Pg.lane_TX_PRE l) pre).wr (Pg.lane_TX_POST l) post).wr (Pg.lane_TX_MAIN l) (48 - pre - post)

/-- A detected lane of a port: its transmitter starts at a preset, its receiver without lock (R92, R98). -/
def Dev.detectLane (p i : Nat) (taps : Nat × Nat) (d : Dev) : Dev :=
  let l := laneBase p + i
  let d := ((d.raise1 (Pg.lane_DETECTED l)).setTaps l taps.1 taps.2).wr (Pg.lane_EQ_REQUESTS l) 0
  d.setLane l { d.laneOf l with rejected := false, disparity := none }

/-- RECEIVER_DETECT (R92, R98, R103): the same non-empty set at two consecutive tests enters TRAIN1, with a new nonce and every
transmitter at INIT_PRESET. -/
def execReceiverDetect (port : Fin 64) (lanes : BitVec 32) (s : State) : Host.Outcome State Fault Refusal :=
  onDev (fun _ d =>
    if d.rd (Pg.phy_STATE port) ≠ 1 then d else
    let found := (d.portLanes port).filter (fun i => lanes.getLsbD i)
    let q := d.qphy port
    if found ≠ [] ∧ q.tested = some found then
      let nonce := d.freeVal 10
      let d := (d.drawn).wr (Pg.phy_NONCE_LOCAL port) nonce
      let d := d.setQphy port { q with tested := some found, detected := found }
      let taps := preset (d.rd (Pg.phy_INIT_PRESET port))
      let d := found.foldl (fun (d : Dev) i => d.detectLane port i taps) d
      (d.wr (Pg.phy_STATE port) 2).sendTs1 port
    else d.setQphy port { q with tested := some found }) s

/-- Count identical ordered sets (R91). -/
def countSame {α : Type} [DecidableEq α] (old : Option (α × Nat)) (x : α) : α × Nat :=
  match old with
  | some (y, n) => if y = x then (x, n + 1) else (x, 1)
  | none => (x, 1)

/-- A TS1 with the lane numbers left out of the comparison (R91). Lanes may differ in their equalisation fields (R98): what must repeat is
each lane's own set (DEDUCED, log entry 167). -/
def unnumbered (x : Ts1Set) : Ts1Set := { x with lanes := x.lanes.map (fun y => { y with number := 0 }) }

/-- The next request of a lane's receiver: the eight presets in turn, then the best setting seen, at once when 4 ms are over (R98, R99, log
entry 19). -/
def EqLane.next (done : Bool) (e : EqLane) : EqLane :=
  if e.requests < 8 ∧ ¬ done then
    let (pre, post) := preset e.requests
    { e with kind := 1, pre, post, requests := e.requests + 1, evaluating := false }
  else { e with kind := 2, pre := e.bestPre, post := e.bestPost, requests := e.requests + 1, evaluating := false }

/-- Enter EQUALISE (R99): with EQ_BYPASS nothing is requested. -/
def Dev.enterEqualise (t p : Nat) (d : Dev) : Dev :=
  let q := d.qphy p
  let bypass := d.flag (Pg.phy_EQ_BYPASS p)
  let start : EqLane := if bypass then { evaluating := true } else ({} : EqLane).next false
  let d := d.setQphy p { q with
    ts1 := none, eq := q.detected.map (fun i => (i, start)), eqStart := t, eqDone := bypass, partnerEqDone := false }
  let d := if bypass then d else q.detected.foldl (fun d i => d.wr (Pg.lane_EQ_REQUESTS (laneBase p + i)) 1) d
  (d.wr (Pg.phy_STATE p) 3).sendTs1 p

/-- Own LANE_MAP: partner lanes received on lanes that are complete with an eye figure at or above EYE_MIN (R90, R94, R99). -/
def Dev.ownLaneMap (p : Nat) (d : Dev) : Nat :=
  (((d.qphy p).complete.filter (fun i => decide (d.rd (Pg.phy_EYE_MIN p) ≤ d.rd (Pg.lane_EYE (laneBase p + i))))).map
    (fun i => 2 ^ d.rd (Pg.lane_LOGICAL_LANE (laneBase p + i)))).foldl (· + ·) 0

/-- EYE is updated at the end of EQUALISE: a lane whose figure was not evaluated, as with EQ_BYPASS, takes the measured one, a free value
(R99, R113, log entry 2). -/
def Dev.measureEyes (p : Nat) (d : Dev) : Dev :=
  (d.qphy p).eq.foldl (fun (d : Dev) (x : Nat × EqLane) =>
    if x.2.done then d else (d.wr (Pg.lane_EYE (laneBase p + x.1)) (d.freeVal 21 % 64)).drawn) d

/-- Enter TRAIN2. -/
def Dev.enterTrain2 (p : Nat) (d : Dev) : Dev :=
  let d := d.measureEyes p
  let q := d.qphy p
  ((d.setQphy p { q with laneMap := d.ownLaneMap p, ts2 := none, ready := false, selection := none }).wr (Pg.phy_STATE p) 4).sendTs2 p 1

/-- TRAIN1 ends when own and partner's locks are there (R93). -/
def Dev.train1Done (t p : Nat) (d : Dev) : Dev :=
  let q := d.qphy p
  if d.rd (Pg.phy_STATE p) = 2 ∧ q.lockedOwn ∧ q.partnerLocked then d.enterEqualise t p else d

/-- LOCKED is set, and TS1 says so. -/
def Dev.setLocked (t p : Nat) (d : Dev) : Dev :=
  if (d.qphy p).lockedOwn then d.train1Done t p
  else ((d.setQphy p { d.qphy p with lockedOwn := true }).sendTs1 p).train1Done t p

/-- Set LOCKED when every detected lane is complete and aligned. -/
def Dev.lockCheck (t p : Nat) (d : Dev) : Dev :=
  let q := d.qphy p
  let all := q.detected.all (fun i => q.complete.contains i)
  if all ∧ 2 ≤ q.deskews then d.setLocked t p else d.train1Done t p

/-- EQUALISE ends when both ends are done (R99). -/
def Dev.equaliseDone (p : Nat) (d : Dev) : Dev :=
  let q := d.qphy p
  if d.rd (Pg.phy_STATE p) = 3 ∧ q.eqDone ∧ q.partnerEqDone then d.enterTrain2 p else d

/-- One more TS1 on a lane: its COM counts toward symbol lock, its lane number toward consistency (R93). -/
def LaneTrain.step (number : Nat) (x : LaneTrain) : LaneTrain :=
  { coms := x.coms + 1, number, same := if x.same ≠ 0 ∧ x.number = number then x.same + 1 else 1 }

/-- What TS1 brings in TRAIN1: bit lock and polarity at once, symbol lock after 8 COM, the lane number once 8 sets agree on it, and after 8
identical sets the partner's LOCKED and WIDTH_CFG (R93, R94). -/
def Dev.ts1Train1 (t p : Nat) (x : Ts1Set) (n : Nat) (d : Dev) : Dev :=
  let seen := x.lanes.filter (fun y => (d.qphy p).detected.contains y.lane)
  let train := seen.map (fun y => (y.lane, LaneTrain.step y.number (Tab.getD (d.qphy p).train y.lane {})))
  let d := seen.foldl (fun d y =>
    let l := laneBase p + y.lane
    (d.raise1 (Pg.lane_BIT_LOCK l)).wrFlag (Pg.lane_INVERTED l) y.inverted) d
  let d := train.foldl (fun (d : Dev) (y : Nat × LaneTrain) =>
    let l := laneBase p + y.1
    let d := if 8 ≤ y.2.coms then d.raise1 (Pg.lane_SYMBOL_LOCK l) else d
    if 8 ≤ y.2.same then d.wr (Pg.lane_LOGICAL_LANE l) y.2.number else d) d
  let complete := (train.filter (fun y => decide (8 ≤ y.2.same))).map (·.1)
  let nums := seen.map (·.number)
  let down := decide (2 ≤ nums.length) && (nums.zip (nums.drop 1)).all (fun (z : Nat × Nat) => decide (z.2 < z.1))
  let d := if complete = [] then d else d.wrFlag (Pg.phy_REVERSED p) down
  let q := { d.qphy p with train, complete }
  (d.setQphy p (if n < 8 then q else { q with partnerLocked := x.locked, partnerWidth := x.widthCfg })).lockCheck t p

/-- A partner's request to one transmitter (R96, R98): a refused one sets REJECTED and keeps the setting. A pre-cursor above 12 or a
post-cursor above 16 lies outside the tap's range and is refused as well (DESIGN CHOICE, log entry 168). -/
def Dev.ts1Request (p : Nat) (y : Ts1Lane) (d : Dev) : Dev :=
  let l := laneBase p + y.lane
  let (pre, post) := if y.reqKind = 1 then preset y.reqPreset else (y.reqPre, y.reqPost)
  if y.reqKind = 1 ∨ y.reqKind = 2 then
    let bad := decide (20 < pre + post ∨ 12 < pre ∨ 16 < post)
    let d := d.setLane l { d.laneOf l with rejected := bad }
    if bad then d else d.setTaps l pre post
  else d

/-- A lane's receiver sees its request answered: it evaluates (R98). -/
def EqLane.reported (y : Ts1Lane) (e : EqLane) : EqLane :=
  if ¬ e.done ∧ e.kind ≠ 0 ∧ (y.rejected ∨ (y.txPre = e.pre ∧ y.txPost = e.post)) then { e with evaluating := true } else e

/-- What TS1 brings in EQUALISE (R98, R99): at the eighth identical set the transmitters take the partner's requests and report; from then
on each receiver looks for the answer to its own. -/
def Dev.ts1Equalise (p : Nat) (x : Ts1Set) (n : Nat) (d : Dev) : Dev :=
  if n < 8 then d else
  let d := if n = 8 then (x.lanes.foldl (fun (d : Dev) y => d.ts1Request p y) d).sendTs1 p else d
  let q := d.qphy p
  let eq := q.eq.map (fun (z : Nat × EqLane) =>
    match x.lanes.find? (fun y => y.lane = z.1) with
    | some y => (z.1, z.2.reported y)
    | none => z)
  let pd := decide (x.lanes ≠ []) && x.lanes.all (fun y => decide (y.reqKind = 3))
  (d.setQphy p { q with eq, partnerEqDone := q.partnerEqDone || pd }).equaliseDone p

/-- TS1 (R89, R91, R93, R99, R105 to R107); a port in LOOPBACK returns it (R111). -/
def Dev.ts1 (t p : Nat) (x : Ts1Set) (d : Dev) : Dev :=
  let st := d.rd (Pg.phy_STATE p)
  if st = 7 then d.emit (.qfl p (.ts1 x))
  else if st = 5 then
    (if x.lanes.any (fun y => (d.lanesInUse p).contains y.lane) then d.enterRecovery p else d)
  else if st = 2 ∨ st = 3 ∨ st = 6 then
    let c := countSame (d.qphy p).ts1 (unnumbered x)
    let d := d.setQphy p { d.qphy p with ts1 := some c }
    if st = 2 then d.ts1Train1 t p x c.2
    else if st = 3 then d.ts1Equalise p x c.2
    else d.recoverStep p
  else d

/-- TS1. A lane held by LANE_DROP receives nothing (R546). -/
def execTs1 (port : Fin 64) (set : Ts1Set) (s : State) : Host.Outcome State Fault Refusal :=
  onDev (fun t d =>
    let lanes := set.lanes.filter (fun y => ¬ (d.laneOf (laneBase port + y.lane)).dropped)
    if d.isQflPort port ∧ (lanes ≠ [] ∨ set.lanes = []) then d.ts1 t port { set with lanes } else d) s

/-- The width rule of R102 over good lanes: log2 width and whether the upper window is taken. -/
def selectWidth (good wmax : Nat) : Option (Nat × Bool) :=
  let has (lo n : Nat) : Bool := decide (fieldOf good lo n = 2 ^ n - 1)
  [5, 4, 3, 2, 1, 0].findSome? (fun k =>
    let w := 2 ^ k
    if wmax < w then none
    else if has 0 w then some (k, false)
    else if has (wmax - w) w then some (k, true)
    else none)

/-- wmax of R102: the smaller configured width, at most 16 unless ganged x32 is enabled. -/
def Dev.wmax (d : Dev) (p : Nat) : Nat :=
  let w := 2 ^ min (d.widthCfg p) (d.qphy p).partnerWidth
  if fieldOf (d.rd (Pg.phy_FEATURES_ENABLED p)) 3 1 = 0 then min w 16 else w

/-- The partner's fields of a TS2 are taken into the registers (R100, R101, R112); features are fixed from TRAIN2 on. -/
def Dev.takeTs2 (p : Nat) (x : Ts2Set) (d : Dev) : Dev :=
  let ver := min 2 x.version
  let feats := Nat.land (Nat.land (d.qphy p).offer x.features) (if ver = 1 then 0x38 else 0x3f)
  let d := (d.wr (Pg.phy_VERSION_REMOTE p) x.version).wr (Pg.phy_VERSION_OPERATING p) ver
  let d := if d.rd (Pg.phy_STATE p) = 4 then d.wr (Pg.phy_FEATURES_ENABLED p) feats else d
  let d := (d.wr (Pg.phy_NONCE_REMOTE p) x.nonce).wr (Pg.phy_REMOTE_CHAIN p) x.chain
  (d.wr (Pg.phy_REMOTE_PORT p) x.port).wr (Pg.phy_LANE_MAP_REMOTE p) x.laneMap

/-- Eight identical TS2, or more, in TRAIN2 or RECOVERY (R100 to R104, R108). TS2 with RX_TS2_SEEN goes out when what it says changes, 16 of
it once the partner agrees. -/
def Dev.ts2Eight (t p : Nat) (x : Ts2Set) (d : Dev) : Dev :=
  let q := d.qphy p
  let changed : Bool := match q.lastTs2 with
    | some y => decide (y.version ≠ x.version ∨ y.features ≠ x.features ∨ y.nonce ≠ x.nonce ∨ y.chain ≠ x.chain ∨ y.port ≠ x.port)
    | none => false
  if d.rd (Pg.phy_STATE p) = 6 ∧ changed then
    ((d.raise1 (Pg.phy_NEW_PARTNER_EVT p)).wr (Pg.phy_LAST_FAIL p) 7).fullRetrain t p
  else
    let d := d.takeTs2 p x
    if x.version = 0 then d.trainFail t p 5 else
    match selectWidth (Nat.land q.laneMap x.laneMap) (d.wmax p) with
    | none => d.trainFail t p 4
    | some (k, up) =>
      if k < min 5 (d.rd (Pg.phy_MIN_WIDTH p)) then d.trainFail t p 4
      else
        let r := { q with selection := some (k, up) }
        let ready := decide (x.widthSel = r.widthSel) && x.seen
        if q.selection = r.selection ∧ q.ready = ready then d
        else (d.setQphy p { r with ready }).sendTs2 p (if ready then 16 else 1)

/-- TS2 (R90, R91, R100 to R104, R108); a port in LOOPBACK returns it. In RECOVERY the port's own map comes first. -/
def execTs2 (port : Fin 64) (set : Ts2Set) (s : State) : Host.Outcome State Fault Refusal :=
  onDev (fun t d =>
    let st := d.rd (Pg.phy_STATE port)
    if ¬ d.isQflPort port ∨ (d.portLanes port).all (fun i => (d.laneOf (laneBase port + i)).dropped) then d
    else if st = 7 then d.emit (.qfl port (.ts2 set (d.portLanes port) 1))
    else if ¬ (st = 4 ∨ st = 6) then d else
    let c := countSame (d.qphy port).ts2 set
    let d := d.setQphy port { d.qphy port with ts2 := some c }
    if 8 ≤ c.2 ∧ (st = 4 ∨ (d.qphy port).laneMap ≠ 0) then d.ts2Eight t port set else d) s

/-- The receivers of the selected window, logical lane 0 first: each lane by the number received on it (R94, R102). -/
def Dev.windowReceivers (d : Dev) (p first w : Nat) : List Nat :=
  (List.range w).filterMap (fun j =>
    (d.qphy p).complete.find? (fun i => decide (d.rd (Pg.lane_LOGICAL_LANE (laneBase p + i)) = first + j)))

/-- Enter ACTIVE: LCM ACTIVE leaves on the selected lanes, LCM EIOS on the other lanes sent on; the link layer enters SYNCING (R104, R127,
R128). -/
def Dev.enterActive (p : Nat) (d : Dev) : Dev :=
  let q := d.qphy p
  match q.selection with
  | none => d
  | some (k, up) =>
    let fresh := decide (d.rd (Pg.phy_STATE p) = 4)
    let w := 2 ^ k
    let first := if up then d.wmax p - w else 0
    let tx := (List.range w).map (first + ·)
    let rest := (d.sendLanes p).filter (fun i => !tx.contains i)
    let d := d.emit (.qfl p (.lcm 5 0 0 tx))
    let d := if rest = [] then d else d.emit (.qfl p (.lcm 2 0 0 rest))
    let d := ((d.wr (Pg.phy_WIDTH_ACTIVE p) k).wrFlag (Pg.phy_UPPER_WINDOW p) up).wr (Pg.phy_STATE p) 5
    let last := q.ts2.map (·.1)
    let d := d.setQphy p { q with
      lastTs2 := last, ts1 := none, ts2 := none, ready := false, txLanes := tx, rxLanes := d.windowReceivers p first w }
    let d := d.showInUse p
    let d := if fresh then d.inc (Pg.phy_TRAIN_COUNT p) else d
    let d := if fresh then d.freshLink p else d
    let feats := d.rd (Pg.phy_FEATURES_ENABLED p)
    let d := (d.wrFlag (Pg.ll_SELECTIVE p) (decide (fieldOf feats 0 1 = 1))).wr (Pg.ll_TRAINED_WIDTH p) k
    let role := if fieldOf feats 2 1 = 0 then 0
      else if d.rd (Pg.phy_NONCE_REMOTE p) < d.rd (Pg.phy_NONCE_LOCAL p) then 1 else 2
    let d := if fresh then d.setLink p { d.link p with session := role } else d
    ((d.qflPortUp p k).enterSyncing p)

/-- ACTIVE (R104): the conditions to leave TRAIN2 or RECOVERY hold. -/
def execActiveEntry (port : Fin 64) (s : State) : Host.Outcome State Fault Refusal :=
  onDev (fun _ d =>
    let st := d.rd (Pg.phy_STATE port)
    if (st = 4 ∨ st = 6) ∧ (d.qphy port).ready then d.enterActive port else d) s

/-! ### Received symbols and loss of lock (R77, R79, R82, R85, R86) -/

/-- What codes received on one lane have shown so far: its receiver, code violations, disparity errors, LCM sets with a reserved command,
Whey messages of an unlisted type, the symbol read last, and whether more than 16 errors fell within 1,024 symbol times. -/
structure LaneScan where
  lane : LaneState
  violations : Nat := 0
  wrong : Nat := 0
  lcms : Nat := 0
  wheys : Nat := 0
  last : Option Symbol := none
  lost : Bool := false
deriving DecidableEq, Repr

/-- An error falls on a lane at its present symbol time. -/
def LaneState.err (x : LaneState) : LaneState :=
  { x with errors := x.errors.filter (fun u => decide (x.symbols < u + 1024)) ++ [x.symbols] }

/-- More than 16 errors within 1,024 symbol times (R86). -/
def LaneState.failing (x : LaneState) : Bool := decide (16 < x.errors.length)

/-- Commands of R82. -/
def lcmListed (c : Nat) : Bool := [1, 2, 3, 5].contains c || (decide (0x10 ≤ c) && decide (c ≤ 0x1f))

/-- A symbol read: the one behind LCM is a command, the one behind WHY a Whey type. -/
def LaneScan.symbol (s : Symbol) (x : LaneScan) : LaneScan :=
  let x := match x.last, s with
    | some .lcm, .data c => if lcmListed c then x else { x with lcms := x.lcms + 1 }
    | some .why, .data c => if wheyListed c then x else { x with wheys := x.wheys + 1 }
    | _, _ => x
  { x with last := some s }

/-- One 10-bit code on a lane. Before lock only a COM is looked for, and its form gives the running disparity (R77, R79). -/
def LaneScan.step (x : LaneScan) (c : BitVec 10) : LaneScan :=
  let l := { x.lane with symbols := x.lane.symbols + 1 }
  match l.disparity with
  | none =>
    if c = Symbol.com.code false then { x with lane := { l with disparity := some true }, last := some .com }
    else if c = Symbol.com.code true then { x with lane := { l with disparity := some false }, last := some .com }
    else { x with lane := l }
  | some rd =>
    let l := { l with disparity := some (disparityAfter 10 c.toNat rd) }
    match readCode c rd with
    | .good s => ({ x with lane := l }).symbol s
    | .wrongDisparity s =>
      let l := l.err
      ({ x with lane := l, wrong := x.wrong + 1, lost := x.lost || l.failing }).symbol s
    | .violation =>
      let l := l.err
      { x with lane := l, violations := x.violations + 1, last := none, lost := x.lost || l.failing }

/-- A lane loses lock: it shows none until it locks again, and in ACTIVE the loss of a lane in use starts RECOVERY (R86, R105, R113). -/
def Dev.laneLost (p i : Nat) (d : Dev) : Dev :=
  let l := laneBase p + i
  let d := (d.wrFlag (Pg.lane_BIT_LOCK l) false).wrFlag (Pg.lane_SYMBOL_LOCK l) false
  let d := d.setLane l { d.laneOf l with disparity := none, errors := [], skpsLost := 0 }
  let d := if d.rd (Pg.phy_STATE p) ≠ 2 then d else
    d.setQphy p { d.qphy p with train := Tab.erase (d.qphy p).train i, complete := (d.qphy p).complete.filter (· ≠ i) }
  if (d.lanesInUse p).contains i then d.enterRecovery p else d

/-- The SKP set of a lane (R85): one SKP is added or removed to keep the buffer of 16 symbols centred; a set with none or more than 5 is a
code violation; four sets in a row missing or misaligned lose lock (R86). -/
def LaneScan.skpSet (skips : Nat) (place : SkpPlace) (x : LaneScan) : LaneScan :=
  if place ≠ .inPlace then
    let n := x.lane.skpsLost + 1
    { x with lane := { x.lane with skpsLost := n }, lost := x.lost || decide (4 ≤ n) }
  else
    let l := { x.lane with skpsLost := 0, symbols := x.lane.symbols + 1 + skips }
    if skips < 1 ∨ 5 < skips then
      let l := l.err
      { x with lane := l, violations := x.violations + 1, lost := x.lost || l.failing }
    else
      let e := l.elastic + (skips : Int) - 3
      let e := if 0 < e then e - 1 else if e < 0 then e + 1 else e
      { x with lane := { l with elastic := max (-8) (min 8 e) } }

/-- What arrived on lane l of port p up to and with an SKP set. LCM commands and Whey types are counted once for the port, on the lane that
carries logical lane 0. -/
def Dev.laneReceives (p l skips : Nat) (place : SkpPlace) (codes : List (BitVec 10)) (d : Dev) : Dev :=
  let x := (codes.foldl LaneScan.step { lane := d.laneOf l }).skpSet skips place
  let d := (d.setLane l x.lane).add (Pg.lane_CODE_VIOLATIONS l) x.violations
  let d := d.add (Pg.lane_DISPARITY_ERRORS l) x.wrong
  let zero := decide ((d.lanesInUse p).head? = some (l - laneBase p))
  let d := if zero then (List.replicate x.lcms ()).foldl (fun (d : Dev) _ => d.countPort p .lcm) d else d
  let d := if zero then d.add (Pg.ll_WHEY_DROPPED p) x.wheys else d
  if x.lost ∧ d.rd (Pg.phy_STATE p) = 5 ∧ (d.lanesInUse p).contains (l - laneBase p) then d.laneLost p (l - laneBase p) else d

/-- The port whose lanes include lane l. -/
def Dev.laneOwner (d : Dev) (l : Nat) : Option Nat :=
  d.ports.find? (fun p => decide (laneBase p ≤ l) && decide (l < laneBase p + 2 ^ d.widthCfg p))

/-- SKP_ORDERED_SET (R85), with the codes received on the lane since the set before it (R77); in LOOPBACK they are returned retimed, not
decoded (R111). -/
def execSkpOrderedSet (lane : Fin 256) (set : SkpRx) (s : State) :
    Host.Outcome State Fault Refusal :=
  onDev (fun _ d =>
    match d.laneOwner lane with
    | none => d
    | some p =>
      if ¬ d.isQflPort p ∨ (d.laneOf lane).dropped then d
      else if d.rd (Pg.phy_STATE p) = 7 then d.emit (.qfl p (.retimed (lane.val - laneBase p) set.codes))
      else d.laneReceives p lane set.skips set.place set.codes) s

/-- SKP_INTERVAL (R84): in every state that sends symbols. -/
def execSkpInterval (port : Fin 64) (s : State) : Host.Outcome State Fault Refusal :=
  onDev (fun _ d =>
    let st := d.rd (Pg.phy_STATE port)
    if 2 ≤ st ∧ st ≤ 6 then d.emit (.qfl port .skp) else d) s

/-- DESKEW (R82, R93, R95): marks one instant on all lanes; two consecutive sets within 112 symbol times, of the 128 the buffer holds, align
them. -/
def execDeskew (port : Fin 64) (skew : Nat) (s : State) : Host.Outcome State Fault Refusal :=
  onDev (fun t d =>
    let st := d.rd (Pg.phy_STATE port)
    if st ≠ 2 ∧ st ≠ 6 then d else
    let q := d.qphy port
    if 112 < skew then d.setQphy port { q with deskews := 0 }
    else
      let d := (d.setQphy port { q with deskews := q.deskews + 1 }).wr (Pg.phy_SKEW port) skew
      if st = 2 then d.lockCheck t port else d.recoverStep port) s

/-- EIOS (R82): the partner's transmitter enters electrical idle. -/
def execEios (port : Fin 64) (s : State) : Host.Outcome State Fault Refusal :=
  onDev (fun _ d => if 2 ≤ d.rd (Pg.phy_STATE port) then d.setQphy port { d.qphy port with partnerIdle := true } else d) s

/-- LOOPBACK_ENTER (R111): obeyed in OM11, ignored and counted in any other mode. -/
def execLoopbackEnter (port : Fin 64) (s : State) : Host.Outcome State Fault Refusal :=
  onDev (fun _ d =>
    if d.rd (Pg.phy_STATE port) ≠ 5 then d
    else if d.mode = 11 then
      let d := if d.rd (Pg.ll_LL_STATE port) = 0 then d else d.wr (Pg.ll_LL_STATE port) 3
      ((d.wr (Pg.phy_STATE port) 7).showInUse port).qflPortDown port
    else d.countPort port .lcm) s

/-- ELECTRICAL_IDLE_DETECT (R107, R88). -/
def execElectricalIdleDetect (port : Fin 64) (s : State) : Host.Outcome State Fault Refusal :=
  onDev (fun t d =>
    let st := d.rd (Pg.phy_STATE port)
    if st = 5 ∨ st = 6 ∨ st = 7 then d.enterDetect t port else d) s

/-- TRAIN1_TIMEOUT (R93): at 4 ms the port goes on with the lanes that are complete, aligned ones included, and fails with none; at 5 ms
(`final`) it fails. -/
def execTrain1Timeout (port : Fin 64) (final : Bool) (s : State) : Host.Outcome State Fault Refusal :=
  onDev (fun t d =>
    if d.rd (Pg.phy_STATE port) ≠ 2 then d
    else if final ∨ (d.qphy port).complete = [] ∨ (d.qphy port).deskews < 2 then d.trainFail t port 1
    else d.setLocked t port) s

/-- EQUALISE_TIMEOUT (R88). -/
def execEqualiseTimeout (port : Fin 64) (s : State) : Host.Outcome State Fault Refusal :=
  onDev (fun t d => if d.rd (Pg.phy_STATE port) = 3 then d.trainFail t port 2 else d) s

/-- TRAIN2_TIMEOUT (R88). -/
def execTrain2Timeout (port : Fin 64) (s : State) : Host.Outcome State Fault Refusal :=
  onDev (fun t d => if d.rd (Pg.phy_STATE port) = 4 then d.trainFail t port 3 else d) s

/-- RECOVERY_TIMEOUT (R88). -/
def execRecoveryTimeout (port : Fin 64) (s : State) : Host.Outcome State Fault Refusal :=
  onDev (fun t d =>
    if d.rd (Pg.phy_STATE port) = 6 then (d.wr (Pg.phy_LAST_FAIL port) 6).enterDetect t port else d) s

/-- Requests end 4 ms after EQUALISE was entered (R99). -/
def Dev.eqOver (d : Dev) (t p : Nat) : Bool := decide ((d.qphy p).eqStart + 4000000 ≤ t)

/-- EQ_REQUEST_RESEND (R98): the request is sent again; past 4 ms the best setting takes its place (R99). -/
def Dev.eqResend (t p lane : Nat) (d : Dev) : Dev :=
  let q := d.qphy p
  match Tab.get q.eq lane with
  | none => d
  | some e =>
    if d.rd (Pg.phy_STATE p) ≠ 3 ∨ e.kind = 0 ∨ e.evaluating ∨ e.done then d
    else if e.kind = 1 ∧ d.eqOver t p then
      let e := e.next true
      ((d.setQphy p { q with eq := Tab.set q.eq lane e }).wr (Pg.lane_EQ_REQUESTS (laneBase p + lane)) e.requests).sendTs1 p
    else d.sendTs1 p

/-- EQ_REQUEST_RESEND. -/
def execEqRequestResend (port : Fin 64) (lane : Fin 32) (s : State) : Host.Outcome State Fault Refusal :=
  onDev (fun t d => d.eqResend t port lane) s

/-- The eye of the setting a lane's receiver has evaluated (R99): then its next request, or the lane is done. -/
def Dev.eqEvaluated (t p lane eye : Nat) (d : Dev) : Dev :=
  let q := d.qphy p
  match Tab.get q.eq lane with
  | none => d
  | some e =>
    if ¬ e.evaluating ∨ e.done then d else
    let last := decide (e.kind ≠ 1)
    let e := if e.bestEye < eye ∨ e.requests ≤ 1 then { e with bestEye := eye, bestPre := e.pre, bestPost := e.post } else e
    let e := if last then { e with done := true, evaluating := false } else e.next (d.eqOver t p)
    let l := laneBase p + lane
    let d := if last then d.wr (Pg.lane_EYE l) eye else d
    let d := d.wr (Pg.lane_EQ_REQUESTS l) e.requests
    let eq := Tab.set q.eq lane e
    let all := eq.all (fun z => z.2.done)
    ((d.setQphy p { q with eq, eqDone := q.eqDone || all }).sendTs1 p).equaliseDone p

/-- EQ_EVALUATION_DONE (R99, R113): in EQUALISE the receiver goes on; every 1 ms in ACTIVE, on a lane in use, and in PRBS, EYE is updated. -/
def execEqEvaluationDone (port : Fin 64) (lane : Fin 32) (eye : Fin 64) (s : State) : Host.Outcome State Fault Refusal :=
  onDev (fun t d =>
    let st := d.rd (Pg.phy_STATE port)
    if st = 3 then d.eqEvaluated t port lane eye
    else if (st = 5 ∧ (d.lanesInUse port).contains lane) ∨ (st = 8 ∧ (d.portLanes port).contains lane) then
      d.wr (Pg.lane_EYE (laneBase port + lane)) eye
    else d) s

/-- LOSS_OF_LOCK (R86, R105). -/
def execLossOfLock (port : Fin 64) (lane : Fin 32) (s : State) : Host.Outcome State Fault Refusal :=
  onDev (fun _ d => if (d.portLanes port).contains lane then d.laneLost port lane else d) s

/-! ### What control bits start (R109 to R113) -/

/-- PORT_DISABLE set (R112). -/
def Dev.portDisable (t p : Nat) (d : Dev) : Dev :=
  if d.rd (Pg.phy_STATE p) = 0 then d else (d.lcm p 2 0 0).enterDisabled t p

/-- RETRAIN written (R112): clears itself when RECOVERY starts, or at once in any other state. -/
def Dev.retrain (p : Nat) (d : Dev) : Dev := (d.enterRecovery p).wrFlag (Pg.phy_RETRAIN p) false

/-- LOOPBACK_REQ (R111): ignored outside OM11. -/
def Dev.loopback (t p : Nat) (on : Bool) (d : Dev) : Dev :=
  if d.mode ≠ 11 then d
  else if on then
    (if d.rd (Pg.phy_STATE p) = 5 then (d.lcm p 3 0 0).setQphy p { d.qphy p with loopMaster := true } else d)
  else if (d.qphy p).loopMaster then (d.lcm p 2 0 0).enterDetect t p
  else d

/-- Line rate of a lane's generator in 0.1 GT/s, and whether it sends PAM4 (R109): 56 NRZ on a QFL group; on a CXL group what CXL_MAX_RATE sets,
PAM4 at 64. -/
def Dev.prbsRate (d : Dev) (p : Nat) : Nat × Bool :=
  if d.isQflPort p then (560, false) else
  match d.rd (Pg.CXL_MAX_RATE (p / 4)) with
  | 1 => (25, false)
  | 2 => (50, false)
  | 3 => (80, false)
  | 4 => (160, false)
  | 5 => (320, false)
  | _ => (640, true)

/-- The port enters PRBS: a QFL link goes down, a CXL port is removed; no lane carries traffic any more (R72, R109, R113). -/
def Dev.enterPrbs (t p : Nat) (d : Dev) : Dev :=
  if d.isQflPort p then
    ((((d.linkDownOnly t p).qflPortDown p).wr (Pg.phy_STATE p) 8).showInUse p)
  else { d.wr (Pg.phy_STATE p) 8 with work := d.work ++ [.remove p] }

/-- A generator pattern is written on lane l (R109): the lane's generator starts from the all-ones state; the port is in PRBS while any of
its generators runs. A loopback master's generators test the round trip (R111). -/
def Dev.prbsState (t l : Nat) (d : Dev) : Dev :=
  match d.laneOwner l with
  | none => d
  | some p =>
    if d.mode ≠ 11 then d else
    let r := d.prbsRate p
    let d := d.emit (.prbs l (d.rd (Pg.lane_GEN_PATTERN l)) r.1 r.2)
    if (d.qphy p).loopMaster then d else
    let any := (d.portLanes p).any (fun i => decide (d.rd (Pg.lane_GEN_PATTERN (laneBase p + i)) ≠ 0))
    if any then (if d.rd (Pg.phy_STATE p) = 8 then d else d.enterPrbs t p)
    else if d.rd (Pg.phy_STATE p) ≠ 8 then d
    else if d.isQflPort p then d.enterDetect t p
    else d.wr (Pg.phy_STATE p) 0

/-- CLEAR of a lane's checker (R113). -/
def Dev.prbsClear (l : Nat) (d : Dev) : Dev :=
  ((((d.wr (Pg.lane_PRBS_BITS_LO l) 0).wr (Pg.lane_PRBS_BITS_HI l) 0).wr (Pg.lane_PRBS_ERRORS l) 0).wr
    (Pg.lane_SYNC_LOSS l) 0).wrFlag (Pg.lane_CLEAR l) false

/-- INJECT_ERROR (R113): one generated bit is inverted. -/
def Dev.injectError (l : Nat) (d : Dev) : Dev :=
  let x := d.laneOf l
  (d.setLane l { x with injected := x.injected + 1 }).wrFlag (Pg.lane_INJECT_ERROR l) false

end Sys2Proof.Machine
end

