-- ==== Sys2Proof/Machine/Removal.lean ====
section
/-! DEFINITION. Removal of a CXL port and its return to service (R49, R52, R64, R71 to R74, R179 to R183). -/
namespace Sys2Proof.Machine
open Sys2Proof

/-- Every request waiting at, or sent to, the agent of a device port ends with its target lost; its writes among them are discarded
after they completed normally (R73). -/
def Dev.failAgent (t p : Nat) (writes : Bool) (d : Dev) : Dev :=
  let sent := d.agents.reads.filter (fun r => r.port = p)
  let held := d.agents.queue.filter (fun r => decide (r.port = p) && (writes || !r.write))
  let d := { d with agents := { d.agents with
    reads := d.agents.reads.filter (fun r => r.port ≠ p), queue := d.agents.queue.filter (fun r => ¬ held.contains r)
    locks := d.agents.locks.filter (fun l => l.port ≠ p) } }
  let d := sent.foldl (fun (d : Dev) r => d.later (.ended r.cont { poison := true, ending := .targetLost })) d
  (held.foldl (fun (d : Dev) r =>
    let d := if r.write then (d.inc (Pg.DISCARDS_LOST p)).logErr t {
        cls := 8, severity := 1, source := 0x20 + p / 4, access := 8, master := r.acc.master, addr := r.acc.fa, time := some r.acc.time
        detail := saturate 32 ((t - r.acc.time) / 1000) }
      else d
    match r.cont with
    | .dual g =>
      -- the copy toward a lost migration target: the write completes with its other copy
      (match Tab.get d.agents.duals g with
       | some (n, c) =>
        if n ≤ 1 then ({ d with agents := { d.agents with duals := Tab.erase d.agents.duals g } }).later (.ended c {})
        else { d with agents := { d.agents with duals := Tab.set d.agents.duals g (n - 1, c) } }
       | none => d)
    | c => d.later (.ended c { poison := true, ending := .targetLost })) d).syncLocks p

/-- Reads of host memory through a port end with an error. -/
def Dev.failHostReads (p : Nat) (d : Dev) : Dev :=
  let mine := d.ladles.hostReads.filter (fun x => x.port = p)
  mine.foldl (fun (d : Dev) x => d.later (.hostData x.tag false false [])) d

/-- Requests outstanding on a port whose IDE stream became insecure complete as at a removal, and its buffered writes are discarded
(R71, R73, R74). -/
def Dev.abortPortRequests (t p : Nat) (d : Dev) : Dev :=
  let d := { d with edge := { d.edge with held := d.edge.held.filter (fun h => h.port ≠ p) } }
  (if d.personality p = 2 then d.failAgent t p true else d.failHostReads p).discardTarget t p

/-- The agent behind a host port is gone (R74): its requests not yet taken up and its responses are dropped, its buffered interrupts
and writes are discarded, its sharer slot is reclaimed, and an instance without another host port is reset. -/
def Dev.removeHost (t p : Nat) (d : Dev) : Dev :=
  let d := { d with edge := { d.edge with held := d.edge.held.filter (fun h => h.port ≠ p) } }
  let d := (d.failHostReads p).discardTarget t p
  let d := match d.slotOfPort p with
    | some s => (d.raise1 (Pg.RECLAIM_BUSY p)).slotDead t s
    | none => d
  match d.viOfPort p with
  | none => d
  | some vi =>
    let i := d.instOf vi
    let other := [i.portA, i.portB].any (fun q => match q with
      | some q => decide (q ≠ p) && d.linkUp q
      | none => false)
    if other then d.later .recheck else d.hostReset t vi 3

/-- A virtual downstream port's presence reaches the host of an instance, but not a CXL 1.1 host, to which it presents no such port
(R65, R66). -/
def Dev.hotPlug (vi vport : Nat) (present : Bool) (d : Dev) : Dev :=
  if d.hostGen vi = 1 then d else d.toHost vi (.slotPresence vi vport present)

/-- The agent behind a device port is gone (R73, R182, R189, R201): extents OFFLINE, migrations abandoned, requests completed,
buffered writes discarded, directory entries of its extents reclaimed. -/
def Dev.removeDevice (t p : Nat) (d : Dev) : Dev :=
  let es := d.extentsBehind p
  let d := d.portMigrations t p
  let d := es.foldl (fun (d : Dev) e => d.modExt e (fun x => { x with state := 6 })) d
  let d := { d with edge := { d.edge with held := d.edge.held.filter (fun h => h.port ≠ p) } }
  let d := (d.failAgent t p true).discardTarget t p
  let d := if d.flag ChurnR.TIER2_ACTIVE ∧ d.rd ChurnR.T2_PORT = p then d.tier2Lost t else d
  let d := { d with chn := { d.chn with portReclaims := d.chn.portReclaims ++ [PortReclaim.mk p []] } }
  let d := (d.raise1 (Pg.RECLAIM_BUSY p)).portReclaim t p
  match d.viOfType2 p with
  | none => d
  | some vi =>
    match (d.instOf vi).type2.find? (fun x => x.2 = p) with
    | some x => d.hotPlug vi x.1 false
    | none => d

/-- PERST_N of a device port falls (R64). -/
def Dev.perstFall (p : Nat) (d : Dev) : Dev :=
  if (d.port p).perstHigh then (d.setPort p { d.port p with perstHigh := false }).emit (.pin (.perst p) false) else d

/-- A CXL port leaves DL_Active and is removed (R72, R180). -/
def Dev.removePort (t p : Nat) (d : Dev) : Dev :=
  if ¬ d.linkUp p ∨ d.personality p = 3 then d else
  let d := ((((((d.wrFlag (Pg.DL_UP p) false).wr (Pg.RATE p) 0).wr (Pg.WIDTH p) 0).wr (Pg.CXL_GEN p) 0).wr (Pg.FLIT_256 p) 0).wr
    (Pg.LATENCY_OPT p) 0).wr (Pg.IDE_STATE p) 0
  let d := ((d.raise1 (Pg.LINK_DOWN_EVT p)).raise1 (Pg.REMOVED_EVT p)).raise1 (Pg.SETTLING p)
  let d := d.wr (Pg.SETTLE_REMAINING p) (d.rd (Pg.SLOT_SETTLE p))
  let d := d.perstFall p
  let x := d.port p
  let d := d.setPort p { x with
    removed := true, admitted := false, ideCurrent := false, ideNext := false, ideRefresh := false }
  let d := ((d.hbCount 0 1).mon t (p / 4) 0x108 0xffff 0).post t 0xa (p + 2 ^ 16 * d.rd (Pg.INCARNATION p))
  if d.personality p = 1 then d.removeHost t p else if d.personality p = 2 then d.removeDevice t p else d

/-- The conditions under which PERST_N of a device port is released (R64). -/
def Dev.perstMay (d : Dev) (p : Nat) : Bool :=
  decide (3 ≤ d.mode) && d.isDevicePort p && d.flag (Pg.POWERED (p / 4)) && d.flag (Spc.ch_PG (p / 4)) && !d.flag (Pg.SETTLING p) &&
    !(d.port p).removed

/-- PERST_RELEASE. -/
def Dev.perstRelease (p : Nat) (d : Dev) : Dev :=
  if ¬ d.perstMay p ∨ (d.port p).perstHigh then d
  else (d.setPort p { d.port p with perstHigh := true }).emit (.pin (.perst p) true)

/-- SLOT_SETTLE_EXPIRY. -/
def Dev.settleExpiry (p : Nat) (d : Dev) : Dev := if (d.port p).removed then d.wr (Pg.SETTLE_REMAINING p) 0 else d

/-- PORT_ADMIT: requests have completed, the reclaim and the settle time are over (R180). -/
def Dev.portAdmit (t p : Nat) (d : Dev) : Dev :=
  let x := d.port p
  if ¬ x.removed ∨ d.flag (Pg.RECLAIM_BUSY p) ∨ d.rd (Pg.SETTLE_REMAINING p) ≠ 0 ∨
      d.agents.reads.any (fun r => r.port = p) then d
  else
    let n := (d.rd (Pg.INCARNATION p) + 1) % 65536
    let d := ((d.wr (Pg.INCARNATION p) n).wrFlag (Pg.SETTLING p) false).wrFlag (Pg.ADMIT_HELD p) false
    let d := d.setPort p { x with removed := false, admitted := true }
    d.post t 0xa (p + 2 ^ 8 + 2 ^ 16 * n)

/-- The rate of a link-up: at most CXL_MAX_RATE, and at most 32 GT/s before CXL 3.x (R48, R65). -/
def Dev.trainedRate (d : Dev) (p gen rate : Nat) : Nat :=
  min (min rate (d.rd (Pg.CXL_MAX_RATE (p / 4)))) (if gen = 3 then 6 else 5)

/-- The width of a link-up: from x1 to the configured width (R42). -/
def Dev.trainedWidth (d : Dev) (p width : Nat) : Nat := max 1 (min width (2 ^ d.widthCfg p))

/-- CXL_LINK_UP (R42, R49, R65, R68, R158, R180): the port trained at a generation. A device presents its logical devices, each of which gets
decoder 0 over its whole capacity. -/
def Dev.cxlLinkUp (t p gen rate width : Nat) (flit256 latencyOpt poisonCapable : Bool) (capacity : List Nat) (type2 : Bool) (d : Dev) : Dev :=
  let x := d.port p
  if ¬ (d.isHostPort p || d.isDevicePort p) ∨ d.linkUp p ∨ d.mode < 3 ∨ ¬ d.flag (Pg.POWERED (p / 4)) ∨ x.disabled ∨ d.scanHolds then d
  else if x.removed ∨ ¬ x.admitted then d.raise1 (Pg.ADMIT_HELD p)
  else if d.isDevicePort p ∧ ¬ x.perstHigh then d
  else
    let rate := d.trainedRate p gen rate
    let long := decide (gen = 3) && (flit256 || decide (rate = 6))
    let d := (((((d.raise1 (Pg.DL_UP p)).wr (Pg.RATE p) rate).wr (Pg.WIDTH p) (d.trainedWidth p width)).wr
      (Pg.CXL_GEN p) gen).wrFlag (Pg.FLIT_256 p) long).wrFlag (Pg.LATENCY_OPT p) (latencyOpt && long)
    let d := d.setPort p { x with
      lastGen := gen, poisonCapable := poisonCapable && decide (gen ≠ 1) && d.isDevicePort p
      capacity := if d.isHostPort p then [] else if gen = 1 then capacity.take 1 else capacity.take 16, type2 }
    if d.isDevicePort p then
      let d := (d.port p).capacity.zipIdx.foldl (fun (d : Dev) y =>
        let d := if y.1 = 0 then d else d.emit (.device p (.hdmProgram y.2 y.1))
        d.post t 2 (p + 2 ^ 8 * y.2 + 2 ^ 16 * flagBit (d.port p).poisonCapable + 2 ^ 32 * y.1)) d
      match d.viOfType2 p with
      | some vi =>
        (match (d.instOf vi).type2.find? (fun y => y.2 = p) with
         | some y => if (d.port p).type2 then d.hotPlug vi y.1 true else d
         | none => d)
      | none => d
    else d.later (.takeHeld p)

/-- PRESENCE_DEBOUNCE: PRESENT follows the input; a loss removes the port (R49, R72). -/
def Dev.presenceDebounce (t p : Nat) (present : Bool) (d : Dev) : Dev :=
  if ¬ d.present p then d else
  let d := (d.setPort p { d.port p with presentIn := present }).wrFlag (Pg.PRESENT p) present
  if present then d else d.removePort t p

/-- TRAINING_RETRY: a present port that is not up and may train fails once more (R52). -/
def Dev.trainingRetry (p : Nat) (d : Dev) : Dev :=
  if ¬ (d.isHostPort p || d.isDevicePort p) ∨ d.linkUp p ∨ ¬ d.flag (Pg.PRESENT p) ∨ ¬ (d.port p).admitted ∨ (d.port p).disabled then d
  else d.countPort p .training

end Sys2Proof.Machine
end

