-- ==== Sys2Proof/Machine/Power.lean ====
section
/-! DEFINITION. Slot power controllers (R501 to R513). -/
namespace Sys2Proof.Machine
open Sys2Proof

/-- Drive one of a channel's output pins and its status bit. -/
def Dev.spcDrive (f : Field) (p : Pin) (on : Bool) (d : Dev) : Dev := (d.wrFlag f on).emit (.pin p on)

/-- DATA of event record 0x000D (R509): channel, event, current and VOUT at the event. -/
def Dev.spcData (d : Dev) (c ev : Nat) : Nat :=
  c + 2 ^ 8 * ev + 2 ^ 16 * d.rd (Spc.ch_CURRENT c) + 2 ^ 32 * d.rd (Spc.ch_VOUT c)

/-- A fall of SPCn_PG takes the group's links down: CXL ports are removed, QFL links go down (R506, R72, R75). -/
def Dev.powerGoodFalls (t c : Nat) (d : Dev) : Dev :=
  if ¬ d.flag (Spc.ch_PG c) then d else
  let d := ((d.spcDrive (Spc.ch_PG c) (.spcPg c) false).raise1 (Spc.ch_PG_FALL_EVT c))
  (List.range 4).foldl (fun d k =>
    let p := 4 * c + k
    if ¬ d.present p then d
    else if d.personality p = 3 then d.qflLinkDown t p
    else
      (d.perstFall p).removePort t p) d

/-- Begin pre-charge. -/
def Dev.spcStart (c : Nat) (d : Dev) : Dev :=
  (d.wr (Spc.ch_STATE c) 1).spcDrive (Spc.ch_PCHG_ON c) (.spcPchg c) true

/-- A channel of the AUTO_ON sequence is on its way to ON or FAULT. -/
def Dev.autoRunning (d : Dev) : Bool := (List.range 16).any (fun c =>
  (d.channel c).autoRun && decide (1 ≤ d.rd (Spc.ch_STATE c)) && decide (d.rd (Spc.ch_STATE c) ≤ 3))

/-- The AUTO_ON sequence powers the next waiting channel that is OFF, one at a time in ascending order (R507). -/
def Dev.autoNext (d : Dev) : Dev :=
  if ¬ d.flag Spc.AUTO_ON_BUSY ∨ d.autoRunning then d else
  match (List.range 16).find? (fun c => (d.channel c).autoWait && decide (d.rd (Spc.ch_STATE c) = 0)) with
  | none => ((List.range 16).foldl (fun (d : Dev) c => d.setChannel c { d.channel c with autoWait := false, autoRun := false }) d).wrFlag
      Spc.AUTO_ON_BUSY false
  | some c => (d.setChannel c { d.channel c with autoWait := false, autoRun := true }).spcStart c

/-- At entry to OM3 the channels with AUTO_ON set that are OFF line up to be powered (R507). -/
def Dev.autoOn (d : Dev) : Dev :=
  let cs := (List.range 16).filter (fun c =>
    d.flag (Spc.ch_AUTO_ON c) && decide (d.rd (Spc.ch_STATE c) = 0) && decide (d.rd (Spc.ch_RSENSE c) ≠ 0))
  if cs = [] then d else
  (cs.foldl (fun d c => d.setChannel c { d.channel c with autoWait := true }) (d.raise1 Spc.AUTO_ON_BUSY)).autoNext

/-- The channel enters FAULT with a LAST_FAULT code (R504 to R506, R509). -/
def Dev.spcFault (t c code : Nat) (d : Dev) : Dev :=
  let d := d.spcDrive (Spc.ch_GATE_ON c) (.spcGate c) false
  let d := d.spcDrive (Spc.ch_PCHG_ON c) (.spcPchg c) false
  let d := d.powerGoodFalls t c
  let d := ((d.wrFlag (Spc.ch_TIMER_RUN c) false).wrFlag (Spc.ch_IN_LIMIT c) false).wr (Spc.ch_STATE c) 6
  let d := ((d.wr (Spc.ch_LAST_FAULT c) code).raise1 (Spc.ch_FAULT_EVT c)).inc (Spc.ch_FAULTS c)
  let d := (d.wrFlag (Spc.ch_COOLDOWN c) (decide (code ≠ 6))).hbCount 2 1
  let d := (d.post t 0xd (d.spcData c (0x10 + code))).mon t 0x38 0x802 0xffff 0
  ((d.finish t (· = .slotOn c) .aborted []).finish t (· = .slotOff c) .ok []).autoNext

/-- The channel is OFF: outputs low, timers gone. -/
def Dev.spcOff (t c : Nat) (d : Dev) : Dev :=
  let d := d.spcDrive (Spc.ch_GATE_ON c) (.spcGate c) false
  let d := d.spcDrive (Spc.ch_PCHG_ON c) (.spcPchg c) false
  let d := d.powerGoodFalls t c
  ((d.wrFlag (Spc.ch_TIMER_RUN c) false).wrFlag (Spc.ch_IN_LIMIT c) false).wr (Spc.ch_STATE c) 0

/-- The checks common to group 0x06xx: the channel exists (BAD_PARAM) and is populated (NOT_PERMITTED, R503). -/
def Dev.spcCheck (d : Dev) (c : Nat) (k : Dev × Result) : Dev × Result :=
  if 15 < c then (d, .err .badParam)
  else if d.rd (Spc.ch_RSENSE c) = 0 then (d, .err .notPermitted)
  else k

/-- SLOT_POWER_ON (R508). -/
def Dev.slotPowerOn (c : Nat) (d : Dev) : Dev × Result :=
  d.spcCheck c <|
    match d.rd (Spc.ch_STATE c) with
    | 4 => (d, .final .ok [])
    | 5 => (d, .err .busy)
    | 0 => if d.flag (Spc.ch_COOLDOWN c) then (d, .err .busy) else (d.spcStart c, .run (.slotOn c))
    | 6 => if d.flag (Spc.ch_COOLDOWN c) then (d, .err .busy) else (d.spcStart c, .run (.slotOn c))
    | _ => if d.works (· = .slotOn c) then (d, .err .busy) else (d, .run (.slotOn c))

/-- SLOT_POWER_OFF (R508, R506). -/
def Dev.slotPowerOff (t c force : Nat) (d : Dev) : Dev × Result :=
  if 1 < force then (d, .err .badParam) else
  d.spcCheck c <|
    if force = 0 ∧ (List.range 4).any (fun k => d.portInUse (4 * c + k)) then (d, .err .busy)
    else if d.rd (Spc.ch_STATE c) = 4 then
      let d := d.powerGoodFalls t c
      let d := ((d.wrFlag (Spc.ch_TIMER_RUN c) false).wrFlag (Spc.ch_IN_LIMIT c) false).wr (Spc.ch_STATE c) 5
      (d.post t 0xd (d.spcData c 2), .run (.slotOff c))
    else if d.rd (Spc.ch_STATE c) = 5 then (d, .run (.slotOff c))
    else
      let d := d.spcOff t c
      let d := d.post t 0xd (d.spcData c 2)
      ((d.finish t (· = .slotOn c) .aborted []).autoNext, .final .ok [])

/-- The current limit is reached (R502, R505): the gate regulates, the fault timer starts, a running qualification is cancelled. -/
def Dev.limitStarts (t c : Nat) (d : Dev) : Dev :=
  if d.flag (Spc.ch_TIMER_RUN c) then d.raise1 (Spc.ch_IN_LIMIT c) else
  let d := ((d.raise1 (Spc.ch_IN_LIMIT c)).raise1 (Spc.ch_TIMER_RUN c)).mon t 0x38 0x801 0xffff 0
  if d.rd (Spc.ch_STATE c) = 3 then ((d.raise1 (Spc.ch_QUAL_CANCEL_EVT c)).inc (Spc.ch_QUAL_CANCELS c)).mon t 0x38 0x803 0xffff 0 else d

/-- A limit below the present current of a channel that drives its rail is reached at once (R506). -/
def Dev.limitCheck (t c : Nat) (d : Dev) : Dev :=
  if d.rd (Spc.ch_ILIM c) * 10 < d.rd (Spc.ch_CURRENT c) ∧ 1 ≤ d.rd (Spc.ch_STATE c) ∧ d.rd (Spc.ch_STATE c) ≤ 4 ∧
      ¬ d.flag (Spc.ch_IN_LIMIT c) then d.limitStarts t c
  else d

/-- SLOT_POWER_CONFIG (R508, R502): the sense threshold ILIM × RSENSE stays at or below 25 mV; a limit below the present current
starts the fault timer (R506). -/
def Dev.slotPowerConfig (t c ilim timer : Nat) (d : Dev) : Dev × Result :=
  d.spcCheck c <|
    if ilim < 10 ∨ 120 < ilim ∨ timer < 1 ∨ 255 < timer ∨ 2500 < ilim * d.rd (Spc.ch_RSENSE c) then (d, .err .badParam)
    else
      let d := (d.wr (Spc.ch_ILIM c) ilim).wr (Spc.ch_FAULT_TIMER c) timer
      (d.limitCheck t c, .final .ok [])

/-- The 24 bytes of SLOT_POWER_QUERY (R508). -/
def Dev.slotPowerReport (d : Dev) (c : Nat) : List Byte :=
  let bits := d.rd (Spc.ch_PG c) + 2 * d.rd (Spc.ch_GATE_ON c) + 4 * d.rd (Spc.ch_PCHG_ON c) + 8 * d.rd (Spc.ch_TIMER_RUN c) +
    16 * d.rd (Spc.ch_IN_LIMIT c)
  leBytes 1 (d.rd (Spc.ch_STATE c)) ++ leBytes 1 (d.rd (Spc.ch_LAST_FAULT c)) ++ leBytes 1 bits ++ leBytes 1 0 ++
    leBytes 2 (d.rd (Spc.ch_CURRENT c)) ++ leBytes 2 (d.rd (Spc.ch_VOUT c)) ++ leBytes 2 (d.rd (Spc.ch_VIN c)) ++
    leBytes 2 (d.rd (Spc.ch_ILIM c)) ++ leBytes 4 (d.rd (Spc.ch_POWER c)) ++ leBytes 4 (d.rd (Spc.ch_ENERGY_LO c)) ++
    leBytes 4 (d.rd (Spc.ch_ENERGY_HI c))

/-- One channel at the end of a scan: measurements, then the transitions that a scan decides (R504, R510). -/
def Dev.scanChannel (t c : Nat) (x : AdcSample) (d : Dev) : Dev :=
  if d.rd (Spc.ch_RSENSE c) = 0 then d else
  let power := x.vout * x.current / 100
  let d := ((d.wr (Spc.ch_CURRENT c) x.current).wr (Spc.ch_VOUT c) x.vout).wr (Spc.ch_VIN c) x.vin
  let d := d.wr (Spc.ch_POWER c) power
  let d := (d.threshold (4 + c) 2 (decide (x.vout < 10800))).threshold (20 + c) 0 (decide (10 * d.rd (Spc.ch_ILIM c) ≤ x.current))
  let d := if d.rd (Spc.ch_CURRENT_PEAK c) < x.current then d.wr (Spc.ch_CURRENT_PEAK c) x.current else d
  let uj := (d.channel c).fraction + power
  let e := d.rd (Spc.ch_ENERGY_LO c) + 2 ^ 32 * d.rd (Spc.ch_ENERGY_HI c) + uj / 1000
  let d := (d.wr (Spc.ch_ENERGY_LO c) e).wr (Spc.ch_ENERGY_HI c) (e / 2 ^ 32)
  let low := decide (x.vin < 9000)
  let again := (d.channel c).lowVin && low
  let d := d.setChannel c { d.channel c with fraction := uj % 1000, lowVin := low }
  let st := d.rd (Spc.ch_STATE c)
  if again ∧ st ≠ 0 ∧ st ≠ 6 then d.spcFault t c 6
  else if st = 1 ∧ x.vin ≤ x.vout + 100 * d.rd (Spc.ch_PCHG_DELTA c) then
    (d.wr (Spc.ch_STATE c) 2).spcDrive (Spc.ch_GATE_ON c) (.spcGate c) true
  else if st = 4 ∧ ¬ d.flag (Spc.ch_IN_LIMIT c) then d.wrFlag (Spc.ch_TIMER_RUN c) (decide (x.vout < 10800))
  else d

end Sys2Proof.Machine
end

