-- ==== Sys2Proof/Machine/Queues.lean ====
section
/-! DEFINITION. Queue pairs: assignment, setup, doorbells, arbitration and ring reads, completion of descriptors (R291 to R298, R305,
R308, R316). -/
namespace Sys2Proof.Machine
open Sys2Proof

/-! ### Doorbells (R297, R298) -/

/-- The pair at a local index of an instance. -/
def Dev.localPair (d : Dev) (vi q : Nat) : Option Nat :=
  (d.ladles.pairs.find? (fun x => x.2.state ≠ 0 ∧ ¬ x.2.fm ∧ x.2.inst = vi ∧ x.2.localIndex = q)).map (·.1)

/-- Act on one doorbell of an ENABLED pair: SQ_TAIL (false) or CQ_HEAD (true). -/
def Dev.actDoorbell (t q : Nat) (cq : Bool) (v : Nat) (d : Dev) : Dev :=
  let x := d.pair q
  if x.state ≠ 2 then d
  else if x.size ≤ v then d.pairError t q 1
  else if cq then
    let freed := (v + x.size - x.cqHead) % x.size
    if x.cqUsed < freed then d.pairError t q 3
    else (((d.setPair q { x with cqHead := v, cqUsed := x.cqUsed - freed }).flushRecords 4096 t q).submitsDone t).pairIdle t q
  else
    let old := (x.sqTail + x.size - x.sqHead) % x.size
    let added := (v + x.size - x.sqTail) % x.size
    if x.size - 1 < old + added then d.pairError t q 2 else d.setPair q { x with sqTail := v }

/-- A doorbell write: acted on, recorded, or ignored and counted. -/
def Dev.doorbell (t vi q : Nat) (cq : Bool) (v : Nat) (d : Dev) : Dev :=
  match d.localPair vi q with
  | none => d.inc LadleR.DOORBELLS_IGNORED
  | some k =>
    let x := d.pair k
    let record (d : Dev) : Dev := d.setPair k { x with doorbells := x.doorbells ++ [(cq, v)] }
    if x.state = 1 ∨ x.state = 4 then d.inc LadleR.DOORBELLS_IGNORED
    else if x.state = 3 then record d
    else if d.ladlesRun then d.actDoorbell t k cq v
    else record d

/-- A doorbell write of a host: it takes effect in its turn among the posted writes of its port (R267). -/
def Dev.hostDoorbell (t vi q : Nat) (cq : Bool) (v : Nat) (d : Dev) : Dev :=
  let c : Nat → Instr := fun _ => if cq then .cqHead (Fin.ofNat 64 vi) q v else .sqTail (Fin.ofNat 64 vi) q v
  match d.doorbellPort vi with
  | some p => { d with edge := { d.edge with held := d.edge.held ++ [HeldReq.mk p (c 0) (!d.stopped)] } }
  | none =>
    if d.flag (Mbx.DOORBELL vi) then
      match d.hostPortOf vi with
      | some p => { d with edge := { d.edge with held := d.edge.held ++ [HeldReq.mk p (c 0) true] } }
      | none => d.doorbell t vi q cq v
    else d.doorbell t vi q cq v

/-- Recorded doorbells of ENABLED pairs are applied, in the order received, once the Ladles run. -/
def Dev.applyDoorbells (t : Nat) (d : Dev) : Dev :=
  if ¬ d.ladlesRun then d else
  (d.ladles.pairs.filter (fun x => x.2.state = 2 ∧ x.2.doorbells ≠ [])).foldl (fun (d : Dev) x =>
    x.2.doorbells.foldl (fun (d : Dev) b => d.actDoorbell t x.1 b.1 b.2) (d.setPair x.1 { d.pair x.1 with doorbells := [] })) d

/-! ### Queue commands (R292, R295, R296) -/

/-- Pairs a Ladle serves. -/
def Dev.pairsOn (d : Dev) (l : Nat) : Nat := (d.ladles.pairs.filter (fun x => x.2.state ≠ 0 ∧ x.2.ladle = l)).length

/-- The Ladle with the fewest assigned pairs, the lowest on a tie. -/
def Dev.leastLadle (d : Dev) : Nat :=
  (List.range 32).foldl (fun best l => if d.pairsOn l < d.pairsOn best then l else best) 0

/-- QUEUE_ASSIGN: owner 0 to 63 an instance, 64 the fabric manager, 255 none. -/
def Dev.queueAssign (q owner index ladle : Nat) (d : Dev) : Dev × Result :=
  let x := d.pair q
  if 8191 < q ∨ ¬ (owner ≤ 64 ∨ owner = 255) ∨ 1023 < index ∨ ¬ (ladle ≤ 31 ∨ ladle = 255) then (d, .err .badParam)
  else if 2 ≤ x.state ∨ x.disabling then (d, .err .busy)
  else if owner = 255 then (d.setPair q {}, .final .ok [])
  else
    let l := if ladle = 255 then d.leastLadle else ladle
    let others := d.ladles.pairs.filter (fun y => y.1 ≠ q ∧ y.2.state ≠ 0)
    if owner = 64 then
      if 32 ≤ (others.filter (fun y => y.2.fm)).length then (d, .err .badParam)
      else (d.setPair q { state := 1, fm := true, ladle := l, log2Size := 6 }, .final .ok [])
    else
      let mine := others.filter (fun y => ¬ y.2.fm ∧ y.2.inst = owner)
      if mine.any (fun y => y.2.localIndex = index) then (d, .err .badParam)
      else if d.rd (Vi.QUEUE_ALLOC owner) ≤ mine.length then (d, .err .noResource)
      else (d.setPair q { state := 1, inst := owner, localIndex := index, ladle := l }, .final .ok [])

/-- The pair a queue command names: by global number, or by local index from the mailbox of its instance. -/
def Dev.namedPair (d : Dev) (r : Requester) (q : Nat) : Option Nat :=
  match r with
  | .host vi => d.localPair vi q
  | _ => if q < 8192 then some q else none

/-- QUEUE_SETUP. -/
def Dev.queueSetup (q log2 sq cq vector : Nat) (enable : Bool) (d : Dev) : Dev × Result :=
  let x := d.pair q
  if sq % 4096 ≠ 0 ∨ cq % 4096 ≠ 0 ∨ log2 < 4 ∨ 12 < log2 ∨ (¬ x.fm ∧ x.state ≠ 0 ∧ d.rd (Vi.MSIX_COUNT x.inst) ≤ vector) then
    (d, .err .badParam)
  else if x.state ≠ 1 ∨ x.disabling then (d, .err .busy)
  else
    let y := { x with log2Size := log2, sqBase := sq, cqBase := cq, vector, errorCause := 0 }
    let y := if enable then
        { y with
          state := 2, sqHead := 0, sqTail := 0, cqHead := 0, cqTail := 0, cqUsed := 0, phase := true, doorbells := [], fetched := []
          ready := [], fetching := none, lostWrite := false, granted := false, heldError := 0 }
      else y
    (d.setPair q y, .final .ok [])

/-- QUEUE_DISABLE. -/
def Dev.queueDisable (t q : Nat) (d : Dev) : Dev × Result :=
  let x := d.pair q
  match x.state with
  | 0 => (d, .err .badParam)
  | 1 => (d, .final .ok [])
  | _ =>
    if x.disabling then (d, .err .busy) else
    let d := d.setPair q { x with disabling := true, doorbells := [] }
    let e := d.pairIdle t q
    if (e.pair q).disabling then (d, .run (.queueDisable q)) else (e, .final .ok [])

/-- QUEUE_RESET: the pair is DISABLED once what it had fetched has ended. -/
def Dev.queueReset (t q : Nat) (d : Dev) : Dev × Result :=
  if (d.pair q).state ≠ 4 then (d, .err .notPermitted) else d.queueDisable t q

/-- A queue table entry (R318). -/
def Pair.bits (x : Pair) : Nat :=
  x.state + 2 ^ 3 * flagBit x.fm + 2 ^ 4 * x.inst + 2 ^ 10 * x.localIndex + 2 ^ 20 * x.ladle + 2 ^ 25 * x.log2Size + 2 ^ 29 * x.vector +
    2 ^ 40 * x.errorCause + 2 ^ 64 * x.sqBase + 2 ^ 128 * x.cqBase + 2 ^ 192 * x.sqHead + 2 ^ 204 * x.sqTail + 2 ^ 216 * x.cqTail +
    2 ^ 228 * x.cqHead + 2 ^ 240 * flagBit x.phase

/-- LADLE_SUBMIT. -/
def Dev.ladleSubmit (q : Nat) (ds : List (BitVec 512)) (d : Dev) : Dev × Result :=
  if 8191 < q ∨ ds.length < 1 ∨ 16 < ds.length then (d, .err .badParam)
  else if ¬ d.fmPair q then (d, .err .notPermitted)
  else if 64 < d.ringUsed q + d.ringKept q + ds.length then (d, .err .noResource)
  else
    let x := d.pair q
    let n := d.silek.nextId
    let sub : Submit := { id := n, pair := q, orders := (List.range ds.length).map (· + x.nextOrder) }
    let d := d.setPair q (x.take (ds.map Desc.ofBits) 0)
    ({ d with
      silek := { d.silek with nextId := n + 1 }, ladles := { d.ladles with submits := d.ladles.submits ++ [sub] } }, .run (.fan n))

/-! ### Fetching (R316, R340) -/

/-- Issue one ring read for a pair: up to 8 descriptors, within one 4 KiB page and up to the ring's end. -/
def Dev.ringRead (t q : Nat) (d : Dev) : Dev :=
  let x := d.pair q
  let addr := x.sqBase + 64 * x.sqHead
  let n := min (min 8 x.pending) (min (x.size - x.sqHead) (64 - x.sqHead % 64))
  let (d, ok) := d.gateHost t x.inst x.master addr 7 false
  if ¬ ok then d.pairError t q 4
  else
    let tag := d.ladles.nextTag
    let p := (d.hostPortOf x.inst).getD 64
    let d := d.setPair q { d.pair q with fetching := some (tag, n), fetchEpoch := d.rd GateR.RULE_EPOCH, granted := true }
    let d := { d with ladles := { d.ladles with
      nextTag := tag + 1, hostReads := d.ladles.hostReads ++ [d.hostRead tag p (.ring q n)] } }
    if p < 64 ∧ d.linkUp p then d.emit (.host p (.read tag addr (64 * n))) else d.later (.hostData tag false false [])

/-- DESCRIPTOR_FETCH: a free place of a Ladle is filled by arbitration. The pair whose turn it is reads its ring; one that holds fetched
descriptors keeps its turn for them. -/
def Dev.descriptorFetch (t l : Nat) (d : Dev) : Dev :=
  if ¬ d.ladlesRun ∨ d.flag (LadleR.GATED l) ∨ d.stopped ∨ 8 ≤ d.placesUsed l then d
  else
    match d.ladleTurn l with
    | none => d
    | some (q, credit) => if d.mayFetch q then (d.takeTurn q credit).ringRead t q else d

/-- Bytes in pieces of 64. -/
def descsOf : Nat → List Byte → List Desc
  | 0, _ => []
  | n + 1, bs => Desc.ofBits (BitVec.ofNat 512 (leNat (bs.take 64))) :: descsOf n (bs.drop 64)

/-- A ring read ended: its descriptors are fetched, or the pair enters ERROR (R298). -/
def Dev.ringData (t q n : Nat) (ok poison : Bool) (bs : List Byte) (d : Dev) : Dev :=
  let x := d.pair q
  if x.fetching.isNone then d
  else
    let d := d.setPair q { x with fetching := none }
    if ¬ ok ∨ poison then ((d.setPair q { d.pair q with granted := false }).pairError t q 4).pairIdle t q
    else
      let d := d.setPair q ((d.pair q).take (descsOf n bs) 0)
      -- a pair that waits at a FENCE holds no place (R316)
      if d.mayStart q then d else d.setPair q { d.pair q with granted := false }

/-- The end of a host memory read of the device's own (R308, R316). -/
def Dev.hostDataIn (t tag : Nat) (ok poison : Bool) (bs : List Byte) (d : Dev) : Dev :=
  match d.ladles.hostReads.find? (fun x => x.tag = tag) with
  | none => d
  | some r =>
    let d := { d with ladles := { d.ladles with hostReads := d.ladles.hostReads.filter (fun x => x.tag ≠ tag) } }
    match r.origin with
    | .ring q n => d.ringData t q n ok poison bs
    | .ladle run piece side _ => d.ladleHostData t run piece side ok poison bs
    | _ => d

/-! ### The end of pieces and descriptors (R185, R308) -/

/-- PIECE_DONE: a piece that is over leaves; the descriptor completes with its last one. -/
def Dev.pieceDone (t run piece : Nat) (d : Dev) : Dev :=
  match d.run run with
  | none => d
  | some r =>
    match r.pieces.find? (fun p => p.index = piece) with
    | none => d
    | some p =>
      if ¬ p.over then d else
      let src := faExtent r.desc.src
      let d := if r.desc.opcode = 7 ∧ p.fail.isNone ∧ ¬ r.silent then d.advanceWatermark t src else d
      let d := d.retirePiece t r p
      match d.run run with
      | none => d
      | some r =>
        if r.pieces ≠ [] ∨ ¬ r.exhausted then d
        else
          let c := r.completion
          if r.desc.opcode = 7 ∧ ¬ r.silent ∧ c.status = 0 then d.later .recheck
          else
            let d := { d with ladles := { d.ladles with runs := d.ladles.runs.filter (fun x => x.id ≠ run) } }
            if r.silent then (d.pairIdle t r.pair).later .recheck
            else ((d.complete t r.pair r.order c r.desc.irq).later
              (.descDone r.desc.opcode r.purpose c.status r.desc.src r.desc.dst)).later .recheck

/-- What a completed descriptor of the device's own was for. -/
def Dev.descDone (t opcode purpose status src dst : Nat) (d : Dev) : Dev :=
  if opcode = 6 then d.zeroDone t (faExtent dst) status
  else if purpose = 2 ∧ status ≠ 0 then
    (match d.binder.migrations.find? (fun x => x.2.source = faExtent src) with
     | some (i, _) => d.abandon t i 2 .aborted
     | none => d)
  else d

/-- A block leaves its low-power state (R38): Ladle l, or the Churn for 32. -/
def Dev.blockWake (b : Nat) (d : Dev) : Dev :=
  if b < 32 then d.wrFlag (LadleR.GATED b) false
  else if b = 32 then d.wakeChurn else d

/-- LADLE_POWER_DOWN: a Ladle with nothing in progress and nothing pending. -/
def Dev.ladlePowerDown (l : Nat) (d : Dev) : Dev :=
  if d.ladles.runs.any (fun r => r.ladle = l) ∨
      d.ladles.pairs.any (fun x => x.2.ladle = l ∧ (x.2.fetched ≠ [] ∨ x.2.fetching.isSome ∨ x.2.ready ≠ [] ∨
        (x.2.state = 2 ∧ ¬ x.2.disabling ∧ 0 < x.2.pending))) then d
  else d.raise1 (LadleR.GATED l)

end Sys2Proof.Machine
end

