-- ==== Sys2Proof/Machine/Sc.lean ====
section
/-! DEFINITION. The security controller: keys, self-tests, firmware update, SPDM, MCTP and PLDM services (R461 to R488, R416,
R537). -/
namespace Sys2Proof.Machine
open Sys2Proof

/-! ### Images (R466, R467, R469) -/

/-- Byte i of an image; flash that is not programmed reads 0xFF. -/
def imgByte (img : List Byte) (i : Nat) : Byte := (img[i]?).getD 0xff

/-- n bytes of an image. -/
def imgBytes (img : List Byte) (i n : Nat) : List Byte := (List.range n).map (fun k => imgByte img (i + k))

/-- A little-endian field of the manifest. -/
def imgField (img : List Byte) (i n : Nat) : Nat := leNat (imgBytes img i n)

/-- The number of the first check of R467 that an image fails on this part, 0 when it is valid. -/
def imageCheck (f : Fuses) (img : List Byte) : Nat :=
  let slot := imgField img 6 1
  let len := imgField img 8 4
  let iface := imgField img 0x11 1
  let svn := imgField img 0x12 1
  let ifSet := imgField img 0x13 1
  let revoke := imgField img 0x14 1
  if imgField img 0 4 ≠ 0x57465851 ∨ imgField img 4 2 ≠ 1 ∨ len < 1 ∨ 25157632 < len then 1
  else if fieldOf (imgField img 7 1) (flagBit f.certFuse) 1 = 0 then 2
  else if 3 < slot ∨ fieldOf f.revoked slot 1 = 1 ∨ some (Config.sha384 (imgBytes img 0x100 96)) ≠ f.rootKeyHash[slot]? then 3
  else if ¬ Config.ecdsaVerify (imgBytes img 0x100 96) (imgBytes img 0x160 96) (imgBytes img 0 0x160) then 4
  else if svn < f.svn ∨ iface < f.ifMin then 5
  else if fieldOf revoke slot 1 = 1 ∨ Nat.lor f.revoked revoke % 16 = 15 ∨
    ¬ (ifSet = 0 ∨ (f.ifMin ≤ ifSet ∧ ifSet ≤ 32 ∧ ifSet ≤ iface)) then 6
  else if imgField img 0x20 48 ≠ Config.sha384 (imgBytes img 0x1000 len) then 7
  else 0

/-- The bank with the higher activation number, compared modulo 2^32 (R470). -/
def Dev.topBank (d : Dev) : Option Nat :=
  match (d.bank 0).activation, (d.bank 1).activation with
  | some a, some b => if newerEpoch b a then some 1 else some 0
  | some _, none => some 0
  | none, some _ => some 1
  | none, none => none

/-- The SC page follows the banks (R488). -/
def Dev.syncBank (d : Dev) (b : Nat) : Dev :=
  let x := d.bank b
  let d := (d.wr (ScR.BANK_STATE b) x.state).wrFlag (ScR.ACTIVATED b) (decide (d.topBank = some b))
  if x.state = 2 then (d.wr (ScR.BANK_SVN b) (imgField x.image 0x12 1)).wr (ScR.BANK_INTERFACE b) (imgField x.image 0x10 2)
  else (d.wr (ScR.BANK_SVN b) 0).wr (ScR.BANK_INTERFACE b) 0

/-- Both banks. -/
def Dev.syncBanks (d : Dev) : Dev := (d.syncBank 0).syncBank 1

/-- Erase a bank's state sector (R469). -/
def Dev.eraseState (b : Nat) (d : Dev) : Dev :=
  (d.setBank b { d.bank b with state := 0, activation := none }).syncBanks

/-- The PLDM update is at step n: 1 requested, 2 table passed, 3 transfer, 4 verified. -/
def Dev.pldmAt (n : Nat) (d : Dev) : Dev := { d with sc := { d.sc with pldmStep := n } }

/-- The update ends (R484). -/
def Dev.endUpdate (d : Dev) : Dev :=
  ((({ d with sc := { d.sc with update := none, pldmStep := 0 } }.wrFlag ScR.UPDATE_BUSY false).wrFlag ScR.UPDATE_PLDM false).wr
    ScR.BYTES_WRITTEN 0)

/-- An update left behind when the device leaves OM10 erases its bank's state sector (R484). -/
def Dev.abandonUpdate (d : Dev) : Dev :=
  match d.sc.update with
  | none => if d.sc.pldmStep = 0 then d else d.endUpdate
  | some (b, _) => (d.eraseState b).endUpdate

/-- The bank that runs. -/
def Dev.runs (d : Dev) (b : Nat) : Bool := d.flag (ScR.RUNNING b)

/-- Commands limited to secured sessions on the S part (R485). -/
def Dev.unsecured (d : Dev) (secured : Bool) : Bool := d.partS && !secured

/-- Refuse with AUTH_FAIL and count it. -/
def Dev.authFail (d : Dev) : Dev × Result := (d.inc ScR.AUTH_FAILS, .err .authFail)

/-- Begin an update of a bank: erase it, and remember its declared length. -/
def Dev.beginUpdate (b len : Nat) (pldm : Bool) (d : Dev) : Dev :=
  let d := (d.setBank b { state := 0, activation := none, image := [], declared := len }).syncBanks
  (({ d with sc := { d.sc with update := some (b, pldm), pldmStep := if pldm then 3 else 0 } }.raise1 ScR.UPDATE_BUSY).wrFlag ScR.UPDATE_PLDM pldm).wr
    ScR.BYTES_WRITTEN 0

/-- FW_UPDATE_START (R484, R485). -/
def Dev.fwUpdateStart (secured : Bool) (b len : Nat) (d : Dev) : Dev × Result :=
  if d.unsecured secured then d.authFail
  else if d.mode ≠ 10 then (d, .err .notPermitted)
  else if 1 < b then (d, .err .badParam)
  else if d.sc.update.isSome ∨ (1 ≤ d.sc.pldmStep ∧ d.sc.pldmStep ≤ 3) then (d, .err .busy)
  else if d.runs b then (d, .err .notPermitted)
  else if len < 4097 ∨ 25161728 < len then (d, .err .badParam)
  else (d.beginUpdate b len false, .run (.eraseBank b))

/-- PLDM asks for the next chunk of up to 1,024 bytes, in ascending order (R486). -/
def Dev.askChunk (b : Nat) (d : Dev) : Dev :=
  let x := d.bank b
  d.emit (.service 0x515 [x.image.length, min 1024 (x.declared - x.image.length)])

/-- Append data at the next expected offset. -/
def Dev.program (b : Nat) (data : List Byte) (d : Dev) : Dev :=
  let x := d.bank b
  let d := d.setBank b { x with image := x.image ++ data }
  d.wr ScR.BYTES_WRITTEN (x.image.length + data.length)

/-- FW_UPDATE_DATA (R484). -/
def Dev.fwUpdateData (secured : Bool) (off len : Nat) (data : List Byte) (d : Dev) : Dev × Result :=
  if d.unsecured secured then d.authFail
  else if d.mode ≠ 10 then (d, .err .notPermitted)
  else match d.sc.update with
  | some (b, false) =>
    if (d.bank b).state ≠ 1 then (d, .err .notPermitted)
    else if len < 1 ∨ 3064 < len ∨ data.length ≠ len ∨ off ≠ (d.bank b).image.length ∨ (d.bank b).declared < off + len then
      (d, .err .badParam)
    else (d.program b data, .final .ok [])
  | _ => (d, .err .notPermitted)

/-- The outcome of verifying a written bank: VALID, or its state sector erased (R484); 0 when it passed. -/
def Dev.verifyBank (b : Nat) (d : Dev) : Dev × Nat :=
  let c := imageCheck d.fuses (d.bank b).image
  if c = 0 then ((d.setBank b { d.bank b with state := 2, activation := none }).syncBanks, 0)
  else ((d.eraseState b).inc ScR.BANK_REJECTS, c)

/-- FW_UPDATE_VERIFY (R484). A failed check replies AUTH_FAIL with its number. -/
def Dev.fwUpdateVerify (secured : Bool) (b : Nat) (d : Dev) : Dev × Result :=
  if d.unsecured secured then d.authFail
  else if d.mode ≠ 10 then (d, .err .notPermitted)
  else if 1 < b then (d, .err .badParam)
  else match d.sc.update with
  | some (u, false) =>
    if u ≠ b ∨ (d.bank b).state ≠ 1 ∨ (d.bank b).image.length < (d.bank b).declared then (d, .err .notPermitted)
    else if d.rd ScR.SC_STATE = 2 then d.authFail
    else
      let (d, c) := d.verifyBank b
      let d := d.endUpdate
      if c = 0 then (d, .final .ok []) else (d.inc ScR.AUTH_FAILS, .final .authFail (leBytes 1 c))
  | _ => (d, .err .notPermitted)

/-- Program ACTIVATION_SEQ as the other bank's number plus 1, or 1 (R484). -/
def Dev.activate (t b : Nat) (d : Dev) : Dev :=
  let n := match (d.bank (1 - b)).activation with
    | some a => (a + 1) % 2 ^ 32
    | none => 1
  let d := (d.setBank b { d.bank b with activation := some n }).syncBanks
  (d.hbCount 20 1).secEvent t 9

/-- FW_ACTIVATE (R484). -/
def Dev.fwActivate (t : Nat) (secured : Bool) (b : Nat) (d : Dev) : Dev × Result :=
  if d.unsecured secured then d.authFail
  else if d.mode ≠ 10 then (d, .err .notPermitted)
  else if 1 < b then (d, .err .badParam)
  else if (d.bank b).state ≠ 2 ∨ d.topBank = some b then (d, .err .notPermitted)
  else (d.activate t b, .final .ok [])

/-- One bank of FW_QUERY (R484). -/
def Dev.bankReport (d : Dev) (b : Nat) : List Byte :=
  let x := d.bank b
  leBytes 1 x.state ++ imgBytes x.image 0xc 4 ++ imgBytes x.image 0x10 2 ++ imgBytes x.image 0x12 1 ++
    leBytes 1 (flagBit (d.runs b) + 2 * flagBit (decide (d.topBank = some b)))

/-! ### Secrets, IDE streams, self-tests (R462, R71, R476 to R478) -/

/-- A port's IDE stream goes insecure (R71): the failing data is discarded, outstanding requests complete as at link loss. -/
def Dev.ideInsecure (t p detail : Nat) (d : Dev) : Dev :=
  let d := d.wr (Pg.IDE_STATE p) 3
  let d := d.setPort p { d.port p with ideCurrent := false, ideNext := false, ideRefresh := false }
  let d := d.logErr t { cls := 0xb, severity := 1, source := 0x20 + p / 4, detail := detail + 256 * p }
  let d := if detail = 1 then d.mon t (p / 4) 0x10b 0xffff 0 else d
  (d.secEvent t 6).abortPortRequests t p

/-- Zeroise every session secret, IDE key and QFL key (R477, R482). -/
def Dev.dropSessionKeys (t : Nat) (d : Dev) : Dev :=
  let d := { d with sc := { d.sc with sessions := [] } }.wr ScR.SESSIONS 0
  d.ports.foldl (fun d p =>
    if d.personality p = 3 then (if d.flag (Pg.ll_ENCRYPTED p) then d.qflLinkDown t p else d)
    else if d.rd (Pg.IDE_STATE p) = 1 ∨ d.rd (Pg.IDE_STATE p) = 2 then d.ideInsecure t p 3 else d) d

/-- The SC enters ERROR (R477): keys go, the bit port falls back to a feedback generator seeded from FABRIC_TIME and serial. -/
def Dev.scError (t : Nat) (d : Dev) : Dev :=
  if d.rd ScR.SC_STATE = 2 then d else
  let d := (d.wr ScR.SC_STATE 2).wrFlag ScR.DRBG_OK false
  let d := { d with sc := { d.sc with drbg := false, lfsr := some (Nat.xor t d.fuses.serial % 2 ^ 64) } }
  (d.secEvent t 3).dropSessionKeys t

/-- Random bits for training nonces and random delays (R103, R138, R477): from the generator, or in ERROR from the feedback
register, which steps at each draw. The spec gives neither the bits nor the register's taps, so the value is free. -/
def Dev.randomBits (site : Nat) (d : Dev) : Nat × Dev := (d.freeVal site, d.drawn)

/-- An optional feature that a partner asks for is declined toward it (R62). -/
def Dev.decline (p : Nat) (d : Dev) : Dev := if d.isHostPort p then d.emit (.host p .declined) else d.emit (.device p .declined)

/-- The partner of a port has the session its keys come in (R69, R478): a host's with its virtual upstream port's DOE (KEY_EXCHANGE with
the port's number as transport, log entry 156); toward an expander this device is the requester, and the checked chain is the session. -/
def Dev.ideSession (d : Dev) (p : Nat) : Bool := d.isDevicePort p || d.sc.sessions.any (fun x => decide (x.transport = p))

/-- IDE_KEY_MANAGEMENT (R478, R69): keys are programmed or switched on a CXL port that is up. Toward an expander, a chain that
ends at no trust anchor leaves the port without IDE. A CXL 1.1 port has none (R65); skid mode and selective streams are declined (R62). -/
def Dev.ideKeys (t p : Nat) (op : IdeKeyOp) (anchorOk : Bool) (d : Dev) : Dev :=
  if ¬ d.linkUp p ∨ d.rd ScR.SC_STATE = 2 ∨ ¬ (d.isHostPort p ∨ d.isDevicePort p) ∨ d.rd (Pg.CXL_GEN p) = 1 ∨ ¬ d.ideSession p then d
  else if d.isDevicePort p ∧ ¬ anchorOk then ((d.wr (Pg.IDE_STATE p) 0).inc ScR.AUTH_FAILS).secEvent t 6
  else
    let x := d.port p
    match op with
    | .programCurrent => (d.setPort p { x with ideCurrent := true }).wr (Pg.IDE_STATE p) 1
    | .programNext => d.setPort p { x with ideNext := true }
    | .skidMode => d.decline p
    | .selectiveStream => d.decline p
    | .refresh => if d.rd (Pg.IDE_STATE p) = 2 then d.setPort p { x with ideRefresh := true } else d
    | .go =>
      if x.ideNext ∧ d.rd (Pg.IDE_STATE p) = 2 then
        (d.setPort p { x with ideNext := false, ideRefresh := false }).inc ScR.KEY_UPDATES
      else if x.ideCurrent then d.wr (Pg.IDE_STATE p) 2 else d

/-! ### SPDM (R472 to R475) -/

/-- The SC answers SPDM with ERROR: code, and the request it refuses. -/
def Dev.spdmError (code request : Nat) (d : Dev) : Dev := d.emit (.service 0x6ff [code, request])

/-- The SC can sign: booted, not in ERROR. -/
def Dev.scReady (d : Dev) : Bool := decide (2 ≤ d.mode) && decide (d.rd ScR.SC_STATE = 1)

/-- Debug state, measurement 6 (R475). -/
def Dev.debugState (d : Dev) : Nat :=
  if d.flag ScR.DEBUG_ACTIVE then 1 else if d.flag ScR.DEBUG_HISTORY then 2 else 0

/-- The image of the running bank. -/
def Dev.runningImage (d : Dev) : List Byte := (d.bank (d.rd Ident.ACTIVE_BANK)).image

/-- Measurement block i, 1 to 6 (R475). The boot ROM's own digest is a free constant of the part. -/
def Dev.measurement (d : Dev) (i : Nat) : List Nat :=
  match i with
  | 1 => [Config.freeValue 90 0]
  | 2 => [Config.sha384 (imgBytes d.runningImage 0 (0x1000 + imgField d.runningImage 8 4))]
  | 3 => [imgField d.runningImage 0xc 4, imgField d.runningImage 0x10 2, imgField d.runningImage 0x12 1]
  | 4 => [flagBit d.fuses.certFuse, flagBit d.fuses.debugLock, d.fuses.revoked, d.fuses.svn, d.fuses.ifMin]
  | 5 => [d.sc.measuredConfig]
  | 6 => [d.debugState]
  | _ => []

/-! ### PLDM firmware update (R486) -/

/-- Refuse a PLDM Type 5 command: 1 authentication, 2 not in the right state, 3 already in update mode. -/
def Dev.pldmRefuse (why : Nat) (d : Dev) : Dev :=
  (if why = 1 then d.inc ScR.AUTH_FAILS else d).emit (.service 0x5ff [why])

/-! ### MCTP control and PLDM monitoring (R416, R537) -/

/-- An MCTP, PLDM or FM API service runs from OM2 on; in OM0 and OM1 nothing is answered (R418). -/
def Dev.service (d : Dev) (k : Dev) : Dev := if d.mode ≤ 1 then d else k

/-- GET_PDR: sensor number, and its thresholds as R537 lists them. -/
def sensorPdr (n : Nat) : List Nat :=
  if n = 1 then [1, 100, 105] else if n = 2 then [2, 700, 900] else if n = 3 then [3, 1250]
  else if 4 ≤ n ∧ n ≤ 19 then [n, 10800] else if 20 ≤ n ∧ n ≤ 52 then [n] else []

/-- A sensor's reading; none when it is unavailable (R537). -/
def Dev.sensor (d : Dev) (n : Nat) : Option Nat :=
  let slot (c v : Nat) : Option Nat := if d.rd (Spc.ch_RSENSE c) = 0 then none else some v
  if n = 1 then some (d.rd Hbk.TJ_CURRENT)
  else if n = 2 then some (d.rd Glob.VCORE_MEASURED)
  else if n = 3 then some (d.rd Glob.SPEED_INDEX)
  else if 4 ≤ n ∧ n ≤ 19 then slot (n - 4) (d.rd (Spc.ch_VOUT (n - 4)))
  else if 20 ≤ n ∧ n ≤ 35 then slot (n - 20) (d.rd (Spc.ch_CURRENT (n - 20)))
  else if 36 ≤ n ∧ n ≤ 51 then slot (n - 36) (d.rd (Spc.ch_POWER (n - 36)))
  else none

end Sys2Proof.Machine
end

