-- ==== Sys2Proof/Machine/Modes.lean ====
section
/-! DEFINITION. Mode transitions (R32 to R37) and what entering a mode does. -/
namespace Sys2Proof.Machine
open Sys2Proof

/-- The command that waits for a mode to be entered. -/
def Work.isModeSet : Work → Bool
  | .modeSet _ => true
  | _ => false

/-! ### Membership sets (R387, R392) -/

/-- Bit of an address in a membership set. -/
def hasAddr (v a : Nat) : Bool := decide (1 ≤ a) && decide (a ≤ 16) && decide (fieldOf v (a - 1) 1 = 1)
/-- The addresses of a set, in rising order. -/
def addrsIn (v : Nat) : List Nat := ((List.range 16).map (· + 1)).filter (fun a => hasAddr v a)
/-- A set with an address in. -/
def withAddr (v a : Nat) : Nat := if hasAddr v a ∨ a = 0 ∨ 16 < a then v else v + 2 ^ (a - 1)
/-- A set without an address. -/
def dropAddr (v a : Nat) : Nat := if hasAddr v a then v - 2 ^ (a - 1) else v

/-- Address a is silent at this device (R387). -/
def Dev.silentAt (d : Dev) (a : Nat) : Bool :=
  decide (a ≠ d.chainAddr) && decide (d.rd Memb.HB_MISS_LIMIT ≤ d.rd (Memb.peer_MISSED (a - 1)))

/-- REACH of a heartbeat: every address that is not silent. -/
def Dev.reachAll (d : Dev) : Nat := ((List.range 16).map (· + 1)).foldl (fun v a => if d.silentAt a then v else withAddr v a) 0

/-- The reach of the partition rule: configured members that are not silent, this one included. -/
def Dev.reach (d : Dev) : Nat :=
  (addrsIn (d.rd Memb.CONFIGURED)).foldl (fun v a => if d.silentAt a then v else withAddr v a) (withAddr 0 d.chainAddr)

/-! ### Fuse commit (R468) -/

/-- Note a security event in order after a fuse changed. -/
def Dev.raiseFuse (t code : Nat) (changed : Bool) (f : Fuses) (d : Dev) : Dev :=
  if changed then ({ d with fuses := f }).secEvent t code else d

/-- The image that runs reaches OM3 for the first time since its boot: its security settings are committed. -/
def Dev.commitImage (t : Nat) (d : Dev) : Dev :=
  if d.rst.committed then d else
  let img := d.runningImage
  let svn := imgField img 0x12 1
  let ifSet := imgField img 0x13 1
  let revoke := Nat.lor d.fuses.revoked (imgField img 0x14 1 % 16)
  let d := { d with rst := { d.rst with committed := true }, sc := { d.sc with commitLeft := 0 } }
  if img = [] then d else
  let d := d.raiseFuse t 0xa (decide (d.fuses.svn < svn)) { d.fuses with svn }
  let d := d.raiseFuse t 0xb (decide (d.fuses.ifMin < ifSet)) { d.fuses with ifMin := ifSet }
  d.raiseFuse t 0xc (decide (revoke ≠ d.fuses.revoked)) { d.fuses with revoked := revoke }

/-! ### Entering a mode -/

/-- The transition is recorded in MODE_STATUS and the Herdbook and posted (R36, R37). -/
def Dev.noteMode (t m cause : Nat) (d : Dev) : Dev :=
  let old := d.mode
  let d := ((((d.wr Glob.PREVIOUS_MODE old).wr Glob.CURRENT_MODE m).wr Glob.LAST_CAUSE cause).wrFlag Glob.TRANSITION_BUSY false)
  let h := d.hbk.transitions ++ [(old, m, cause, d.hbk.powerOnS)]
  let d := { d with hbk := { d.hbk with
    transitions := h.drop (h.length - 32), modeEntries := Tab.bump d.hbk.modeEntries m 1 } }
  d.post t 1 (old + 2 ^ 8 * m + 2 ^ 16 * cause)

/-- Trackers that wait for the mirror go on (R385). -/
def Dev.releaseMirrors (t : Nat) (d : Dev) : Dev :=
  let mine (o : Outst) : Bool := (match o.cont with
    | .mirrorEntry _ _ _ => true
    | _ => false)
  let waits := d.chn.mirrorWaits
  let d : Dev := { d with
    fab := { d.fab with outstanding := d.fab.outstanding.filter (fun o => ¬ mine o) }
    chn := { d.chn with mirrorWaits := [] } }
  d.chn.trackers.foldl (fun (d : Dev) (tr : Tracker) =>
    match d.tracker tr.slice tr.id with
    | some x => if (Tab.get waits x.acc.id).isSome then d.settleTracker t x else d
    | none => d) d

/-- A resynchronisation that runs is abandoned (R403). -/
def Dev.abandonResync (t : Nat) (d : Dev) : Dev :=
  let p := d.rd Memb.RESYNC_PHASE
  let d := d.wr Memb.RESYNC_PHASE 0
  if 1 ≤ p ∧ p ≤ 3 then (d.raise1 Memb.RESYNC_ABANDONED_EVT).finish t (· = .resync) .aborted [] else d

/-- Entry to OM3 from boot or enumeration: slot power sequence and fuse commit (R468, R507); a device in OM3 is no member. -/
def Dev.enterStandby (t old : Nat) (d : Dev) : Dev :=
  let d := if old = 1 ∨ old = 2 then (d.autoOn).commitImage t else d
  ((((d.wr Memb.EPOCH 0).wr Memb.ALIVE 0).wr Memb.PRIMARY_ADDR 0).wr Memb.MIRROR_ADDR 0).wrFlag Memb.PAIR_LEASE false

/-- Entry to OM11: session secrets go on the C part (R482). -/
def Dev.enterDiagnostic (t : Nat) (d : Dev) : Dev :=
  if d.partS then d
  else (((d.dropSessionKeys t).raise1 ScR.DEBUG_ACTIVE).raise1 ScR.DEBUG_HISTORY).secEvent t 0xe

/-- A completed transition. A transition by a hardware event aborts a mode command that has not completed (R35). -/
def Dev.enterMode (t m cause : Nat) (d : Dev) : Dev :=
  let old := d.mode
  let d := d.noteMode t m cause
  let byCommand : Bool := decide (cause = 1) || decide (cause = 10)
  let d := d.finish t Work.isModeSet (if byCommand then .ok else .aborted) []
  let d := if old = 10 then d.abandonUpdate else d
  let d := if (old = 5 ∨ old = 8) ∧ m ≠ 5 ∧ m ≠ 8 then d.abandonResync t else d
  let d := match m with
    | 3 => d.enterStandby t old
    | 8 => (({ d with memb := { d.memb with yokeWait := none } }).raise1 Memb.PAIR_LEASE).releaseMirrors t
    | 9 =>
      { d with memb := { d.memb with
        fencedReach := d.reach, formerPair := decide (old = 5) || decide (old = 6) || decide (old = 8), joining := none, advancing := none } }
    | 11 => d.enterDiagnostic t
    | _ => d
  d.later .recheck

end Sys2Proof.Machine
end

