-- ==== Sys2Proof/Machine/Members.lean ====
section
/-! DEFINITION. Fabric membership: epochs, deaths, the partition rule, fencing, failover, joining and resynchronisation (R375 to
R404, R581). -/
namespace Sys2Proof.Machine
open Sys2Proof

/-! ### Epochs (R389) -/

/-- The parameters of EPOCH_ADVANCE in the order R389 lists them: new and previous epoch, configured membership, alive set, primary,
mirror, PAIR_ADDR, FAILOVER, HOMES_KEPT. -/
structure EpochArgs where
  epoch : Nat
  prev : Nat
  configured : Nat
  alive : Nat
  primary : Nat
  mirror : Nat
  pair : Nat
  failover : Bool
  kept : Bool
deriving DecidableEq, Repr

/-- As bytes (R410). -/
def EpochArgs.bytes (e : EpochArgs) : List Byte :=
  leBytes 4 e.epoch ++ leBytes 4 e.prev ++ leBytes 2 e.configured ++ leBytes 2 e.alive ++ leBytes 1 e.primary ++ leBytes 1 e.mirror ++
    leBytes 1 e.pair ++ leBytes 1 (flagBit e.failover) ++ leBytes 1 (flagBit e.kept)

/-- Questions and notices to members that died end; records notified to them wait again (R426, R429). -/
def Dev.dropSent (gone : List Nat) (d : Dev) : Dev :=
  let drops (c : SentCommand) : Bool := gone.contains c.dst && (decide (c.opcode = 0x101) || decide (c.opcode = 0x107))
  let e := if d.silek.sent.any (fun c => drops c && decide (c.opcode = 0x107)) then { d.events with notified := [] } else d.events
  { d with events := e, silek := { d.silek with sent := d.silek.sent.filter (fun c => !drops c) } }

/-- This device's registers take a new epoch; managers record it in flash; members no longer alive are dead
(R239), and a member that joins is asked for its version (R413). -/
def Dev.takeEpoch (t : Nat) (e : EpochArgs) (d : Dev) : Dev :=
  let gone := (addrsIn (d.rd Memb.ALIVE)).filter (fun a => ¬ hasAddr e.alive a ∧ a ≠ d.chainAddr)
  let fresh := (addrsIn e.alive).filter (fun a => ¬ d.alive a)
  let d := (((((d.wr Memb.EPOCH e.epoch).wr Memb.CONFIGURED e.configured).wr Memb.ALIVE e.alive).wr Memb.PRIMARY_ADDR e.primary).wr
    Memb.MIRROR_ADDR e.mirror).wr Memb.PAIR_ADDR e.pair
  let d := fresh.foldl (fun (d : Dev) a => d.wr (Memb.peer_MISSED (a - 1)) 0) d
  let manager : Bool := decide (d.chainAddr = e.primary) || decide (d.chainAddr = e.mirror)
  let d := { d with
    memb := { d.memb with lastAdvance := t }, flash := if manager then { d.flash with membership := e.epoch, configured := e.configured } else d.flash }
  let d := (fresh.filter (fun a => a ≠ d.chainAddr)).foldl (fun (d : Dev) a => d.sendCommand t a 0x101 0 []) (d.dropSent gone)
  let d := d.post t 0xb (e.epoch + 2 ^ 32 * e.alive + 2 ^ 48 * e.primary + 2 ^ 56 * e.mirror + 2 ^ 64 * e.pair)
  gone.foldl (fun (d : Dev) a => d.peerDead t a) d

/-- What this device knows of the fabric. -/
def Dev.epochArgs (d : Dev) : EpochArgs := {
  epoch := d.epoch, prev := d.epoch, configured := d.rd Memb.CONFIGURED, alive := d.rd Memb.ALIVE, primary := d.rd Memb.PRIMARY_ADDR
  mirror := d.rd Memb.MIRROR_ADDR, pair := d.rd Memb.PAIR_ADDR, failover := false, kept := false }

/-- The acting primary advances the epoch by 1 and sends EPOCH_ADVANCE to every other alive member; a running advance is replaced. -/
def Dev.advance (t : Nat) (e : EpochArgs) (d : Dev) : Dev :=
  let e := { e with prev := d.epoch, epoch := (d.epoch + 1) % 2 ^ 32 }
  let d := d.takeEpoch t e
  let others := (addrsIn e.alive).filter (fun a => a ≠ d.chainAddr)
  let d := { d with
    silek := { d.silek with sent := d.silek.sent.filter (fun c => c.opcode ≠ 0x506) }
    memb := { d.memb with advancing := if others = [] then none else some others, advance := e.bytes } }
  others.foldl (fun (d : Dev) a => d.sendCommand t a 0x506 0 e.bytes) d

/-- The mirror leaves the pair: its resynchronisation is over. -/
def Dev.loseMirror (t : Nat) (d : Dev) : Dev := if d.rd Memb.RESYNC_PHASE = 0 then d else d.abandonResync t

/-- A command sent for other work has ended: an owner's or a member's part of a binding, a window of a member, or a command passed
on. -/
def Dev.partEnded (t : Nat) (c : SentCommand) (st : Status) (payload : List Byte) (d : Dev) : Dev :=
  if c.purpose = 0 then d
  else if c.opcode = 0x220 ∨ c.opcode = 0x221 then d.ownerReply t c st payload
  else
    let d := if c.opcode = 0x210 ∧ st = .ok then d.windowTaken c.dst c.payload else d
    d.finish t (· = .fan c.purpose) st payload

/-- The primary declares members dead by one epoch advance (R388); a primary in OM5 that loses its mirror enters OM8 (R397). -/
def Dev.declareDead (t : Nat) (as : List Nat) (d : Dev) : Dev :=
  let as := as.filter (fun a => d.alive a ∧ a ≠ d.chainAddr)
  if as = [] then d else
  let e := d.epochArgs
  let lost := as.contains e.mirror
  let d := d.add Memb.DEATHS_DECLARED as.length
  let d := if lost then d.loseMirror t else d
  let d := d.advance t { e with alive := as.foldl dropAddr e.alive, mirror := if lost then 0 else e.mirror }
  let d := if lost ∧ d.mode = 5 then d.enterMode t 8 2 else d
  let d := match d.memb.joining with
    | some (a, _, _) => if as.contains a then { d with memb := { d.memb with joining := none } } else d
    | none => d
  let d := as.foldl (fun (d : Dev) a => d.finish t (· = Work.join a) .targetLost []) d
  -- Commands sent to a dead member end (R426).
  let mine := d.silek.sent.filter (fun c => as.contains c.dst)
  let d := { d with silek := { d.silek with sent := d.silek.sent.filter (fun c => ¬ as.contains c.dst) } }
  let d := mine.foldl (fun (d : Dev) c => d.partEnded t c .targetLost []) d
  let rel := d.silek.relays.filter (fun r => as.contains r.dst)
  let d := { d with silek := { d.silek with relays := d.silek.relays.filter (fun r => ¬ as.contains r.dst) } }
  (rel.foldl (fun (d : Dev) r => d.finish t (· = .relay r.id) .targetLost []) d).commitReply t

/-! ### Fencing (R391) -/

/-- A line's entry gives up its remote slots without a snoop: one whose owner is remote becomes LOST (R391). -/
def Dev.dropRemote (t la : Nat) (d : Dev) : Dev :=
  let remote := (d.chn.slots.filter (fun x => x.2.valid ∧ x.2.kind = 1)).map (·.1)
  let (p, st, v) := d.findLine la
  if ¬ d.homeLine la ∨ ¬ remote.any (fun s => decide (fieldOf v s 1 = 1)) then d
  else if st ≠ 1 then d.makeLost t la p 1 (d.slotMaster ((slotsIn v).head?.getD 0))
  else
    let w := remote.foldl dropSlot v
    d.putEntry t la p (if w = 0 then 0 else 1) w

/-- The directory state is discarded: trackers go on without the remote slots they snooped, lines that remote owners held become LOST,
remote slots go, local holders are recalled; dirty data of lines homed elsewhere is discarded. Lines with an open tracker follow as it
closes. -/
def Dev.discardDirectory (t : Nat) (d : Dev) : Dev :=
  let remote := (d.chn.slots.filter (fun x => x.2.valid ∧ x.2.kind = 1)).map (·.1)
  let d := { d with memb := { d.memb with discarding := true } }
  let d := d.chn.trackers.foldl (fun (d : Dev) (x : Tracker) =>
    (x.snooped.filter (fun s => remote.contains s)).foldl (fun (d : Dev) s =>
      match d.tracker x.slice x.id with
      | some y => if y.snooped.contains s then d.deadAnswer t 1 s y else d
      | none => d) d) d
  let las := (d.chn.tier1 ++ d.chn.image ++ d.chn.tier2).map (fun x => x.2.la)
  las.foldl (fun (d : Dev) la =>
    let d := if (d.trackerOn la).isSome then d else d.dropRemote t la
    match (d.findLine la).2.1 with
    | 0 => d
    | 4 => d
    | _ => if d.recallQueued la then d else d.recallAllOf t la 0) d

/-- A FENCED notice (R391): a member in OM5 to OM8 whose epoch is older enters OM9. -/
def Dev.fencedNoticeIn (t epoch : Nat) (d : Dev) : Dev :=
  if ¬ (5 ≤ d.mode ∧ d.mode ≤ 8) ∨ ¬ newerEpoch epoch d.epoch then d
  else (d.enterMode t 9 4).discardDirectory t

/-! ### Failover (R394, R395) -/

/-- The expander head through which this device reaches the backing another pair member reached at a port and logical device (R378). -/
def Dev.headAt (d : Dev) (old p ld : Nat) : Option (Nat × Nat) :=
  match (List.range 32).find? (fun n => Tab.get d.memb.headMap (32 * old + n) = some (p, ld)) with
  | some n => Tab.get d.memb.headMap (32 * d.chainAddr + n)
  | none => none

/-- Every extent of PAIR_ADDR is reached through this device's own heads; one without a head is OFFLINE. -/
def Dev.ownHeads (old : Nat) (d : Dev) : Dev :=
  { d with extents := d.extents.map (fun (x : Nat × Extent) =>
      match d.headAt old x.2.port x.2.ld with
      | some (p, ld) => (x.1, { x.2 with port := p, ld })
      | none => (x.1, { x.2 with state := 6 })) }

/-- A SHARERS set with its slots renumbered. -/
def renumber (m : List (Nat × Nat)) (v : Nat) : Nat := m.foldl (fun w x => if fieldOf v x.1 1 = 1 then withSlot w x.2 else w) 0

/-- One image entry moves into an empty way of its set, or into its bucket; where both are full, a line of the set makes room as a
victim does (R217, R218). An entry whose line has an open tracker waits for it. -/
def Dev.moveEntry (t k : Nat) (x : DirEntry) (d : Dev) : Dev :=
  let la := x.la
  let b := d.bucketOf la
  if (d.trackerOn la).isSome then d else
  let place (w : Nat) (d : Dev) : Dev :=
    let d := ((d.setImage k none).setWay la w (some x)).mirrorNote t la (.way w) x.state x.sharers
    if x.state = 4 then d.sinkLost t la w else d
  match d.pickWay (sliceOf la) (setOf la) with
  | (d, .empty w) => place w d
  | (d, p) =>
    match d.bucketRoom b, p with
    | some i, _ => ((((d.setImage k none).setBucket t b i (some x)).modExt (faExtent (laFa la)) (fun e => { e with spill := true })).mirrorNote
        t la (.bucket b i) x.state x.sharers)
    | none, .victim w e =>
      let q := d.bucketOf e.la
      (match (if d.homeLine e.la then d.bucketRoom q else none) with
       | some i =>
        let d := (d.setBucket t q i (some { state := e.state, la := e.la, sharers := e.sharers })).modExt (faExtent (laFa e.la))
          (fun y => { y with spill := true })
        let d := (d.mirrorNote t e.la (.bucket q i) e.state e.sharers).mirrorNote t e.la (.way w) 0 0
        place w (d.setWay e.la w none)
       | none => if d.recallQueued e.la then d else d.recallAllOf t e.la 0)
    | none, _ => d

/-- The background walk of R394: image entries move into tier 1. -/
def Dev.moveImage (t : Nat) (d : Dev) : Dev := d.chn.image.foldl (fun (d : Dev) x => d.moveEntry t x.1 x.2) d

/-- Chain addresses of the other devices whose binding slots name an extent, as the copies have them, one for each slot. -/
def Dev.boundFrom (d : Dev) (chain e : Nat) : List Nat :=
  ((d.memb.copies.filter (fun c => c.1 ≠ d.chainAddr)).map (fun c =>
    (c.2.slots.filter (fun y => y.2.valid ∧ y.2.chain = chain ∧ y.2.extent = e)).map (fun _ => c.1))).flatten

/-- Steps 3 and 4 of R394: the replica becomes the directory of PAIR_ADDR. The slot table is the replicated one, in which this
device's own host ports take free slots and its entries are renumbered; its own remote slot goes. Its proxy entries of PAIR_ADDR lines
join the home's entries and their holders are recalled. -/
def Dev.takePair (t old : Nat) (d : Dev) : Dev :=
  let pair := d.rd Memb.PAIR_ADDR
  let table := (d.copyOf pair).sharers.filter (fun x => x.2.valid ∧ ¬ (x.2.kind = 1 ∧ x.2.chain = d.chainAddr))
  let mine := d.chn.slots.filter (fun x => x.2.valid ∧ x.2.kind = 0)
  let selfSlot := ((d.copyOf pair).sharers.find? (fun x => x.2.valid ∧ x.2.kind = 1 ∧ x.2.chain = d.chainAddr)).map (·.1)
  let free := (List.range 64).filter (fun i => ¬ table.any (fun x => x.1 = i))
  let map := (mine.map (·.1)).zip free
  let dead := (table.filter (fun x => x.2.kind = 0)).map (·.1)
  let slots := (mine.zip free).foldl (fun (s : Tab SharerSlot) y => Tab.set s y.2 y.1.2)
    (table.map (fun x => if x.2.kind = 0 then (x.1, { x.2 with valid := false }) else x))
  let proxies := d.chn.tier1.filter (fun x => faChain (laFa x.2.la) = pair)
  let others := (d.chn.tier1.filter (fun x => faChain (laFa x.2.la) ≠ pair)).map (fun x =>
    (x.1, { x.2 with sharers := renumber map x.2.sharers }))
  let join (x : DirEntry) : Option DirEntry :=
    match selfSlot with
    | some s =>
      if fieldOf x.sharers s 1 = 0 then some x else
      let held := match proxies.find? (fun y => y.2.la = x.la) with
        | some y => renumber map y.2.sharers
        | none => 0
      let v := dropSlot x.sharers s
      let v := (slotsIn held).foldl withSlot v
      if v = 0 then none
      else some { x with sharers := v, state := if (slotsIn v).length = 1 then x.state else 1 }
    | none => some x
  let image := d.memb.replica1.filterMap (fun x => (join { x.2 with pinned := false, tracker := 0 }).map (fun e => (x.1, e)))
  let tier2 := d.memb.replica2.filterMap (fun x => (join x.2).map (fun e => (x.1, e)))
  let d := { d with
    chn := { d.chn with slots, tier1 := others, image, tier2, gated := false }
    memb := { d.memb with replica1 := [], replica2 := [] }
    fab := { d.fab with e2e := d.fab.e2e.filter (fun x => decide (x.1 < 32)) } }
  let d := d.wrFlag Memb.ACTING (decide (pair ≠ d.chainAddr))
  let d := d.ownHeads old
  let d := if d.rd Memb.REPLICA_UNITS < 2 then d else
    ((((d.wr ChurnR.T2_PORT (d.rd Memb.REPLICA_PORT)).wr ChurnR.T2_LD (d.rd Memb.REPLICA_LD)).wr ChurnR.T2_DPA_UNIT
      (d.rd Memb.REPLICA_DPA_UNIT + 1)).wr ChurnR.T2_UNITS (d.rd Memb.REPLICA_UNITS - 1)).raise1 ChurnR.TIER2_ACTIVE
  let all := image ++ tier2
  let d := { d with extents := d.extents.map (fun (x : Nat × Extent) =>
    (x.1, { x.2 with
      lostCount := (all.filter (fun (y : Nat × DirEntry) => y.2.state = 4 ∧ faExtent (laFa y.2.la) = x.1)).length
      remote := d.boundFrom pair x.1
      home := decide (x.2.state = 4), spill := tier2.any (fun (y : Nat × DirEntry) => decide (faExtent (laFa y.2.la) = x.1)) })) }
  let d := d.moveImage t
  -- step 4: this device's own holders of PAIR_ADDR lines give up their copies
  let own := map.map (·.2)
  let d := all.foldl (fun (d : Dev) y =>
    own.foldl (fun (d : Dev) s =>
      if fieldOf (d.findLine y.2.la).2.2 s 1 = 0 then d else
      let (id, d) := d.newId
      let a : Access := {
        id, kind := .recall, origin := .churn 0, master := masterChurn (sliceOf y.2.la) 1, fa := laFa y.2.la, slot := some s, time := t }
      (d.churnWork { slice := sliceOf y.2.la, acc := a, la := y.2.la }).later (.lineFree (sliceOf y.2.la) y.2.la)) d) d
  d.slotsDead t dead

/-- Without HOMES_KEPT the homes of PAIR_ADDR are gone: a dead peer throughout R239, its SHARED extents OFFLINE at the acting primary. -/
def Dev.pairLost (t : Nat) (d : Dev) : Dev :=
  let pair := d.rd Memb.PAIR_ADDR
  let d := match d.slotOfChain pair with
    | some s => d.slotDead t s
    | none => d
  let d := d.peerRequests pair
  let las := ((d.chn.tier1).filter (fun x => faChain (laFa x.2.la) = pair)).map (fun x => x.2.la)
  las.foldl (fun (d : Dev) la => if d.recalling la then d else d.recallAllOf t la 0) d

/-- The mirror takes over as acting primary (R394). -/
def Dev.failover (t : Nat) (d : Dev) : Dev :=
  let old := d.rd Memb.PRIMARY_ADDR
  let kept := d.memb.synced
  let e := d.epochArgs
  let d := (d.add Memb.DEATHS_DECLARED 1).enterMode t 8 2
  let d := d.advance t { e with
    alive := dropAddr e.alive old, primary := d.chainAddr, mirror := 0, failover := true, kept }
  let d := d.peerRequests old
  if kept then d.takePair t old
  else
    let d := d.pairLost t
    let d := { d with memb := { d.memb with replica1 := [], replica2 := [] } }
    { d with extents := d.extents.map (fun (x : Nat × Extent) => if x.2.state = 4 then (x.1, { x.2 with state := 6 }) else x) }

/-- What a member that adopts a failover does (R395). -/
def Dev.adoptFailover (t : Nat) (old : Nat) (e : EpochArgs) (d : Dev) : Dev :=
  let d := if 1 ≤ e.pair ∧ e.pair ≤ 16 ∧ 1 ≤ e.primary ∧ e.primary ≤ 16 then
      (d.wr (Qfab.PORT (e.pair - 1)) (d.rd (Qfab.PORT (e.primary - 1)))).wr (Qfab.VALID (e.pair - 1))
        (d.rd (Qfab.VALID (e.primary - 1)))
    else d
  let d := { d with fab := { d.fab with filters := Tab.erase d.fab.filters e.pair } }
  let d := d.peerRequests old
  if e.kept then d else d.pairLost t

/-! ### The partition rule (R388, R392) -/

/-- Number of addresses of a set. -/
def countAddrs (v : Nat) : Nat := (addrsIn v).length

/-- This side of the split continues. -/
def Dev.continues (d : Dev) : Bool :=
  let r := countAddrs d.reach
  let c := countAddrs (d.rd Memb.CONFIGURED)
  decide (c < 2 * r) || (decide (2 * r = c) && hasAddr d.reach (d.rd Memb.PRIMARY_ADDR))

/-- Another member became silent. -/
def Dev.memberSilent (t : Nat) (d : Dev) : Dev :=
  if ¬ (5 ≤ d.mode ∧ d.mode ≤ 8) then d
  else if ¬ d.continues then
    let d := d.enterMode t 9 3
    if d.memb.formerPair ∧ d.chainAddr ≠ d.rd Memb.PRIMARY_ADDR then d.ownHeads (d.rd Memb.PRIMARY_ADDR) else d
  else
    let silent := (addrsIn (d.rd Memb.ALIVE)).filter (fun a => d.silentAt a)
    if d.acting then d.declareDead t silent
    else if d.mode = 6 ∧ silent.contains (d.rd Memb.PRIMARY_ADDR) then
      let d := d.failover t
      d.declareDead t (silent.filter (fun a => a ≠ d.rd Memb.PRIMARY_ADDR))
    else d

/-! ### Forming, joining, rejoining (R375, R389, R398, R399) -/

/-- A primary enters OM5 from OM3. -/
def Dev.formFabric (t cause : Nat) (d : Dev) : Dev :=
  let a := d.chainAddr
  let conf := withAddr d.flash.configured a
  let d := d.takeEpoch t {
    epoch := (d.flash.membership + 1) % 2 ^ 32, prev := d.epoch, configured := conf, alive := withAddr 0 a, primary := a, mirror := 0
    pair := 0, failover := false, kept := false }
  ({ d with memb := { d.memb with synced := false, leaseMiss := 0 } }.wrFlag Memb.ACTING false).enterMode t 5 cause

/-- A member in OM5 or OM8 was heard within 3 ms: at most two periods have ended without a heartbeat of it (R375). -/
def Dev.hearsPrimary (d : Dev) : Option Nat :=
  ((List.range 16).map (· + 1)).find? (fun a =>
    decide (a ≠ d.chainAddr) && (Tab.getD d.memb.peers a {}).ever && decide (d.rd (Memb.peer_MISSED (a - 1)) ≤ 2) &&
      (decide (d.rd (Memb.peer_MODE_SEEN (a - 1)) = 5) || decide (d.rd (Memb.peer_MODE_SEEN (a - 1)) = 8)))

/-- The state transfers of step 3 of R398 to a member: RULE_EPOCH, its Gate tables, sharer slots, route entries, windows and binding
slots (log entry 150). -/
def Dev.transferState (t a : Nat) (d : Dev) : Dev :=
  let c := d.copyOf a
  let d := d.sendCommand t a 0x402 0 (leBytes 4 (d.rd GateR.RULE_EPOCH))
  let d := c.gate.active.foldl (fun (d : Dev) x =>
    d.sendCommand t a 0x401 0 (leBytes 1 a ++ leBytes 2 x.1 ++ leBytes 2 1 ++ leBytes 32 x.2.bits)) d
  let d := c.sharers.foldl (fun (d : Dev) x =>
    d.sendCommand t a 0x510 0 (leBytes 1 x.1 ++ leBytes 1 (flagBit x.2.valid) ++ leBytes 1 x.2.kind ++ leBytes 1 x.2.port ++
      leBytes 1 x.2.chain)) d
  let d := c.routes.foldl (fun (d : Dev) x => d.sendCommand t a 0x802 0 (leBytes 4 (0x303c + 4 * x.1) ++ leBytes 4 x.2)) d
  c.windows.foldl (fun (d : Dev) x =>
    let w := x.2
    let d := d.sendCommand t a 0x210 0 (leBytes 2 x.1 ++ leBytes 1 w.vi ++ leBytes 1 w.region ++ leBytes 1 w.kind ++
      leBytes 4 w.slotBase ++ leBytes 2 w.slotCount ++ leBytes 1 (flagBit w.enabled))
    (c.slots.filter (fun y => y.2.valid ∧ w.enabled ∧ w.holds y.1)).foldl (fun (d : Dev) y =>
      d.sendCommand t a 0x220 0 (bindPayload x.1 (y.1 - w.slotBase) 0xff [y.2.fx])) d) d

/-- Steps 3 and 4 of R398 at the primary, for target a and its role mode: transfers, then an epoch advance with the target alive. -/
def Dev.admitMember (t a role : Nat) (rejoin : Bool) (d : Dev) : Dev :=
  let e := d.epochArgs
  let d := d.transferState t a
  let d := { d with memb := { d.memb with joining := some (a, 2, rejoin), joinRole := role } }
  d.advance t { e with
    alive := withAddr e.alive a, mirror := if role = 6 then a else e.mirror
    pair := if role = 6 ∧ e.pair = 0 then d.chainAddr else e.pair }

/-- The primary's checks for a member that would take a role: configured, and a mirror only while there is none. -/
def Dev.mayJoin (d : Dev) (a role : Nat) : Bool :=
  hasAddr (d.rd Memb.CONFIGURED) a && decide (a ≠ d.chainAddr) && (decide (role = 7) || (decide (role = 6) && decide (d.rd Memb.MIRROR_ADDR = 0)))

/-- MEMBER_JOIN at the primary (R399). -/
def Dev.memberJoin (t a role : Nat) (d : Dev) : Dev × Result :=
  if ¬ d.acting ∨ ¬ d.mayJoin a role then (d, .err .notPermitted)
  else if d.memb.joining.isSome then (d, .err .busy)
  else (d.admitMember t a role false, .run (.join a))

/-- MEMBER_REJOIN at the acting primary (R398). -/
def Dev.rejoinAt (t a role mode : Nat) (d : Dev) : Dev × Result :=
  if ¬ (role = 2 ∨ role = 3) ∨ mode ≠ role + 4 then (d, .err .badParam)
  else if ¬ d.mayJoin a mode ∨ d.silentAt a ∨ d.rd (Memb.peer_MODE_SEEN (a - 1)) ≠ 9 then (d, .err .notPermitted)
  else if d.memb.joining.isSome then (d, .err .busy)
  else
    let d := { d with memb := { d.memb with joining := some (a, 1, true), joinRole := mode } }
    (d.sendCommand t a 0x504 0 (leBytes 1 a ++ leBytes 1 role ++ leBytes 1 mode), .run (.join a))

/-- MEMBER_REJOIN at its target in OM9: what it accepts from now on, and its directory, filters and counters (R398). -/
def Dev.rejoinHere (t mode : Nat) (d : Dev) : Dev × Result :=
  let d := { d with memb := { d.memb with rejoining := true, joinRole := mode } }
  let d := if d.memb.discarding then d else d.discardDirectory t
  ({ d with fab := { d.fab with filters := [], e2e := [] } }, .final .ok [])

/-- A member joins, rejoins, or learns that its fabric moved on: EPOCH_ADVANCE (R389). A command that R389 does not allow is dropped. -/
def Dev.adopt (t src : Nat) (e : EpochArgs) (d : Dev) : Dev × Result :=
  let known : Bool := (decide (src = d.rd Memb.PRIMARY_ADDR) && decide (src ≠ 0)) || (e.failover && decide (src = e.primary))
  if ¬ d.memb.rejoining ∧ ¬ (known ∧ e.prev = d.epoch ∧ d.epoch ≠ 0 ∧ 5 ≤ d.mode) then (d, .silent)
  else
    let old := d.rd Memb.PRIMARY_ADDR
    let rejoining : Bool := d.memb.rejoining && hasAddr e.alive d.chainAddr
    let d := d.takeEpoch t e
    let d := if e.failover then d.adoptFailover t old e else d
    let d := if rejoining then
        let cause := if d.mode = 9 then 5 else if d.memb.autostart then 10 else 1
        let mirror := decide (d.memb.joinRole = 6)
        let d := { d with memb := { d.memb with
          rejoining := false, discarding := false, formerPair := false, autostart := false, synced := false
          replica1 := if mirror then [] else d.memb.replica1, replica2 := if mirror then [] else d.memb.replica2 } }
        (d.wrFlag Memb.ACTING false).enterMode t d.memb.joinRole cause
      else d
    (d, .final .ok [])

/-! ### Mirrored fabric state (R376, R382, R383) -/

/-- Unit 2 of MIR_STATE: KIND and INDEX; the member whose table it is stands in bits 23:19 of INDEX (log entry 40). -/
def mirStateWord (kind member index : Nat) : BitVec 64 := BitVec.ofNat 64 (kind + 2 ^ 8 * (index + 2 ^ 19 * member))

/-- Send one record to the mirror. -/
def Dev.mirState (t kind member index : Nat) (units : List (BitVec 64)) (d : Dev) : Dev :=
  d.qflSend t 4 2 (d.rd Memb.MIRROR_ADDR) (masterFabric d.chainAddr 2) true (mirStateWord kind member index :: units) .mirrorState

/-- A mirror stands beside the acting primary. -/
def Dev.hasMirror (d : Dev) : Bool := d.acting && decide (d.rd Memb.MIRROR_ADDR ≠ 0)

/-- The keys of two tables at which they differ. -/
def Tab.changed {α : Type} [DecidableEq α] (a b : List (Nat × α)) : List Nat :=
  ((b.filter (fun x => Tab.get a x.1 ≠ some x.2)).map (·.1)) ++ ((a.filter (fun x => (Tab.get b x.1).isNone)).map (·.1))

/-- The membership record. -/
def Dev.memberRecord (d : Dev) : List (BitVec 64) :=
  [BitVec.ofNat 64 (d.epoch + 2 ^ 32 * d.rd Memb.CONFIGURED + 2 ^ 48 * d.rd Memb.ALIVE),
   BitVec.ofNat 64 (d.rd Memb.PRIMARY_ADDR + 2 ^ 5 * d.rd Memb.MIRROR_ADDR + 2 ^ 10 * d.rd Memb.PAIR_ADDR)]

/-- Send every difference between two versions of one member's tables. -/
def Dev.mirTables (t a : Nat) (x y : MemberCopy) (d : Dev) : Dev :=
  let d := (Tab.changed x.sharers y.sharers).foldl (fun (d : Dev) k =>
    let s := Tab.getD y.sharers k {}
    d.mirState t 2 a k [BitVec.ofNat 64 (flagBit s.valid + 2 * s.kind + 2 ^ 2 * s.port + 2 ^ 8 * s.chain)]) d
  let d := (Tab.changed x.slots y.slots).foldl (fun (d : Dev) k =>
    d.mirState t 3 a k [BitVec.ofNat 64 (Tab.getD y.slots k {}).bits]) d
  let d := (Tab.changed x.windows y.windows).foldl (fun (d : Dev) k =>
    d.mirState t 4 a k (natWords 2 (Tab.getD y.windows k {}).bits)) d
  let d := (Tab.changed x.gate.staging y.gate.staging).foldl (fun (d : Dev) k =>
    d.mirState t 5 a k (natWords 4 (Tab.getD y.gate.staging k {}).bits)) d
  let d := (Tab.changed x.gate.active y.gate.active).foldl (fun (d : Dev) k =>
    d.mirState t 5 a (4096 + k) (natWords 4 (Tab.getD y.gate.active k {}).bits)) d
  (Tab.changed x.routes y.routes).foldl (fun (d : Dev) k => d.mirState t 8 a k [BitVec.ofNat 64 (Tab.getD y.routes k 0)]) d

/-- This device's own tables as a member's. -/
def Dev.ownCopy (d : Dev) : MemberCopy := {
  gate := d.gate, windows := d.windows, slots := d.slots, sharers := d.chn.slots
  routes := ((List.range 16).filter (fun i => d.flag (Qfab.VALID i))).map (fun i => (i + 1, d.rd (Qfab.PORT i) + 64)) }

/-- Fabric state that changed is mirrored (R383). -/
def Dev.mirDiff (t : Nat) (d x : Dev) : Dev :=
  let y := d
  let d := (Tab.changed x.extents y.extents).foldl (fun (d : Dev) k =>
    d.mirState t 1 y.homeAddr k [BitVec.ofNat 64 (y.ext k).bits]) d
  let d := d.mirTables t y.chainAddr x.ownCopy y.ownCopy
  let d := (Tab.changed x.memb.copies y.memb.copies).foldl (fun (d : Dev) a =>
    d.mirTables t a (x.copyOf a) (y.copyOf a)) d
  let d := (Tab.changed x.memb.headMap y.memb.headMap).foldl (fun (d : Dev) k =>
    let h := Tab.getD y.memb.headMap k (0, 0)
    d.mirState t 7 (k / 32) (k % 32) [BitVec.ofNat 64 (h.1 + 2 ^ 6 * h.2)]) d
  if x.memberRecord = y.memberRecord then d else d.mirState t 6 0 0 y.memberRecord

/-! ### Resynchronisation (R400 to R403) -/

/-- Resynchronisation starts, or starts again from the Open phase; every row of fabric state goes to a mirror that has just joined. -/
def Dev.startResync (d : Dev) : Dev :=
  ({ d with memb := { d.memb with synced := false } }.wr Memb.RESYNC_PHASE 2).wr Memb.RESYNC_COPIED 0

/-- The whole of the fabric state, to a mirror that joins (step 3 of R398). -/
def Dev.mirAll (t : Nat) (d : Dev) : Dev :=
  d.mirDiff t { d with
    extents := [], windows := [], slots := [], gate := {}, chn := { d.chn with slots := [] }, memb := { d.memb with copies := [], headMap := [] }
    regs := [] }

/-- RESYNC_COPY_DONE: both walks have covered everything. The model sends the copies here, tier-1 ways as MIR_ENTRY with COPY in
ascending order, non-empty buckets as MIR_BUCKET, and then MIR_CLOSE (log entry 41). -/
def Dev.copyDone (t : Nat) (d : Dev) : Dev :=
  if ¬ d.acting ∨ d.rd Memb.RESYNC_PHASE ≠ 2 ∨ d.chn.image ≠ [] then d else
  let d := d.scanWays t
  let ways := d.chn.tier1.filter (fun x => d.homeLine x.2.la)
  let d := ways.foldl (fun (d : Dev) x => d.mirEntry t x.2.la (.way (x.1 % 16)) x.2.state x.2.sharers true .mirrorCopy) d
  let buckets := ((d.chn.tier2.map (fun x => x.1 / 4)).foldl (fun (l : List Nat) b => if l.contains b then l else l ++ [b]) [])
  let d := buckets.foldl (fun (d : Dev) b =>
    d.qflSend t 4 4 (d.rd Memb.MIRROR_ADDR) (masterFabric d.chainAddr 2) true
      (BitVec.ofNat 64 (1 + 2 * b + 2 ^ 63) :: lineUnits (d.bucketLine b)) .mirrorCopy) d
  let d := (d.wr Memb.RESYNC_COPIED (min 2097152 ways.length)).wr Memb.RESYNC_PHASE 3
  d.qflSend t 4 5 (d.rd Memb.MIRROR_ADDR) (masterFabric d.chainAddr 2) true [BitVec.ofNat 64 ways.length] .mirrorClose

/-- A VC4 message that waits for MIR_ACK. -/
def Dev.mirWaiting (d : Dev) : Bool := d.fab.outstanding.any (fun o => o.vc = 4) || d.fab.waiting.any (fun x => x.1.vc = 4)

/-- The last MIR_ACK of the Close phase: the pair is in sync. -/
def Dev.resyncCheck (t : Nat) (d : Dev) : Dev :=
  if ¬ d.acting ∨ d.rd Memb.RESYNC_PHASE ≠ 3 ∨ d.mirWaiting then d else
  let d := { d with memb := { d.memb with synced := true } }.wr Memb.RESYNC_PHASE 4
  let d := d.finish t (· = .resync) .ok []
  if d.mode = 8 then { d.enterMode t 5 6 with memb := { d.memb with leaseMiss := 0 } } else d

/-- MIRROR_RESYNC. -/
def Dev.mirrorResync (t : Nat) (d : Dev) : Dev × Result :=
  let m := d.rd Memb.MIRROR_ADDR
  if ¬ d.acting ∨ m = 0 ∨ d.rd (Memb.peer_MODE_SEEN (m - 1)) ≠ 6 then (d, .err .notPermitted)
  else (((d.abandonResync t).startResync), .run .resync)

/-- A member has replied to EPOCH_ADVANCE. -/
def Dev.advanced (t a : Nat) (d : Dev) : Dev :=
  match d.memb.advancing with
  | none => d
  | some l =>
    let l := l.filter (fun x => x ≠ a)
    let d := { d with memb := { d.memb with advancing := if l = [] then none else some l } }
    let d := match d.memb.joining with
      | some (b, 2, _) =>
        if b ≠ a then d else
        let d := ({ d with memb := { d.memb with joining := none } }).finish t (· = Work.join a) .ok []
        if d.memb.joinRole = 6 then (d.mirAll t).startResync else d
      | _ => d
    if l ≠ [] then d
    else (d.finish t (· = .membership) .ok []).finishDeaths t

/-- A member's reply to a command this device sent (R426): its status and payload. -/
def Dev.sentReply (t : Nat) (c : SentCommand) (st : Status) (payload : List Byte) (d : Dev) : Dev :=
  let d := { d with silek := { d.silek with sent := d.silek.sent.filter (fun x => x.id ≠ c.id) } }
  if c.opcode = 0x506 then d.advanced t c.dst
  else if c.opcode = 0x402 then d.commitReply t
  else if c.opcode = 0x503 then
    (if st = .ok then d
     else ({ d with memb := { d.memb with rejoining := false } }.wrFlag Glob.TRANSITION_BUSY false).finish t Work.isModeSet st [])
  else if c.opcode = 0x504 then
    (if st = .ok then d.admitMember t c.dst d.memb.joinRole true
     else ({ d with memb := { d.memb with joining := none } }).finish t (· = Work.join c.dst) st [])
  else if c.opcode = 0x101 then
    (if st = .ok ∧ leNat ((payload.drop 1).take 1) = 2 then
      { d with silek := { d.silek with settled := Tab.set d.silek.settled c.dst (leNat ((payload.drop 2).take 1)) } }
     else d)
  else if c.opcode = 0x107 then
    (let e := d.events
     let q := if st = .ok then e.queue.filter (fun r => ¬ e.notified.contains r) else e.queue
     ({ d with events := { e with queue := q, notified := [] } }).syncEventPending t)
  else d.partEnded t c st payload

end Sys2Proof.Machine
end

