-- ==== Sys2Proof/Machine/Tasks.lean ====
section
/-! DEFINITION. What goes on inside the device within one command: stage 4 of an access, the ends of memory accesses and QFL requests,
and the run of all work until nothing is left (R20, R73, R146, R186, R222 to R227, R242, R243, R247 to R252, R581). -/
namespace Sys2Proof.Machine
open Sys2Proof

/-! ### Stage 4 (R20, R32, R186, R242, R393, R581) -/

/-- Bindings of an extent by instances of this device: valid slots of enabled windows. -/
def Dev.localBindings (d : Dev) (chain e : Nat) : Nat :=
  (d.slots.filter (fun b => b.2.valid && decide (b.2.chain = chain) && decide (b.2.extent = e) &&
    d.windows.any (fun w => w.2.enabled && w.2.holds b.1))).length

/-- An extent of another device is shared as seen here: a valid slot of a SHARED window names it. -/
def Dev.sharedHere (d : Dev) (fa : Nat) : Bool :=
  d.slots.any (fun b => b.2.valid && decide (b.2.chain = faChain fa) && decide (b.2.extent = faExtent fa) &&
    d.windows.any (fun w => w.2.enabled && decide (w.2.kind = 1) && w.2.holds b.1))

/-- Pair memory that a former pair member in OM9 reaches through its own heads (R393). -/
def Dev.pairHere (d : Dev) (fa : Nat) : Bool :=
  decide (d.mode = 9) && d.memb.formerPair && decide (faChain fa = d.rd Memb.PAIR_ADDR)

/-- This device serves the extent from its own map. -/
def Dev.servesHere (d : Dev) (fa : Nat) : Bool := d.isHome fa || d.pairHere fa

/-- A shared extent homed across the split (R581), or homed here and bound to others (R32). -/
def Dev.acrossSplit (d : Dev) (fa : Nat) : Bool :=
  decide (d.mode = 9) &&
    (if d.servesHere fa then
      decide ((d.ext (faExtent fa)).state = 4) &&
        (d.memb.formerPair || decide (d.localBindings (faChain fa) (faExtent fa) < (d.ext (faExtent fa)).bindCount))
     else d.sharedHere fa && (!hasAddr d.memb.fencedReach (faChain fa) || decide (faChain fa = d.rd Memb.PAIR_ADDR)))

/-- The slice holds an access of a migrating extent: every one during the exchange, writes and atomics to the open piece while it is
being copied (R186, R187). -/
def Dev.migrationHolds (d : Dev) (a : Access) : Option (Nat × Migration) :=
  match d.binder.migrations.find? (fun x => x.2.source = faExtent a.fa) with
  | none => none
  | some (i, m) =>
    let line := faLine a.fa
    if 2 ≤ m.phase ∨ ((a.kind.isWrite ∨ a.kind = .atomic) ∧ d.inPiece m line) then some (i, m)
    else none

/-- The line's open tracker waits for the access's slot: a write of it is the snoop's data (R205). -/
def Dev.snoopsFor (d : Dev) (a : Access) : Bool :=
  match d.trackerOn (lineAddr a.fa), a.slot with
  | some tr, some q => tr.snooped.contains q && a.kind.isWrite
  | _, _ => false

/-- An access to an extent this device serves itself. -/
def Dev.routeOwn (t : Nat) (a : Access) (d : Dev) : Dev :=
  let e := faExtent a.fa
  let x := d.ext e
  if x.state = 0 then d.later (.answer a { ending := .decodeMiss })
  else if x.state = 6 then d.later (.answer a { ending := .absent })
  else
    -- an owner's writeback that answers a snoop, the copy read's too, is taken whatever the migration does (R185)
    match (if d.snoopsFor a then none else d.migrationHolds a) with
    | some (i, m) => { d with binder := { d.binder with
        migrations := Tab.set d.binder.migrations i { m with held := m.held ++ [a] } } }
    | none =>
      if x.state = 4 then d.sliceAdmit t a
      else if 0 < x.lostCount ∧ (d.findLine (lineAddr a.fa)).2.1 = 4 ∧ a.kind ≠ .flush ∧ a.kind ≠ .evictClean then
        d.sliceAdmit t { a with slot := none, keep := 0 }
      else if a.kind.isRead then d.readLine t a (.direct a)
      else if a.kind.isWrite then
        (if d.recordsLost a then d.sliceAdmit t { a with slot := none, keep := 0, kind := .wrNc } else d.writeLine t a (.direct a))
      else if a.kind = .atomic then d.readLine t a (.direct a)
      else if a.kind = .invOwn then d.later (.answer a { grant := 3, bare := true })
      else d.later (.answer a {})

/-- Send an access to its remote owner as the VC0 request `op`. -/
def Dev.sendRemote (t : Nat) (a : Access) (op : Nat) (d : Dev) : Dev :=
  let d := if op = 8 ∧ ¬ d.buf.remote.any (fun w => w.id = a.id) then
      let d := d.remoteBegun t a
      match a.origin with
      | .ladle run _ _ _ =>
        (match d.run run with
         | some r => d.setPair r.pair { d.pair r.pair with openWrites := (d.pair r.pair).openWrites ++ [a.id] }
         | none => d)
      | _ => d
    else d
  d.qflSend t 0 op (faChain a.fa) (d.peerMaster a.master) false (a.units op a.keep) (.direct a)

/-- An access to an extent of another device (R22, R203, R222, R239). -/
def Dev.routeRemote (t : Nat) (a : Access) (d : Dev) : Dev :=
  let c := faChain a.fa
  let la := lineAddr a.fa
  let (_, st, v) := d.findLine la
  let caching : Bool := a.kind = .rdShared ∨ a.kind = .rdOwn ∨ a.kind = .rdNc ∨ a.kind = .invOwn ∨ a.kind = .evictClean ∨ a.kind = .flush
  let cause := d.blocked (sliceOf la) a (d.validTicket (sliceOf la) a)
  if ¬ d.alive c ∧ c ≠ d.rd Memb.PAIR_ADDR then
    (d.inc ChurnR.PEER_DEAD_COMPLETIONS).later (.answer a { poison := true, ending := .errorResponse })
  else if a.slot.isSome ∧ caching then d.sliceAdmit t a
  else if a.slot.isSome ∧ a.kind.isWrite ∧ (d.snoopsFor a ∨ (2 ≤ st ∧ holds v a.slot)) then d.sliceAdmit t { a with kind := .wb }
  else if a.slot.isSome ∧ a.kind.isWrite ∧ (2 ≤ st ∨ a.keep ≠ 0) then d.sliceAdmit t { a with kind := .wrNc }
  else if a.slot.isSome ∧ a.kind.isWrite ∧ cause = 1 then d.sliceAdmit t a
  else if a.kind.isRead then d.sendRemote t { a with keep := 0 } 7
  else if a.kind.isWrite then d.sendRemote t { a with keep := 0 } 8
  else if a.kind = .atomic then d.sendRemote t a 9
  else if a.kind = .flush ∧ d.sharedHere a.fa then d.sendRemote t a 4
  else if a.kind = .invOwn then d.later (.answer a { grant := 3, bare := true })
  else d.later (.answer a {})

/-- A peer's access to a PRIVATE or SWC extent of a device in OM9, which serves those to its local hosts alone (R32). -/
def Dev.splitOff (d : Dev) (a : Access) : Bool :=
  decide (d.mode = 9) && d.servesHere a.fa && decide ((d.ext (faExtent a.fa)).state ≠ 4) && (match a.origin with
    | .peer _ _ _ _ => true
    | _ => false)

/-- Stage 4: a decoded and checked access reaches what serves it. -/
def Dev.route (t : Nat) (a : Access) (d : Dev) : Dev :=
  let d := (d.readArray t 10 0 0 (fun _ => true)).1
  if d.acrossSplit a.fa then d.later (.answer a { poison := true, ending := .fenced })
  else if d.splitOff a then d.later (.answer a { poison := true, ending := .errorResponse })
  else if d.servesHere a.fa then d.routeOwn t a
  else d.routeRemote t a

/-! ### The end of a private access (R247, R251, R252) -/

/-- The read of an atomic at its memory port agent has ended: the ALU, the write, the release of the lock. -/
def Dev.directAtomic (t : Nat) (a : Access) (r : Answer) (d : Dev) : Dev :=
  let p := (d.backing a.fa).1
  if r.ending ≠ .done ∨ r.poison then (d.unlock p a.id).later (.answer a { poison := r.poison, ending := r.ending })
  else
    let (d, wrong) := d.aluWrong (.portAlu p) a r.data
    if wrong then
      ((d.residueError t (Pg.RESIDUE_PORT p) (0x20 + p / 4) 9 a.master a.fa 1).unlock p a.id).later
        (.answer a { poison := true, ending := .residue })
    else
    let d := (d.inc (Pg.ATOMICS_PORT p)).mon t (p / 4) 0x10a a.master a.fa
    let old := BitVec.ofNat 512 (a.oldValue r.data)
    match a.atomWrite r.data with
    | none => (d.unlock p a.id).later (.answer a { data := old })
    | some (be, w) => d.writeLine t { a with be, data := w } (.atomicWrite a old)

/-- A private access, or a request to a remote owner, ended. -/
def Dev.directEnd (t : Nat) (a : Access) (r : Answer) (d : Dev) : Dev :=
  let here := d.servesHere a.fa
  if a.kind = .atomic ∧ here then d.directAtomic t a r
  else
    let d := if a.kind.isWrite ∧ ¬ here then d.remoteGone t a.id (decide (r.ending = .done)) else d
    if r.ending ≠ .done then d.later (.answer a { poison := r.poison, ending := r.ending })
    else
      let grant := if r.poison then 0 else if ¬ here then 0 else if a.kind = .rdShared then 1 else if a.kind = .rdOwn then 2 else 0
      d.later (.answer a { data := r.data, poison := r.poison, grant })

/-! ### The ends a tracker waits for (R204, R222 to R224) -/

/-- Line data reached a home tracker. -/
def Dev.trackerRead (t : Nat) (tr : Tracker) (r : Answer) (d : Dev) : Dev :=
  let bad := decide (r.ending ≠ .done)
  let tr := { tr with
    reads := tr.reads - 1, data := some (if bad || r.poison then 0 else r.data, bad || r.poison)
    answer := if bad then { poison := true, ending := r.ending } else tr.answer }
  if tr.acc.kind = .atomic ∧ ¬ bad then (d.setTracker tr).homeMemory t tr else d.settleTracker t tr

/-- A write of a home tracker ended; one whose target was lost is recorded as discarded after its completion (R73). -/
def Dev.trackerWrite (t : Nat) (tr : Tracker) (r : Answer) (d : Dev) : Dev :=
  d.settleTracker t { tr with
    writes := tr.writes - 1, answer := if r.ending = .done then tr.answer else { tr.answer with ending := r.ending } }

/-- The home answered a proxy's request. -/
def Dev.proxyReply (t : Nat) (tr : Tracker) (r : Answer) (d : Dev) : Dev :=
  match tr.plan with
  | [] => d
  | (op, _) :: rest =>
    let d := if op = 6 ∨ op = 8 then d.remoteGone t tr.acc.id (decide (r.ending = .done)) else d
    if r.ending ≠ .done then
      d.settleTracker t { tr with
        plan := [], step := 0, nextState := if tr.left = 0 then 0 else tr.state, nextSharers := tr.left
        data := if tr.acc.kind.isRead ∨ tr.acc.kind = .invOwn then some (0, true) else tr.data
        answer := { poison := true, ending := r.ending } }
    else
      let takes : Bool := (decide (op ≤ 3) || decide (op = 7)) && !r.bare && !tr.dirty
      d.proxyStep t { tr with
        plan := rest, step := 0, acc := { tr.acc with naks := 0, ticket := none }
        nextState := if op ≤ 3 ∧ rest = [] ∧ r.grant ≠ 0 then r.grant else tr.nextState
        data := if takes then some (r.data, r.poison) else tr.data }

/-- A remote slot answered a recall, or its request timed out and is sent again (R223, R224). -/
def Dev.recallEnd (t : Nat) (tr : Tracker) (s : Nat) (r : Answer) (d : Dev) : Dev :=
  if ¬ tr.snooped.contains s then d
  else if r.ending = .timedOut ∨ r.ending = .errorResponse then (if d.isDead s then d else d.sendSnoop t tr tr.snoop s)
  else if r.ending ≠ .done then d
  else
    let d := if r.bare then d else
      let (id, d) := d.newId
      d.takeSnoopData t tr {
        id, kind := .wb, origin := .churn 0, master := masterChurn tr.slice 1, fa := laFa tr.la, data := r.data, poison := r.poison
        slot := some s, time := t }
    match d.tracker tr.slice tr.id with
    | some tr => d.snoopAnswered t tr s (min 1 r.grant)
    | none => d

/-- A writeback taken as a snoop's data was accepted: its host gets Cmp, a conflict that waited for it is acknowledged (R205, R206). -/
def Dev.snoopWriteEnd (t slice id : Nat) (a : Access) (r : Answer) (d : Dev) : Dev :=
  let d := if a.isChurn ∧ (r.ending = .targetLost ∨ r.ending = .absent) then d.logErr t {
      cls := 8, severity := 1, source := 5, access := 6, master := a.master, addr := a.fa, time := some a.time
      detail := saturate 32 ((t - a.time) / 1000) } else d
  let d := d.later (.answer a { ending := r.ending })
  match d.tracker slice id with
  | none => d
  | some tr =>
    let tr := { tr with writes := tr.writes - 1 }
    match tr.conflict with
    | some (p, tag) =>
      if tr.writes = 0 then (d.emit (.host p (.biConflictAck tag))).settleTracker t { tr with conflict := none } else d.settleTracker t tr
    | none => d.settleTracker t tr

/-- What goes on when a memory access or a QFL request ends. -/
def Dev.ended (t : Nat) (c : Cont) (r : Answer) (d : Dev) : Dev :=
  match c with
  | .direct a => d.directEnd t a r
  | .atomicWrite a old =>
    (d.unlock (d.backing a.fa).1 a.id).later (.answer a (if r.ending = .done then { data := old } else { poison := true, ending := r.ending }))
  | .tracker slice id part =>
    (match d.tracker slice id with
     | none => d
     | some tr =>
      match d.readTracker t tr with
      | (d, true) => d
      | (d, false) =>
        if part = 0 then d.trackerRead t tr r else if part = 3 then d.proxyReply t tr r else d.trackerWrite t tr r)
  | .recallRsp slice id s =>
    (match d.tracker slice id with
     | none => d
     | some tr =>
      match d.readTracker t tr with
      | (d, true) => d
      | (d, false) => d.recallEnd t tr s r)
  | .snoopWrite slice id a => d.snoopWriteEnd t slice id a r
  | .mirrorEntry slice id n =>
    (match d.tracker slice id with
     | none => d
     | some tr =>
      if tr.acc.id ≠ n then d
      else
        let d := { d with chn := { d.chn with mirrorWaits := Tab.put d.chn.mirrorWaits n (Tab.getD d.chn.mirrorWaits n 0 - 1) 0 } }
        d.settleTracker t tr).resyncCheck t
  | .mirrorState => d.resyncCheck t
  | .mirrorCopy => d.resyncCheck t
  | .mirrorClose => d.resyncCheck t
  | .replicaAck chain tag e2e =>
    if r.ending = .done then
      d.respond t { src := chain, dst := d.chainAddr, master := masterFabric chain 2, tag, epoch := d.epoch, e2e } 4 3 [] else d
  | .segment _ => if r.ending = .done then { d with silek := { d.silek with segAcks := d.silek.segAcks + 1 } } else d
  | .proxyFree _ _ _ => d
  | .none => d.resyncCheck t
  | .dual g => d.dualEnd g r
  | .test => d

/-! ### Running the work -/

/-- A tracker of a line has closed. -/
def Dev.lineClosed (t slice la : Nat) (d : Dev) : Dev :=
  let d := if d.memb.discarding ∧ (d.trackerOn la).isNone then d.dropRemote t la else d
  let d := (((d.lineFree t slice la).reclaimAgain t la).sinkWaiting t (some (d.bucketOf la))).moveImage t
  if d.chn.portReclaims.any (fun x => d.homeLine la && decide ((d.ext (faExtent (laFa la))).port = x.port)) then d.removeEntry t la else d.gateChurn

/-- Conditions of running commands are looked at again. -/
def Dev.recheck (t : Nat) (d : Dev) : Dev :=
  let d := (d.unbindCheck t).applyDoorbells t
  let d := d.ladles.pairs.foldl (fun (d : Dev) x => d.rejectHeads 32 t x.1) d
  (d.ladles.pairs.foldl (fun (d : Dev) x => d.pairIdle t x.1) d).gateChurn

/-- Do one piece of work. -/
def Dev.runTask (t : Nat) (w : Task) (d : Dev) : Dev :=
  match w with
  | .launch a => d.launch t a
  | .route a => d.route t a
  | .answer a r => d.answer t a r
  | .lineFree slice la => d.lineClosed t slice la
  | .ended c r => d.ended t c r
  | .remove p => d.removePort t p
  | .dead s => d.slotDead t s
  | .descDone op purpose status src dst => d.descDone t op purpose status src dst
  | .hostData tag ok poison bs => (d.hostDataIn t tag ok poison bs).later .recheck
  | .pairError q cause => d.pairError t q cause
  | .takeHeld p => d.admitHeld t p
  | .passAnswers => d.passAnswers t
  | .doorbell vi q cq v => d.doorbell t vi q cq v
  | .recheck => d.recheck t

/-- Do the work in the order it arose, up to n pieces. -/
def Dev.settle : Nat → Nat → Dev → Dev
  | 0, _, d => d
  | n + 1, t, d =>
    match d.work with
    | [] => d
    | w :: rest => Dev.settle n t (({ d with work := rest }).runTask t w)

/-- The output is a Silek reply. -/
def Out.isReply : Out → Bool
  | .reply _ _ _ _ _ _ _ => true
  | _ => false

/-- The end of a command's effect: all work is done, and fabric state that changed is mirrored before the command's reply (R383). -/
def Dev.finishCommand (t : Nat) (d x : Dev) : Dev :=
  let d := (d.settle 100000 t).settleCredits
  if ¬ d.hasMirror then d else
  let n := x.out.length
  let y := d.mirDiff t x
  { y with out := y.out.take n ++ (y.out.drop n).filter (fun o => ¬ o.isReply) ++ (y.out.drop n).filter (fun o => o.isReply) }

/-- Finish a command that acted from state x; mailboxes take the final replies that are ready. -/
def settled (x : State) (o : Host.Outcome State Fault Refusal) : Host.Outcome State Fault Refusal :=
  match o with
  | .next s => .next ({ s with dev := s.dev.finishCommand s.time.now x.dev }).takeMail
  | o => o

/-- A command that acts on the device alone, with the work it hands on. -/
def onSettled (f : Nat → Dev → Dev) (s : State) : Host.Outcome State Fault Refusal := settled s (onDev f s)

/-- A Silek command with the work it hands on. -/
def runSettled (h : SilekHdr) (i : CmdInfo) (body : State → State × Result) (s : State) : Host.Outcome State Fault Refusal :=
  settled s (runSilek h i body s)

end Sys2Proof.Machine
end

