-- ==== Sys2Proof/Machine/Transitions.lean ====
section
/-! DEFINITION. Mode commands (R34, R35, R37, R375, R399): which transitions a command or autostart may make. -/
namespace Sys2Proof.Machine
open Sys2Proof

/-- The first member whose heartbeat names OM5 or OM8, and the payload of MEMBER_JOIN: the role, 2 mirror or 3 worker. -/
def Dev.sendJoin (t target : Nat) (d : Dev) : Dev :=
  match d.hearsPrimary with
  | some a => d.sendCommand t a 0x503 0 (leBytes 1 (target - 4))
  | none => d

/-- From OM3 into a role mode. A join waits for the primary; the rest is immediate. -/
def Dev.startRole (t target : Nat) (auto : Bool) (d : Dev) : Dev × Result :=
  let cause := if auto then 10 else 1
  if target = 4 then (d.enterMode t 4 cause, .final .ok [])
  else if d.chainAddr = 0 then (d, .err .notPermitted)
  else if target = 5 then
    (if d.hearsPrimary.isSome then (d, .err .notPermitted) else (d.formFabric t cause, .final .ok []))
  else
    let d := { d with memb := { d.memb with rejoining := true, joinRole := target, autostart := auto } }
    ((d.raise1 Glob.TRANSITION_BUSY).sendJoin t target, .run (.modeSet target))

/-- Autostart at entry to OM3 from boot or enumeration: the mode saved in flash, when it agrees with the ROLE strap. -/
def Dev.autostart (t : Nat) (d : Dev) : Dev :=
  match d.flash.autostart with
  | some m => if d.mode = 3 ∧ m = d.rst.straps.role + 4 then (d.startRole t m true).1 else d
  | none => d

/-- Boot or enumeration ends in OM3. -/
def Dev.toStandby (t cause : Nat) (d : Dev) : Dev := (d.enterMode t 3 cause).autostart t

/-- A mirror runs beside this primary in OM6. -/
def Dev.mirrorRuns (d : Dev) : Bool :=
  let m := d.rd Memb.MIRROR_ADDR
  decide (m ≠ 0) && decide (d.rd (Memb.peer_MODE_SEEN (m - 1)) = 6)

/-- The transition of R34 that a command asks for. DESIGN CHOICE (log entry 152): while TRANSITION_BUSY is set a command that also names a
wrong expected mode gets BUSY (R37) rather than NOT_PERMITTED (R35). -/
def Dev.modeSet (t expected target role : Nat) (d : Dev) : Dev × Result :=
  if 11 < target ∨ (3 < role ∧ role ≠ 0xff) then (d, .err .badParam)
  else if d.flag Glob.TRANSITION_BUSY then (d, .err .busy)
  else if d.mode ≠ expected then (d, .err .notPermitted)
  else
    let go : Dev × Result := (d.enterMode t target 1, .final .ok [])
    let m := d.mode
    if m = 3 ∧ 4 ≤ target ∧ target ≤ 7 then
      (if target = (if role = 0xff then d.rst.straps.role else role) + 4 then d.startRole t target false else (d, .err .notPermitted))
    else if target = 10 ∧ [3, 4, 6, 7, 8, 9].contains m then go
    else if target = 10 ∧ m = 5 ∧ ¬ d.mirrorRuns then go
    else if target = 3 ∧ m = 10 ∧ d.sc.update.isNone ∧ ¬ (1 ≤ d.sc.pldmStep ∧ d.sc.pldmStep ≤ 3) then go
    else if target = 11 ∧ (m = 3 ∨ m = 10) ∧ ¬ d.anyBound ∧ ¬ d.anyQueueOn then go
    else (d, .err .notPermitted)

/-- MODE_SET. -/
def execModeSet (h : SilekHdr) (expected target role : Nat) (s : State) : Host.Outcome State Fault Refusal :=
  runSettled h { opcode := 0xa01, key := .modeSet h.key expected target role } (devBody fun t d => d.modeSet t expected target role) s

/-- MODE_STATUS as a word (R37). -/
def Dev.modeStatus (d : Dev) : Nat :=
  d.mode + 2 ^ 4 * d.rd Glob.PREVIOUS_MODE + 2 ^ 8 * d.rd Glob.LAST_CAUSE + 2 ^ 12 * d.rst.straps.role + 2 ^ 14 * d.chainAddr +
    2 ^ 19 * d.rd Glob.HALTED + 2 ^ 20 * d.rd Glob.TRANSITION_BUSY + 2 ^ 21 * flagBit d.partS

/-- MODE_QUERY. -/
def execModeQuery (h : SilekHdr) (s : State) : Host.Outcome State Fault Refusal :=
  runSilek h { opcode := 0xa02, key := .modeQuery h.key } (queryBody fun s => .final .ok (leBytes 4 s.dev.modeStatus)) s

end Sys2Proof.Machine
end

