-- ==== Sys2Proof/Machine/MemberRows.lean ====
section
/-! DEFINITION. The membership commands of group 0x05xx (R398, R399, R404, R377, R378, R381). -/
namespace Sys2Proof.Machine
open Sys2Proof

/-- A command that the acting primary alone accepts. -/
def Dev.actingOnly (d : Dev) (k : Dev × Result) : Dev × Result := if d.acting then k else (d, .err .notPermitted)

/-- MEMBERSHIP_SET: a change of the configured membership advances the epoch (R389). -/
def Dev.membershipSet (t bitmap : Nat) (d : Dev) : Dev × Result :=
  d.actingOnly <|
    let e := d.epochArgs
    if 2 ^ 16 ≤ bitmap ∨ ¬ hasAddr bitmap e.primary ∨ (e.mirror ≠ 0 ∧ ¬ hasAddr bitmap e.mirror) then (d, .err .badParam)
    else
      let d := d.advance t { e with configured := bitmap }
      if d.memb.advancing.isSome then (d, .run .membership) else (d, .final .ok [])

/-- MEMBERSHIP_SET. -/
def execMembershipSet (h : SilekHdr) (bitmap : Nat) (s : State) : Host.Outcome State Fault Refusal :=
  runSettled h { opcode := 0x501, key := .membershipSet h.key bitmap } (devBody fun t d => d.membershipSet t bitmap) s

/-- The mode a member last reported; this device's own for its own address. -/
def Dev.modeOf (d : Dev) (a : Nat) : Nat := if a = d.chainAddr then d.mode else d.rd (Memb.peer_MODE_SEEN (a - 1))

/-- The reply of MEMBERSHIP_QUERY: epoch, configured and alive sets, primary, mirror, PAIR_ADDR, then the mode of addresses 1 to 16. -/
def Dev.membershipReport (d : Dev) : List Byte :=
  leBytes 4 d.epoch ++ leBytes 2 (d.rd Memb.CONFIGURED) ++ leBytes 2 (d.rd Memb.ALIVE) ++ leBytes 1 (d.rd Memb.PRIMARY_ADDR) ++
    leBytes 1 (d.rd Memb.MIRROR_ADDR) ++ leBytes 1 (d.rd Memb.PAIR_ADDR) ++
    ((List.range 16).map (fun i => leBytes 1 (d.modeOf (i + 1)))).flatten

/-- MEMBERSHIP_QUERY. -/
def execMembershipQuery (h : SilekHdr) (s : State) : Host.Outcome State Fault Refusal :=
  runSilek h { opcode := 0x502, key := .membershipQuery h.key }
    (queryBody fun s => if s.dev.acting then .final .ok s.dev.membershipReport else .err .notPermitted) s

/-- MEMBER_JOIN at the primary: role 2 mirror, 3 worker. -/
def execMemberJoin (h : SilekHdr) (role : Nat) (s : State) : Host.Outcome State Fault Refusal :=
  runSettled h { opcode := 0x503, key := .memberJoin h.key role }
    (devBody fun t d =>
      match h.requester with
      | .member a => if role = 2 ∨ role = 3 then d.memberJoin t a (role + 4) else (d, .err .badParam)
      | _ => (d, .err .notPermitted)) s

/-- JOIN_TIMEOUT: no answer to MEMBER_JOIN within 1 s; the device stays in OM3. -/
def Dev.joinTimeout (t : Nat) (d : Dev) : Dev :=
  if ¬ d.memb.rejoining ∨ d.mode ≠ 3 then d else
  let d := { d with
    memb := { d.memb with rejoining := false, autostart := false }
    silek := { d.silek with sent := d.silek.sent.filter (fun c => c.opcode ≠ 0x503) } }
  (d.wrFlag Glob.TRANSITION_BUSY false).finish t Work.isModeSet .timeout []

/-- JOIN_TIMEOUT. -/
def execJoinTimeout (s : State) : Host.Outcome State Fault Refusal := onSettled (fun t d => d.joinTimeout t) s

/-- MEMBER_REJOIN: at the target in OM9 the primary's, at the acting primary the fabric manager's. -/
def execMemberRejoin (h : SilekHdr) (addr role mode : Nat) (s : State) : Host.Outcome State Fault Refusal :=
  runSettled h { opcode := 0x504, key := .memberRejoin h.key addr role mode }
    (devBody fun t d =>
      match h.requester with
      | .member _ => if d.mode = 9 ∧ addr = d.chainAddr then d.rejoinHere t mode else (d, .err .notPermitted)
      | _ => d.actingOnly (if addr < 1 ∨ 16 < addr then (d, .err .badParam) else d.rejoinAt t addr role mode)) s

/-- MEMBER_DECLARE_DEAD. A member that is not alive has been declared already. -/
def Dev.memberDeclareDead (t a : Nat) (d : Dev) : Dev × Result :=
  d.actingOnly <|
    if a = d.chainAddr ∨ a < 1 ∨ 16 < a then (d, .err .badParam)
    else if ¬ d.alive a then (d, .final .ok [])
    else
      let d := d.declareDead t [a]
      if ¬ d.deathOver a then (d, .run (.declareDead a)) else (d, .final .ok [])

/-- MEMBER_DECLARE_DEAD. -/
def execMemberDeclareDead (h : SilekHdr) (addr : Nat) (s : State) : Host.Outcome State Fault Refusal :=
  runSettled h { opcode := 0x505, key := .memberDeclareDead h.key addr } (devBody fun t d => d.memberDeclareDead t addr) s

/-- EPOCH_ADVANCE at a member. -/
def execEpochAdvance (h : SilekHdr) (epoch prev configured alive primary mirror pair : Nat) (failover kept : Bool) (s : State) :
    Host.Outcome State Fault Refusal :=
  runSettled h { opcode := 0x506, key := .epochAdvance h.key epoch prev configured alive primary mirror pair failover kept }
    (devBody fun t d =>
      match h.requester with
      | .member a => d.adopt t a { epoch, prev, configured, alive, primary, mirror, pair, failover, kept }
      | _ => (d, .err .notPermitted)) s

/-- EPOCH_ADVANCE_RESEND: every 1 ms, to each member that has not replied. -/
def Dev.resendAdvance (t : Nat) (d : Dev) : Dev :=
  match d.memb.advancing with
  | none => d
  | some l =>
    (d.silek.sent.filter (fun c => decide (c.opcode = 0x506) && l.contains c.dst)).foldl (fun (d : Dev) (c : SentCommand) =>
      d.sendOne t c) d

/-- EPOCH_ADVANCE_RESEND. -/
def execEpochAdvanceResend (s : State) : Host.Outcome State Fault Refusal := onDev (fun t d => d.resendAdvance t) s

/-- PAIR_HEAD_SET. The device ports of another member are not known here, so only its own are checked. -/
def Dev.pairHeadSet (n a port ld : Nat) (d : Dev) : Dev × Result :=
  d.actingOnly <|
    if 31 < n ∨ a < 1 ∨ 16 < a ∨ 63 < port ∨ 15 < ld ∨ (a = d.chainAddr ∧ ¬ d.isDevicePort port) then (d, .err .badParam)
    else ({ d with memb := { d.memb with headMap := Tab.set d.memb.headMap (32 * a + n) (port, ld) } }, .final .ok [])

/-- PAIR_HEAD_SET. -/
def execPairHeadSet (h : SilekHdr) (expander addr port ld : Nat) (s : State) : Host.Outcome State Fault Refusal :=
  runSettled h { opcode := 0x507, minMinor := 3, key := .pairHeadSet h.key expander addr port ld }
    (devBody fun _ d => d.pairHeadSet expander addr port ld) s

/-- MIRROR_RESYNC. -/
def execMirrorResync (h : SilekHdr) (s : State) : Host.Outcome State Fault Refusal :=
  runSettled h { opcode := 0x508, minMinor := 3, key := .mirrorResync h.key } (devBody fun t d => d.mirrorResync t) s

/-- A replica region on this device's own memory (R381): a device port with the units inside its capacity and none registered. Its
length is one unit more than the tier-2 region (log entry 42). -/
def Dev.replicaHere (port ld unit : Nat) (d : Dev) : Dev × Result :=
  let units := 1 + d.rd ChurnR.T2_UNITS
  if ¬ d.isDevicePort port ∨ 15 < ld ∨ ((d.port port).capacity.getD ld 0) < unit + units ∨
      d.extents.any (fun x => decide (x.2.state ≠ 0) && decide (x.2.port = port) && decide (x.2.ld = ld) &&
        decide (unit ≤ x.2.dpaUnit) && decide (x.2.dpaUnit < unit + units)) then (d, .err .badParam)
  else
    ((((d.wr Memb.REPLICA_PORT port).wr Memb.REPLICA_LD ld).wr Memb.REPLICA_DPA_UNIT unit).wr Memb.REPLICA_UNITS units, .final .ok [])

/-- REPLICA_SET: the fabric manager's goes to the member it names, which sets its region. -/
def Dev.replicaSet (t a port ld unit : Nat) (fromMember : Bool) (d : Dev) : Dev × Result :=
  if fromMember then d.replicaHere port ld unit else
  d.actingOnly <|
    let p := d.rd Memb.RESYNC_PHASE
    if 1 ≤ p ∧ p ≤ 3 then (d, .err .busy)
    else if a = d.chainAddr then d.replicaHere port ld unit
    else if ¬ d.alive a then (d, .err .targetLost)
    else
      let n := d.silek.nextId
      (d.sendCommand t a 0x509 n (leBytes 1 a ++ leBytes 1 port ++ leBytes 1 ld ++ leBytes 4 unit), .run (.fan n))

/-- REPLICA_SET. -/
def execReplicaSet (h : SilekHdr) (addr port ld unit : Nat) (s : State) : Host.Outcome State Fault Refusal :=
  runSettled h { opcode := 0x509, minMinor := 3, key := .replicaSet h.key addr port ld unit }
    (devBody fun t d => d.replicaSet t addr port ld unit (match h.requester with
      | .member _ => true
      | _ => false)) s

end Sys2Proof.Machine
end

