-- ==== Sys2Proof/Machine/Ras.lean ====
section
/-! DEFINITION. Monitors, the Skimmer, the Herdbook, temperature, the Rennet's settings and the error log commands
(R514 to R553). -/
namespace Sys2Proof.Machine
open Sys2Proof

/-! ### Error log commands (R521, R549) -/

/-- Records numbered from `first` on; the log keeps them in ascending number. -/
def logFrom (log : List ErrorRec) (first : Nat) : List ErrorRec := log.filter (fun r => first ≤ r.number)

/-- An entry of the error log is read: one with an uncorrectable error reads as class 0xFF from then on (R524). -/
def Dev.readLogEntry (t : Nat) (r : ErrorRec) (d : Dev) : Dev :=
  match d.readArray t 11 0 0xd (· = r.number) with
  | (d, true) => { d with errors := d.errors.map (fun x =>
      if x.number = r.number then
        { x with cls := 0xff, severity := 0, source := 0, access := 0, master := 0, rule := 0, addr := 0, time := 0, epoch := 0, detail := 0 }
      else x) }
  | (d, false) => d

/-- ERROR_LOG_READ (R521). -/
def execErrorLogRead (h : SilekHdr) (first count : Nat) (s : State) : Host.Outcome State Fault Refusal :=
  runSilek h { opcode := 0x930, key := .errorLogRead h.key first count }
    (devBody fun t d =>
      if count < 1 ∨ 64 < count then (d, .err .badParam) else
      let d := ((logFrom d.errors first).take count).foldl (fun (d : Dev) r => d.readLogEntry t r) d
      let l := (logFrom d.errors first).take count
      (d, .final .ok (leBytes 4 l.length ++ (l.map ErrorRec.bytes).flatten))) s

/-- ERROR_LOG_CLEAR (R521). -/
def execErrorLogClear (h : SilekHdr) (upto : Nat) (s : State) : Host.Outcome State Fault Refusal :=
  runSilek h { opcode := 0x931, key := .errorLogClear h.key upto }
    (devBody fun _ d =>
      let keep := d.errors.filter (fun r => upto < r.number)
      (({ d with errors := keep }).syncLog, .final .ok (leBytes 4 (d.errors.length - keep.length)))) s

/-- Word w of the record latched by RECORD_SELECT. -/
def recordWord (r : Option ErrorRec) (w : Nat) : Nat :=
  match r with
  | some r => leNat ((r.bytes.drop (4 * w)).take 4)
  | none => 0

/-- RECORD_SELECT (R549): latch the record of a number into RECORD_WORD, zeros when it is not held. -/
def Dev.selectRecord (t n : Nat) (d : Dev) : Dev :=
  let d := match d.errors.find? (fun x => x.number = n) with
    | some r => d.readLogEntry t r
    | none => d
  let r := d.errors.find? (fun x => x.number = n)
  (List.range 8).foldl (fun d w => d.wr (Elog.RECORD_WORD w) (recordWord r w)) (d.wr Elog.RECORD_SELECT n)

/-- RECORD_SELECT as a register write. -/
def execRecordSelect (_path : AccessPath) (number : BitVec 32) (s : State) : Host.Outcome State Fault Refusal :=
  onDev (fun t d => if d.mode = 0 then d else d.selectRecord t number.toNat) s

/-! ### Monitors (R525 to R529, R550) -/

/-- BLOCK_KIND of monitor page 0x40 + m (R525); 0 for an unused page. -/
def monKind (m : Nat) : Nat :=
  if m < 16 then 1 else if m < 48 then 2 else if m < 52 then 3 else if m < 58 then m - 48 else 0

/-- Events of each block kind (R527). -/
def monEvents (kind : Nat) : Nat :=
  match kind with
  | 1 => 13 | 2 => 15 | 3 => 6 | 4 => 4 | 5 => 3 | 6 => 3 | 7 => 4 | 8 => 3 | 9 => 3 | _ => 0

/-- Zero counter k, its OVF bit and its held sample. -/
def Dev.monClear (m k : Nat) (d : Dev) : Dev :=
  let mask := 255 - 2 ^ k
  let d := (d.mwr (Mon.COUNT_LO m k) 0).mwr (Mon.COUNT_HI m k) 0
  let d := (d.mwr (Mon.OVF m) (Nat.land (d.mrd (Mon.OVF m)) mask)).mwr (Mon.SAMPLE_HELD m)
    (Nat.land (d.mrd (Mon.SAMPLE_HELD m)) mask)
  { d with monPending := Tab.erase d.monPending (m * 8 + k) }

/-- MONITOR_CONFIG (R529); a block is named by its monitor page. -/
def Dev.monitorConfig (block counter event : Nat) (d : Dev) : Dev × Result :=
  let m := block - 0x40
  if block < 0x40 ∨ 0x79 < block ∨ 7 < counter ∨ event / 256 ≠ monKind m ∨ monEvents (monKind m) < event % 256 then
    (d, .err .badParam)
  else (((d.mwr (Mon.EVENT m counter) event).monClear m counter).mwr (Mon.ENABLE m) 1, .final .ok [])

/-- MONITOR_CONFIG. -/
def execMonitorConfig (h : SilekHdr) (block counter event : Nat) (s : State) : Host.Outcome State Fault Refusal :=
  runSilek h { opcode := 0x901, key := .monitorConfig h.key block counter event }
    (devBody fun _ d => d.monitorConfig block counter event) s

/-- The per-monitor block of a snapshot (R532). -/
def Dev.monBlock (d : Dev) (m : Nat) : List Byte :=
  leBytes 1 (0x40 + m) ++ leBytes 1 (d.mrd (Mon.OVF m)) ++ zeros 6 ++ leBytes 4 (d.mrd (Mon.TIME_LO m)) ++
    leBytes 4 (d.mrd (Mon.TIME_HI m)) ++
    ((List.range 8).map (fun k => leBytes 4 (d.mrd (Mon.COUNT_LO m k)) ++ leBytes 4 (d.mrd (Mon.COUNT_HI m k)))).flatten

/-- MONITOR_READ (R529). -/
def execMonitorRead (h : SilekHdr) (block : Nat) (s : State) : Host.Outcome State Fault Refusal :=
  runSilek h { opcode := 0x902, key := .monitorRead h.key block }
    (queryBody fun s =>
      if block < 0x40 ∨ 0x79 < block then .err .badParam else .final .ok (s.dev.monBlock (block - 0x40))) s

/-- CLEAR of a monitor (R550): every counter, OVF and the held samples. -/
def Dev.monClearAll (m : Nat) (d : Dev) : Dev :=
  let d := (List.range 8).foldl (fun d k => d.monClear m k) d
  (d.mwr (Mon.TIME_LO m) 0).mwr (Mon.TIME_HI m) 0

/-- CLEAR. -/
def execClearMonitor (_path : AccessPath) (mon : Fin 58) (s : State) : Host.Outcome State Fault Refusal :=
  onDev (fun _ d => if d.mode = 0 then d else d.monClearAll mon) s

/-- OVF (R528, R550): a cleared bit releases its held sample. -/
def Dev.ovfWrite (m bits : Nat) (d : Dev) : Dev :=
  let mask := 255 - bits % 256
  (d.mwr (Mon.OVF m) (Nat.land (d.mrd (Mon.OVF m)) mask)).mwr (Mon.SAMPLE_HELD m)
    (Nat.land (d.mrd (Mon.SAMPLE_HELD m)) (255 - Nat.land (bits % 256) (d.mrd (Mon.OVF m))))

/-- OVF. -/
def execOvfClear (_path : AccessPath) (mon : Fin 58) (bits : BitVec 8) (s : State) : Host.Outcome State Fault Refusal :=
  onDev (fun _ d => if d.mode = 0 then d else d.ovfWrite mon bits.toNat) s

/-- One nanosecond of every enabled monitor's fixed counter (R526). -/
def Dev.monTick (d : Dev) : Dev :=
  (List.range 58).foldl (fun d m =>
    if d.mrd (Mon.ENABLE m) = 0 then d else
    let n := d.mrd (Mon.TIME_LO m) + 2 ^ 32 * d.mrd (Mon.TIME_HI m) + 1
    (d.mwr (Mon.TIME_LO m) n).mwr (Mon.TIME_HI m) (n / 2 ^ 32)) d

/-! ### The Skimmer (R530 to R534) -/

/-- Monitors that SELECT names, in page order. -/
def Dev.selected (d : Dev) : List Nat :=
  (List.range 58).filter (fun m =>
    if m < 32 then decide (fieldOf (d.rd Skim.SELECT_LO) m 1 = 1) else decide (fieldOf (d.rd Skim.SELECT_HI) (m - 32) 1 = 1))

/-- SKIMMER_CONFIG (R530). -/
def Dev.skimmerConfig (vi base size interval : Nat) (d : Dev) : Dev × Result :=
  if 63 < vi ∨ d.rd (Vi.STATE vi) = 0 ∨ base % 4096 ≠ 0 ∨ size % 4096 ≠ 0 ∨ size < 8192 ∨ 2 ^ 30 < size ∨ interval < 1 ∨
    65535 < interval ∨ d.selected = [] then (d, .err .badParam)
  else
    let d := { d with skim := { vi, base, size } }
    let d := ((d.wr Skim.SKIM_INSTANCE vi).wr Skim.INTERVAL interval).wr Skim.SIZE size
    let d := (d.wr Skim.BASE_LO base).wr Skim.BASE_HI (base / 2 ^ 32)
    (((d.raise1 Skim.RUNNING).wr Skim.FAULT_CAUSE 0).wr Skim.SEQ 0, .final .ok [])

/-- SKIMMER_CONFIG. -/
def execSkimmerConfig (h : SilekHdr) (vi base size interval : Nat) (s : State) : Host.Outcome State Fault Refusal :=
  runSilek h { opcode := 0x910, key := .skimmerConfig h.key vi base size interval }
    (devBody fun _ d => d.skimmerConfig vi base size interval) s

/-- SKIMMER_STOP (R530). -/
def execSkimmerStop (h : SilekHdr) (s : State) : Host.Outcome State Fault Refusal :=
  runSilek h { opcode := 0x911, key := .skimmerStop h.key } (devBody fun _ d => (d.wrFlag Skim.RUNNING false, .final .ok [])) s

/-- Gate-check and post one Skimmer write, line by line; a denial stops it (R530, R534). -/
def Dev.skimWrite (t off : Nat) (bs : List Byte) (d : Dev) : Dev × Bool :=
  (lineParts (d.skim.base + off) bs (bs.length + 1)).foldl (fun (acc : Dev × Bool) x =>
    if ¬ acc.2 then acc else
    let r := acc.1.gateHost t d.skim.vi masterSkimmer x.1 8 true
    if r.2 then (r.1.postHost t d.skim.vi masterSkimmer (r.1.rd GateR.RULE_EPOCH) (.host x.1 x.2 false), true)
    else (r.1.skimFault 1, false)) (d, true)

/-- The first 16 bytes of the ring header (R531). -/
def Dev.skimHeader (d : Dev) : List Byte := leBytes 8 d.skim.producer ++ leBytes 4 d.skim.wraps ++ leBytes 4 d.skim.seq

/-- Write one record of a type whose bytes 8 onward are given (R531, R532): padded past the ring's end when it does not fit, then
exposed by the header. -/
def Dev.skimRecord (t type : Nat) (body : List Byte) (d : Dev) : Dev × Bool :=
  let len := 8 + body.length
  let (d, ok) :=
    if d.skim.producer + len ≤ d.skim.size then (d, true) else
    let rest := d.skim.size - d.skim.producer
    let d := { d with skim := { d.skim with seq := d.skim.seq + 1 } }
    let (d, ok) :=
      if rest = 0 then (d, true)
      else d.skimWrite t d.skim.producer (leBytes 2 0 ++ leBytes 2 rest ++ leBytes 4 d.skim.seq ++ zeros (rest - 8))
    let d := { d with skim := { d.skim with producer := 64, wraps := d.skim.wraps + 1 } }
    (if d.flag Skim.WRAP_IRQ_EN then d.irqEvent t d.skim.vi (d.rd Skim.SKIM_VECTOR) false else d, ok)
  if ¬ ok then (d, false) else
  let d := { d with skim := { d.skim with seq := d.skim.seq + 1 } }
  let (d, ok) := d.skimWrite t d.skim.producer (leBytes 2 type ++ leBytes 2 len ++ leBytes 4 d.skim.seq ++ body)
  if ¬ ok then (d, false) else
  let d := { d with skim := { d.skim with producer := d.skim.producer + len } }
  let (d, ok) := d.skimWrite t 0 d.skimHeader
  (d.wr Skim.SEQ d.skim.seq, ok)

/-- The sample record of counter k of monitor m (R532), which releases the sample. -/
def Dev.skimSample (t m k : Nat) (d : Dev) : Dev :=
  let body := leBytes 4 (d.mrd (Mon.SAMPLE_TIME m k)) ++ leBytes 4 (d.mrd (Mon.SAMPLE_TIME_HI m k)) ++ leBytes 1 (0x40 + m) ++ leBytes 1 k ++
    leBytes 2 (d.mrd (Mon.EVENT m k)) ++ leBytes 2 (d.mrd (Mon.SAMPLE_MASTER m k)) ++ leBytes 1 (d.mrd (Mon.SKID m k)) ++
    leBytes 1 0 ++ leBytes 4 (d.mrd (Mon.SAMPLE_ADDR_LO m k)) ++ leBytes 4 (d.mrd (Mon.SAMPLE_ADDR_HI m k)) ++ zeros 32
  let (d, ok) := d.skimRecord t 2 body
  if ¬ ok then d else
  let d := (d.mwr (Mon.SAMPLE_HELD m) (Nat.land (d.mrd (Mon.SAMPLE_HELD m)) (255 - 2 ^ k))).inc Skim.SAMPLES_WRITTEN
  if d.flag Skim.SAMPLE_IRQ_EN then d.irqEvent t d.skim.vi (d.rd Skim.SKIM_VECTOR) false else d

/-- The snapshot record's bytes 8 onward (R532). -/
def Dev.snapshotBody (t : Nat) (d : Dev) : List Byte :=
  let ms := d.selected
  let b := leBytes 8 t ++ leBytes 2 (d.rd Glob.SPEED_INDEX) ++ leBytes 1 d.mode ++ leBytes 1 d.chainAddr ++ leBytes 4 d.epoch ++
    leBytes 1 ms.length ++ zeros 7 ++ (ms.map d.monBlock).flatten
  b ++ zeros ((32 - (8 + b.length) % 32) % 32)

/-- SKIMMER_INTERVAL (R533). -/
def execSkimmerInterval (s : State) : Host.Outcome State Fault Refusal :=
  onDev (fun t d =>
    if ¬ d.flag Skim.RUNNING then d
    else if d.buf.waiting.any (fun e => e.writes.any (fun w => w.master = masterSkimmer)) then d.inc Skim.SKIPPED
    else if ((d.hostPortOf d.skim.vi).map d.linkUp).getD false = false then d.inc Skim.SKIPPED
    else
      let d := d.selected.foldl (fun d m => (List.range 8).foldl (fun d k =>
        if d.flag Skim.RUNNING ∧ fieldOf (d.mrd (Mon.SAMPLE_HELD m)) k 1 = 1 then d.skimSample t m k else d) d) d
      if d.flag Skim.RUNNING then (d.skimRecord t 1 (d.snapshotBody t)).1 else d) s

/-! ### Temperature, voltage and speed sensors (R536, R537, R572) -/

/-- A signed byte. -/
def byteOfInt (i : Int) : Nat := (BitVec.ofInt 8 i).toNat
/-- The value of a signed byte. -/
def intOfByte (n : Nat) : Int := (BitVec.ofNat 8 n).toInt

/-- The hottest of a list of tile temperatures, with its tile. -/
def hottest : List Int → Nat → Int × Nat → Int × Nat
  | [], _, best => best
  | x :: l, i, best => hottest l (i + 1) (if best.1 < x then (x, i) else best)

/-- TEMPERATURE_SCAN (R536, R572). -/
def execTemperatureScan (temps : List Int) (s : State) : Host.Outcome State Fault Refusal :=
  onDev (fun _ d =>
    match temps with
    | [] => d
    | x :: l =>
      if d.mode = 0 then d else
      let (tj, tile) := hottest l 1 (x, 0)
      let d := (d.wr Hbk.TJ_CURRENT (byteOfInt tj)).wr Hbk.TJ_TILE tile
      let d := if intOfByte (d.rd Hbk.TJ_PEAK) < tj then d.wr Hbk.TJ_PEAK (byteOfInt tj) else d
      let d := (d.threshold 1 0 (decide (100 ≤ tj))).threshold 1 1 (decide (105 ≤ tj))
      let alert := if 108 ≤ tj then true else if tj ≤ 103 then false else d.thermal.alert
      if alert = d.thermal.alert then d
      else ({ d with thermal := { d.thermal with alert } }).emit (.pin .thermAlert (!alert))) s

/-! ### The Herdbook (R538 to R544) -/

/-- Bin of a temperature (R539). -/
def tempBin (c : Int) : Nat := if c < 0 then 0 else if 120 ≤ c then 31 else c.toNat / 4 + 1
/-- Bin of a core voltage in mV (R539). -/
def coreBin (mv : Nat) : Nat := if mv < 660 then 0 else if 960 ≤ mv then 31 else (mv - 650) / 10

/-- Seconds to the next periodic write follow POWER_ON_S (R552). -/
def Dev.syncNextWrite (d : Dev) : Dev := d.wr Hbk.NEXT_WRITE (900 - (d.hbk.powerOnS - d.hbk.lastWrite) % 900)

/-- HISTOGRAM_SAMPLE (R541): once per second outside OM0. -/
def execHistogramSample (s : State) : Host.Outcome State Fault Refusal :=
  onDev (fun _ d =>
    if d.mode = 0 then d else
    let hb := d.hbk
    let hb := { hb with
      tempBins := Tab.bump hb.tempBins (tempBin (intOfByte (d.rd Hbk.TJ_CURRENT))) 1
      coreBins := Tab.bump hb.coreBins (coreBin (d.rd Glob.VCORE_MEASURED)) 1
      powerOnS := hb.powerOnS + 1 }
    ({ d with hbk := hb }).syncNextWrite) s

/-- The class of a lane's errors in an hour (R541). -/
def laneClass (errors : Nat) : Nat :=
  if errors = 0 then 0 else if errors < 10 then 1 else if errors < 100 then 2 else if errors < 1000 then 3
  else if errors < 10000 then 4 else 5

/-- LANE_HOUR (R541). -/
def execLaneHour (lane : Fin 256) (errors : Nat) (s : State) : Host.Outcome State Fault Refusal :=
  onDev (fun _ d =>
    let (worst, _, hours, h2, h4) := Tab.getD d.hbk.lanes lane (0, 0, 0, 0, 0)
    let c := laneClass errors
    let rec' := (max worst c, c, hours + 1, if 2 ≤ c then saturate 16 (h2 + 1) else h2, if 4 ≤ c then saturate 16 (h4 + 1) else h4)
    { d with hbk := { d.hbk with lanes := Tab.set d.hbk.lanes lane rec' } }) s

/-- NAK_STORM_WINDOW (R540): each slice above NAK_STORM_LIMIT thousand NAKs in the millisecond counts one storm. -/
def execNakStormWindow (s : State) : Host.Outcome State Fault Refusal :=
  onDev (fun _ d =>
    let n := (d.hbk.nakWindow.filter (fun x => 1000 * d.rd Hbk.NAK_STORM_LIMIT < x.2)).length
    let d := d.hbCount 1 n
    { d with hbk := { d.hbk with nakWindow := [] } }) s

/-- Start writing the live record to flash (R542). -/
def Dev.startHerdbook (cause : Nat) (d : Dev) : Dev :=
  let d := if cause = 3 then d.wrFlag Hbk.FLUSH false else d
  ({ d with hbk := { d.hbk with writing := some cause, lastCause := cause } }).raise1 Hbk.WRITE_BUSY

/-- HERDBOOK_PERIODIC_WRITE (R542). -/
def execHerdbookPeriodicWrite (s : State) : Host.Outcome State Fault Refusal :=
  onDev (fun _ d =>
    if d.mode = 0 ∨ d.hbk.writing.isSome then d else
    (({ d with hbk := { d.hbk with lastWrite := d.hbk.powerOnS } }).startHerdbook 1).syncNextWrite) s

/-- FLUSH written (R542, R552): the write starts now, or when the one under way ends. -/
def Dev.flush (d : Dev) : Dev :=
  let d := d.raise1 Hbk.FLUSH
  if d.hbk.writing.isSome then d else d.startHerdbook 3

/-- FLUSH. -/
def execHerdbookFlush (s : State) : Host.Outcome State Fault Refusal := onDev (fun _ d => if d.mode = 0 then d else d.flush) s

/-- The sector after a main sector (R538). -/
def nextSector (n : Nat) : Nat := if 511 ≤ n then 2 else n + 1

/-- The record is in flash: SEQUENCE advances and the next sector takes the next record. -/
def Dev.herdbookWritten (d : Dev) : Dev :=
  let d := (d.wr Hbk.HB_SEQUENCE d.hbk.sequence).wrFlag Hbk.WRITE_BUSY false
  let hb := { d.hbk with writing := none, sequence := d.hbk.sequence + 1, sector := nextSector d.hbk.sector }
  { d with hbk := hb, hbkFlash := some hb }

/-- HERDBOOK_WRITE_DONE (R542, R552): a failed read-back moves to the next sector. -/
def execHerdbookWriteDone (ok : Bool) (s : State) : Host.Outcome State Fault Refusal :=
  onDev (fun _ d =>
    if d.hbk.writing = none then d
    else if ok then
      let d := d.herdbookWritten
      if d.flag Hbk.FLUSH then d.startHerdbook 3 else d
    else
      ({ d with hbk := { d.hbk with sector := nextSector d.hbk.sector } }).raise1 Hbk.WRITE_FAIL_EVT) s

/-- The live record's 4,096 bytes (R539). -/
def Dev.herdbookBytes (d : Dev) : List Byte :=
  let h := d.hbk
  let counts (t : Tab Nat) (n : Nat) : List Byte := ((List.range n).map (fun i => leBytes 4 (Tab.getD t i 0))).flatten
  let head := leBytes 4 0x42524448 ++ leBytes 2 1 ++ leBytes 1 h.lastCause ++ leBytes 1 0 ++ leBytes 4 h.sequence ++
    leBytes 4 h.powerOnS ++ leBytes 8 d.fuses.serial ++ leBytes 1 (d.rd Ident.FW_BUILD) ++ leBytes 1 (d.rd Ident.FW_PATCH) ++
    leBytes 1 (d.rd Ident.FW_MINOR) ++ leBytes 1 (d.rd Ident.FW_MAJOR) ++ leBytes 4 h.powerOns
  let trans := (h.transitions.map (fun x =>
    leBytes 1 x.1 ++ leBytes 1 x.2.1 ++ leBytes 1 x.2.2.1 ++ leBytes 1 0 ++ leBytes 4 x.2.2.2)).flatten
  let lane (l : Nat) : List Byte :=
    let (w, c, hrs, h2, h4) := Tab.getD h.lanes l (0, 0, 0, 0, 0)
    leBytes 1 w ++ leBytes 1 c ++ leBytes 2 0 ++ leBytes 4 hrs ++ leBytes 2 h2 ++ leBytes 2 h4
  let body := head ++ zeros (0x40 - head.length) ++ counts h.tempBins 32 ++ counts h.coreBins 32 ++ counts h.counters 32 ++
    counts h.modeEntries 12 ++ zeros 16 ++ trans ++ zeros (0x100 - trans.length) ++ ((List.range 256).map lane).flatten ++ zeros 0xfc
  body ++ leBytes 4 (crc32c body).toNat

/-- HERDBOOK_READ (R544). -/
def execHerdbookRead (h : SilekHdr) (off len : Nat) (s : State) : Host.Outcome State Fault Refusal :=
  runSilek h { opcode := 0x920, key := .herdbookRead h.key off len }
    (queryBody fun s =>
      if len < 1 ∨ 3072 < len ∨ 4096 < off + len then .err .badParam
      else .final .ok ((s.dev.herdbookBytes.drop off).take len)) s

/-! ### The Rennet's settings (R545, R546) -/

/-- The setting of a class and target, if one is held and the Rennet acts (R545). -/
def Dev.rennet (d : Dev) (cls target : Nat) : Option Nat :=
  if d.mode ≠ 11 ∨ d.partS then none else
  ((List.range 16).find? (fun i => d.rd (Ren.CLASS i) = cls ∧ d.rd (Ren.TARGET i) = target)).map (fun i => d.rd (Ren.SETTING i))

/-- SETTINGS and ACTIVE follow the entries (R553). -/
def Dev.syncRennet (d : Dev) : Dev :=
  let n := ((List.range 16).filter (fun i => d.rd (Ren.CLASS i) ≠ 0)).length
  (d.wr Ren.SETTINGS n).wrFlag Ren.ACTIVE (decide (0 < n) && decide (d.mode = 11))

/-- Targets a class admits (R546). -/
def rennetTarget (cls target : Nat) : Bool :=
  match cls with
  | 1 => (target / 256 = 0 && target < 32) || (target / 256 = 1 && target % 256 < 16) || (target / 256 = 2 && target % 256 < 16) ||
      (target / 256 = 3 && target % 256 < 32) || (target / 256 = 4 && target % 256 < 16)
  | 2 => target < 16384
  | 3 => target < 32
  | 4 => target < 64
  | 5 => target = 0
  | 6 => target < 256
  | 7 => target < 4
  | 8 => target < 2
  | 9 => target = 0
  | 10 => target < 32
  | _ => false

/-- A target that a class admits on this device now: a class whose target is a port refuses an absent one (R14). -/
def Dev.rennetTargetOk (d : Dev) (cls target : Nat) : Bool :=
  rennetTarget cls target && !((decide (cls = 2) || decide (cls = 4)) && !d.present (target % 64))

/-- Put a setting into its entry: the same class and target, else the first empty one; none when sixteen are held. -/
def Dev.rennetPut (cls target setting : Nat) (d : Dev) : Option Dev :=
  let same := (List.range 16).find? (fun i => d.rd (Ren.CLASS i) = cls ∧ d.rd (Ren.TARGET i) = target)
  let free := (List.range 16).find? (fun i => d.rd (Ren.CLASS i) = 0)
  (same.orElse (fun _ => free)).map (fun i =>
    (((d.wr (Ren.CLASS i) cls).wr (Ren.TARGET i) target).wr (Ren.SETTING i) setting).syncRennet)

/-- RENNET_CLEAR (R545). -/
def Dev.rennetClear (d : Dev) : Dev :=
  let d := { d with lanes := d.lanes.map (fun (x : Nat × LaneState) => (x.1, { x.2 with dropped := false })) }
  ((List.range 16).foldl (fun d i => ((d.wr (Ren.CLASS i) 0).wr (Ren.TARGET i) 0).wr (Ren.SETTING i) 0) d).syncRennet

/-- RENNET_CLEAR. -/
def execRennetClear (h : SilekHdr) (s : State) : Host.Outcome State Fault Refusal :=
  runSilek h { opcode := 0x811, minMinor := 1, key := .rennetClear h.key } (devBody fun _ d => (d.rennetClear, .final .ok [])) s

/-- RENNET_QUERY (R545). -/
def execRennetQuery (h : SilekHdr) (s : State) : Host.Outcome State Fault Refusal :=
  runSilek h { opcode := 0x812, minMinor := 1, key := .rennetQuery h.key }
    (queryBody fun s => .final .ok (leBytes 1 (s.dev.rd Ren.SETTINGS) ++ zeros 3 ++
      ((List.range 16).map (fun i => leBytes 1 (s.dev.rd (Ren.CLASS i)) ++ zeros 1 ++ leBytes 2 (s.dev.rd (Ren.TARGET i)) ++
        leBytes 4 (s.dev.rd (Ren.SETTING i)))).flatten)) s

end Sys2Proof.Machine
end

