-- ==== Sys2Proof/Machine/ChainRows.lean ====
section
/-! DEFINITION. The Milold chain: breaks, enumeration, heartbeats and FENCED notices (R368 to R374, R385 to R392). -/
namespace Sys2Proof.Machine
open Sys2Proof

/-- The epoch check of a frame that non-members may send too (R390). -/
def Dev.chainEpoch (t src epoch : Nat) (d : Dev) : Dev × Bool :=
  if d.epoch = 0 ∨ epoch = 0 ∨ epoch = d.epoch ∨ d.lateEpoch t src epoch then (d, true)
  else if newerEpoch epoch d.epoch then (d.inc Memb.NEWER_EPOCH_DROPS, false)
  else (((d.inc Memb.STALE_DROPS).fencedNotice t src).mon t 0x37 0x703 0xffff src, false)

/-- A frame with SRC and EPOCH arrives: the body acts where the epoch allows it, and the frame goes on (R371). -/
def Dev.chainTake (t : Nat) (rx : ChainRx) (body : ChainBody) (k : Dev → Dev) (d : Dev) : Dev :=
  let f := chainFrameOf rx.line 0 rx.src rx.epoch body
  d.chainIn rx.line f (fun d =>
    let (d, ok) := d.chainEpoch t rx.src rx.epoch
    (if ok then k d else d).passFrame f)

/-! ### Breaks, line mode and the return to ring mode (R372) -/

/-- The device enters line mode on a BREAK whose address is a. -/
def Dev.enterLine (a : Nat) (d : Dev) : Dev := ((d.raise1 Memb.BREAK_EVT).wr Memb.BREAK_AT a).wr Memb.CHAIN_MODE 2

/-- CHAIN_BREAK: MCH_IN broke. BREAK leaves on MCH_OUT before the device enters line mode. -/
def execChainBreak (s : State) : Host.Outcome State Fault Refusal :=
  onDev (fun _ d =>
    if d.mode = 0 then d else
    let d := d.raise1 Memb.IN_LOS
    if d.lineMode then d else (d.chainSend true 0 d.epoch (.breakMark d.chainAddr)).enterLine d.chainAddr) s

/-- BREAK: every device that receives it enters line mode. -/
def execBreakFrame (rx : ChainRx) (s : State) : Host.Outcome State Fault Refusal :=
  onDev (fun t d => d.chainTake t rx (.breakMark rx.src) (fun d => d.enterLine rx.src)) s

/-- LINE_END_DETECT: pair 0 is MCH_IN, pair 1 MCH_OUT. -/
def execLineEndDetect (pair : Fin 2) (s : State) : Host.Outcome State Fault Refusal :=
  onDev (fun _ d =>
    if d.mode = 0 ∨ ¬ d.lineMode then d else
    let l := d.memb.silent.filter (fun x => x ≠ pair.val)
    let d := ({ d with memb := { d.memb with silent := l ++ [pair.val] } }).raise1 Memb.LINE_END
    if pair = 0 then d.raise1 Memb.IN_LOS else d) s

/-- Ring mode is back. -/
def Dev.enterRing (d : Dev) : Dev :=
  (((({ d with memb := { d.memb with silent := [] } }).wr Memb.CHAIN_MODE 1).wrFlag Memb.LINE_END false).wrFlag Memb.IN_LOS false)

/-- RING_RESTORE: a line end's pairs have both been valid for 100 ms. -/
def execRingRestore (s : State) : Host.Outcome State Fault Refusal :=
  onDev (fun _ d =>
    if d.mode = 0 ∨ ¬ d.lineMode ∨ ¬ d.flag Memb.LINE_END then d
    else d.enterRing.chainSend true 0 d.epoch .ring) s

/-- RING: every device returns to ring mode as it passes; its originator removes it. -/
def execRingFrame (rx : ChainRx) (s : State) : Host.Outcome State Fault Refusal :=
  onDev (fun t d => d.chainTake t rx .ring (fun d => d.enterRing)) s

/-! ### Enumeration (R373, R374) -/

/-- The end of the enumeration at the head: COUNT, MODE and OVERFLOW (log entry 43). -/
def Dev.enumClose (t next turns : Nat) (d : Dev) : Dev :=
  let mode := if turns = 0 then 1 else 2
  let full := decide (17 ≤ next)
  let count := min 16 (next - 1)
  let d := ((d.wr Memb.CHAIN_COUNT count).wr Memb.CHAIN_MODE mode).wrFlag Memb.OVERFLOW full
  let d := { d with memb := { d.memb with enumState := 0 } }
  (d.chainSend true 0 d.epoch (.enumDone count mode full)).toStandby t 14

/-- The ENUM f, with NEXT and TURNS, goes on in its direction of travel with NEXT `offer`; a line end turns it round and counts the turn
(R373). A token that changes is a frame of this device's own, one that does not goes on as it came (DESIGN CHOICE, log entry 183). -/
def Dev.passEnum (f : ChainFrame) (next turns offer : Nat) (d : Dev) : Dev :=
  let turn := d.atEnd f.reverse
  if offer = next ∧ ¬ turn then d.hop f
  else d.emit (.chain { f with
    reverse := f.reverse ^^ turn, src := d.chainAddr, hops := 0, epoch := d.epoch, body := .enum offer (if turn then turns + 1 else turns) })

/-- A device without an address takes the one offered, up to 16; every device that finds 17 takes 0. -/
def Dev.takeEnum (f : ChainFrame) (next turns : Nat) (d : Dev) : Dev :=
  let d := { d with memb := { d.memb with enumState := 3 } }
  if next ≤ 16 then (d.wr Glob.CHAIN_ADDRESS next).passEnum f next turns (next + 1) else d.passEnum f next turns next

/-- ENUM arrives; `own` says that it is this head's own token. -/
def Dev.enumIn (t : Nat) (f : ChainFrame) (next turns : Nat) (own : Bool) (d : Dev) : Dev :=
  if d.mode = 1 then { d with memb := { d.memb with enumHeld := some (f, next, turns) } }
  else if d.memb.enumState = 2 then
    (if ¬ own then d.raise1 Memb.HEAD_CONFLICT
     else if d.flag Memb.HEAD_CONFLICT then d
     else if ¬ f.reverse ∨ d.flag Memb.LINE_END then d.enumClose t next turns
     else d.passEnum f next turns next)
  else if d.mode = 2 ∧ d.chainAddr = 0 ∧ d.memb.enumState ≠ 3 then d.takeEnum f next turns
  else d.passEnum f next turns next

/-- ENUM. -/
def execEnumFrame (rx : ChainRx) (next turns : Nat) (own : Bool) (s : State) : Host.Outcome State Fault Refusal :=
  onSettled (fun t d =>
    let f := chainFrameOf rx.line 0 rx.src rx.epoch (.enum next turns)
    d.chainIn rx.line f (fun d =>
      match d.chainEpoch t rx.src rx.epoch with
      | (d, true) => d.enumIn t f next turns own
      | (d, false) => d)) s

/-- A device enters OM2: it listens, and a token held in OM1 goes on. -/
def Dev.enterEnum (t cause : Nat) (d : Dev) : Dev :=
  let d := { d with memb := { d.memb with enumState := 1, peers := d.memb.peers.map (fun (x : Nat × PeerSeen) => (x.1, { x.2 with ever := false })) } }
  let d := (d.wr Glob.CHAIN_ADDRESS 0).enterMode t 2 cause
  match d.memb.enumHeld with
  | some (f, n, k) => ({ d with memb := { d.memb with enumHeld := none } }).enumIn t f n k false
  | none => d

/-- ENUM_LISTEN_END: a free address beside members that were heard; otherwise the head starts the token. -/
def Dev.listenEnd (t : Nat) (d : Dev) : Dev :=
  if d.mode ≠ 2 ∨ d.memb.enumState ≠ 1 then d else
  let heard := (d.memb.peers.filter (fun x => x.2.ever)).map (·.1)
  if heard ≠ [] then
    let a := (((List.range 16).map (· + 1)).find? (fun a => ¬ heard.contains a)).getD 0
    ((({ d with memb := { d.memb with enumState := 0 } }).wr Glob.CHAIN_ADDRESS a).wr Memb.CHAIN_MODE
      (if d.lineMode then 2 else 1)).toStandby t 14
  else if d.rst.straps.head then
    let d := ({ d with memb := { d.memb with enumState := 2 } }).wr Glob.CHAIN_ADDRESS 1
    d.chainSend false 0 d.epoch (.enum 2 0)
  else d

/-- ENUM_LISTEN_END. -/
def execEnumListenEnd (s : State) : Host.Outcome State Fault Refusal := onSettled (fun t d => d.listenEnd t) s

/-- ENUM_DONE: the device enters OM3 with its address. -/
def Dev.enumDone (t count : Nat) (shape : EnumShape) (d : Dev) : Dev :=
  if d.mode ≠ 2 then d
  else
    let d := ((d.wr Memb.CHAIN_COUNT count).wr Memb.CHAIN_MODE shape.mode).wrFlag Memb.OVERFLOW shape.overflow
    ({ d with memb := { d.memb with enumState := 0 } }).toStandby t 14

/-- ENUM_DONE: it goes on before the device acts. -/
def execEnumDone (rx : ChainRx) (count : Nat) (shape : EnumShape) (s : State) : Host.Outcome State Fault Refusal :=
  onSettled (fun t d =>
    let f := chainFrameOf rx.line 0 rx.src rx.epoch (.enumDone count shape.mode shape.overflow)
    d.chainIn rx.line f (fun d =>
      match (d.passFrame f).chainEpoch t rx.src rx.epoch with
      | (d, true) => d.enumDone t count shape
      | (d, false) => d)) s

/-- ENUM_TIMEOUT: address 0. -/
def execEnumTimeout (s : State) : Host.Outcome State Fault Refusal :=
  onSettled (fun t d =>
    if d.mode ≠ 2 then d
    else (({ d with memb := { d.memb with enumState := 0 } }).wr Glob.CHAIN_ADDRESS 0).toStandby t 14) s

/-! ### Heartbeats (R385 to R388, R392) -/

/-- The heartbeat word of R387. -/
def Dev.hbWord (d : Dev) : Nat :=
  d.memb.hbSeq % 2 ^ 16 + 2 ^ 16 * d.mode + 2 ^ 20 * d.reachAll + 2 ^ 36 * d.rd Memb.PRIMARY_ADDR + 2 ^ 41 * d.rd Memb.PAIR_ADDR

/-- The Rennet's DRY_RUN is set (R546, R548). -/
def Dev.dryRun (d : Dev) : Bool := d.rennet 9 0 = some 1

/-- The paths on which HB_DROP withholds this heartbeat: chain, QFL; it counts down (R546). -/
def Dev.hbDrop (d : Dev) : (Bool × Bool) × Dev :=
  match d.rennet 5 0 with
  | none => ((false, false), d)
  | some v =>
    if v % 65536 = 0 then ((false, false), d)
    else ((decide (fieldOf v 16 1 = 1), decide (fieldOf v 17 1 = 1)), ((d.rennetPut 5 0 (v - 1)).getD d))

/-- One heartbeat on the chain and over QFL to every member that a route reaches. -/
def Dev.sendHeartbeat (t : Nat) (d : Dev) : Dev :=
  let d := { d with memb := { d.memb with hbSeq := (d.memb.hbSeq + 1) % 2 ^ 16 } }
  let w := d.hbWord
  let e := if d.dryRun then 0 else d.epoch
  let ((noChain, noQfl), d) := d.hbDrop
  let d := if noChain then d else d.chainSend true 0 e (.heartbeat w)
  if noQfl then d else
  ((addrsIn (if d.dryRun then d.flash.configured else d.rd Memb.CONFIGURED)).filter (fun a => decide (a ≠ d.chainAddr) && (d.routePort a).isSome)).foldl (fun (d : Dev) a =>
    d.enqueueMsg t {
      vc := 5, opcode := 0x10, src := d.chainAddr, dst := a, master := masterFabric d.chainAddr 1, epoch := e
      units := [BitVec.ofNat 64 w] }) d

/-- One period in which nothing was heard of an address. -/
def Dev.countMissed (t a : Nat) (d : Dev) : Dev :=
  let x : PeerSeen := Tab.getD d.memb.peers a {}
  let d := { d with memb := { d.memb with peers := Tab.put d.memb.peers a { x with heard := false } {} } }
  if x.heard then d
  else (d.add (Memb.peer_MISSED (a - 1)) 1).mon t 0x37 0x702 0xffff a

/-- A silence under DRY_RUN: the partition rule against the flash membership, without a mode change (R548). -/
def Dev.dryOutcome (d : Dev) : Dev :=
  let conf := d.flash.configured
  let reach := (addrsIn conf).foldl (fun v a => if d.silentAt a then v else withAddr v a) (withAddr 0 d.chainAddr)
  let r := countAddrs reach
  let c := countAddrs conf
  let o := if c < 2 * r then 1 else if 2 * r = c ∧ hasAddr reach (d.rd Memb.PRIMARY_ADDR) then 2 else 3
  (d.wr Ren.DRY_OUTCOME o).wr Ren.DRY_REACH reach

/-- The members whose silence count has just reached the limit. -/
def Dev.newlySilent (d : Dev) (x : Dev) : List Nat :=
  ((List.range 16).map (· + 1)).filter (fun a => d.silentAt a && !x.silentAt a)

/-- What a silence of member a leads to. -/
def Dev.onSilence (t a : Nat) (d : Dev) : Dev :=
  if d.dryRun then (if hasAddr d.flash.configured a then d.dryOutcome else d)
  else
    let d := if d.memb.yokeWait = some a ∧ d.mode = 5 then (d.wr Memb.RESYNC_PHASE 0).enterMode t 8 11 else d
    if hasAddr (d.rd Memb.CONFIGURED) a ∧ d.alive a then d.memberSilent t else d

/-- The lease of a primary in OM5 (R386); with no mirror it holds none. -/
def Dev.leasePeriod (d : Dev) : Dev :=
  if d.mode ≠ 5 then d else
  let n := d.memb.leaseMiss + 1
  ({ d with memb := { d.memb with leaseMiss := n } }).wrFlag Memb.PAIR_LEASE (decide (n ≤ d.rd Memb.HB_MISS_LIMIT - 2))

/-- HEARTBEAT_PERIOD. -/
def Dev.heartbeatPeriod (t : Nat) (d : Dev) : Dev :=
  if d.mode < 3 ∨ d.chainAddr = 0 then d else
  let d := d.sendHeartbeat t
  let x := d
  let d := (((List.range 16).map (· + 1)).filter (fun a => a ≠ d.chainAddr)).foldl (fun (d : Dev) a => d.countMissed t a) d
  let d := (d.newlySilent x).foldl (fun (d : Dev) a => d.onSilence t a) d
  d.leasePeriod

/-- HEARTBEAT_PERIOD. -/
def execHeartbeatPeriod (s : State) : Host.Outcome State Fault Refusal := onSettled (fun t d => d.heartbeatPeriod t) s

/-- A device in OM3 that waits to join sends MEMBER_JOIN once it hears a primary (R399). -/
def Dev.joinHeard (t : Nat) (d : Dev) : Dev :=
  if d.mode ≠ 3 ∨ ¬ d.memb.rejoining then d
  else if d.silek.sent.any (fun c => decide (c.opcode = 0x503)) then d else d.sendJoin t d.memb.joinRole

/-- A mirror that reports OM10 has left the pair: its primary enters OM8 (R34). -/
def Dev.mirrorLeaves (t a mode : Nat) (d : Dev) : Dev :=
  if a = d.rd Memb.MIRROR_ADDR ∧ d.mode = 5 ∧ mode = 10 then (d.abandonResync t).enterMode t 8 2 else d

/-- An accepted heartbeat of address a. -/
def Dev.heard (t a epoch : Nat) (w : Nat) (d : Dev) : Dev :=
  let reach := fieldOf w 20 16
  let mode := fieldOf w 16 4
  let member : Bool := decide (epoch ≠ 0) || decide (d.epoch = 0) || !d.alive a || d.dryRun
  let x : PeerSeen := Tab.getD d.memb.peers a {}
  let d := { d with memb := { d.memb with peers := Tab.put d.memb.peers a { reach, heard := x.heard || member, ever := true } {} } }
  let d := if member then d.wr (Memb.peer_MISSED (a - 1)) 0 else d
  let d := ((d.wr (Memb.peer_MODE_SEEN (a - 1)) mode).inc (Memb.peer_HEARTBEATS (a - 1))).mon t 0x37 0x701 0xffff a
  let d := if a = d.rd Memb.MIRROR_ADDR ∧ d.mode = 5 ∧ hasAddr reach d.chainAddr then
      ({ d with memb := { d.memb with leaseMiss := 0 } }).raise1 Memb.PAIR_LEASE
    else d
  (d.joinHeard t).mirrorLeaves t a mode

/-- A heartbeat arrived: the mirror whose removal is awaited reports OM9 whatever its epoch (R385); any other passes R390. -/
def Dev.heartbeatIn (t src epoch w : Nat) (d : Dev) : Dev :=
  if src < 1 ∨ 16 < src ∨ src = d.chainAddr then d else
  let d := if d.memb.yokeWait = some src ∧ d.mode = 5 ∧ fieldOf w 16 4 = 9 then (d.wr Memb.RESYNC_PHASE 0).enterMode t 8 11 else d
  match d.chainEpoch t src epoch with
  | (d, true) => d.heard t src epoch w
  | (d, false) => d

/-- HEARTBEAT: a chain broadcast, passed on, or a VC5 message. -/
def execHeartbeat (via : FabricVia) (src epoch : Nat) (word : BitVec 64) (s : State) : Host.Outcome State Fault Refusal :=
  onSettled (fun t d =>
    match via with
    | .vc5 h =>
      if d.mode = 0 then d else
      (d.takeRx { vc := 5, opcode := 0x10, src := h.src, dst := h.dst, tag := h.tag, e2e := h.e2e }).heartbeatIn t h.src h.epoch word.toNat
    | .chain l =>
      let f := chainFrameOf l 0 src epoch (.heartbeat word.toNat)
      d.chainIn l f (fun d => (d.passFrame f).heartbeatIn t src epoch word.toNat)) s

/-- FENCED: a chain frame for another address goes on (R371, R391); its EPOCH is the epoch it carries. -/
def execFenced (via : FabricVia) (src dst notice : Nat) (s : State) : Host.Outcome State Fault Refusal :=
  onSettled (fun t d =>
    match via with
    | .vc5 h =>
      if d.mode = 0 then d else
      (d.takeRx { vc := 5, opcode := 0x11, src := h.src, dst := h.dst, tag := h.tag, e2e := h.e2e }).fencedNoticeIn t notice
    | .chain l =>
      let f := chainFrameOf l dst src notice (.fenced notice)
      d.chainIn l f (fun d => if dst = d.chainAddr then d.fencedNoticeIn t notice else d.passFrame f)) s

end Sys2Proof.Machine
end

