-- ==== Sys2Proof/Machine/Exercise.lean ====
section
/-! DEFINITION. What a setting of the Rennet does at once, whether RENNET_SET or a register write holds it: exerciser requests and
dropped lanes (R545, R546, R553). -/
namespace Sys2Proof.Machine
open Sys2Proof

/-! ### Exerciser requests (R546) -/

/-- The kind of an ACCESS code (R517). -/
def kindOfCode (n : Nat) : Option Kind :=
  match n with
  | 1 => some .rdShared | 2 => some .rdOwn | 3 => some .invOwn | 4 => some .flush | 5 => some .evictClean | 6 => some .wb
  | 7 => some .rdNc | 8 => some .wrNc | 9 => some .atomic | 10 => some .recall | 11 => some .recallAll | 12 => some .reclaim
  | _ => none

/-- Inject one request for a line of extent 262,143 as a sharer slot. The data it writes is a free value. -/
def Dev.inject (t kind line slot : Nat) (d : Dev) : Dev :=
  match kindOfCode kind with
  | none => d
  | some k =>
    let v := d.freeVal 9
    let (id, d) := d.drawn.newId
    let d := d.wakeChurn
    d.sliceAdmit t {
      id, kind := k, origin := .exerciser, master := 0x4000, fa := faOf d.homeAddr 262143 (64 * line), data := BitVec.ofNat 512 v
      atom := if k = .atomic then some { op := 1, a := v % 2 ^ 64 } else none, slot := some slot, time := t }

/-- EXERCISE: the request of a stream's setting. -/
def Dev.injectStream (t setting : Nat) (d : Dev) : Dev :=
  d.inject t (fieldOf setting 0 4) (fieldOf setting 4 20) (fieldOf setting 24 6)

/-- The line of extent 262,143 with bits [21:17] `hi` that maps to a slice and a set (R192, R198). -/
def Dev.lineFor (d : Dev) (slice set hi : Nat) : Nat :=
  let la := lineAddr (faOf d.homeAddr 262143 (64 * (hi * 2 ^ 17)))
  let up := hi * 2 ^ 17 + Nat.xor set (fieldOf la 17 12) * 2 ^ 5
  up + Nat.xor slice (sliceOf (lineAddr (faOf d.homeAddr 262143 (64 * up))))

/-- EXERCISE_SET: requests from slot 0 to distinct lines of one slice and set. -/
def Dev.injectSet (t slice setting : Nat) (d : Dev) : Dev :=
  (List.range (fieldOf setting 12 5)).foldl (fun (d : Dev) hi =>
    d.inject t (fieldOf setting 17 4) (d.lineFor slice (fieldOf setting 0 12) hi) 0) d

/-- The modes of a stream: 0 off, 1 once, 2 every 1 µs, 3 every 100 ns. -/
def streamMode (setting : Nat) : Nat := fieldOf setting 30 2

/-! ### LANE_DROP (R546) -/

/-- LANE_DROP holds a lane: its transmitter idles, its receiver loses lock; a port that uses the lane enters RECOVERY (R105). -/
def Dev.dropLane (l : Nat) (d : Dev) : Dev :=
  let d := d.setLane l { d.laneOf l with dropped := true }
  match d.laneOwner l with
  | none => (d.wrFlag (Pg.lane_BIT_LOCK l) false).wrFlag (Pg.lane_SYMBOL_LOCK l) false
  | some p => d.laneLost p (l - laneBase p)

/-! ### A new setting (R545, R553) -/

/-- What a new setting does at once. -/
def Dev.applySetting (t cls target setting : Nat) (d : Dev) : Dev :=
  if cls = 6 then d.dropLane target
  else if cls = 7 ∧ streamMode setting = 1 then d.injectStream t setting
  else if cls = 10 then d.injectSet t target setting
  else d

/-- Settings a class admits (R546). -/
def rennetSetting (cls setting : Nat) : Bool :=
  match cls with
  | 4 => decide (1 ≤ fieldOf setting 0 16)
  | 10 => decide (1 ≤ fieldOf setting 12 5) && decide (fieldOf setting 12 5 ≤ 17)
  | _ => true

/-- A dropped lane comes back when no entry holds it any more (R546). -/
def Dev.releaseLane (l : Nat) (d : Dev) : Dev :=
  if (d.rennet 6 l).isSome then d else d.setLane l { d.laneOf l with dropped := false }

/-- A write of entry i's class, target or setting (R553) in OM11 acts as RENNET_SET does (log entry 149); x stood before it. -/
def Dev.settingWritten (t i : Nat) (d x : Dev) : Dev :=
  let d := d.syncRennet
  if d.mode ≠ 11 ∨ d.partS then d else
  let d := if x.rd (Ren.CLASS i) = 6 then d.releaseLane (x.rd (Ren.TARGET i)) else d
  let cls := d.rd (Ren.CLASS i)
  if d.rennetTargetOk cls (d.rd (Ren.TARGET i)) ∧ rennetSetting cls (d.rd (Ren.SETTING i)) then
    d.applySetting t cls (d.rd (Ren.TARGET i)) (d.rd (Ren.SETTING i))
  else d

end Sys2Proof.Machine
end

