-- ==== Sys2Proof/Machine/LinkLayer.lean ====
section
/-! DEFINITION. The commands of the QFL link layer: flits, acknowledgements, credits, width change, timers, encryption (R114 to
R152, R479). -/
namespace Sys2Proof.Machine
open Sys2Proof

/-- The link layer hears Whey messages and flits while SYNCING or UP. -/
def Dev.hears (d : Dev) (p : Nat) : Bool := decide (d.rd (Pg.ll_LL_STATE p) = 1) || decide (d.rd (Pg.ll_LL_STATE p) = 2)

/-! ### Flits -/

/-- The messages of a flit that passed its CRC: none when malformed (R117). -/
def flitMessages (enc : Bool) (map payload : Nat) : Option (List QflMsg) :=
  let cap := if enc then 13 else 15
  match parseUnits 16 0 cap map (natWords cap payload) with
  | some [] => none
  | r => r

/-- The key that KEY_ID selects for extended sequence number `ext` (R115, R150): the present one, the one before the last roll for a flit
first sent under it, or the next one, derived in advance. -/
def QflLink.keyFor (l : QflLink) (id ext : Nat) : Nat :=
  if id = l.rxKeyId then l.rxKey else if ext < l.rxKeyFrom then l.rxOldKey else Config.hkdf l.rxKey 2

/-- A flit opened under the other KEY_ID rolls the receiving direction, unless it is a replay from before the last roll. -/
def QflLink.rolled (l : QflLink) (id ext : Nat) : QflLink :=
  if id = l.rxKeyId ∨ ext < l.rxKeyFrom then l
  else { l with rxKeyId := id, rxKey := Config.hkdf l.rxKey 2, rxOldKey := l.rxKey, rxKeyFrom := ext }

/-- Decrypt a flit's payload (R150, R151): the key its KEY_ID selects, and the extended sequence number of sequence s behind the salt. -/
def Dev.decrypt (p s hdr payload : Nat) (d : Dev) : Option Nat × Dev :=
  let l := d.link p
  let ext := l.rxFlits - (l.nextNew + 4096 - s) % 4096
  let id := fieldOf hdr 15 1
  match Config.gcmOpen (l.keyFor id ext) (initVector l.rxSalt ext) (hdr - hdr % 2 ^ 14) payload with
  | some x => (some x, d.setLink p (l.rolled id ext))
  | none => (none, d)

/-- A received flit of sequence s that passed its CRC (R129). What it makes the port send goes out in the order of R125. -/
def Dev.acceptFlit (t p s : Nat) (content : Option (List QflMsg)) (d : Dev) : Dev :=
  let w := if d.selective p then 512 else 1
  let dist := (s + 4096 - d.rd (Pg.ll_RX_ACK_SEQ p)) % 4096
  if dist = 0 ∨ 2047 < dist ∨ w < dist then d else
  let l := d.link p
  let before := d.out.length
  let d := if l.reorder.any (fun x => x.1 = s) then d else d.setLink p { l with reorder := l.reorder ++ [(s, content)] }
  let d := (d.deliverRun 513 t p).syncLink p
  let gap := (d.missing p).any (fun m => decide ((s + 4096 - m) % 4096 < 2048))
  (if gap then d.sendNak t p false else d.ackDue t p).orderElements before p

/-- FLIT (R114 to R117, R129, R150, R152). -/
def Dev.rxFlit (t p : Nat) (bits : BitVec 1024) (d : Dev) : Dev :=
  let b := bits.toNat
  let hdr := b % 2 ^ 32
  let kind := hdr % 4
  if ¬ d.hears p then d
  else if kind = 0 ∨ kind = 3 then d.sendNak t p true
  else if kind = 1 ∧ ¬ d.flag (Pg.ll_RX_SYNCED p) then d
  else
    let l := d.link p
    let s := if kind = 1 then l.nextNew else fieldOf hdr 2 12
    let d := if kind = 1 then d.setLink p { l with nextNew := (l.nextNew + 1) % 4096, rxFlits := l.rxFlits + 1 } else d
    if b / 2 ^ 992 ≠ flitCrc s bits then
      let d := (d.inc (Pg.ll_CRC_ERRORS p)).mon t (p / 4) 0x105 0xffff 0
      let l := d.link p
      if l.badRun = 3 then (d.setLink p { l with badRun := 0 }).sendNak t p true
      else d.setLink p { l with badRun := l.badRun + 1 }
    else
      let d := d.setLink p { d.link p with badRun := 0 }
      let enc := decide (fieldOf hdr 14 1 = 1)
      let payload := fieldOf b 32 960
      if enc then
        let (x, d) := d.decrypt p s hdr payload
        match x with
        | some plain => d.acceptFlit t p s (flitMessages true (fieldOf hdr 16 15) plain)
        | none =>
          let d := d.logErr t { cls := 0xb, severity := 1, source := 0x20 + p / 4, detail := 6 + 256 * p }
          ((d.secEvent t 7).raise1 (Pg.ll_ENC_FAIL_EVT p)).qflLinkDown t p
      else if d.flag (Pg.ll_ENCRYPTED p) then d
      else d.acceptFlit t p s (flitMessages false (fieldOf hdr 16 15) payload)

/-- FLIT. A port in LOOPBACK returns it (R111). -/
def execFlit (port : Fin 64) (bits : BitVec 1024) (s : State) : Host.Outcome State Fault Refusal :=
  onDev (fun t d => if d.rd (Pg.phy_STATE port) = 7 then d.emit (.qfl port (.flit bits)) else d.rxFlit t port bits) s

/-! ### Whey messages (R124) -/

/-- A Whey message arrives with its CRC-8: one whose CRC-8 fails is discarded and counted; otherwise `f` acts while the link layer listens. -/
def Dev.wheyIn (p op : Nat) (fields : List Nat) (crc : BitVec 8) (f : Dev → Dev) (d : Dev) : Dev :=
  if ¬ d.hears p then d else if crc ≠ wheyCrc op fields then d.inc (Pg.ll_WHEY_DROPPED p) else f d

/-! ### Acknowledgement -/

/-- Free replay entries up to ACK_SEQ; an advance resets the escalation (R131, R133). -/
def Dev.freeReplay (p seq : Nat) (d : Dev) : Dev :=
  let l := d.link p
  let keep := l.replay.filter (fun f => ¬ decide ((seq + 4096 - f.seq) % 4096 < 2048))
  let l := if keep.length < l.replay.length then { l with expiries := 0, escalated := false } else l
  (d.setLink p { l with replay := keep }).syncLink p

/-- SYNCED in an ACK or NAK confirms the SEQ_SYNC (R128). -/
def Dev.confirm (p : Nat) (synced : Bool) (d : Dev) : Dev :=
  if synced then (d.setLink p { d.link p with confirmed := true }).syncUp p else d

/-- ACK (R131). -/
def execAck (rx : WheyRx) (seq : Fin 4096) (synced : Bool) (s : State) : Host.Outcome State Fault Refusal :=
  onDev (fun _ d => d.wheyIn rx.port 1 [seq, flagBit synced] rx.crc (fun d => ((d.freeReplay rx.port seq).confirm rx.port synced).pump rx.port)) s

/-- Replay flits from the replay buffer. A flit whose buffer word is damaged is lost with its messages, and the link goes down (R524);
`false` tells so. -/
def Dev.resendFlits (t p : Nat) (fs : List SentFlit) (d : Dev) : Dev × Bool :=
  let (d, lost) := fs.foldl (fun (x : Dev × List Nat) f =>
    match x.1.readArray t 5 p (0x20 + p / 4) (· = f.seq) with
    | (d, true) => (d, f.seq :: x.2)
    | (d, false) => (d, x.2)) (d, [])
  if lost = [] then (d.replayFlits t p fs, true)
  else
    let l := d.link p
    ((d.setLink p { l with replay := l.replay.filter (fun f => !lost.contains f.seq) }).qflLinkDown t p, false)

/-- NAK (R129, R131, R132). With RESYNC the SEQ_SYNC sent in answer is unconfirmed again and repeats (R126, R128). -/
def Dev.rxNak (t p seq : Nat) (map : BitVec 16) (synced resync : Bool) (d : Dev) : Dev :=
  let d := (d.freeReplay p seq).confirm p synced
  let l := d.link p
  if resync then
    let d := d.setLink p { l with confirmed := false }
    let d := (d.raise1 (Pg.ll_RESYNC_EVT p)).whey p 4 [d.rd (Pg.ll_NEXT_TX_SEQ p)]
    ((d.resendFlits t p l.replay).1).pump p
  else if d.selective p then
    let gap := 10 * d.rd (Pg.ll_NAK_TIMER p)
    let due (f : SentFlit) : Bool :=
      let i := (f.seq + 4096 - (seq + 1)) % 4096
      decide (i < 16) && map.getLsbD i && (match f.resent with
        | some u => decide (u + gap ≤ t)
        | none => true)
    let again := l.replay.filter due
    let marked := l.replay.map (fun f => if due f then { f with resent := some t } else f)
    (((d.setLink p { l with replay := marked }).resendFlits t p again).1).pump p
  else ((d.resendFlits t p l.replay).1).pump p

/-- NAK. -/
def execNak (rx : WheyRx) (seq : Fin 4096) (map : BitVec 16) (synced resync : Bool) (s : State) :
    Host.Outcome State Fault Refusal :=
  onDev (fun t d => d.wheyIn rx.port 2 [seq, map.toNat, flagBit synced, flagBit resync] rx.crc
    (fun d => d.rxNak t rx.port seq map synced resync)) s

/-- The credit count of a channel arrives (R122, R140); a channel above 5 names none and nothing is credited (DESIGN CHOICE, log entry 161).
Failing credit counters take the link down, and it retrains (R256). -/
def Dev.creditIn (t p vc count : Nat) (d : Dev) : Dev :=
  if 5 < vc then d else
  -- the available credit: the count less the units consumed (R122)
  let used := Tab.getD (d.link p).consumed vc 0 % 65536
  match d.unitWrong (.credit p) (subResidue 16 count used) ((count + 65536 - used) % 65536) with
  | (d, true) => (d.residueError t (Pg.RESIDUE_PORT p) (0x20 + p / 4) 0 0xffff 0 3).qflLinkDown t p
  | (d, false) =>
    let l := d.link p
    let seen := if l.creditSeen.contains vc then l.creditSeen else l.creditSeen ++ [vc]
    let d := d.setLink p { l with limit := Tab.put l.limit vc count 0, creditSeen := seen }
    ((d.syncUp p).pump p).syncLink p

/-- CREDIT. -/
def execCredit (rx : WheyRx) (vc : Fin 8) (count : BitVec 16) (s : State) : Host.Outcome State Fault Refusal :=
  onDev (fun t d => d.wheyIn rx.port 3 [vc, count.toNat] rx.crc (fun d => d.creditIn t rx.port vc count.toNat)) s

/-- SEQ_SYNC (R128). -/
def execSeqSync (rx : WheyRx) (next : Fin 4096) (s : State) : Host.Outcome State Fault Refusal :=
  onDev (fun t d => d.wheyIn rx.port 4 [next] rx.crc (fun d =>
    let l := d.link rx.port
    let d := d.setLink rx.port { l with nextNew := next, rxFlits := l.rxFlits + (next.val + 4096 - l.nextNew) % 4096 }
    (d.raise1 (Pg.ll_RX_SYNCED rx.port)).acknowledge t rx.port)) s

/-- SEQ_SYNC_REPEAT (R128). -/
def execSeqSyncRepeat (port : Fin 64) (s : State) : Host.Outcome State Fault Refusal :=
  onDev (fun _ d => if (d.link port).confirmed then d else d.whey port 4 [d.rd (Pg.ll_NEXT_TX_SEQ port)]) s

/-- CREDIT_REFRESH (R126). -/
def execCreditRefresh (port : Fin 64) (s : State) : Host.Outcome State Fault Refusal :=
  onDev (fun _ d => (List.range 6).foldl (fun d v => d.sendCredit port v) d) s

/-- ACK_TIMER (R130): an acknowledgement is due; the timer is suspended while the link layer is HELD (R140). -/
def execAckTimer (port : Fin 64) (s : State) : Host.Outcome State Fault Refusal :=
  onDev (fun t d => if d.hears port ∧ 0 < (d.link port).sinceAck then d.acknowledge t port else d) s

/-- NAK_TIMER (R130). -/
def execNakTimer (port : Fin 64) (s : State) : Host.Outcome State Fault Refusal :=
  onDev (fun t d => if d.hears port ∧ d.missing port ≠ [] then d.sendNak t port false else d) s

/-- REPLAY_TIMER (R131, R133). -/
def execReplayTimer (port : Fin 64) (s : State) : Host.Outcome State Fault Refusal :=
  onDev (fun t d =>
    let l := d.link port
    if ¬ d.hears port ∨ l.replay = [] then d else
    let again := if d.selective port then l.replay.take 1 else l.replay
    let n := l.expiries + 1
    let (d, up) := (d.setLink port { l with expiries := n }).resendFlits t port again
    if ¬ up then d
    else if n < d.rd (Pg.ll_REPLAY_LIMIT port) then d
    else if l.escalated then d.qflLinkDown t port
    else (d.setLink port { d.link port with expiries := 0, escalated := true }).enterRecovery port) s

/-- LINK_HOLD (R141). -/
def execLinkHold (port : Fin 64) (s : State) : Host.Outcome State Fault Refusal :=
  onDev (fun t d => if d.rd (Pg.ll_LL_STATE port) = 3 then d.qflLinkDown t port else d) s

/-- OLDEST_FLIT_AGE (R141). -/
def execOldestFlitAge (port : Fin 64) (s : State) : Host.Outcome State Fault Refusal :=
  onDev (fun t d => if (d.link port).replay = [] then d else d.qflLinkDown t port) s

/-- A message's destination is routed through port p by its own route entry. -/
def Dev.routedBy (d : Dev) (p : Nat) (m : QflMsg) : Bool :=
  decide (1 ≤ m.dst) && decide (m.dst ≤ 16) && decide (d.rd (Qfab.PORT (m.dst - 1)) = p)

/-- ROUTE_RETURN (R142). -/
def execRouteReturn (port : Fin 64) (s : State) : Host.Outcome State Fault Refusal :=
  onDev (fun _ d =>
    let tw := d.link (d.rd (Pg.ll_TWIN_PORT port))
    let busy := tw.txq.any (fun m => d.routedBy port m) || tw.replay.any (fun f => f.msgs.any (fun m => d.routedBy port m))
    if d.flag (Pg.ll_ROUTED_AWAY port) ∧ d.rd (Pg.ll_LL_STATE port) = 2 ∧ ¬ busy then
      (d.wrFlag (Pg.ll_ROUTED_AWAY port) false).pump port
    else d) s

/-- Messages at a port past their lifetime are discarded, queued or in the replay buffer; a flit there is still replayed bit for bit, but what
it carried is not moved or sent anew (R131, R144, log entry 169). -/
def Dev.lifetime (t p : Nat) (d : Dev) : Dev :=
  let l := d.link p
  let old := ((l.replay.map (·.msgs)).flatten ++ l.txq).filter (fun m => m.expired t)
  let d := d.setLink p { l with
    txq := l.txq.filter (fun m => !m.expired t)
    replay := l.replay.map (fun f => { f with msgs := f.msgs.filter (fun m => !m.expired t) }) }
  old.foldl (fun (d : Dev) m => d.lifeDrop t m) d

/-- MESSAGE_LIFETIME (R144). -/
def execMessageLifetime (port : Fin 64) (s : State) : Host.Outcome State Fault Refusal := onDev (fun t d => d.lifetime t port) s

/-! ### Width change (R135 to R139) -/

/-- A width passes the tests of R135 at this end. -/
def Dev.widthOk (d : Dev) (p k : Nat) : Bool :=
  decide (fieldOf (d.rd (Pg.phy_FEATURES_ENABLED p)) 1 1 = 1) && decide (k ≤ d.rd (Pg.ll_TRAINED_WIDTH p)) &&
    decide (min 5 (d.rd (Pg.phy_MIN_WIDTH p)) ≤ k) && decide (k ≠ d.rd (Pg.phy_WIDTH_ACTIVE p)) &&
    !d.flag (Pg.ll_WIDTH_BUSY p)

/-- The change is abandoned (R139). -/
def Dev.widthAbandon (p : Nat) (d : Dev) : Dev := (d.widthClear p).raise1 (Pg.ll_WIDTH_FAIL_EVT p)

/-- Send a REQ for log2 width k with the next REQ_ID. -/
def Dev.widthSend (p k : Nat) (d : Dev) : Dev :=
  let l := d.link p
  let id := (l.reqId + 1) % 256
  let d := d.setLink p { l with reqId := id, width := some (k, id, true), widthStep := 1, widthRetry := none }
  ((d.raise1 (Pg.ll_WIDTH_BUSY p)).wr (Pg.ll_WIDTH_TARGET p) k).whey p 5 [0, k, id]

/-- WIDTH_GO (R135): start a change to WIDTH_REQ, or refuse it locally. -/
def Dev.widthGo (p : Nat) (d : Dev) : Dev :=
  let k := d.rd (Pg.ll_WIDTH_REQ p)
  let d := d.wrFlag (Pg.ll_WIDTH_GO p) false
  if d.widthOk p k then d.widthSend p k else d.raise1 (Pg.ll_WIDTH_FAIL_EVT p)

/-- The change completes once both WIDTH_SWITCH sets have passed: logical lanes 0 to w − 1 of those trained carry the elements. -/
def Dev.widthDone (p : Nat) (d : Dev) : Dev :=
  let l := d.link p
  match l.width with
  | none => d
  | some (k, _, _) =>
    if l.switchSent ∧ l.switchSeen then
      (((d.wr (Pg.phy_WIDTH_ACTIVE p) k).showInUse p).widthClear p).raise1 (Pg.ll_WIDTH_DONE_EVT p)
    else d

/-- Send WIDTH_SWITCH, and EIOS on lanes that are parked (R136). -/
def Dev.widthSwitch (p : Nat) (d : Dev) : Dev :=
  let l := d.link p
  match l.width with
  | none => d
  | some (k, id, _) =>
    let parked := (d.sendLanes p).drop (2 ^ k)
    let d := d.lcm p 0x10 k id
    let d := if parked = [] then d else d.emit (.qfl p (.lcm 2 0 0 parked))
    (d.setLink p { l with widthStep := 3, switchSent := true }).widthDone p

/-- The lanes to be added wake: TS1 goes out on them, keeping their coefficients, and once every 64 TS1 a WIDTH_MARK on them and on the lanes
in use (R137, log entry 166). -/
def Dev.wakeLanes (p : Nat) (d : Dev) : Dev :=
  let w := d.wakingLanes p
  let d := d.emit (.qfl p (.ts1 { widthCfg := d.widthCfg p, locked := true, lanes := w.map (fun i => d.ts1Lane p i) }))
  d.emit (.qfl p (.lcm 0x11 0 0 (d.sendLanes p ++ w)))

/-- After the ACK was sent or received: narrow at once, or wake the lanes to be added (R136, R137). -/
def Dev.widthStart (p : Nat) (d : Dev) : Dev :=
  let l := d.link p
  match l.width with
  | none => d
  | some (k, _, _) =>
    if k < d.rd (Pg.phy_WIDTH_ACTIVE p) then d.widthSwitch p
    else (d.setLink p { l with widthStep := 2, marks := 0, readySent := false, readySeen := false }).wakeLanes p

/-- A widening under way whose own lanes are not ready yet, or whose partner's are not (R137, R139). -/
def Dev.widening (d : Dev) (p : Nat) : Bool :=
  match (d.link p).width with
  | some (k, _, _) => decide (2 ≤ (d.link p).widthStep) && decide (d.rd (Pg.phy_WIDTH_ACTIVE p) < k)
  | none => false

/-- Answer a partner's request by R135. -/
def Dev.widthAnswer (p k id : Nat) (d : Dev) : Dev :=
  if d.widthOk p k then
    let l := d.link p
    let d := (d.setLink p { l with width := some (k, id, false) }).raise1 (Pg.ll_WIDTH_BUSY p)
    ((d.wr (Pg.ll_WIDTH_TARGET p) k).whey p 5 [1, k, id]).widthStart p
  else d.whey p 5 [2, k, id]

/-- WIDTH_REQ_MESSAGE (R135, R138). -/
def Dev.widthReq (p k id : Nat) (d : Dev) : Dev :=
  let l := d.link p
  if l.widthStep = 1 then
    let own := d.rd (Pg.phy_NONCE_LOCAL p)
    let other := d.rd (Pg.phy_NONCE_REMOTE p)
    if other < own then d
    else if own < other then ((d.widthClear p).raise1 (Pg.ll_WIDTH_WITHDRAWN_EVT p)).widthAnswer p k id
    else
      let want := l.width.map (·.1)
      let d := d.widthClear p
      (d.setLink p { d.link p with widthRetry := want }).drawn
  else d.widthAnswer p k id

/-- WIDTH_REQ_MESSAGE. -/
def execWidthReqMessage (rx : WheyRx) (width : Fin 8) (id : BitVec 8) (s : State) :
    Host.Outcome State Fault Refusal :=
  onDev (fun _ d => d.wheyIn rx.port 5 [0, width, id.toNat] rx.crc (fun d => d.widthReq rx.port width id.toNat)) s

/-- The own request with this REQ_ID waits for its answer. -/
def Dev.widthAsked (d : Dev) (p id : Nat) : Bool :=
  decide ((d.link p).widthStep = 1) && decide (((d.link p).width.map (fun x => x.2.1)) = some id)

/-- WIDTH_ACK (R136, R137). -/
def execWidthAck (rx : WheyRx) (msg : WidthMsg) (s : State) : Host.Outcome State Fault Refusal :=
  onDev (fun _ d => d.wheyIn rx.port 5 [1, msg.width, msg.id.toNat] rx.crc
    (fun d => if d.widthAsked rx.port msg.id.toNat then d.widthStart rx.port else d)) s

/-- WIDTH_REFUSE (R139). -/
def execWidthRefuse (rx : WheyRx) (msg : WidthMsg) (s : State) : Host.Outcome State Fault Refusal :=
  onDev (fun _ d => d.wheyIn rx.port 5 [2, msg.width, msg.id.toNat] rx.crc
    (fun d => if d.widthAsked rx.port msg.id.toNat then d.widthAbandon rx.port else d)) s

/-- WIDTH_READY (R137). -/
def execWidthReady (rx : WheyRx) (msg : WidthMsg) (s : State) : Host.Outcome State Fault Refusal :=
  onDev (fun _ d => d.wheyIn rx.port 5 [3, msg.width, msg.id.toNat] rx.crc (fun d =>
    if (d.link rx.port).widthStep = 2 ∧ (d.link rx.port).width.map (fun x => x.2.1) = some msg.id.toNat then
      (d.setLink rx.port { d.link rx.port with readySeen := true }).widthSwitch rx.port
    else d)) s

/-- WIDTH_SWITCH (R136). -/
def execWidthSwitch (port : Fin 64) (width : Fin 8) (id : BitVec 8) (s : State) : Host.Outcome State Fault Refusal :=
  onDev (fun _ d =>
    if (d.link port).width.map (fun x => (x.1, x.2.1)) = some (width.val, id.toNat) then
      (d.setLink port { d.link port with switchSeen := true }).widthDone port
    else d) s

/-- WIDTH_MARK (R137). -/
def execWidthMark (port : Fin 64) (s : State) : Host.Outcome State Fault Refusal :=
  onDev (fun _ d =>
    if d.widening port then d.setLink port { d.link port with marks := (d.link port).marks + 1 } else d) s

/-- WAKING_LANES_LOCKED (R137): READY goes out once the lanes are locked and deskewed by a WIDTH_MARK, whether or not the partner's came
before. -/
def execWakingLanesLocked (port : Fin 64) (s : State) : Host.Outcome State Fault Refusal :=
  onDev (fun _ d =>
    match (d.link port).width with
    | some (k, id, _) =>
      if d.widening port ∧ 0 < (d.link port).marks ∧ ¬ (d.link port).readySent then
        (d.setLink port { d.link port with readySent := true }).whey port 5 [3, k, id]
      else d
    | none => d) s

/-- WIDTH_RESPONSE_TIMEOUT (R139). -/
def execWidthResponseTimeout (port : Fin 64) (s : State) : Host.Outcome State Fault Refusal :=
  onDev (fun _ d => if (d.link port).widthStep = 1 then d.widthAbandon port else d) s

/-- WIDTH_WAKE_TIMEOUT (R139): the waking lanes of either end are not READY within 100 µs. -/
def execWidthWakeTimeout (port : Fin 64) (s : State) : Host.Outcome State Fault Refusal :=
  onDev (fun _ d =>
    if d.widening port ∧ ¬ ((d.link port).readySent ∧ (d.link port).readySeen) then d.widthAbandon port else d) s

/-- WIDTH_RETRY_DELAY (R138): the request is sent again with a new REQ_ID. -/
def execWidthRetryDelay (port : Fin 64) (s : State) : Host.Outcome State Fault Refusal :=
  onDev (fun _ d =>
    match (d.link port).widthRetry with
    | none => d
    | some k =>
      if d.widthOk port k then d.widthSend port k
      else (d.setLink port { d.link port with widthRetry := none }).raise1 (Pg.ll_WIDTH_FAIL_EVT port)) s

/-! ### Link encryption (R149 to R152, R479) -/

/-- KEY_ROLL (R150): the transmitting direction moves to its next key. -/
def execKeyRoll (port : Fin 64) (s : State) : Host.Outcome State Fault Refusal :=
  onDev (fun _ d =>
    if ¬ d.flag (Pg.ll_ENCRYPTED port) then d else
    d.rollKey port) s

/-- ENCRYPTION_SESSION_TIMEOUT (R479). -/
def execEncryptionSessionTimeout (port : Fin 64) (s : State) : Host.Outcome State Fault Refusal :=
  onDev (fun t d =>
    let n := (d.link port).session
    if (n = 1 ∨ n = 2) ∧ d.rd (Pg.ll_LL_STATE port) ≠ 0 then d.qflLinkDown t port else d) s

/-- An SPDM message of link encryption (R479): opcode 0x20 + i. A final message of a peer that ends at the Vorufin root derives the
key and the salt of each direction and the link runs encrypted; a peer that fails authentication posts security event 7 and the link waits for its
timeout; any other message is answered with the next. -/
def Dev.qflSpdm (t p op : Nat) (authOk final : Bool) (d : Dev) : Dev :=
  let l := d.link p
  if l.session = 0 ∨ l.session = 3 ∨ d.rd ScR.SC_STATE ≠ 1 then d
  else if ¬ authOk then (d.inc ScR.AUTH_FAILS).secEvent t 7
  else if final then
    let a := d.freeVal 20
    let d := d.drawn
    let b := d.freeVal 20
    let d := d.drawn
    ((d.setLink p { l with
      session := 3, txKey := Config.hkdf a 0, rxKey := Config.hkdf b 0, txSalt := Config.hkdf a 1 % 2 ^ 32
      rxSalt := Config.hkdf b 1 % 2 ^ 32, keyFlits := 0 }).raise1 (Pg.ll_ENCRYPTED p)).pump p
  else
    let m : QflMsg := {
      vc := 5, opcode := 0x20 + (op + 1) % 4, src := d.chainAddr, dst := d.rd (Pg.phy_REMOTE_CHAIN p), epoch := d.epoch,
      units := [] }
    d.queueOn t p m

/-- QFL_SPDM_MESSAGE. -/
def execQflSpdmMessage (port : Fin 64) (opcode : Fin 4) (authOk final : Bool) (s : State) : Host.Outcome State Fault Refusal :=
  onDev (fun t d => d.qflSpdm t port opcode authOk final) s

end Sys2Proof.Machine
end

