-- ==== Sys2Proof/Machine/Time.lean ====
section
/-! DEFINITION. The time unit (R55 to R61, R153): its clock, PPS, time exchanges and the correction of FABRIC_TIME. -/
namespace Sys2Proof.Machine
open Sys2Proof

/-- The master is reachable: an exchange has completed within the last 4 ms (R153). -/
def TimeUnit.masterReachable (u : TimeUnit) : Bool :=
  match u.lastExchange with
  | some t => decide (u.now ≤ t + 4000000)
  | none => false

/-- The discipline source in use: 0 Free-run, 1 PPS, 2 Fabric (R56, R59). -/
def State.activeSource (s : State) : Nat :=
  let fabric : Bool := s.time.masterReachable && decide (s.dev.mode ≠ 4)
  match s.dev.rd Tim.TIME_SOURCE with
  | 0 => 0
  | 1 => 1
  | 2 => 2
  | _ => if s.time.ppsValid then 1 else if fabric then 2 else 0

/-- A number held between −n and n. -/
def clampInt (n x : Int) : Int := if x < -n then -n else if n < x then n else x

/-- One counter clock (R55, R58): 1 ns, withheld or doubled by what the corrections have added up to. -/
def TimeUnit.tick (corrected : Bool) (u : TimeUnit) : TimeUnit :=
  if ¬ corrected then { u with now := u.now + 1 } else
  let p := clampInt 20000 u.slew
  let acc := u.acc + clampInt 20000 u.freq + p
  let u := { u with slew := u.slew - p }
  if 100000000 ≤ acc then { u with now := u.now + 2, acc := acc - 100000000 }
  else if acc ≤ -100000000 then { u with acc := acc + 100000000 }
  else { u with now := u.now + 1, acc }

/-- A capture or a completed exchange found an offset (R58): a step that was due is taken, which moves the last edge of R57 with it, a large positive offset becomes due, every
other is slewed. The frequency correction that the loop settles on is not stated beyond its bound: a free value (log entry 44). -/
def State.correct (o : Int) (s : State) : State :=
  let u := s.time
  let limit : Int := 1000 * (s.dev.rd Tim.TIME_STEP_LIMIT : Int)
  let o := o - u.stepDue
  let u := if u.stepDue = 0 then u else { u with now := u.now + u.stepDue, stepDue := 0, stepped := true, lastEdge := u.lastEdge.map (· + u.stepDue) }
  let u := { u with freq := (s.dev.freeVal 93 % 40001 : Nat) - (20000 : Int) }
  let u := if limit < o then { u with stepDue := o.toNat, slew := 0 } else { u with slew := o * 100000000 }
  { s with time := u, dev := s.dev.drawn }

/-- PPS_VALID changes with an event record (R57). -/
def State.setPps (v : Bool) (s : State) : State :=
  if s.time.ppsValid = v then s
  else { s with time := { s.time with ppsValid := v }, dev := s.dev.post s.time.now 8 (flagBit v) }

/-- PPS_EDGE (R56, R57). -/
def State.ppsEdge (s : State) : State :=
  let n := s.time.now
  let good : Bool := match s.time.lastEdge with
    | some e => decide (e + 999000000 ≤ n) && decide (n ≤ e + 1001000000)
    | none => false
  let c := if good then s.time.goodEdges + 1 else 0
  let s := { s with time := { s.time with capture := n, lastEdge := some n, goodEdges := min 3 c } }
  let s := s.setPps (if good then s.time.ppsValid || decide (3 ≤ c) else false)
  if s.activeSource ≠ 1 then s else
  let r := n % 1000000000
  s.correct (if r ≤ 500000000 then -(r : Int) else (1000000000 - r : Int))

/-- PPS_EDGE. -/
def execPpsEdge (s : State) : Host.Outcome State Fault Refusal := .next (if s.dev.mode = 0 then s else s.ppsEdge)

/-- PPS_TIMEOUT: 2 s without an edge. -/
def execPpsTimeout (s : State) : Host.Outcome State Fault Refusal :=
  .next (if s.dev.mode = 0 then s else
    ({ s with time := { s.time with goodEdges := 0, lastEdge := none } }).setPps false)

/-- PPS_OUT: a pulse of 10 µs at each whole second, in every mode from OM1 onward; low while PPS_OUT_EN is clear (R59, R61). -/
def execPpsOut (s : State) : Host.Outcome State Fault Refusal :=
  onDev (fun _ d => if d.mode = 0 ∨ ¬ d.flag Tim.PPS_OUT_EN then d else (d.emit (.pin .ppsOut true)).emit (.pin .ppsOut false)) s

/-- The device follows Fabric time: TIME_SOURCE 2, or 3 while PPS is not valid; it is no master itself and has one (R56, R59). -/
def State.follows (s : State) : Bool :=
  let src := s.dev.rd Tim.TIME_SOURCE
  (decide (src = 2) || (decide (src = 3) && !s.time.ppsValid)) && !s.dev.acting && decide (s.dev.mode ≠ 4)

/-- Time sync over the Whey channel is enabled on a link (R101). -/
def Dev.timeOn (d : Dev) (p : Nat) : Bool := decide (fieldOf (d.rd (Pg.phy_FEATURES_ENABLED p)) 4 1 = 1)

/-- TIME_SYNC_PERIOD: TIME_REQ to the neighbour on the route toward the master. -/
def execTimeSyncPeriod (s : State) : Host.Outcome State Fault Refusal :=
  .next (if ¬ s.follows ∨ s.time.exchange.isSome then s else
    match s.dev.routePort (s.dev.rd Memb.PRIMARY_ADDR) with
    | none => s
    | some p =>
      if ¬ s.dev.timeOn p then s else
      { s with time := { s.time with exchange := some { port := p, t1 := s.time.now } }, dev := s.dev.whey p 6 [] })

/-- TIME_REQ at the neighbour: t3, then t2, in 48 bits each. -/
def execTimeReq (rx : WheyRx) (s : State) : Host.Outcome State Fault Refusal :=
  onDev (fun t d => d.wheyIn rx.port 6 [] rx.crc (fun d =>
    if ¬ d.timeOn rx.port then d else (d.whey rx.port 7 [t % 2 ^ 48]).whey rx.port 8 [t % 2 ^ 48])) s

/-- A 48-bit time with the upper 16 bits of FABRIC_TIME. -/
def TimeUnit.widen (u : TimeUnit) (x : BitVec 48) : Nat := u.now / 2 ^ 48 * 2 ^ 48 + x.toNat

/-- Both answers have arrived: the offset enters the correction when Fabric is the source in use. -/
def State.exchangeDone (e : TimeExchange) (s : State) : State :=
  match e.t2, e.t3 with
  | some t2, some t3 =>
    let o : Int := (((t2 : Int) - e.t1) - ((e.t4 : Int) - t3)) / 2
    let s := { s with
      time := { s.time with exchange := none, lastExchange := some s.time.now }
      dev := s.dev.wr Qfab.LAST_TIME_OFFSET (BitVec.ofInt 32 o).toNat }
    if s.activeSource = 2 then s.correct o else s
  | _, _ => { s with time := { s.time with exchange := some e } }

/-- A time report of type `op` arrives on a port: one whose CRC-8 fails is discarded and counted; the exchange under way on the port takes
any other. -/
def State.timeIn (p op : Nat) (x : BitVec 48) (crc : BitVec 8) (f : TimeExchange → State → State) (s : State) : State :=
  if ¬ s.dev.hears p then s
  else if crc ≠ wheyCrc op [x.toNat] then { s with dev := s.dev.inc (Pg.ll_WHEY_DROPPED p) }
  else match s.time.exchange with
    | some e => if e.port = p then f e s else s
    | none => s

/-- TIME_RSP: t4 is stamped and t3 taken. -/
def execTimeRsp (rx : WheyRx) (t3 : BitVec 48) (s : State) : Host.Outcome State Fault Refusal :=
  .next (s.timeIn rx.port 7 t3 rx.crc (fun e s => s.exchangeDone { e with t3 := some (s.time.widen t3), t4 := s.time.now }))

/-- TIME_T2. -/
def execTimeT2 (rx : WheyRx) (t2 : BitVec 48) (s : State) : Host.Outcome State Fault Refusal :=
  .next (s.timeIn rx.port 8 t2 rx.crc (fun e s => s.exchangeDone { e with t2 := some (s.time.widen t2) }))

/-- TIME_SYNC_ABANDON: a message has been missing for 10 µs. -/
def execTimeSyncAbandon (s : State) : Host.Outcome State Fault Refusal :=
  .next { s with time := { s.time with exchange := none } }

end Sys2Proof.Machine
end

