-- ==== Sys2Proof/Machine/Registers.lean ====
section
/-! DEFINITION. The register layer (R437 to R458): addresses, access codes, the key guard, latches, clearing on read, the array
windows and what a write of a register sets off. -/
namespace Sys2Proof.Machine
open Sys2Proof

/-! ### Where an offset lands (R437, R439, R440, R322) -/

/-- The rows of a block page, and whether it decodes offset bits [11:2] rather than [9:2]. -/
def pageRows (p : Nat) : List RegTpl × Bool :=
  match p with
  | 0 => (RegPage.glob, true)
  | 1 => (RegPage.ident, false)
  | 2 => (RegPage.time, false)
  | 3 => (RegPage.qfab, false)
  | 4 => (RegPage.ext, false)
  | 5 => (RegPage.churn, true)
  | 6 => (RegPage.ladle, false)
  | 7 => (RegPage.inst, false)
  | 8 => (RegPage.gate, false)
  | 9 => (RegPage.memb, false)
  | 10 => (RegPage.mbx, true)
  | 11 => (RegPage.spc, false)
  | 12 => (RegPage.sc, false)
  | 13 => (RegPage.elog, true)
  | 14 => (RegPage.skim, false)
  | 15 => (RegPage.hbk, false)
  | 16 => (RegPage.ren, false)
  | _ =>
    if 0x20 ≤ p ∧ p < 0x30 then (RegPage.pg, true)
    else if 0x40 ≤ p ∧ p < 0x7a then (RegPage.mon, false)
    else ([], false)

/-- A row holds the word at an offset of its page. -/
def RegTpl.holds (r : RegTpl) (x : Nat) : Bool :=
  decide (r.off ≤ x) && decide ((x - r.off) / r.s1 < r.n1) && decide ((x - r.off) % r.s1 % r.s2 = 0) &&
    decide ((x - r.off) % r.s1 / r.s2 < r.n2)

/-- The fields of the word at an offset of a page. -/
def slotsAt (rows : List RegTpl) (x : Nat) : List Slot :=
  match rows.find? (fun r => r.holds x) with
  | some r => r.slots
  | none => []

/-- Offset of a page within the BAR0 space of the model: Dynamic Capacity BAR0s follow at 0x400_0000 (R322). -/
def instBase : Nat := 0x4000000

/-- The canonical offset of a word: the repeats of a [9:2] page fold onto its registers. -/
def canonical (a : Nat) : Nat :=
  if 0x100000 ≤ a then a
  else if (pageRows (a / 0x1000)).2 then a else a / 0x1000 * 0x1000 + a % 0x400

/-- The fields of the word at a canonical offset. -/
def wordSlots (a : Nat) : List Slot :=
  if a < 0x100000 then slotsAt (pageRows (a / 0x1000)).1 (a % 0x1000)
  else if a < instBase ∨ instBase + 64 * 0x100000 ≤ a then []
  else
    let x := (a - instBase) % 0x100000
    if x < 0x1000 then slotsAt RegPage.vicsr x
    else if x < 0x2000 then slotsAt RegPage.mbx (x - 0x1000)
    else if 0x4000 ≤ x ∧ x < 0x8000 then slotsAt RegPage.vimod x
    else []

/-- The instance and the offset in its BAR0. -/
def instAt (a : Nat) : Option (Nat × Nat) :=
  if a < instBase ∨ instBase + 64 * 0x100000 ≤ a then none else some ((a - instBase) / 0x100000, (a - instBase) % 0x100000)

/-- A port group page's word: group and offset. -/
def pgAt (a : Nat) : Option (Nat × Nat) := if 0x20000 ≤ a ∧ a < 0x30000 then some (a / 0x1000 - 0x20, a % 0x1000) else none

/-! ### Words that read zero and ignore writes (R49, R112, R113, R154, R191, R258, R290, R327, R406, R439) -/

/-- The port of a port-group word, when it is a per-port word: port and whether it must be a QFL port. -/
def portWord (g x : Nat) : Option (Nat × Bool) :=
  if 0x10 ≤ x ∧ x < 0x60 then some (4 * g + x % 0x10 / 4, false)
  else if 0x70 ≤ x ∧ x < 0x90 then some (4 * g + x % 0x10 / 4, false)
  else if 0x100 ≤ x ∧ x < 0x180 then some (4 * g + (x - 0x100) / 0x20, true)
  else if 0x200 ≤ x ∧ x < 0x300 then some (4 * g + (x - 0x200) / 0x40, true)
  else none

/-- The word is there: its block, port, lane, vector exists in the present configuration. -/
def Dev.wordThere (d : Dev) (a : Nat) : Bool :=
  if a / 0x1000 = 0x10 then !d.partS
  else if 0x9040 ≤ a ∧ a < 0x9080 then decide ((a - 0x9040) / 4 + 1 ≠ d.chainAddr)
  else match pgAt a with
  | some (g, x) =>
    (match portWord g x with
     | some (p, qfl) => if qfl then d.isQflPort p else d.present p
     | none =>
       if 0x400 ≤ x ∧ x < 0x600 then
         (if x % 0x20 = 0xc then decide (d.mode = 11)
          else if x % 0x20 < 0xc then decide (d.rd (Pg.PERSONALITY g) = 3)
          else true)
       else true)
  | none =>
    match instAt a with
    | some (n, x) => if 0x4000 ≤ x ∧ x < 0x8000 then decide ((x - 0x4000) / 8 < d.rd (Vi.MSIX_COUNT n)) else true
    | none => true

/-! ### Field values -/

/-- Fields of the global, identity, time and fabric pages that are held elsewhere or computed. -/
def State.fieldLow (s : State) (a lo : Nat) : Option Nat :=
  let d := s.dev
  let g := s.guard
  if a = 0x30 then
    (if lo = 0 then some d.mode else if lo = 12 then some d.rst.straps.role else if lo = 21 then some (flagBit d.partS) else none)
  else if a = 0x10 then
    some (if lo = 0 then flagBit g.unlocked else if lo = 1 then flagBit g.lockedOut else if lo = 2 then g.wrongRun
      else if lo = 6 then flagBit g.lockoutEvt else g.wrongKeys)
  else if a = 0x1000 ∧ lo = 16 then some d.fuses.stepping
  else if a = 0x1004 then
    some (if lo = 0 then flagBit d.fuses.certFuse else if lo = 1 then flagBit (!d.fuses.certFuse) else flagBit d.fuses.debugLock)
  else if a = 0x1020 then some (fieldOf d.fuses.serial 0 32)
  else if a = 0x1024 then some (fieldOf d.fuses.serial 32 32)
  else if a = 0x2004 then
    some (if lo = 0 then s.activeSource else if lo = 2 then flagBit s.time.ppsValid else if lo = 3 then flagBit s.time.masterReachable
      else if lo = 4 then flagBit s.time.stepped else (BitVec.ofInt 16 (if s.activeSource = 0 then 0 else s.time.freq)).toNat)
  else if a = 0x2008 then some (fieldOf s.time.now 0 32)
  else if a = 0x200c then some (fieldOf s.time.now 32 32)
  else if a = 0x2010 then some (fieldOf s.time.capture 0 32)
  else if a = 0x2014 then some (fieldOf s.time.capture 32 32)
  else if 0x30c0 ≤ a ∧ a < 0x3100 ∧ lo = 0 then some (d.outstandingTo ((a - 0x30c0) / 4 + 1))
  else none

/-- Entries of migration entry i: source, phase, watermark (R190). -/
def Dev.migField (d : Dev) (i a lo : Nat) : Nat :=
  match Tab.get d.binder.migrations i with
  | none => 0
  | some m => if a % 8 = 4 then m.watermark else if lo = 0 then m.source else m.phase

/-- Fields of the extent, Churn, Ladle, instance, Gate, membership, power and security pages. -/
def Dev.fieldMid (d : Dev) (a lo : Nat) : Option Nat :=
  if 0x4010 ≤ a ∧ a < 0x4030 then some (d.extentsIn ((a - 0x4010) / 4))
  else if 0x4100 ≤ a ∧ a < 0x4200 then some (d.migField ((a - 0x4100) / 8) a lo)
  else if a = 0x5010 then some d.chn.tier2.length
  else if a = 0x5014 then some (saturate 16 (d.chn.tier1.filter (fun x => x.2.state = 4)).length)
  else if 0x5100 ≤ a ∧ a < 0x5500 ∧ a % 0x20 = 0 then
    (let c := (a - 0x5100) / 0x20
     some (if lo = 0 then (d.chn.trackers.filter (fun t => t.slice = c)).length else (d.chn.tickets.filter (fun t => t.slice = c)).length))
  else if a = 0x6008 then some (d.ladles.pairs.filter (fun x => x.2.state = 2)).length
  else if 0x6100 ≤ a ∧ a < 0x6300 ∧ a % 0x10 = 0 ∧ lo ≤ 4 then
    (let rs := d.ladles.runs.filter (fun r => r.ladle = (a - 0x6100) / 0x10)
     some (if lo = 0 then rs.length else (rs.map (fun r => r.pieces.length)).foldl (· + ·) 0))
  else if a = 0x7004 then some (if lo = 0 then saturate 16 d.vectorsFree else saturate 16 d.longestRun)
  else if a = 0x7008 then some (if lo = 0 then saturate 16 d.queueFree else d.minSum)
  else if a = 0x8008 ∧ lo = 1 then some (flagBit d.gate.dirty)
  else if a = 0x800c then some d.inFlightOld
  else if a = 0x9004 ∧ lo = 7 then some (flagBit d.rst.straps.head)
  else if a = 0xb000 ∧ lo = 0 then some (flagBit (decide (d.mode ≠ 0)))
  else if a = 0xc000 ∧ lo = 4 then some (flagBit d.rst.zeroisedLast)
  else if a = 0xc004 then
    some (if lo = 0 then d.fuses.revoked else if lo = 4 then (if d.runningImage = [] then 0 else imgField d.runningImage 6 1)
      else if lo = 6 then d.fuses.svn else if lo = 13 then d.fuses.ifMin else flagBit (decide (0 < d.sc.commitLeft)))
  else none

/-- Fields of the port group, monitor and instance pages. -/
def State.fieldHigh (s : State) (a lo : Nat) : Option Nat :=
  let d := s.dev
  if 0x40000 ≤ a ∧ a < 0x80000 then (if a % 0x1000 = 0 ∧ lo = 8 then some (monKind (a / 0x1000 - 0x40)) else none)
  else match pgAt a with
  | some (g, x) => if 0x70 ≤ x ∧ x < 0x80 ∧ lo = 0 then some (d.portLimit (4 * g + (x - 0x70) / 4)) else none
  | none =>
    match instAt a with
    | some (n, x) =>
      if x = 0 ∧ lo = 0 then some n
      else if x = 0 ∧ lo = 6 then some d.chainAddr
      else if x = 0 ∧ lo = 11 then some (flagBit ((d.instOf n).portA.isSome && (d.instOf n).portB.isSome))
      else if x = 8 then some (fieldOf s.time.now 0 32)
      else if x = 0xc then some (fieldOf s.time.now 32 32)
      else if x = 0x18 ∧ lo = 12 then some (d.queueUsed n)
      else none
    | none => none

/-- The key of a field of the word at a canonical offset. -/
def Slot.field (l : Slot) (a : Nat) : Field := { key := a * 32 + l.lo, width := l.width, reset := l.reset }

/-- A word of a monitor page. -/
def inMonitor (a : Nat) : Bool := decide (0x40000 ≤ a) && decide (a < 0x80000)

/-- The value of a field. -/
def State.slotValue (s : State) (a : Nat) (l : Slot) : Nat :=
  if l.acc = .wo ∨ ¬ s.dev.wordThere a then 0 else
  match (s.fieldLow a l.lo).orElse (fun _ => (s.dev.fieldMid a l.lo).orElse (fun _ => s.fieldHigh a l.lo)) with
  | some v => v % 2 ^ l.width
  | none => if inMonitor a then s.dev.mrd (l.field a) else s.dev.rd (l.field a)

/-- The whole word, without the latches. -/
def State.plainWord (s : State) (a : Nat) : Nat :=
  (wordSlots a).foldl (fun n l => n + 2 ^ l.lo * s.slotValue a l) 0

/-! ### Latching pairs (R442, R443) -/

/-- The high register of a latching low register. -/
def highOf (a : Nat) : Option Nat :=
  if a = 0x2008 ∨ a = 0x2010 then some (a + 4)
  else if 0xb000 ≤ a ∧ a < 0xc000 then
    (if 0xb058 ≤ a ∧ (a - 0xb058) % 0x30 = 0 ∧ (a - 0xb058) / 0x30 < 16 then some (a + 4) else none)
  else if inMonitor a ∧ a < 0x7a000 then
    (let x := a % 0x1000
     if x = 8 ∨ (0x48 ≤ x ∧ x < 0x140 ∧ x % 0x20 = 8) then some (a + 4) else none)
  else match pgAt a with
  | some (_, x) => if 0x400 ≤ x ∧ x < 0x600 ∧ x % 0x20 = 0x10 then some (a + 4) else none
  | none =>
    match instAt a with
    | some (_, x) => if x = 8 then some (a + 4) else none
    | none => none

/-- A high register returns its path's latch. -/
def isHigh (a : Nat) : Bool := decide (4 ≤ a) && (highOf (a - 4)).isSome

/-- The latches of a path. -/
def Dev.latch (d : Dev) : AccessPath → PathLatch
  | .bar0 => d.latchBar0
  | .reg => d.latchReg
  | .cp => d.latchCp
  | .jtag => d.latchJtag

/-- Replace the latches of a path. -/
def Dev.setLatch (d : Dev) (p : AccessPath) (x : PathLatch) : Dev :=
  match p with
  | .bar0 => { d with latchBar0 := x }
  | .reg => { d with latchReg := x }
  | .cp => { d with latchCp := x }
  | .jtag => { d with latchJtag := x }

/-- What a read of a control register returns, with no effect of its own (R447). -/
def State.peek (s : State) (path : AccessPath) (a : Nat) : Nat :=
  if isHigh a then Tab.getD (s.dev.latch path).high a 0 else s.plainWord a

/-! ### Scrubbing (R452, R453) -/

/-- Bits of a field in which one copy disagrees. -/
def Dev.upset (d : Dev) (k : Nat) : Nat := Nat.lor (Tab.getD d.upsetA k 0) (Nat.lor (Tab.getD d.upsetB k 0) (Tab.getD d.upsetC k 0))

/-- A triplicated field. -/
def Slot.triple (l : Slot) : Bool := decide (l.acc = .rwt) || decide (l.acc = .rwkt)

/-- The three copies of a field agree again. -/
def Dev.agree (d : Dev) (k : Nat) : Dev :=
  { d with upsetA := Tab.erase d.upsetA k, upsetB := Tab.erase d.upsetB k, upsetC := Tab.erase d.upsetC k }

/-- The lowest bit that is set, of 32. -/
def lowestBit (n : Nat) : Nat := ((List.range 32).find? (fun i => fieldOf n i 1 = 1)).getD 0

/-- A scrub of a register: minority bits take the majority value. -/
def Dev.scrub (a : Nat) (d : Dev) : Dev :=
  let ls := (wordSlots a).filter Slot.triple
  let bad := ls.foldl (fun n l => n + 2 ^ l.lo * d.upset (a * 32 + l.lo)) 0
  if bad = 0 then d else
  let d := ls.foldl (fun (d : Dev) l => d.agree (a * 32 + l.lo)) d
  (((((d.inc Glob.SCRUBS).wr Glob.LAST_OFFSET a).wr Glob.LAST_BIT (lowestBit bad)).raise1 Glob.TRIPLE_EVT).hbCount 6 1)

/-! ### Reads -/

/-- The bits of a word that byte enables select. -/
def byteMask (m : Nat) : Nat :=
  (List.range 4).foldl (fun n i => if fieldOf m i 1 = 1 then n + 0xff * 2 ^ (8 * i) else n) 0

/-- Clear a field that clears on read. -/
def State.clearOnRead (a : Nat) (l : Slot) (s : State) : State :=
  if a = 0x10 then { s with guard := { s.guard with wrongKeys := 0 } }
  else if inMonitor a then { s with dev := s.dev.mwr (l.field a) l.reset }
  else { s with dev := s.dev.wr (l.field a) l.reset }

/-- A read of the bytes m of a control register: its value, the latch, clearing on read, and a scrub when copies disagree (R438,
R443, R453). -/
def State.readCtl (path : AccessPath) (a m : Nat) (s : State) : Nat × State :=
  let a := canonical a
  let v := s.peek path a
  let s := match highOf a with
    | some h =>
      let x := s.dev.latch path
      { s with dev := s.dev.setLatch path { x with high := Tab.put x.high h (s.plainWord h) 0 } }
    | none => s
  let bits := byteMask m
  let s := ((wordSlots a).filter (fun l => l.acc = .rc ∧ s.dev.wordThere a)).foldl (fun (s : State) l =>
    let mine := (2 ^ l.width - 1) * 2 ^ l.lo
    if Nat.land mine bits = mine then s.clearOnRead a l else s) s
  (v, { s with dev := s.dev.scrub a })

/-! ### Array windows (R454 to R457) -/

/-- The words of an entry of a number. -/
def entryWords (v n : Nat) : List Nat := (List.range n).map (fun i => fieldOf v (32 * i) 32)

/-- The window an offset lies in: base, entry size. -/
def windowAt (a : Nat) : Option (Nat × Nat) :=
  if 0x100000 ≤ a ∧ a < 0x120000 then some (0x100000, 32)
  else if 0x120000 ≤ a ∧ a < 0x121000 then some (0x120000, 16)
  else if 0x121000 ≤ a ∧ a < 0x121200 then some (0x121000, 8)
  else if 0x122000 ≤ a ∧ a < 0x122800 then some (0x122000, 32)
  else if 0x140000 ≤ a ∧ a < 0x180000 then some (0x140000, 32)
  else if 0x200000 ≤ a ∧ a < 0x300000 then some (0x200000, 4)
  else if 0x400000 ≤ a ∧ a < 0x600000 then some (0x400000, 8)
  else if 0x1000000 ≤ a ∧ a < 0x1100000 then some (0x1000000, 16)
  else none

/-- The present words of entry i of a window. -/
def Dev.entryNow (d : Dev) (base size i : Nat) : List Nat :=
  let v :=
    if base = 0x100000 then (Tab.getD d.gate.active i {}).bits
    else if base = 0x120000 then (Tab.getD d.windows i {}).bits
    else if base = 0x121000 then d.sharerBits i
    else if base = 0x122000 then d.instWord i 0 + 2 ^ 64 * d.instWord i 1 + 2 ^ 128 * d.instWord i 2 + 2 ^ 192 * d.instWord i 3
    else if base = 0x140000 then (Tab.getD d.ladles.pairs i {}).bits
    else if base = 0x200000 then (Tab.getD d.slots i {}).bits
    else if base = 0x400000 then (d.ext i).bits
    else
      (match Tab.get d.chn.tier1 (wayKey (d.rd ChurnR.DIR_SLICE) (i / 16) (i % 16)) with
       | some e => if d.chn.gated then 0 else e.wayBits % 2 ^ 127
       | none => 0)
  entryWords v (size / 4)

/-- A read of a word of the array region. -/
def State.readArray (path : AccessPath) (a : Nat) (s : State) : Nat × State :=
  match windowAt a with
  | none => (0, s)
  | some (base, size) =>
    let i := (a - base) / size
    let e := base + i * size
    let k := (a - e) / 4
    let now := s.dev.entryNow base size i
    let x := s.dev.latch path
    if k = 0 then (now.getD 0 0, { s with dev := s.dev.setLatch path { x with entry := some (e, now) } })
    else
      match x.entry with
      | some (f, ws) => if f = e then (ws.getD k 0, s) else (now.getD k 0, s)
      | none => (now.getD k 0, s)

/-! ### Mailbox buffers, MSI-X tables -/

/-- The mailbox whose buffer holds an offset, with the byte's offset in its page. -/
def bufferAt (a : Nat) : Option (Nat × Nat) :=
  if 0xa100 ≤ a ∧ a < 0xb000 then some (64, a - 0xa000)
  else match instAt a with
  | some (n, x) => if 0x1100 ≤ x ∧ x < 0x2000 then some (n, x - 0x1000) else none
  | none => none

/-- A word of an MSI-X table or PBA of an instance (R322, R327). -/
def Dev.msixWord (d : Dev) (n x : Nat) : Nat :=
  let count := d.rd (Vi.MSIX_COUNT n)
  if 0x8000 ≤ x ∧ x < 0x10000 then
    (let v := (x - 0x8000) / 16
     let w := x % 16 / 4
     if count ≤ v then 0 else Tab.getD d.irq.table (vecKey n v * 4 + w) (if w = 3 then 1 else 0))
  else if 0x10000 ≤ x ∧ x < 0x10100 then
    ((List.range 32).foldl (fun m i =>
      let v := (x - 0x10000) / 4 * 32 + i
      if v < count ∧ d.irq.pba.contains (vecKey n v) then m + 2 ^ i else m) 0)
  else 0

/-- A read of one word, bytes m, anywhere but the alias region. -/
def State.readWord (path : AccessPath) (a m : Nat) (s : State) : Nat × State :=
  match bufferAt a with
  | some (mb, o) => (leNat (Memory.readBytes s.mem (Mailbox.cell mb o) 4), s)
  | none =>
    if a < 0x100000 then s.readCtl path a m
    else if a < 0x2000000 then s.readArray path a
    else match instAt a with
    | some (n, x) => if 0x8000 ≤ x then (s.dev.msixWord n x, s) else s.readCtl path a m
    | none => (0, s)

/-- An access that R438 accepts. -/
def okAccess (off size : Nat) : Bool :=
  (decide (size = 1) || decide (size = 2) || decide (size = 4) || decide (size = 8)) && decide (off % size = 0) &&
    (!(decide (0x2000000 ≤ off) && decide (off < 0x4000000)) || decide (size = 4))

/-- The control register and bit of an alias word. -/
def aliasOf (off : Nat) : Nat × Nat := (canonical ((off - 0x2000000) / 128 * 4), (off - 0x2000000) % 128 / 4)

/-- The field that holds a bit. -/
def slotOfBit (a b : Nat) : Option Slot := (wordSlots a).find? (fun l => l.lo ≤ b ∧ b < l.lo + l.width)

/-- A read of any size (R438, R446): the value, or none for Completer Abort. -/
def State.readAccess (path : AccessPath) (off size : Nat) (s : State) : Option Nat × State :=
  if ¬ okAccess off size then (none, { s with dev := s.dev.inc Glob.BAD_ACCESSES })
  else if 0x2000000 ≤ off ∧ off < 0x4000000 then
    (let (a, b) := aliasOf off
     (some (if (slotOfBit a b).isNone then 0 else fieldOf (s.peek path a) b 1), s))
  else if size = 8 then
    (let (x, s) := s.readWord path off 15
     let (y, s) := s.readWord path (off + 4) 15
     (some (x + 2 ^ 32 * y), s))
  else
    let w := off / 4 * 4
    let (x, s) := s.readWord path w ((2 ^ size - 1) * 2 ^ (off - w))
    (some (fieldOf x (8 * (off - w)) (8 * size)), s)

/-! ### The key guard (R448 to R451) -/

/-- A write of CSR_KEY. -/
def State.keyWrite (v : Nat) (s : State) : State :=
  let g := s.guard
  if g.lockedOut then s
  else if v = 0x4d494c4b then { s with guard := { g with unlocked := true, wrongRun := 0 } }
  else
    let n := g.wrongRun + 1
    let out := decide (8 ≤ n)
    let g : KeyGuard := {
      unlocked := false, wrongRun := min 8 n, wrongKeys := saturate 16 (g.wrongKeys + 1), lockedOut := out
      lockoutEvt := g.lockoutEvt || out }
    let d := (s.dev.hbCount 7 1)
    { s with guard := g, dev := if out then (d.hbCount 8 1).secEvent s.time.now 1 else d }

/-- The path is subject to the guard (R441). -/
def guardedPath : AccessPath → Bool
  | .bar0 => true
  | .reg => true
  | _ => false

/-- A write that reaches a guarded field: allowed once per unlock, rejected and counted while locked. -/
def State.passGuard (path : AccessPath) (s : State) : Bool × State :=
  if ¬ guardedPath path then (true, s)
  else if s.guard.unlocked then (true, { s with guard := { s.guard with unlocked := false } })
  else (false, { s with dev := s.dev.inc Glob.KEY_REJECTS })

/-- A guarded field. -/
def Slot.keyed (l : Slot) : Bool := decide (l.acc = .rwk) || decide (l.acc = .rwkt)

/-- Software writes the field's value. -/
def Slot.writable (l : Slot) : Bool := decide (l.acc = .rw) || decide (l.acc = .rwt) || l.keyed

/-! ### Values that read back otherwise -/

/-- Fields whose zero reads back as 1, by offset and lowest bit. -/
def zeroIsOne (a lo : Nat) : Bool :=
  ([(0x2000, 4), (0x4000, 0), (0x4000, 8), (0x5000, 0), (0x5004, 0), (0x5004, 8), (0x50, 0), (0x50, 10), (0x8000, 0), (0x9000, 7),
    (0x9000, 15), (0x7c, 0), (0xf00c, 1)] : List (Nat × Nat)).contains (a, lo) ||
    (match pgAt a with
     | some (_, x) =>
       (decide (0x20 ≤ x) && decide (x < 0x30) && decide (lo = 0)) ||
         (decide (0x200 ≤ x) && decide (x < 0x300) &&
           ((decide (x % 0x40 = 0) && (decide (lo = 12) || decide (lo = 16))) || decide (x % 0x40 = 4)))
     | none => false) ||
    (decide (0xb040 ≤ a) && decide (a < 0xb340) && decide ((a - 0xb040) % 0x30 = 0) &&
      (decide (lo = 7) || decide (lo = 15) || decide (lo = 23)))

/-- A value held between two limits. -/
def clampNat (lo hi v : Nat) : Nat := if v < lo then lo else if hi < v then hi else v

/-- The value a field takes when v is written. -/
def readBack (a lo v : Nat) : Nat :=
  let v := if zeroIsOne a lo ∧ v = 0 then 1 else v
  if a = 0x50 ∧ lo = 0 then min v 1000
  else if a = 0x70 ∧ lo = 0 then clampNat 600 1250 v
  else if a = 0x70 ∧ lo = 11 then max v 140
  else if a = 0x70 ∧ lo = 19 then min v 180
  else if a = 0x9000 ∧ lo = 0 then clampNat 4 64 v
  else if a = 0xe014 ∧ lo = 0 then v % 2 ^ 26
  else if 0xb040 ≤ a ∧ a < 0xb340 then
    (if (a - 0xb040) % 0x30 = 0 ∧ lo = 0 then clampNat 10 120 v
     else if (a - 0xb040) % 0x30 = 4 ∧ lo = 0 then (if v = 0 then 0 else clampNat 5 100 v)
     else v)
  else match pgAt a with
  | some (_, x) => if 0x20 ≤ x ∧ x < 0x30 ∧ lo = 0 then min v 6000 else v
  | none => v

/-! ### What a write sets off -/

/-- Tier 2 accepts a change of its enable and placement (R197). -/
def Dev.tier2Idle (d : Dev) : Bool :=
  !d.extents.any (fun x => x.2.home || decide (x.2.state = 4)) && decide (d.chn.tier1 = []) && decide (d.chn.image = []) &&
    !d.extents.any (fun x => decide (0 < x.2.lostCount)) && decide (d.chn.tier2 = [])

/-- The checks at enabling (R197). -/
def Dev.tier2Checks (d : Dev) : Bool :=
  let p := d.rd ChurnR.T2_PORT
  let ld := d.rd ChurnR.T2_LD
  let u := d.rd ChurnR.T2_DPA_UNIT
  let n := d.rd ChurnR.T2_UNITS
  d.isDevicePort p && d.linkUp p && decide (1 ≤ n) && decide (n ≤ 16) && decide (u + n ≤ (d.port p).capacity.getD ld 0) &&
    !d.extents.any (fun x => decide (x.2.state ≠ 0) && decide (x.2.port = p) && decide (x.2.ld = ld) && decide (u ≤ x.2.dpaUnit) &&
      decide (x.2.dpaUnit < u + n))

/-- TIER2_EN as it was before the write, and what the write makes of it. -/
def Dev.tier2Enable (was : Bool) (d : Dev) : Dev :=
  let now := d.flag ChurnR.TIER2_EN
  if now = was then d
  else if ¬ now then { d with chn := { d.chn with zeroing := false } }.wrFlag ChurnR.TIER2_ACTIVE false
  else if d.tier2Checks then { d with chn := { d.chn with zeroing := true } }
  else (d.wrFlag ChurnR.TIER2_EN false).raise1 ChurnR.TIER2_FAULT

/-- Fields of a word that the device itself keeps from changing now: their lowest bits, and whether that is a tier-2 fault. -/
def Dev.frozen (d : Dev) (a : Nat) : List Nat :=
  if a = 0x5000 then (if d.tier2Idle then [] else [20])
  else if a = 0x5008 then (if d.tier2Idle ∧ ¬ d.flag ChurnR.TIER2_EN then [] else [0, 6, 10, 24])
  else if 0x10100 ≤ a ∧ a < 0x10180 then (if d.mode = 11 then [] else [0, 16])
  else match pgAt a with
  | some (_, x) => if 0x100 ≤ x ∧ x < 0x180 ∧ x % 0x20 = 0 ∧ d.mode ≠ 11 then [22] else []
  | none => []

/-- A trigger bit written as 1. -/
def Dev.trigger (t a lo : Nat) (d : Dev) : Dev :=
  if a = 0xf00c then d.flush
  else match pgAt a with
  | some (g, x) =>
    if 0x100 ≤ x ∧ x < 0x180 then
      (let p := 4 * g + (x - 0x100) / 0x20
       if lo = 8 then d.retrain p else d.fullRetrain t p)
    else if 0x200 ≤ x ∧ x < 0x300 then d.widthGo (4 * g + (x - 0x200) / 0x40)
    else if 0x400 ≤ x ∧ x < 0x600 then
      (let l := 16 * g + (x - 0x400) / 0x20
       if lo = 4 then d.prbsClear l else d.injectError l)
    else d
  | none => if inMonitor a then d.monClearAll (a / 0x1000 - 0x40) else d

/-- What follows the change of a word's fields; `x` is the device before it. -/
def Dev.afterWrite (t a : Nat) (d x : Dev) : Dev :=
  if a = 0x5000 then
    (let d := if d.rd ChurnR.BACKOFF_MAX < d.rd ChurnR.BACKOFF_BASE then d.wr ChurnR.BACKOFF_MAX (d.rd ChurnR.BACKOFF_BASE) else d
     d.tier2Enable (x.flag ChurnR.TIER2_EN))
  else if a = 0xd100 then d.selectRecord t (d.rd Elog.RECORD_SELECT)
  else if 0x10100 ≤ a ∧ a < 0x10180 then d.settingWritten t ((a - 0x10100) / 8) x
  else if 0xb040 ≤ a ∧ a < 0xb340 then
    (let c := (a - 0xb040) / 0x30
     if (a - 0xb040) % 0x30 = 0 then d.limitCheck t c else d)
  else match pgAt a with
  | some (g, y) =>
    if 0x100 ≤ y ∧ y < 0x180 ∧ y % 0x20 = 0 then
      (let p := 4 * g + (y - 0x100) / 0x20
       let d := if d.rd (Pg.phy_PORT_DISABLE p) = x.rd (Pg.phy_PORT_DISABLE p) ∨ ¬ d.flag (Pg.phy_PORT_DISABLE p) then d
         else d.portDisable t p
       if d.rd (Pg.phy_LOOPBACK_REQ p) = x.rd (Pg.phy_LOOPBACK_REQ p) then d else d.loopback t p (d.flag (Pg.phy_LOOPBACK_REQ p)))
    else if 0x400 ≤ y ∧ y < 0x600 ∧ y % 0x20 = 0xc then
      (let l := 16 * g + (y - 0x400) / 0x20
       let d := if d.rd (Pg.lane_CHK_PATTERN l) = x.rd (Pg.lane_CHK_PATTERN l) then d else d.wrFlag (Pg.lane_CHK_SYNC l) false
       if d.rd (Pg.lane_GEN_PATTERN l) = x.rd (Pg.lane_GEN_PATTERN l) then d else d.prbsState t l)
    else d
  | none => d

/-! ### Writes -/

/-- A write of one writable field: the enabled bits change, then the read-back rules hold; the three copies take the value. -/
def State.putField (a m v : Nat) (l : Slot) (s : State) : State :=
  let old := s.slotValue a l
  let mask := fieldOf m l.lo l.width
  let n := Nat.lor (Nat.land old (2 ^ l.width - 1 - mask)) (Nat.land (fieldOf v l.lo l.width) mask)
  let n := readBack a l.lo n
  if inMonitor a then { s with dev := s.dev.mwr (l.field a) n }
  else
    let d := s.dev.wr (l.field a) n
    { s with dev := if l.triple then d.agree (a * 32 + l.lo) else d }

/-- Clear the written bits of a W1C field. -/
def State.clearBits (a bits : Nat) (l : Slot) (s : State) : State :=
  if bits = 0 then s
  else if a = 0x10 then { s with guard := { s.guard with lockoutEvt := false } }
  else if a = 0x2004 then { s with time := { s.time with stepped := false } }
  else if inMonitor a then { s with dev := s.dev.ovfWrite (a / 0x1000 - 0x40) bits }
  else
    let v := s.slotValue a l
    { s with dev := s.dev.wr (l.field a) (Nat.land v (2 ^ l.width - 1 - bits)) }

/-- The word is a port group's PG_CONFIG (R48). -/
def isPgConfig (a : Nat) : Bool :=
  match pgAt a with
  | some (_, x) => decide (x = 0)
  | none => false

/-- A write of a route entry would leave it naming a port that is not QFL: it is rejected (R155). -/
def Dev.badRoute (d : Dev) (a mask v : Nat) : Bool :=
  decide (0x3040 ≤ a) && decide (a < 0x3080) &&
    (let old := d.rd (Qfab.PORT ((a - 0x3040) / 4))
     !d.isQflPort (Nat.lor (Nat.land old (63 - fieldOf mask 0 6)) (fieldOf (Nat.land v mask) 0 6)))

/-- A write of the bytes m of a control register (R438, R449, R451). `ring` submits a mailbox's message. -/
def State.writeCtl (ring : Nat → State → State) (path : AccessPath) (a m v : Nat) (s : State) : State :=
  let a := canonical a
  let t := s.time.now
  let mask := byteMask m
  let v := Nat.land v mask
  let ls := wordSlots a
  if a = 0xff0 then (if guardedPath path then s.keyWrite v else s)
  else if isPgConfig a then
    (if guardedPath path then
      (let s := (s.passGuard path).2
       { s with dev := s.dev.secEvent t 2 })
     else s)
  else if ls = [] ∨ ¬ s.dev.wordThere a then s
  else
    let (ok, s) := if ls.any Slot.keyed then s.passGuard path else (true, s)
    let x := s.dev
    if x.badRoute a mask v then s else
    let frozen := x.frozen a
    let fault := (decide (a = 0x5000) || decide (a = 0x5008)) && ok &&
      ls.any (fun l => frozen.contains l.lo && decide (fieldOf mask l.lo l.width ≠ 0))
    let s := (ls.filter (fun l => l.writable && (ok || !l.keyed) && !frozen.contains l.lo)).foldl (fun (s : State) l =>
      s.putField a mask v l) s
    let s := if fault then { s with dev := s.dev.raise1 ChurnR.TIER2_FAULT } else s
    let s := (ls.filter (fun l => l.acc = .w1c)).foldl (fun (s : State) l => s.clearBits a (fieldOf v l.lo l.width) l) s
    let s := { s with dev := s.dev.afterWrite t a x }
    (ls.filter (fun l => decide (l.acc = .w1s) && decide (fieldOf v l.lo l.width ≠ 0))).foldl (fun (s : State) l =>
      if a = 0xa000 then ring 64 s
      else match instAt a with
      | some (n, _) => ring n s
      | none => { s with dev := s.dev.trigger t a l.lo }) s

/-- Bytes written into a mailbox buffer; ignored and counted while BUSY (R417). -/
def State.writeBuffer (mb o m v : Nat) (s : State) : State :=
  if s.dev.flag (Mbx.BUSY mb) then { s with dev := s.dev.inc (Mbx.WRITES_IGNORED mb) }
  else
    { s with mem := (List.range 4).foldl (fun (x : Memory) i =>
        if fieldOf m i 1 = 1 then Memory.write x (Mailbox.cell mb o + i) (BitVec.ofNat 8 (v / 2 ^ (8 * i))) else x) s.mem }

/-- A write of a word of an MSI-X table (R322, R327, R330). -/
def Dev.writeMsix (t n x m v : Nat) (d : Dev) : Dev :=
  let vec := (x - 0x8000) / 16
  let w := x % 16 / 4
  if x < 0x8000 ∨ 0x10000 ≤ x ∨ d.rd (Vi.MSIX_COUNT n) ≤ vec then d else
  let mask := byteMask m
  let k := vecKey n vec * 4 + w
  let old := d.msixWord n x
  let new := Nat.lor (Nat.land old (2 ^ 32 - 1 - mask)) (Nat.land v mask)
  ({ d with irq := { d.irq with table := Tab.set d.irq.table k new } }).sendUnmasked t n

/-- A write of one word, bytes m, anywhere but the alias region. -/
def State.writeWord (ring : Nat → State → State) (path : AccessPath) (a m v : Nat) (s : State) : State :=
  match bufferAt a with
  | some (mb, o) => s.writeBuffer mb o m v
  | none =>
    if a < 0x100000 then s.writeCtl ring path a m v
    else if a < 0x2000000 then
      (if (windowAt a).isSome then { s with dev := s.dev.inc Glob.ARRAY_WRITES_IGNORED } else s)
    else match instAt a with
    | some (n, x) =>
      if 0x8000 ≤ x then { s with dev := s.dev.writeMsix s.time.now n x m v }
      else if 0x2000 ≤ x ∧ x < 0x4000 then
        { s with dev := s.dev.hostDoorbell s.time.now n ((x - 0x2000) / 8) (decide (x % 8 = 4)) (Nat.land v (byteMask m)) }
      else s.writeCtl ring path a m v
    | none => s

/-- An alias write of any bit of PG_CONFIG changes nothing and is logged (R48, R447); the guard answers for a guarded bit (R451). -/
def State.aliasPgConfig (path : AccessPath) (a b : Nat) (s : State) : State :=
  let s := match slotOfBit a b with
    | some l => if l.keyed then (s.passGuard path).2 else s
    | none => s
  { s with dev := s.dev.secEvent s.time.now 2 }

/-- An alias write of bit b of the register at a (R446, R447). -/
def State.aliasWrite (ring : Nat → State → State) (path : AccessPath) (a b bit : Nat) (s : State) : State :=
  if isPgConfig a then (if guardedPath path then s.aliasPgConfig path a b else s) else
  match slotOfBit a b with
  | none => s
  | some l =>
    if l.acc = .wo then s
    else if ¬ s.dev.wordThere a then s
    else if l.writable then
      let (ok, s) := if l.keyed then s.passGuard path else (true, s)
      if ¬ ok then s else
      let x := s.dev
      if x.badRoute a (2 ^ b) (bit * 2 ^ b) then s else
      if (x.frozen a).contains l.lo then
        (if a = 0x5000 ∨ a = 0x5008 then { s with dev := s.dev.raise1 ChurnR.TIER2_FAULT } else s)
      else
        let s := s.putField a (2 ^ b) (bit * 2 ^ b) l
        { s with dev := s.dev.afterWrite s.time.now a x }
    else if l.acc = .w1c then (if bit = 0 then s.clearBits a (2 ^ (b - l.lo)) l else s)
    else if l.acc = .w1s ∧ bit = 1 then
      (if a = 0xa000 then ring 64 s else { s with dev := s.dev.trigger s.time.now a l.lo })
    else s

/-- A write of any size (R438, R446). -/
def State.writeAccess (ring : Nat → State → State) (path : AccessPath) (off size v : Nat) (s : State) : State :=
  if ¬ okAccess off size then { s with dev := s.dev.inc Glob.BAD_ACCESSES }
  else if 0x2000000 ≤ off ∧ off < 0x4000000 then
    (let (a, b) := aliasOf off
     s.aliasWrite ring path a b (v % 2))
  else if size = 8 then
    (s.writeWord ring path off 15 (v % 2 ^ 32)).writeWord ring path (off + 4) 15 (v / 2 ^ 32 % 2 ^ 32)
  else
    let w := off / 4 * 4
    s.writeWord ring path w ((2 ^ size - 1) * 2 ^ (off - w)) (v % 2 ^ (8 * size) * 2 ^ (8 * (off - w)))

/-- A path can reach the registers now: nothing answers in OM0; JTAG only with a debug instruction where R482 admits one; before boot
has ended the firmware's paths are not there either. -/
def Dev.pathOpen (d : Dev) (path : AccessPath) : Bool :=
  decide (d.mode ≠ 0) && (match path with
    | .jtag => !d.partS && decide (d.mode = 11) && decide (0x80 ≤ d.jtag.instruction) && decide (d.jtag.instruction ≤ 0xfe)
    | _ => true)

end Sys2Proof.Machine
end

