-- ==== Sys2Proof/Machine/RegRows.lean ====
section
/-! DEFINITION. The register accesses that are rows of their own: control writes of the QFL port and lane blocks, the key, the guarded
configuration, the latching, clearing and windowed reads, the scrubber's visit and the rewrite of a damaged table entry. -/
namespace Sys2Proof.Machine
open Sys2Proof

/-- A read over a path: data, or Completer Abort (R438). Nothing answers while the path is closed. -/
def readRow (path : AccessPath) (off size : Nat) (s : State) : State :=
  if ¬ s.dev.pathOpen path then s else
  match s.readAccess path off size with
  | (some v, s) => { s with dev := s.dev.emit (.readData path off size v) }
  | (none, s) => { s with dev := s.dev.emit (.completerAbort path) }

/-- A write over a path that submits no mailbox message. -/
def writeRow (path : AccessPath) (off size v : Nat) (s : State) : State :=
  if ¬ s.dev.pathOpen path then s else s.writeAccess (fun _ s => s) path off size v

/-- A read of a register as a command. -/
def readCmd (path : AccessPath) (off size : Nat) (s : State) : Host.Outcome State Fault Refusal :=
  settled s (.next (readRow path off size s))

/-- A write of a register as a command. -/
def writeCmd (path : AccessPath) (off size v : Nat) (s : State) : Host.Outcome State Fault Refusal :=
  settled s (.next (writeRow path off size v s))

/-- Offset of word +o of a QFL port's block of eight registers (R112). -/
def physOffset (p o : Nat) : Nat := 0x20000 + 0x1000 * (p / 4) + 0x100 + 0x20 * (p % 4) + o

/-- Offset of a lane's PRBS_CONTROL (R113). -/
def prbsOffset (l : Nat) : Nat := 0x20000 + 0x1000 * (l / 16) + 0x400 + 0x20 * (l % 16) + 0xc

/-- Offset of a QFL port's link control (R154). -/
def linkOffset (p : Nat) : Nat := 0x20000 + 0x1000 * (p / 4) + 0x200 + 0x40 * (p % 4)

/-- PORT_DISABLE: a write of QFL_PHY_CONTROL; bit 7 disables the port or releases it (R112). -/
def execPortDisable (path : AccessPath) (port : Fin 64) (value : BitVec 32) (s : State) : Host.Outcome State Fault Refusal :=
  writeCmd path (physOffset port.val 0) 4 value.toNat s

/-- RETRAIN: a write of QFL_PHY_CONTROL; bit 8 starts RECOVERY from ACTIVE (R112). -/
def execRetrain (path : AccessPath) (port : Fin 64) (value : BitVec 32) (s : State) : Host.Outcome State Fault Refusal :=
  writeCmd path (physOffset port.val 0) 4 value.toNat s

/-- FULL_RETRAIN: a write of QFL_PHY_CONTROL; bit 9 sends EIOS and enters DETECT (R112). -/
def execFullRetrain (path : AccessPath) (port : Fin 64) (value : BitVec 32) (s : State) : Host.Outcome State Fault Refusal :=
  writeCmd path (physOffset port.val 0) 4 value.toNat s

/-- LOOPBACK_REQ: a write of QFL_PHY_CONTROL; bit 22 starts or ends loopback as master in OM11 (R111). -/
def execLoopbackReq (path : AccessPath) (port : Fin 64) (value : BitVec 32) (s : State) : Host.Outcome State Fault Refusal :=
  writeCmd path (physOffset port.val 0) 4 value.toNat s

/-- GEN_PATTERN: a write of PRBS_CONTROL; a generator pattern puts the port in PRBS (R109). -/
def execGenPattern (path : AccessPath) (lane : Fin 256) (value : BitVec 32) (s : State) : Host.Outcome State Fault Refusal :=
  writeCmd path (prbsOffset lane.val) 4 value.toNat s

/-- PRBS_CLEAR: a write of PRBS_CONTROL; bit 4 clears the lane's counts (R113). -/
def execPrbsClear (path : AccessPath) (lane : Fin 256) (value : BitVec 32) (s : State) : Host.Outcome State Fault Refusal :=
  writeCmd path (prbsOffset lane.val) 4 value.toNat s

/-- INJECT_ERROR: a write of PRBS_CONTROL; bit 5 inverts one generated bit (R113). -/
def execInjectError (path : AccessPath) (lane : Fin 256) (value : BitVec 32) (s : State) : Host.Outcome State Fault Refusal :=
  writeCmd path (prbsOffset lane.val) 4 value.toNat s

/-- WIDTH_GO: a write of the port's link control; the trigger starts a change to WIDTH_REQ or refuses it (R135). -/
def execWidthGo (path : AccessPath) (port : Fin 64) (value : BitVec 32) (s : State) : Host.Outcome State Fault Refusal :=
  writeCmd path (linkOffset port.val) 4 value.toNat s

/-- TIER2_EN: a write of the Churn control word; setting the bit checks the placement and starts zeroing (R197). -/
def execTier2En (path : AccessPath) (value : BitVec 32) (s : State) : Host.Outcome State Fault Refusal :=
  writeCmd path 0x5000 4 value.toNat s

/-- CSR_KEY: unlock, count a wrong key, or lock out (R448 to R450). -/
def execCsrKey (path : AccessPath) (value : BitVec 32) (s : State) : Host.Outcome State Fault Refusal :=
  writeCmd path 0xff0 4 value.toNat s

/-- PG_CONFIG: a direct write changes nothing, is logged and consumes an unlock (R48). -/
def execPgConfig (path : AccessPath) (group : Fin 16) (value : BitVec 32) (s : State) : Host.Outcome State Fault Refusal :=
  writeCmd path (0x20000 + 0x1000 * group.val) 4 value.toNat s

/-- LATCHING_READ: a read of a low register latches its upper half for the path (R443). -/
def execLatchingRead (path : AccessPath) (off size : Nat) (s : State) : Host.Outcome State Fault Refusal := readCmd path off size s

/-- CLEAR_ON_READ: a read that returns a whole RC field clears it (R438). -/
def execClearOnRead (path : AccessPath) (off size : Nat) (s : State) : Host.Outcome State Fault Refusal := readCmd path off size s

/-- ARRAY_ENTRY_READ: a read of an entry's first word latches the entry for the path (R456). -/
def execArrayEntryRead (path : AccessPath) (off size : Nat) (s : State) : Host.Outcome State Fault Refusal := readCmd path off size s

/-- ARRAY_WINDOW_WRITE: a write of a window is discarded and counted (R455). -/
def execArrayWindowWrite (path : AccessPath) (off size : Nat) (s : State) : Host.Outcome State Fault Refusal :=
  writeCmd path off size 0 s

/-- TRIPLE_SCRUB: the scrubber visits the register at an offset (R453). -/
def execTripleScrub (off : Nat) (s : State) : Host.Outcome State Fault Refusal :=
  .next { s with dev := if s.dev.mode = 0 then s.dev else s.dev.scrub (canonical off) }

/-- The words REG_READ reads, in rising offset. -/
def State.regWords : Nat → Nat → State → List Byte × State
  | 0, _, s => ([], s)
  | n + 1, off, s =>
    match s.readAccess .reg off 4 with
    | (v, s) =>
      let (rest, s) := State.regWords n (off + 4) s
      (leBytes 4 (v.getD 0) ++ rest, s)

/-- REG_READ: 4-byte reads on behalf of the requester (R432, R438). -/
def execRegRead (h : SilekHdr) (off count : Nat) (s : State) : Host.Outcome State Fault Refusal :=
  runSettled h { opcode := 0x801, key := .regRead h.key off count } (fun s =>
    if ¬ h.padOk ∨ count < 1 ∨ 256 < count ∨ off % 4 ≠ 0 ∨ instBase < off + 4 * count then (s, .err .badParam)
    else
      let (bs, s) := State.regWords count off s
      (s, .final .ok bs)) s

/-- Page that an array's errors name: the extent map, windows and binding slots are of page 4, the sharer slots of page 5, the queue
table of page 6, the instance table of page 7. -/
def arrayPage (table : Nat) : Nat :=
  match table with
  | 3 => 5
  | 4 => 6
  | 5 => 7
  | _ => 4

/-- ARRAY_REWRITE: the control processor rewrites a damaged entry of a table (0 extent map, 1 windows, 2 binding slots, 3 sharer slots,
4 queue table, 5 instance table) from its own copy: the entry keeps its content, the error is logged and counted (R516, R524, R540). -/
def execArrayRewrite (table : Fin 6) (index : Nat) (s : State) : Host.Outcome State Fault Refusal :=
  onDev (fun t d => if d.mode = 0 then d else
    (d.hbCount 4 1).logErr t { cls := 2, severity := 1, source := arrayPage table.val, addr := index, detail := 8 }) s

end Sys2Proof.Machine
end

