-- ==== Sys2Proof/Machine/Basic.lean ====
section
/-! DEFINITION. The commands of group 0x01xx, event delivery, SECURITY_STATUS, REG_WRITE, DIR_READ (R413, R427 to R430, R432,
R484, R535). -/
namespace Sys2Proof.Machine
open Sys2Proof

/-! ### Group 0x01xx (R430) -/

/-- SILEK_VERSION. -/
def execSilekVersion (h : SilekHdr) (s : State) : Host.Outcome State Fault Refusal :=
  runSilek h { opcode := 0x101, key := .silekVersion h.key } (queryBody fun _ => .final .ok versionPayload) s

/-- The 32 bytes of DEVICE_INFO. -/
def Dev.deviceInfo (d : Dev) : List Byte :=
  leBytes 2 (d.rd Ident.PART_CODE) ++ leBytes 1 d.fuses.stepping ++ leBytes 1 (flagBit d.partS) ++ leBytes 1 (d.rd Ident.FW_MAJOR) ++
    leBytes 1 (d.rd Ident.FW_MINOR) ++ leBytes 1 (d.rd Ident.FW_PATCH) ++ leBytes 1 (d.rd Ident.FW_BUILD) ++
    leBytes 2 (d.rd Ident.FW_INTERFACE) ++ leBytes 1 (d.rd Ident.ACTIVE_BANK) ++ leBytes 1 d.mode ++ leBytes 1 d.chainAddr ++
    leBytes 1 d.rst.straps.role ++ leBytes 1 2 ++ leBytes 1 3 ++ leBytes 2 (d.rd Glob.SPEED_INDEX) ++ zeros 2 ++ leBytes 4 d.epoch ++
    zeros 8

/-- DEVICE_INFO. -/
def execDeviceInfo (h : SilekHdr) (s : State) : Host.Outcome State Fault Refusal :=
  runSilek h { opcode := 0x102, key := .deviceInfo h.key } (queryBody fun s => .final .ok s.dev.deviceInfo) s

/-- PORT_STATUS_k of port p; an absent port's reads zero (R49). -/
def State.portStatus (s : State) (p : Nat) : Nat :=
  if s.dev.present p then s.plainWord (0x20010 + 0x1000 * (p / 4) + 4 * (p % 4)) else 0

/-- The words of PORT_STATUS_QUERY. -/
def State.portStatuses (s : State) (first count : Nat) : Result :=
  if count < 1 ∨ 64 < count ∨ 64 < first + count then .err .badParam
  else .final .ok ((List.range count).map (fun i => leBytes 4 (s.portStatus (first + i)))).flatten

/-- PORT_STATUS_QUERY. -/
def execPortStatusQuery (h : SilekHdr) (first count : Nat) (s : State) : Host.Outcome State Fault Refusal :=
  runSilek h { opcode := 0x103, key := .portStatusQuery h.key first count } (queryBody fun s => s.portStatuses first count) s

/-- Every opcode with the minor version that added it (R411). -/
def opcodeMinors : List (Nat × Nat) :=
  [(0x101, 0), (0x102, 0), (0x103, 0), (0x104, 0), (0x105, 0), (0x106, 1), (0x107, 1),
   (0x201, 0), (0x202, 0), (0x203, 0), (0x210, 0), (0x211, 3), (0x220, 0), (0x221, 0), (0x230, 2), (0x231, 2), (0x232, 0), (0x240, 0),
   (0x241, 0),
   (0x301, 0), (0x302, 0), (0x310, 0), (0x311, 0), (0x312, 0), (0x320, 2), (0x321, 2), (0x340, 0), (0x341, 0), (0x342, 0), (0x343, 0),
   (0x344, 0), (0x345, 2),
   (0x401, 0), (0x402, 0), (0x403, 0), (0x404, 0)] ++
  [(0x501, 0), (0x502, 0), (0x503, 0), (0x504, 0), (0x505, 0), (0x506, 0), (0x507, 3), (0x508, 3), (0x509, 3), (0x510, 0), (0x511, 3),
   (0x601, 0), (0x602, 0), (0x603, 0), (0x604, 0), (0x701, 0), (0x702, 0), (0x703, 0), (0x704, 0), (0x705, 0), (0x710, 0), (0x711, 0),
   (0x720, 0), (0x801, 0), (0x802, 0), (0x810, 1), (0x811, 1), (0x812, 1), (0x820, 0),
   (0x901, 0), (0x902, 0), (0x910, 0), (0x911, 0), (0x920, 0), (0x930, 0), (0x931, 0),
   (0xa01, 0), (0xa02, 0), (0xa10, 0), (0xa11, 0), (0xa20, 0), (0xa30, 0), (0xa31, 0)]

/-- The bitmap of a group at an operating minor version. -/
def supportMap (group minor : Nat) : Nat :=
  ((opcodeMinors.filter (fun x => x.1 / 256 = group ∧ x.2 ≤ minor)).map (fun x => 2 ^ (x.1 % 256))).foldl (· + ·) 0

/-- COMMAND_SUPPORT. -/
def execCommandSupport (h : SilekHdr) (group : Nat) (s : State) : Host.Outcome State Fault Refusal :=
  runSilek h { opcode := 0x104, key := .commandSupport h.key group }
    (queryBody fun _ => if group < 1 ∨ 10 < group then .err .badParam
      else .final .ok (leBytes 32 (supportMap group (min h.minor 3)))) s

/-! ### Events (R427 to R430) -/

/-- EVENT_READ: acknowledges first, then reads from the queue (R430). -/
def Dev.eventRead (t first count upto : Nat) (d : Dev) : Dev × Result :=
  if 64 < count then (d, .err .badParam) else
  let q := if upto = 0 then d.events.queue else d.events.queue.filter (fun r => upto < r.seq)
  let d := ({ d with events := { d.events with queue := q } }).syncEventPending t
  let l := (q.dropWhile (fun r => r.seq < first)).take count
  (d, .final .ok (leBytes 2 l.length ++ zeros 2 ++ (l.map EventRec.bytes).flatten))

/-- EVENT_READ. -/
def execEventRead (h : SilekHdr) (first count ackUpto : Nat) (s : State) : Host.Outcome State Fault Refusal :=
  runSilek h { opcode := 0x105, key := .eventRead h.key first count ackUpto } (devBody fun t d => d.eventRead t first count ackUpto) s

/-- EVENT_SUBSCRIBE (R429, R430): class 0 none, 1 MCTP, 2 management mailbox. -/
def Dev.eventSubscribe (t cls eid : Nat) (d : Dev) : Dev × Result :=
  if d.mode = 6 ∨ d.mode = 7 then (d, .err .notPermitted)
  else if 2 < cls then (d, .err .badParam)
  else
    let sent := d.silek.sent.filter (fun c => c.opcode ≠ 0x107)
    (({ d with events := { d.events with cls, eid, notified := [] }, silek := { d.silek with sent } }).syncEventPending t, .final .ok [])

/-- EVENT_SUBSCRIBE. -/
def execEventSubscribe (h : SilekHdr) (cls eid : Nat) (s : State) : Host.Outcome State Fault Refusal :=
  runSilek h { opcode := 0x106, minMinor := 1, key := .eventSubscribe h.key cls eid } (devBody fun t d => d.eventSubscribe t cls eid) s

/-- EVENT_NOTIFY: the records of a member join the queue unchanged, SEQ and SOURCE included (R429). The record of a release its host
began is the notice on which the manager drops the binding at the owner (R177, log entry 171). -/
def Dev.eventNotify (t count : Nat) (records : List (BitVec 256)) (d : Dev) : Dev × Result :=
  if count < 1 ∨ 16 < count ∨ records.length ≠ count then (d, .err .badParam)
  else (records.foldl (fun (d : Dev) r =>
    let e := EventRec.ofBits r
    let d := d.queueEvent t e
    if e.code = 3 then d.noticeRelease t e.source e.data else d) d, .final .ok [])

/-- EVENT_NOTIFY. -/
def execEventNotify (h : SilekHdr) (count : Nat) (records : List (BitVec 256)) (s : State) : Host.Outcome State Fault Refusal :=
  runSilek h { opcode := 0x107, minMinor := 1, key := .eventNotify h.key count records } (devBody fun t d => d.eventNotify t count records) s

/-- Where the device's records go: a worker or mirror's to the acting primary, another's to its MCTP subscriber as destination
256 + e (R429). -/
def Dev.eventTarget (d : Dev) : Option Nat :=
  if d.mode = 6 ∨ d.mode = 7 then (if d.rd Memb.PRIMARY_ADDR = 0 then none else some (d.rd Memb.PRIMARY_ADDR))
  else if d.mode ≤ 1 then none
  else if d.events.cls = 1 then some (256 + d.events.eid) else none

/-- EVENT_NOTIFY_PERIOD: at most once per 1 ms, up to 16 unacknowledged records go to the subscriber. A notice to a member that is
not answered is not followed by another; one to an MCTP endpoint is replaced. -/
def Dev.notifyPeriod (t : Nat) (d : Dev) : Dev :=
  match d.eventTarget with
  | none => d
  | some a =>
    if d.events.queue = [] ∨ (a < 256 ∧ d.events.notified ≠ []) then d else
    let l := d.events.queue.take 16
    let sent := d.silek.sent.filter (fun c => c.opcode ≠ 0x107)
    ({ d with events := { d.events with notified := l }, silek := { d.silek with sent } }).sendCommand t a 0x107 0
      (leBytes 2 l.length ++ (l.map EventRec.bytes).flatten)

/-- EVENT_NOTIFY_PERIOD. -/
def execEventNotifyPeriod (s : State) : Host.Outcome State Fault Refusal := onDev (fun t d => d.notifyPeriod t) s

/-! ### SECURITY_STATUS, REG_WRITE, DIR_READ -/

/-- SECURITY_STATUS: the 32 bytes of the SC page from 0x000 (R484). -/
def execSecurityStatus (h : SilekHdr) (s : State) : Host.Outcome State Fault Refusal :=
  runSilek h { opcode := 0x720, key := .securityStatus h.key }
    (queryBody fun s => .final .ok ((List.range 8).map (fun w => leBytes 4 (s.plainWord (0xc000 + 4 * w)))).flatten) s

/-- A DOORBELL written in a register: ignored and counted while the mailbox is BUSY; otherwise it stays set until the mailbox takes
its message at the end of the command that wrote it (R417). In OM1 nothing takes it. -/
def State.ringMark (mb : Nat) (s : State) : State :=
  if s.dev.mode ≤ 1 then s
  else if s.dev.flag (Mbx.BUSY mb) then { s with dev := s.dev.inc (Mbx.WRITES_IGNORED mb) }
  else { s with dev := s.dev.raise1 (Mbx.DOORBELL mb) }

/-- REG_WRITE: a CXL.io write of the management function at the offset (R432); a route entry naming a port that is not QFL is refused (R155). -/
def regWrite (h : SilekHdr) (off value : Nat) (s : State) : Host.Outcome State Fault Refusal :=
  runSettled h { opcode := 0x802, key := .regWrite h.key off value } (fun s =>
    if off % 4 ≠ 0 ∨ instBase ≤ off ∨ 2 ^ 32 ≤ value ∨ s.dev.badRoute off (2 ^ 32 - 1) value then (s, .err .badParam)
    else (s.writeAccess State.ringMark .reg off 4 value, .final .ok [])) s

/-- The 16 ways of a set, 16 bytes each in the layout of R194; zero while the slices are in their low-power state. -/
def Dev.dirWays (d : Dev) (slice set : Nat) : List Byte :=
  ((List.range 16).map (fun w => match Tab.get d.chn.tier1 (wayKey slice set w) with
    | some e => leBytes 16 (if d.chn.gated then 0 else e.wayBits)
    | none => zeros 16)).flatten

/-- 32 tier-2 buckets from b on behind their poison bitmap; a bucket read with poison is zeros. -/
def Dev.dirBuckets (d : Dev) (b : Nat) : List Byte :=
  let bad (i : Nat) : Bool := d.chn.badBuckets.contains (b + i)
  leBytes 4 (((List.range 32).map (fun i => if bad i then 2 ^ i else 0)).foldl (· + ·) 0) ++
    ((List.range 32).map (fun i => if bad i then zeros 64 else leBytes 64 (d.bucketLine (b + i)).toNat)).flatten

/-- DIR_READ (R535). -/
def Dev.dirRead (slice set : Nat) (d : Dev) : Result :=
  if slice < 128 then (if 31 < slice ∨ 4095 < set then .err .badParam else .final .ok (d.dirWays slice set))
  else
    let b := ((slice - 128) * 65536 + set) * 32
    if 255 < slice ∨ 65535 < set ∨ ¬ d.flag ChurnR.TIER2_ACTIVE ∨ d.rd ChurnR.T2_UNITS * 4194304 ≤ b then .err .badParam
    else .final .ok (d.dirBuckets b)

/-- DIR_READ. -/
def execDirRead (h : SilekHdr) (slice set : Nat) (s : State) : Host.Outcome State Fault Refusal :=
  runSilek h { opcode := 0x820, key := .dirRead h.key slice set } (queryBody fun s => s.dev.dirRead slice set) s

end Sys2Proof.Machine
end

