-- ==== Sys2Proof/Machine/Bindings.lean ====
section
/-! DEFINITION. The commands and events of binding, migration, zeroing, sharer slots and reclaim (R163, R172 to R178, R184 to R189,
R197, R220, R221, R226, R234, R238). -/
namespace Sys2Proof.Machine
open Sys2Proof

/-- EXTENT_BIND. -/
def execExtentBind (h : SilekHdr) (window off count kind : Nat) (extents : List Nat) (s : State) : Host.Outcome State Fault Refusal :=
  runSettled h { opcode := 0x220, key := .extentBind h.key window off count kind extents }
    (devBody fun t d => d.bindAt t window off count kind extents (memberSender h.requester)) s

/-- EXTENT_UNBIND. -/
def execExtentUnbind (h : SilekHdr) (window off count : Nat) (force zero : Bool) (s : State) : Host.Outcome State Fault Refusal :=
  runSettled h { opcode := 0x221, key := .extentUnbind h.key window off count force zero }
    (devBody fun t d => d.unbindAt t window off count force zero) s

/-- EXTENT_MIGRATE. -/
def execExtentMigrate (h : SilekHdr) (src dst queue : Nat) (zero : Bool) (s : State) : Host.Outcome State Fault Refusal :=
  runSettled h { opcode := 0x230, minMinor := 2, key := .extentMigrate h.key src dst queue zero }
    (devBody fun t d => d.migrateAt t src dst queue zero) s

/-- EXTENT_MIGRATE_ABORT. -/
def execExtentMigrateAbort (h : SilekHdr) (src : Nat) (s : State) : Host.Outcome State Fault Refusal :=
  runSettled h { opcode := 0x231, minMinor := 2, key := .extentMigrateAbort h.key src } (devBody fun t d => d.migrateAbortAt t src) s

/-- EXTENT_ZERO. -/
def execExtentZero (h : SilekHdr) (extent queue : Nat) (s : State) : Host.Outcome State Fault Refusal :=
  runSettled h { opcode := 0x232, key := .extentZero h.key extent queue } (devBody fun t d => d.extentZeroAt t extent queue) s

/-- The VALID slots of an instance's windows as DC extents (R174). -/
def Dev.dcExtents (d : Dev) (vi : Nat) : List DcExtent :=
  ((d.windowsOf vi).map (fun w => (w.2.slots.filter (fun k => (d.slot k).valid)).map (d.dcExtent w.2))).flatten

/-- The instance whose Dynamic Capacity the host behind a port sees: a CXL 3.x host's (R178). -/
def Dev.dcInstance (d : Dev) (p : Nat) : Option Nat :=
  if ¬ d.linkUp p then none else (d.viOfPort p).filter (fun vi => d.hostGen vi = 3)

/-- ADD_DYNAMIC_CAPACITY_RESPONSE. -/
def execAddDynamicCapacityResponse (port : Fin 64) (slots : List Nat) (s : State) : Host.Outcome State Fault Refusal :=
  onSettled (fun t d =>
    match d.dcInstance port with
    | some vi => d.addResponse t vi slots
    | none => d) s

/-- RELEASE_DYNAMIC_CAPACITY. -/
def execReleaseDynamicCapacity (port : Fin 64) (slots : List Nat) (s : State) : Host.Outcome State Fault Refusal :=
  onSettled (fun t d =>
    match d.dcInstance port with
    | some vi => d.hostRelease t vi slots
    | none => d) s

/-- GET_DYNAMIC_CAPACITY_EXTENT_LIST. -/
def execGetDynamicCapacityExtentList (port : Fin 64) (s : State) : Host.Outcome State Fault Refusal :=
  onDev (fun _ d =>
    match d.dcInstance port with
    | some vi => d.emit (.host port (.dcExtents vi (d.dcExtents vi)))
    | none => d) s

/-- BIND_HOST_TIMEOUT: slots still PENDING are declined. -/
def execBindHostTimeout (id : Nat) (s : State) : Host.Outcome State Fault Refusal :=
  onSettled (fun t d =>
    match d.binder.bindings.find? (fun b => b.id = id ∧ b.member = 0 ∧ b.asked = []) with
    | some b => d.endBinding t b [] true
    | none => d) s

/-- RELEASE_HOST_TIMEOUT. -/
def execReleaseHostTimeout (id : Nat) (s : State) : Host.Outcome State Fault Refusal :=
  onSettled (fun t d => d.releaseTimeout t id) s

/-- UNBIND_SCAN_COMPLETE. -/
def execUnbindScanComplete (id : Nat) (s : State) : Host.Outcome State Fault Refusal :=
  onSettled (fun t d => d.unbindFinish t id) s

/-- VIRTUAL_HOT_ADD. -/
def execVirtualHotAdd (vi : Fin 64) (s : State) : Host.Outcome State Fault Refusal :=
  onSettled (fun t d => d.hotAdd t vi) s

/-- MIGRATION_COMPLETE. -/
def execMigrationComplete (index : Fin 32) (s : State) : Host.Outcome State Fault Refusal :=
  onSettled (fun t d => d.migrationComplete t index) s

/-- RECLAIM_DONE. -/
def execReclaimDone (slot : Fin 64) (s : State) : Host.Outcome State Fault Refusal :=
  onSettled (fun t d => d.reclaimDone t slot) s

/-- DEVICE_PORT_RECLAIM_DONE. -/
def execDevicePortReclaimDone (port : Fin 64) (s : State) : Host.Outcome State Fault Refusal :=
  onSettled (fun t d => d.portReclaimDone t port) s

/-- A SHARED binding depends on a slot: of an instance of its host port, or of another device. -/
def Dev.slotNeeded (d : Dev) (x : SharerSlot) : Bool :=
  if ¬ x.valid then false
  else if x.kind = 0 then
    (match d.viOfPort x.port with
     | some vi => (d.windowsOf vi).any (fun w => decide (w.2.kind = 1) && decide (d.heldSlots w.2 ≠ []))
     | none => false)
  else d.extents.any (fun e => decide (e.2.state = 4) && e.2.remote.contains x.chain)

/-- SHARER_SLOT_SET (R221). -/
def Dev.sharerSlotSet (k : Nat) (valid : Bool) (kind port chain : Nat) (d : Dev) : Dev × Result :=
  let x : SharerSlot := if valid then { valid, kind, port := if kind = 0 then port else 0, chain := if kind = 0 then 0 else chain } else {}
  let old := d.sharer k
  if 63 < k ∨ 1 < kind then (d, .err .badParam)
  else if valid ∧ kind = 0 ∧ ¬ d.isHostPort port then (d, .err .badParam)
  else if valid ∧ kind = 1 ∧ (chain < 1 ∨ 16 < chain ∨ chain = d.chainAddr) then (d, .err .badParam)
  else if valid ∧ d.chn.slots.any (fun y => y.1 ≠ k ∧ y.2.valid ∧ y.2.kind = kind ∧ y.2.port = x.port ∧ y.2.chain = x.chain) then
    (d, .err .badParam)
  else if x ≠ old ∧ (d.refs k ≠ 0 ∨ d.slotNeeded old) then (d, .err .busy)
  else ({ d with chn := { d.chn with slots := Tab.put d.chn.slots k x {} } }, .final .ok [])

/-- SHARER_SLOT_SET. -/
def execSharerSlotSet (h : SilekHdr) (slot : Nat) (valid : Bool) (kind port chain : Nat) (s : State) : Host.Outcome State Fault Refusal :=
  runSettled h { opcode := 0x510, key := .sharerSlotSet h.key slot valid kind port chain }
    (devBody fun _ d => d.sharerSlotSet slot valid kind port chain) s

/-- SHARER_SLOT_QUERY. -/
def execSharerSlotQuery (h : SilekHdr) (s : State) : Host.Outcome State Fault Refusal :=
  runSilek h { opcode := 0x511, minMinor := 3, key := .sharerSlotQuery h.key }
    (queryBody fun s => .final .ok (((List.range 64).map (fun i => leBytes 8 (s.dev.sharerBits i))).flatten)) s

/-- TIER2_ZEROING_DONE. -/
def execTier2ZeroingDone (s : State) : Host.Outcome State Fault Refusal :=
  onSettled (fun t d =>
    if d.chn.zeroing ∧ d.flag ChurnR.TIER2_EN then
      (({ d with chn := { d.chn with zeroing := false, tier2 := [] } }).raise1 ChurnR.TIER2_ACTIVE).sinkWaiting t none
    else d) s

end Sys2Proof.Machine
end

