-- ==== Sys2Proof/Machine/Capacity.lean ====
section
/-! DEFINITION. The commands that register capacity, configure windows and write the Gate (R159, R160, R166, R167, R361, R362). -/
namespace Sys2Proof.Machine
open Sys2Proof

/-- CAPACITY_ADD. -/
def execCapacityAdd (h : SilekHdr) (port ld unit count first : Nat) (s : State) : Host.Outcome State Fault Refusal :=
  runSettled h { opcode := 0x201, key := .capacityAdd h.key port ld unit count first }
    (devBody fun _ d => d.capacityAdd port ld unit count first) s

/-- CAPACITY_REMOVE. -/
def execCapacityRemove (h : SilekHdr) (first count : Nat) (s : State) : Host.Outcome State Fault Refusal :=
  runSettled h { opcode := 0x202, key := .capacityRemove h.key first count } (devBody fun _ d => d.capacityRemove first count) s

/-- WINDOW_CONFIG. -/
def execWindowConfig (h : SilekHdr) (window vi region kind slotBase slotCount : Nat) (enable : Bool) (s : State) :
    Host.Outcome State Fault Refusal :=
  runSettled h { opcode := 0x210, key := .windowConfig h.key window vi region kind slotBase slotCount enable }
    (devBody fun t d => d.windowConfigAt t window vi region kind slotBase slotCount enable) s

/-- HDM_DECODER_COMMIT. -/
def execHdmDecoderCommit (port : Fin 64) (window : Fin 256) (base size ways dpa : Nat) (commit : Bool) (s : State) :
    Host.Outcome State Fault Refusal :=
  onSettled (fun _ d => if d.linkUp port then d.decoderCommit port window base size ways dpa commit else d) s

/-- GATE_WRITE. -/
def execGateWrite (h : SilekHdr) (addr first : Nat) (rules : List (BitVec 256)) (s : State) : Host.Outcome State Fault Refusal :=
  runSettled h { opcode := 0x401, key := .gateWrite h.key addr first rules } (devBody fun t d => d.gateWrite t addr first rules) s

/-- GATE_COMMIT. -/
def execGateCommit (h : SilekHdr) (expected : Nat) (s : State) : Host.Outcome State Fault Refusal :=
  runSettled h { opcode := 0x402, key := .gateCommit h.key expected } (devBody fun t d => d.gateCommit t expected) s

/-- GATE_DISCARD. -/
def execGateDiscard (h : SilekHdr) (addr : Nat) (s : State) : Host.Outcome State Fault Refusal :=
  runSettled h { opcode := 0x404, key := .gateDiscard h.key addr } (devBody fun t d => d.gateDiscard t addr) s

end Sys2Proof.Machine
end

