-- ==== Sys2Proof/Machine/ChurnRows.lean ====
section
/-! DEFINITION. What happens at the Churn by time or by the end of its own reads: retries, tickets, ways and bucket reads (R201, R211
to R218). -/
namespace Sys2Proof.Machine
open Sys2Proof

/-- The proxy tracker whose own request a retry belongs to. -/
def Dev.proxyOf (d : Dev) (id : Nat) : Option Tracker :=
  d.chn.trackers.find? (fun tr => tr.proxy && decide (tr.acc.id = id) && decide (tr.step = 2))

/-- NAK_RETRY: a proxy sends its request again; any other access passes stages 2 and 3 once more (R22, R211). -/
def Dev.nakRetry (t id : Nat) (d : Dev) : Dev :=
  match d.chn.retries.find? (fun r => r.acc.id = id) with
  | none => d
  | some r =>
    let d := { d with chn := { d.chn with retries := d.chn.retries.erase r } }
    let d := match r.acc.origin with
      | .ladle run _ _ _ =>
        (match d.run run with
         | some x => (d.inc (LadleR.NAK_RETRIES x.ladle)).mon t (48 + x.ladle / 8) 0x305 r.acc.master r.acc.fa
         | none => d)
      | _ => d
    match d.proxyOf id with
    | some tr => d.proxyStep t { tr with acc := { tr.acc with naks := r.acc.naks, ticket := r.acc.ticket } }
    | none => d.later (.launch r.acc)

/-- NAK_RETRY. -/
def execNakRetry (id : Nat) (s : State) : Host.Outcome State Fault Refusal :=
  onSettled (fun t d => d.nakRetry t id) s

/-- TICKET_ADMISSION. -/
def execTicketAdmission (slice : Fin 32) (number : Fin 256) (s : State) : Host.Outcome State Fault Refusal :=
  onSettled (fun t d => d.ticketTurn t slice number) s

/-- TICKET_EXPIRY: a ticket that its holder has not presented (R213). -/
def Dev.ticketExpiry (slice number : Nat) (d : Dev) : Dev :=
  match d.chn.tickets.find? (fun x => x.slice = slice ∧ x.number = number) with
  | none => d
  | some k =>
    let presented := k.waiting.isSome || d.chn.trackers.any (fun tr => decide (tr.slice = slice) && decide (tr.la = k.la) &&
      decide (tr.acc.ticket = some number) && decide (tr.acc.master = k.master))
    if presented then d else (d.releaseTicket k).inc (ChurnR.TICKETS_EXPIRED slice)

/-- TICKET_EXPIRY. -/
def execTicketExpiry (slice : Fin 32) (number : Fin 256) (s : State) : Host.Outcome State Fault Refusal :=
  onSettled (fun _ d => d.ticketExpiry slice number) s

/-- CHURN_WAY_WAIT: the Churn's own tracker in phase EVICT looks at its set again; work without a tracker takes a free one (R214,
R216). -/
def Dev.wayWait (t slice id : Nat) (d : Dev) : Dev :=
  let d := d.startWork t slice
  match d.tracker slice id with
  | none => d
  | some tr =>
    if tr.phase = .evict ∧ tr.wayFor = none ∧ tr.victim = none ∧ tr.acc.isChurn then d.takeWay t tr else d

/-- CHURN_WAY_WAIT. -/
def execChurnWayWait (slice : Fin 32) (id : Fin 512) (s : State) : Host.Outcome State Fault Refusal :=
  onSettled (fun t d => d.wayWait t slice id) s

/-- TIER2_BUCKET_READ_DONE: the bucket of the tracker's line, or of its victim, is in; `bad` tells of a bucket that fails its checks,
which is unusable from then on (R201, R217, R218). -/
def Dev.bucketRead (t slice id : Nat) (bad : Bool) (d : Dev) : Dev :=
  match d.tracker slice id with
  | none => d
  | some tr =>
    if tr.phase = .tier2 then
      (if bad then
        let d := (d.bucketLost t (d.bucketOf tr.la) tr.la).closeTracker tr
        match d.validTicket slice tr.acc with
        | some k => d.holdTicket k tr.acc
        | none => d.nak t slice 1 tr.acc
       else
        match d.findBucket tr.la with
        | some (e, x) =>
          (d.inc (ChurnR.TIER2_HITS slice)).looked t { tr with
            phase := .lookup, place := .bucket (d.bucketOf tr.la) e, state := x.state, sharers := x.sharers }
        | none => d.looked t { tr with phase := .lookup })
    else if tr.phase = .evict then
      (match tr.wayFor, tr.victim with
       | some w, some la =>
        if d.recalling la then d else
        (match Tab.get d.chn.tier1 (wayKey slice (setOf tr.la) w) with
         | some e =>
          if e.la ≠ la then d
          else if bad then (d.bucketLost t (d.bucketOf la) la).recallVictim t tr w e
          else d.spillVictim t tr w e
         | none => d)
       | _, _ => d)
    else d

/-- TIER2_BUCKET_READ_DONE. -/
def execTier2BucketReadDone (slice : Fin 32) (id : Fin 512) (bad : Bool) (s : State) : Host.Outcome State Fault Refusal :=
  onSettled (fun t d => d.bucketRead t slice id bad) s

end Sys2Proof.Machine
end

