-- ==== Sys2Proof/Machine/EdgeRows.lean ====
section
/-! DEFINITION. What hosts and CXL devices send: requests, snoop responses, completions, acknowledgements; and the grants of the
memory port agents (R6, R203 to R206, R261, R267, R321, R332, R580). -/
namespace Sys2Proof.Machine
open Sys2Proof

/-- MEMRD: `keep` 0 keeps no copy, 1 a shared, 2 an exclusive one (R203). -/
def execMemrd (port : Fin 64) (tag hpa keep : Nat) (s : State) : Host.Outcome State Fault Refusal :=
  onSettled (fun t d => d.arrive t port (.memrd port tag hpa keep)) s

/-- MEMINV: `keep` 2 is MemInv for ownership, any other MemInvNT's flush (R203). -/
def execMeminv (port : Fin 64) (tag hpa keep : Nat) (s : State) : Host.Outcome State Fault Refusal :=
  onSettled (fun t d => d.arrive t port (.meminv port tag hpa keep)) s

/-- MEMCLNEVCT. -/
def execMemclnevct (port : Fin 64) (tag hpa : Nat) (s : State) : Host.Outcome State Fault Refusal :=
  onSettled (fun t d => d.arrive t port (.memclnevct port tag hpa)) s

/-- MEMWR. -/
def execMemwr (port : Fin 64) (tag hpa keep : Nat) (be : Enables) (data : Line) (poison : Bool) (s : State) :
    Host.Outcome State Fault Refusal :=
  onSettled (fun t d => d.arrive t port (.memwr port tag hpa keep be data poison)) s

/-- MEMSPECRD. -/
def execMemspecrd (port : Fin 64) (hpa : Nat) (s : State) : Host.Outcome State Fault Refusal :=
  onSettled (fun t d => d.arrive t port (.memspecrd port hpa)) s

/-- BIRSP. -/
def execBirsp (port : Fin 64) (tag keeps : Nat) (s : State) : Host.Outcome State Fault Refusal :=
  onSettled (fun t d => d.birsp t port tag keeps) s

/-- BICONFLICT. -/
def execBiconflict (port : Fin 64) (tag : Nat) (s : State) : Host.Outcome State Fault Refusal :=
  onSettled (fun t d => d.biconflict t port tag) s

/-- MRD. -/
def execMrd (port : Fin 64) (tag addr len : Nat) (s : State) : Host.Outcome State Fault Refusal :=
  onSettled (fun t d => d.arrive t port (.mrd port tag addr len)) s

/-- MWR. -/
def execMwr (port : Fin 64) (addr : Nat) (data : List Byte) (relaxed poison : Bool) (s : State) : Host.Outcome State Fault Refusal :=
  onSettled (fun t d => d.arrive t port (.mwr port addr data relaxed poison)) s

/-- ATOMICOP. -/
def execAtomicop (port : Fin 64) (tag addr op size a b : Nat) (s : State) : Host.Outcome State Fault Refusal :=
  onSettled (fun t d => d.arrive t port (.atomicop port tag addr op size a b)) s

/-- CXL_IO_COMPLETION: a completion for a read the device itself sent to this port in its present incarnation; any other is discarded and
counted (R179). -/
def execCxlIoCompletion (port : Fin 64) (tag : Nat) (ok poison : Bool) (data : List Byte) (s : State) :
    Host.Outcome State Fault Refusal :=
  onSettled (fun t d =>
    if d.ladles.hostReads.any (fun x => decide (x.tag = tag) && decide (x.port = port.val) &&
        decide (x.incarnation = d.rd (Pg.INCARNATION port))) then d.later (.hostData tag ok poison data)
    else if d.linkUp port then d.staleMessage t port else d) s

/-- CXL_CACHE. -/
def execCxlCache (port : Fin 64) (vport : Nat) (data : List Byte) (s : State) : Host.Outcome State Fault Refusal :=
  onSettled (fun _ d => d.cacheForward port vport data) s

/-- CONFIGURATION_WRITE. -/
def execConfigurationWrite (port : Fin 64) (function register value : Nat) (functionMask : Option Bool) (s : State) :
    Host.Outcome State Fault Refusal :=
  onSettled (fun t d => d.configWrite t port function register value functionMask) s

/-- CXL_MEM_READ_DATA: data for a read sent in the port's present incarnation; any other is discarded and counted (R179). -/
def Dev.readData (t p tag : Nat) (data : Line) (poison : Bool) (d : Dev) : Dev :=
  match d.agents.reads.find? (fun r => r.port = p ∧ r.id = tag) with
  | some r =>
    if r.incarnation ≠ d.rd (Pg.INCARNATION p) then d.staleMessage t p
    else
      let d := { d with agents := { d.agents with reads := d.agents.reads.erase r } }
      let d := d.mon t (p / 4) 0x102 r.acc.master r.acc.fa
      d.later (.ended r.cont { data := if poison then 0 else data, poison })
  | none => d.staleMessage t p

/-- CXL_MEM_READ_DATA. -/
def execCxlMemReadData (port : Fin 64) (tag : Nat) (data : Line) (poison : Bool) (s : State) : Host.Outcome State Fault Refusal :=
  onSettled (fun t d => d.readData t port tag data poison) s

/-- CXL_MEM_WRITE_COMPLETION. -/
def execCxlMemWriteCompletion (port : Fin 64) (ld : Fin 16) (s : State) : Host.Outcome State Fault Refusal :=
  onSettled (fun t d => (d.writePerformed t port ld).later .recheck) s

/-- HOST_WRITE_ACK. -/
def execHostWriteAck (port : Fin 64) (count : Nat) (s : State) : Host.Outcome State Fault Refusal :=
  onSettled (fun t d => (d.hostAcked t port count).later .recheck) s

/-- MEMORY_AGENT_GRANT. -/
def execMemoryAgentGrant (port : Fin 64) (s : State) : Host.Outcome State Fault Refusal :=
  onSettled (fun t d => d.agentGrant t port) s

end Sys2Proof.Machine
end

