-- ==== Sys2Proof/Machine/InstanceRows.lean ====
section
/-! DEFINITION. Quiesce, resets and interrupts of virtual instances (R329 to R338, R344). -/
namespace Sys2Proof.Machine
open Sys2Proof

/-- INSTANCE_CONFIG. -/
def execInstanceConfig (h : SilekHdr) (vi portA portB : Nat) (type2 : List Nat) (msix queues : Nat) (enable : Bool) (s : State) :
    Host.Outcome State Fault Refusal :=
  runSettled h { opcode := 0x301, key := .instanceConfig h.key vi portA portB type2 msix queues enable }
    (devBody fun _ d => d.instanceConfig vi portA portB type2 msix queues enable) s

/-- INSTANCE_QUIESCE; its timeout is QUIESCE_TIMEOUT's. -/
def execInstanceQuiesce (h : SilekHdr) (vi : Nat) (force : Bool) (timeout : Nat) (s : State) : Host.Outcome State Fault Refusal :=
  runSettled h { opcode := 0x310, key := .instanceQuiesce h.key vi force timeout }
    (devBody fun t d => d.instanceQuiesce t vi force timeout) s

/-- INSTANCE_RESUME. -/
def execInstanceResume (h : SilekHdr) (vi : Nat) (s : State) : Host.Outcome State Fault Refusal :=
  runSettled h { opcode := 0x311, key := .instanceResume h.key vi } (devBody fun t d => d.instanceResume t vi) s

/-- INSTANCE_RESET. -/
def execInstanceReset (h : SilekHdr) (vi : Nat) (s : State) : Host.Outcome State Fault Refusal :=
  runSettled h { opcode := 0x312, key := .instanceReset h.key vi } (devBody fun t d => d.instanceReset t vi) s

/-- QOS_SET. -/
def execQosSet (h : SilekHdr) (vi mask limit trackerMin trackerMax accessWeight ladleWeight : Nat) (s : State) : Host.Outcome State Fault Refusal :=
  runSettled h { opcode := 0x320, minMinor := 2, key := .qosSet h.key vi mask limit trackerMin trackerMax accessWeight ladleWeight }
    (devBody fun _ d => d.qosSet vi mask limit trackerMin trackerMax accessWeight ladleWeight) s

/-- QUIESCE_COMPLETE. -/
def execQuiesceComplete (vi : Fin 64) (s : State) : Host.Outcome State Fault Refusal :=
  onSettled (fun t d => d.quiesceComplete t vi) s

/-- QUIESCE_TIMEOUT: the command replies TIMEOUT; the quiesce goes on (R334). -/
def execQuiesceTimeout (vi : Fin 64) (s : State) : Host.Outcome State Fault Refusal :=
  onDev (fun t d => if (d.instOf vi).timed then d.finish t (· = .quiesce vi) .timeout [] else d) s

/-- RESET_COMPLETE. -/
def execResetComplete (vi : Fin 64) (s : State) : Host.Outcome State Fault Refusal :=
  onSettled (fun t d => d.resetComplete t vi) s

/-- FUNCTION_LEVEL_RESET: a host function reset. -/
def execFunctionLevelReset (vi : Fin 64) (s : State) : Host.Outcome State Fault Refusal :=
  onSettled (fun t d => if d.viState vi = 0 then d else d.hostReset t vi 2) s

/-- SECONDARY_BUS_RESET of the virtual upstream port, which also resets the Type 2 devices, or of virtual downstream port 0. -/
def execSecondaryBusReset (vi : Fin 64) (upstream : Bool) (s : State) : Host.Outcome State Fault Refusal :=
  onSettled (fun t d =>
    if d.viState vi = 0 then d else
    let d := d.hostReset t vi 2
    if upstream then d.resetType2 vi else d) s

/-- DOWNSTREAM_SECONDARY_BUS_RESET: FLR to the Type 2 device behind virtual downstream port 1 to 7. -/
def execDownstreamSecondaryBusReset (vi : Fin 64) (vport : Fin 8) (s : State) : Host.Outcome State Fault Refusal :=
  onDev (fun _ d =>
    match Tab.get (d.instOf vi).type2 vport with
    | some p => if d.linkUp p then d.emit (.device p .functionLevelReset) else d
    | none => d) s

/-- VECTOR_UNMASK: the held message is sent. -/
def execVectorUnmask (vi : Fin 65) (vector : Fin 2048) (s : State) : Host.Outcome State Fault Refusal :=
  onDev (fun t d =>
    let k := vecKey vi vector * 4 + 3
    let d : Dev := { d with irq := { d.irq with table := Tab.set d.irq.table k (Tab.getD d.irq.table k 1 / 2 * 2) } }
    d.sendUnmasked t vi) s

/-- MODERATION_TIMER: the vector's pending events become due. -/
def execModerationTimer (vi : Fin 64) (vector : Fin 2048) (s : State) : Host.Outcome State Fault Refusal :=
  onDev (fun t d => if d.irq.timers.contains (vecKey vi vector) then d.sendVector t vi vector else d) s

end Sys2Proof.Machine
end

