-- ==== Sys2Proof/Machine/Supply.lean ====
section
/-! DEFINITION. The core clock index and the core supply: SPEED_INDEX, the adaptive voltage loop and its PMBus transactions (R27, R30,
R31, R494 to R496, R512). -/
namespace Sys2Proof.Machine
open Sys2Proof

/-- The slowest loop and its tile: the first tile of the largest cycle time. -/
def slowest : List Nat → Nat → Nat × Nat → Nat × Nat
  | [], _, best => best
  | c :: l, i, best => slowest l (i + 1) (if best.1 < c then (c, i) else best)

/-- SPEED_WINDOW: at the end of a window of 10 µs SPEED_INDEX takes the slowest loop's cycle time in ps, SLOW_TILE its tile (R27, R30,
R31). `cycles` holds the loops' times, tile 0 first. -/
def execSpeedWindow (cycles : List Nat) (s : State) : Host.Outcome State Fault Refusal :=
  onDev (fun _ d =>
    if d.mode = 0 ∨ cycles = [] then d else
    let (c, tile) := slowest cycles 0 (0, 0)
    let v := saturate 16 c
    let d := (d.wr Glob.SPEED_INDEX v).wr Glob.SLOW_TILE tile
    let d := if v < d.rd Glob.SPEED_FASTEST then d.wr Glob.SPEED_FASTEST v else d
    let d := if d.rd Glob.SPEED_SLOWEST < v then d.wr Glob.SPEED_SLOWEST v else d
    let d := d.threshold 3 1 (decide (1250 < v))
    if 1250 < v ∧ ¬ d.flag Glob.OVER_LIMIT then (d.raise1 Glob.OVER_LIMIT).hbCount 17 1 else d) s

/-- A VOUT_COMMAND with the voltage commanded. -/
def Dev.voutCommand (d : Dev) : Dev := d.emit (.pmbus (d.rd Glob.PMBUS_ADDR) (d.rd Glob.VCORE_SET))

/-- A PMBus transaction failed for good: PMBUS_FAULT, an error record with its cause, and what the master does next (R494, R496). -/
def Dev.pmbusFails (t detail : Nat) (d : Dev) : Dev :=
  (({ d with thermal := { d.thermal with pmbus := detail } }).raise1 Glob.PMBUS_FAULT).logErr t {
    cls := 0xd, severity := 0, source := 0, detail }

/-- The step of the loop of R495, in mV. -/
def Dev.avsTarget (d : Dev) : Nat :=
  let s := d.rd Glob.SPEED_INDEX
  let v := d.rd Glob.VCORE_SET
  let goal := d.rd Glob.SPEED_TARGET
  if goal < s ∧ v < 5 * d.rd Glob.VCORE_MAX then v + 5
  else if s + 10 * d.rd Glob.LOWER_MARGIN < goal ∧ 5 * d.rd Glob.VCORE_MIN < v then v - 5
  else v

/-- AVS_STEP: one turn of the loop of R495; `ok` tells whether the regulator took the command within three attempts (R496). While the
master holds the voltage, or the regulator's format is not LINEAR16, the loop rests. -/
def execAvsStep (ok : Bool) (s : State) : Host.Outcome State Fault Refusal :=
  onDev (fun t d =>
    if d.mode = 0 ∨ d.rst.booting ∨ d.thermal.pmbus ≠ 0 ∨ ¬ d.flag Glob.AVS_EN then d else
    let v := d.avsTarget
    let moved := decide (v ≠ d.rd Glob.VCORE_SET)
    let d := d.wr Glob.VCORE_SET v
    let d := d.wrFlag Glob.AT_MAX (decide (d.rd Glob.SPEED_TARGET < d.rd Glob.SPEED_INDEX) && decide (v = 5 * d.rd Glob.VCORE_MAX))
    if ¬ moved then d
    else if ok then d.voutCommand
    else d.voutCommand.pmbusFails t 1) s

/-- PMBUS_RETRY: the held voltage is commanded again every 10 ms until the regulator answers; nothing clears on success (R496). -/
def execPmbusRetry (ok : Bool) (s : State) : Host.Outcome State Fault Refusal :=
  onDev (fun _ d =>
    if d.mode = 0 ∨ d.thermal.pmbus ≠ 1 then d
    else
      let d := d.voutCommand
      if ok then { d with thermal := { d.thermal with pmbus := 0 } } else d) s

/-- VCORE_MEASURE: the voltage at the die, every 1 ms (R494, R537). -/
def execVcoreMeasure (mv : Nat) (s : State) : Host.Outcome State Fault Refusal :=
  onDev (fun _ d =>
    if d.mode = 0 then d else
    ((d.wr Glob.VCORE_MEASURED (saturate 10 mv)).threshold 2 3 (decide (mv < 700))).threshold 2 1 (decide (900 < mv))) s

end Sys2Proof.Machine
end

