-- ==== Sys2Proof/Machine/Reset.lean ====
section
/-! DEFINITION. Resets of the device, supplies, power fall and boot (R34, R284 to R288, R468 to R473, R480, R481, R490, R494, R497 to R500,
R543). -/
namespace Sys2Proof.Machine
open Sys2Proof

/-! ### Through OM0 (R445, R480, R490, R497, R498) -/

/-- Entry to OM0: outputs fall, and all state goes but flash, fuses, the Herdbook's flash, the TAP and the VDD_IO domain. DESIGN CHOICE
(log entry 153): an entry by RST_N or a supply fault is kept with cause code 0, since R37 names no code for it. -/
def Dev.enterOm0 (t cause rail : Nat) (zeroised : Bool) (d : Dev) : Dev :=
  let high : List Pin :=
    ((List.range 16).filter (fun c => d.flag (Spc.ch_GATE_ON c))).map Pin.spcGate ++
      ((List.range 16).filter (fun c => d.flag (Spc.ch_PCHG_ON c))).map Pin.spcPchg ++
      ((List.range 16).filter (fun c => d.flag (Spc.ch_PG c))).map Pin.spcPg ++
      ((List.range 64).filter (fun p => (d.port p).perstHigh)).map Pin.perst
  let hb : Herdbook := { d.hbkFlash.getD {} with powerFail := d.hbk.powerFail, nakWindow := [], writing := none }
  let rst : ResetLogic := {
    cause, rail, inOm0 := true, scanHold := false, zeroisedLast := d.rst.zeroisedLast || zeroised, straps := d.rst.straps
    pinLow := d.rst.pinLow, left := if d.rst.inOm0 then d.rst.left else some (d.mode, if zeroised then 8 else 0, t), booting := false }
  let x : Dev := {
    banks := d.banks, fuses := d.fuses, flash := d.flash, hbk := hb, hbkFlash := d.hbkFlash, jtag := d.jtag, rst
    sc := { zeroisedBy := d.sc.zeroisedBy }, freeCtr := d.freeCtr, out := d.out }
  high.foldl (fun (x : Dev) p => x.emit (.pin p false)) x

/-- OM0 holds nothing a command can reach: FABRIC_TIME, guard and mailboxes are those of the next exit. -/
def State.toOm0 (cause rail : Nat) (zeroised : Bool) (s : State) : State :=
  { pending := s.pending, dev := s.dev.enterOm0 s.time.now cause rail zeroised }

/-- The device leaves OM0: OM1, and the boot ROM starts. A loss of VDD_SPC is recorded at every channel (R506). -/
def Dev.leaveOm0 (t : Nat) (d : Dev) : Dev :=
  let d := { d with rst := { d.rst with inOm0 := false, scanHold := false, booting := true, exitTime := t } }
  let d := (d.wr Glob.CAUSE d.rst.cause).wr Glob.RAIL (if d.rst.cause = 2 then d.rst.rail else 0)
  if d.rst.cause = 2 ∧ d.rst.rail = 6 then (List.range 16).foldl (fun (d : Dev) c => d.wr (Spc.ch_LAST_FAULT c) 7) d else d

/-- The instructions that hold the device in OM0 at a rise of RST_N (R576). -/
def scanInstrs : List Nat := [0, 2, 4, 5, 6, 7]

/-- RST_N_RISE (R470, R481, R576). -/
def execRstNRise (straps : Straps) (inRange zeroizeHigh : Bool) (s : State) : Host.Outcome State Fault Refusal :=
  onDev (fun t d =>
    if ¬ d.rst.inOm0 ∨ ¬ d.rst.pinLow then d else
    let d := { d with rst := { d.rst with pinLow := false } }
    if ¬ inRange ∨ ¬ zeroizeHigh then d else
    let d := { d with rst := { d.rst with straps } }
    if scanInstrs.contains d.jtag.instruction then { d with rst := { d.rst with scanHold := true } } else d.leaveOm0 t) s

/-- In OM0 again: what a scan instruction held there boots at the next rise of RST_N only (R576). -/
def State.endScanHold (s : State) : State := { s with dev := { s.dev with rst := { s.dev.rst with scanHold := false } } }

/-- RST_N_LOW: low for 10 µs or more (R497). -/
def execRstNLow (s : State) : Host.Outcome State Fault Refusal :=
  let s := if s.dev.rst.inOm0 then s.endScanHold else s.toOm0 1 0 false
  .next { s with dev := { s.dev with rst := { s.dev.rst with pinLow := true } } }

/-- SUPPLY_FAULT: a rail beyond its monitor's threshold for over 1 µs (R490); the rails are numbered from 1 as RESET_CAUSE does. A
device that a scan held in OM0 awaits the next rise of RST_N. -/
def execSupplyFault (rail : Fin 6) (s : State) : Host.Outcome State Fault Refusal :=
  .next (if s.dev.rst.inOm0 then s.endScanHold else s.toOm0 2 (rail.val + 1) false)

/-- Zeroisation: every secret but the UDS goes, ZEROIZED_LAST sets, and the device is held in OM0 (R480, R481). -/
def State.zeroise (by' : Nat) (s : State) : State :=
  let s := s.toOm0 1 0 true
  { s with dev := { s.dev with sc := { s.dev.sc with zeroisedBy := by' } } }

/-- ZEROIZE_N low for 10 µs or more. -/
def execZeroizeN (s : State) : Host.Outcome State Fault Refusal := .next (s.zeroise 2)

/-- ZEROIZE: answered OK before it acts, and only over MCTP (R480). -/
def execZeroize (h : SilekHdr) (word : Nat) (s : State) : Host.Outcome State Fault Refusal :=
  runSilek h { opcode := 0x711, key := .zeroize h.key word } (fun s =>
    if s.dev.unsecured h.secured then
      (let (d, r) := s.dev.authFail
       ({ s with dev := d }, r))
    else if word ≠ 0x5a45524f then (s, .err .badParam)
    else
      let s := match h.requester with
        | .fm _ => s.answer h.requester 0x711 h.tag (min h.minor 3) h.src 1 .ok []
        | _ => s
      (s.zeroise 1, .silent)) s

/-! ### Boot (R34, R44, R360, R436, R468 to R473, R494, R507) -/

/-- Load a register field saved in the flash configuration. -/
def Dev.loadField (k v : Nat) (d : Dev) : Dev :=
  match (wordSlots (k / 32)).find? (fun l => l.lo = k % 32) with
  | some l => d.wr (l.field (k / 32)) v
  | none => d

/-- A group's configuration takes effect in its page (R44, R48). -/
def Dev.setGroup (g : Nat) (c : GroupConfig) (d : Dev) : Dev :=
  let rate := if c.maxRate = 0 ∨ 6 < c.maxRate then 6 else c.maxRate
  let d := ((d.wr (Pg.BIFURCATION g) c.bifurcation).wr (Pg.PERSONALITY g) c.personality).wr (Pg.CXL_MAX_RATE g) rate
  (d.wr (Pg.SRIS g) c.sris).wrFlag (Pg.GANG_PARTNER g) (decide (c.bifurcation = 4) && decide (g % 2 = 1))

/-- The CP loads the flash configuration in OM1: port groups, Gate table, management function, saved fields. -/
def Dev.loadFlash (d : Dev) : Dev :=
  let f := d.flash
  let d := f.groups.foldl (fun (d : Dev) (x : Nat × GroupConfig) =>
    (d.setGroup x.1 x.2).wrFlag (Pg.POWERED x.1) (decide (x.2.personality ≠ 0))) d
  let d := f.fields.foldl (fun (d : Dev) (x : Nat × Nat) => d.loadField x.1 x.2) d
  let d := match f.mgmt with
    | some n => (d.wr Glob.MGMT_INSTANCE n).raise1 Glob.MGMT_VALID
    | none => d
  let d := match f.gate with
    | some t =>
      let rules : Tab Rule := t.map (fun (x : Nat × BitVec 256) => (x.1, Rule.ofBits x.2))
      ({ d with gate := { d.gate with active := rules, staging := rules } }).wr GateR.RULE_EPOCH 1
    | none => d
  let m := d.freeVal 91
  { d.drawn with sc := { d.sc with measuredConfig := m } }

/-- The banks that boot ROM tries, in order: activated ones, the higher number first, then VALID ones never activated (R470). -/
def Dev.bootOrder (d : Dev) : List Nat :=
  let act := (List.range 2).filter (fun b => (d.bank b).state = 2 ∧ (d.bank b).activation.isSome)
  let plain := (List.range 2).filter (fun b => (d.bank b).state = 2 ∧ (d.bank b).activation.isNone)
  (if act.length = 2 ∧ d.topBank = some 1 then [1, 0] else act) ++ plain

/-- Banks left in WRITING are verified or erased (R470). -/
def Dev.settleWriting (b : Nat) (d : Dev) : Dev :=
  let x := d.bank b
  if x.state ≠ 1 then d
  else if imageCheck d.fuses x.image = 0 then d.setBank b { x with state := 2 }
  else (d.setBank b { x with state := 0, activation := none }).inc ScR.BANK_REJECTS

/-- Try banks in order: the first that passes R467 boots; the ones before it are erased, and their number is kept for the events. -/
def Dev.tryBanks : List Nat → Nat → Dev → Option Nat × Nat × Dev
  | [], n, d => (none, n, d)
  | b :: rest, n, d =>
    if imageCheck d.fuses (d.bank b).image = 0 then (some b, n, d)
    else Dev.tryBanks rest (n + 1) ((d.setBank b { d.bank b with state := 0, activation := none }).inc ScR.BANK_REJECTS)

/-- Steps of R468 that an image has left. -/
def Dev.commitSteps (d : Dev) (img : List Byte) : Nat :=
  flagBit (decide (d.fuses.svn < imgField img 0x12 1)) + flagBit (decide (d.fuses.ifMin < imgField img 0x13 1)) +
    flagBit (decide (Nat.lor d.fuses.revoked (imgField img 0x14 1 % 16) ≠ d.fuses.revoked))

/-- Booting a bank: identity registers, running bank, and the layered identity (R460, R470, R472, R473). -/
def Dev.bootBank (b : Nat) (d : Dev) : Dev :=
  let img := (d.bank b).image
  let d := (((d.wr Ident.FW_BUILD (imgField img 0xc 1)).wr Ident.FW_PATCH (imgField img 0xd 1)).wr Ident.FW_MINOR
    (imgField img 0xe 1)).wr Ident.FW_MAJOR (imgField img 0xf 1)
  let d := ((d.wr Ident.FW_INTERFACE (imgField img 0x10 2)).wr Ident.ACTIVE_BANK b).wrFlag (ScR.RUNNING b) true
  let cdi0 := Config.hmac384 d.fuses.uds (leBytes 48 (Config.freeValue 90 0))
  let cdi1 := Config.hmac384 cdi0 (imgBytes img 0x20 48 ++ imgBytes img 0x160 96 ++ imgBytes img 0x12 1 ++ leBytes 1 d.fuses.svn ++
    leBytes 1 (d.rd ScR.DEBUG_HISTORY))
  { d with sc := { d.sc with
    cdi1 := some cdi1, deviceIdKey := some (Config.hmac384 cdi0 (leBytes 1 1)), aliasKey := some (Config.hmac384 cdi1 (leBytes 1 2))
    certSlot0 := decide (d.flash.deviceIdCert = d.fuses.certHash), commitLeft := d.commitSteps img } }

/-- The power losses since the record in flash are folded into the live record (R543). -/
def Dev.foldPower (d : Dev) : Dev :=
  let c := d.rd Glob.CAUSE
  if c ≠ 0 ∧ c ≠ 2 then d else
  let prev := match d.hbk.powerFail with
    | some x => max d.hbk.powerOns x.1
    | none => d.hbk.powerOns
  let d := match d.hbk.powerFail with
    | some (n, _, total, _) => if n = prev then (d.hbCount 12 1).hbCount 14 total else d.hbCount 13 1
    | none => d.hbCount 13 1
  { d with hbk := { d.hbk with powerOns := prev + 1 } }

/-- The entry to OM1 is noted once the CP runs (R36): after an exit from OM0, OM0's own entry before it. Each is recorded and posted,
with FABRIC_TIME as it stood at the transition. -/
def Dev.noteBoot (d : Dev) : Dev :=
  if d.rd Glob.LAST_CAUSE ≠ 0 then d else
  let s := d.hbk.powerOnS
  let h := d.hbk.transitions ++ (match d.rst.left with
    | some (m, c, _) => [(m, 0, c, s)]
    | none => []) ++ [(0, 1, 0, s)]
  let left := d.rst.left
  let d := { d with
    hbk := { d.hbk with
      transitions := h.drop (h.length - 32), modeEntries := Tab.bump (Tab.bump d.hbk.modeEntries 0 1) 1 1 }
    rst := { d.rst with left := none } }
  let d := d.foldPower
  let d := match left with
    | some (m, c, t) => d.post t 1 (m + 2 ^ 16 * c)
    | none => d
  d.post d.rst.exitTime 1 (2 ^ 8)

/-- What the CP does first: Herdbook, configuration, events found at boot, the PMBus regulator (R36, R473, R481, R494, R543). -/
def Dev.startFirmware (t rejects : Nat) (linear16 : Bool) (d : Dev) : Dev :=
  let d := d.noteBoot.wr Hbk.HB_SEQUENCE (match d.hbkFlash with
    | some x => x.sequence - 1
    | none => 0)
  let d := d.syncNextWrite.loadFlash
  let d := if d.sc.zeroisedBy = 0 then d else
    let code := 3 + d.sc.zeroisedBy
    (({ d with sc := { d.sc with zeroisedBy := 0 } }).hbCount 15 1).secEvent t code
  let d := (List.range rejects).foldl (fun (d : Dev) _ => d.secEvent t 8) d
  let d := if d.sc.certSlot0 then d else d.secEvent t 0xd
  if linear16 then d else d.pmbusFails t 2

/-- BOOT_COMPLETE: the boot ROM has run its steps. A failed self-test halts the device in OM1, which is a transition of R34 with cause
9, boot failure (DEDUCED, log entry 154). `kat` is the failing self-test's code, 0 for none; `linear16` what the core
regulator's VOUT_MODE shows (R34, R470, R476, R494). -/
def execBootComplete (kat : Nat) (linear16 : Bool) (s : State) : Host.Outcome State Fault Refusal :=
  onSettled (fun t d =>
    if d.mode ≠ 1 ∨ ¬ d.rst.booting then d else
    let d := { d with rst := { d.rst with booting := false } }
    if kat ≠ 0 then (((d.raise1 Glob.HALTED).wr ScR.LAST_EVENT kat).raise1 ScR.SEC_EVT).noteBoot.noteMode t 1 9
    else
      let d := ((d.raise1 ScR.KAT_PASS).settleWriting 0).settleWriting 1
      match d.tryBanks d.bootOrder 0 with
      | (none, n, d) =>
        let d := ({ d.syncBanks with rst := { d.rst with recovery := true } }).wr ScR.SC_STATE 1
        (List.range n).foldl (fun (d : Dev) _ => d.secEvent t 8) ((d.raise1 ScR.DRBG_OK).noteBoot.enterMode t 10 9)
      | (some b, n, d) =>
        let d := (d.bootBank b).syncBanks
        let d := ((d.wr ScR.SC_STATE 1).raise1 ScR.DRBG_OK).startFirmware t n linear16
        let d := { d with sc := { d.sc with drbg := true } }
        if d.rst.straps.role = 0 then (d.wr Glob.CHAIN_ADDRESS 1).toStandby t 13 else d.enterEnum t 13) s

/-! ### Warm reset (R284, R315, R497 to R500) -/

/-- The fields a warm reset keeps: the identity block, the slot power page, and those whose Effect says so. -/
def keptField (k : Nat) : Bool :=
  let a := k / 32
  let lo := k % 32
  (decide (0x1000 ≤ a) && decide (a < 0x2000)) || (decide (0xb000 ≤ a) && decide (a < 0xc000)) ||
    (decide (a = 0x54) && decide (lo ≠ 0)) || (decide (a = 0x78) && decide (lo = 16)) || (decide (a = 0x7c) && decide (lo = 8)) ||
    (decide (a = 0xc000) && decide (lo = 7)) || (decide (a = 0xd000) && decide (lo ≠ 16)) || decide (a = 0xd004) || decide (a = 0xd008)

/-- The fields of an instance's table entry, kept with its configuration (log entry 45): the allocation, and REQ_QUEUE_LIMIT. -/
def instanceField (k : Nat) : Bool :=
  match instAt (k / 32) with
  | some (_, x) => (decide (x = 0) && decide (k % 32 = 12)) || decide (x = 0x14) || (decide (x = 0x18) && decide (k % 32 = 0))
  | none => false

/-- A queue pair after a warm reset: DISABLED, its assignment and set-up kept (R315). -/
def Pair.warm (x : Pair) : Pair :=
  { state := min x.state 1, fm := x.fm, inst := x.inst, localIndex := x.localIndex, ladle := x.ladle, log2Size := x.log2Size
    vector := x.vector, sqBase := x.sqBase, cqBase := x.cqBase }

/-- An extent after a warm reset: OFFLINE behind a port that the reset removes, no flag of a command left, nothing of its directory. -/
def Extent.warm (removed : List Nat) (x : Extent) : Extent :=
  { x with
    state := if x.state ≠ 0 ∧ removed.contains x.port then 6 else x.state, migrating := false, unbinding := false, migIndex := 0
    lostCount := 0, spill := false }

/-- PENDING slots are treated as declined (R498). -/
def Dev.declineAll (d : Dev) : Dev :=
  (d.slots.filter (fun x => x.2.pending)).foldl (fun (d : Dev) x =>
    match d.binder.bindings.find? (fun b => b.slots.contains x.1) with
    | some b => d.answerSlot b x.1 false
    | none => (d.untake d.chainAddr x.2.fx (decide ((d.ext x.2.extent).bindCount ≤ 1))).setSlot x.1 {}) d

/-- An instance after a warm reset keeps its configuration and is ACTIVE; LAST_RESET reads warm (R335, R346). -/
def Dev.warmInstance (x : Nat × Nat) (d : Dev) : Dev :=
  if x.2 = 0 then d else ((d.wr (Vi.STATE x.1) 1).wr (Vi.LAST_RESET x.1) 4).raise1 (Vi.RESET_EVT x.1)

/-- The device after a warm reset with a CAUSE, LAST_CAUSE 7 or 15 (R498, R499). -/
def Dev.warmRestart (t cause : Nat) (d : Dev) : Dev :=
  let old := d.mode
  let up := (List.range 64).filter (fun p => d.linkUp p ∧ d.personality p ≠ 3)
  let qup := (List.range 64).filter (fun p => d.personality p = 3 ∧ d.rd (Pg.ll_LL_STATE p) ≠ 0)
  let insts := (List.range 64).map (fun n => (n, d.rd (Vi.STATE n)))
  let d := d.declineAll
  let d := (d.hbCount 0 (up.length + qup.length)).hbCount 9 1
  let d := (d.startHerdbook 2).herdbookWritten
  let high := (List.range 64).filter (fun p => (d.port p).perstHigh)
  let cxl : Tab CxlPort := (d.cxl.map (fun (x : Nat × CxlPort) =>
    (x.1, { lastGen := x.2.lastGen, presentIn := x.2.presentIn, removed := up.contains x.1, admitted := !up.contains x.1 }))).filter
      (fun x => x.2 ≠ {})
  let instKeep (x : Inst) : Inst := { x with forced := false, resetKind := 0, managed := false, aborted := [] }
  let y : Dev := {
    regs := d.regs.filter (fun x => keptField x.1 || instanceField x.1), events := { d.events with notified := [] }, errors := d.errors
    cxl, banks := d.banks, fuses := d.fuses, flash := d.flash, power := d.power, hbk := { d.hbk with nakWindow := [] }
    hbkFlash := d.hbkFlash, jtag := d.jtag, freeCtr := d.freeCtr, out := d.out, thermal := { alert := d.thermal.alert }
    rst := { zeroisedLast := d.rst.zeroisedLast, straps := d.rst.straps, booting := true }
    inst := d.inst.map (fun (x : Nat × Inst) => (x.1, instKeep x.2))
    extents := d.extents.map (fun (x : Nat × Extent) => (x.1, x.2.warm up))
    windows := d.windows.map (fun (x : Nat × Window) => (x.1, { x.2 with committed := false, hpaUnit := 0, size := 0 }))
    flaws := d.flaws.filter (fun f => (Flaw.inRead 11 0 (fun _ => true) f).isSome)
    slots := d.slots, chn := { slots := d.chn.slots, badBuckets := d.chn.badBuckets }
    ladles := { pairs := (d.ladles.pairs.map (fun (x : Nat × Pair) => (x.1, x.2.warm))).filter (fun x => x.2 ≠ {}) } }
  let y := high.foldl (fun (y : Dev) p => y.emit (.pin (.perst p) false)) y
  let y := insts.foldl (fun (y : Dev) x => y.warmInstance x) y
  let y := up.foldl (fun (y : Dev) p => (y.raise1 (Pg.SETTLING p)).wr (Pg.SETTLE_REMAINING p) (y.rd (Pg.SLOT_SETTLE p))) y
  let y := (y.wr Glob.CAUSE cause).add Glob.WARM_COUNT 1
  let y := y.wr Glob.CURRENT_MODE old
  y.noteMode t 1 (if cause = 4 then 15 else 7)

/-- Nothing of the drain is left: acknowledged posted writes, buffers, writes of remote owners and Ladle pieces (R284, R286). -/
def Dev.drainOver (d : Dev) : Bool :=
  d.edge.jobs.all (fun j => decide (j.kind ≠ 1)) && !d.edge.held.any (fun h => h.acked && isPosted h.cmd) &&
  decide (d.buf.entries = []) && decide (d.buf.waiting = []) && decide (d.buf.remote = []) && d.ladles.runs.all (fun r => r.pieces = [])

/-- A warm reset starts its drain. -/
def Dev.startWarm (cause : Nat) (d : Dev) : Dev :=
  let d := { d with rst := { d.rst with draining := some cause, warmDelay := none } }
  ((d.raise1 Glob.TRANSITION_BUSY).wrFlag Glob.LAST_DRAIN_INCOMPLETE false).wr Glob.LAST_DRAIN_DISCARDS 0

/-- WARM_RESET (R431): replies, then waits out its delay. -/
def execWarmReset (h : SilekHdr) (delay : Nat) (s : State) : Host.Outcome State Fault Refusal :=
  runSilek h { opcode := 0xa30, key := .warmReset h.key delay } (devBody fun _ d =>
    if 1000 < delay then (d, .err .badParam)
    else if d.flag Glob.TRANSITION_BUSY then (d, .err .busy)
    else ({ d with rst := { d.rst with warmDelay := some (if d.mode = 11 then 5 else 3) } }, .final .ok [])) s

/-- WARM_RESET_DELAY. -/
def execWarmResetDelay (s : State) : Host.Outcome State Fault Refusal :=
  onDev (fun _ d =>
    match d.rst.warmDelay with
    | some c => if d.mode < 2 ∨ d.rst.draining.isSome then d else d.startWarm c
    | none => d) s

/-- WATCHDOG_EXPIRY (R500, R522): in OM2 to OM11 the expiry starts a warm reset; damage of the control processor's own memory shows
here. -/
def execWatchdogExpiry (s : State) : Host.Outcome State Fault Refusal :=
  onDev (fun t d =>
    if d.mode < 2 then d else
    let d := (d.readArray t 9 0 0 (fun _ => true)).1
    let d := (d.raise1 Glob.WDT_EXPIRED_EVT).hbCount 10 1
    if d.rst.draining.isSome then d else d.startWarm 4) s

/-- The fabric address of a write outstanding toward a remote owner. -/
def Dev.remoteAddr (d : Dev) (id : Nat) : Nat :=
  match d.fab.outstanding.find? (fun o => match o.cont with
    | .direct a => decide (a.id = id)
    | _ => false) with
  | some o => (match o.cont with
    | .direct a => a.fa
    | _ => 0)
  | none => 0

/-- Drop the writes a drain has left: the number dropped by port, and the device without them. -/
def Dev.dropWrites (d : Dev) : Dev :=
  let ps := (List.range 64).filter (fun p => d.buf.entries.any (fun e => e.port = p))
  let d := { d with
    buf := { d.buf with entries := [], waiting := [], remote := [], barriers := [] }
    ladles := { d.ladles with runs := d.ladles.runs.map (fun r => { r with pieces := [], stopped := true }) } }
  ps.foldl (fun (d : Dev) p => d.syncBuf p) d

/-- Writes of a port still buffered. -/
def Dev.writesOf (d : Dev) (p : Nat) : List WriteRef := ((d.buf.entries.filter (fun e => e.port = p)).map (·.writes)).flatten

/-- DRAIN_TIMEOUT (R284): every remaining write is discarded, one record per target; a power fall has replaced this limit by its own
(R286). -/
def execDrainTimeout (s : State) : Host.Outcome State Fault Refusal :=
  onDev (fun t d =>
    if d.rst.draining.isNone ∨ d.rst.powerFall then d else
    let targets := ((d.buf.entries.map (fun e => (e.port, e.ld))).eraseDups)
    let owners := (d.buf.remote.map (·.owner)).eraseDups
    let (d, total) := targets.foldl (fun (x : Dev × Nat) (y : Nat × Nat) =>
      let es := x.1.buf.entries.filter (fun e => e.port = y.1 ∧ e.ld = y.2)
      let n := (es.map (fun e => e.writes.length)).foldl (· + ·) 0
      let addr := (es.head?.map (·.addr)).getD 0
      (x.1.logErr t { cls := 9, severity := 1, source := 0x20 + y.1 / 4, access := 8, addr, detail := n }, x.2 + n)) (d, 0)
    let (d, total) := owners.foldl (fun (x : Dev × Nat) o =>
      let ws := x.1.buf.remote.filter (fun w => w.owner = o)
      let addr := (ws.head?.map (fun w => x.1.remoteAddr w.id)).getD 0
      (x.1.logErr t { cls := 9, severity := 1, source := 3, access := 8, addr, detail := ws.length }, x.2 + ws.length)) (d, total)
    let d := d.dropWrites
    if total = 0 then d else
    ((d.raise1 Glob.LAST_DRAIN_INCOMPLETE).wr Glob.LAST_DRAIN_DISCARDS (saturate 16 total)).hbCount 11 total) s

/-- WARM_RESET_DRAIN_DONE: once nothing is left to drain, the Herdbook is written and the device restarts in OM1. -/
def execWarmResetDrainDone (s : State) : Host.Outcome State Fault Refusal :=
  match s.dev.rst.draining with
  | none => .next s
  | some c =>
    if ¬ s.dev.drainOver then .next s
    else .next { pending := s.pending, time := { now := s.time.now }, dev := s.dev.warmRestart s.time.now c }

/-! ### Power fall (R285 to R288, R543) -/

/-- PWRFAIL: PWRFAIL_N fell; admission stops, and a drain under way becomes that of the power fall (R285, R286). -/
def execPwrfail (s : State) : Host.Outcome State Fault Refusal :=
  onDev (fun _ d =>
    if d.mode = 0 then d
    else ({ d with rst := { d.rst with powerFall := true } }).raise1 Glob.PWRFAIL_HOLD) s

/-- PWRFAIL_DRAIN_LIMIT: what is not performed is discarded, counted per port in the power-fail record (R285, R543). -/
def execPwrfailDrainLimit (s : State) : Host.Outcome State Fault Refusal :=
  onDev (fun t d =>
    if ¬ d.rst.powerFall then d else
    let ports : Tab Nat := ((List.range 64).map (fun p => (p, min 0xffff (d.writesOf p).length))).filter (fun x => x.2 ≠ 0)
    let total := (d.buf.entries.map (fun e => e.writes.length)).foldl (· + ·) 0 + d.buf.remote.length
    let d := { d with hbk := { d.hbk with powerFail := some (d.hbk.powerOns, t, total, ports) } }
    ({ d with rst := { d.rst with powerFall := false } }).dropWrites) s

/-! ### JTAG (R482, R573 to R576) -/

/-- The IDCODE register (R574). -/
def Dev.idcode (d : Dev) : Nat := fieldOf d.fuses.stepping 4 4 * 2 ^ 28 + 0x0964 * 2 ^ 12 + 0x2f1 * 2 + 1

/-- Every link goes down while a pin-driving scan instruction is loaded in OM11 (R576). -/
def Dev.scanLinksDown (t : Nat) (d : Dev) : Dev :=
  d.ports.foldl (fun (d : Dev) p => if d.personality p = 3 then d.portDisable t p else d.removePort t p) d

/-- JTAG_INSTRUCTION_LOAD: the instruction register takes a code; outside its modes it acts as BYPASS (R573). -/
def execJtagInstructionLoad (code : Fin 256) (s : State) : Host.Outcome State Fault Refusal :=
  onSettled (fun t d =>
    let d := { d with jtag := { d.jtag with instruction := code.val } }
    if code.val = 1 then d.emit (.jtag d.idcode)
    else if d.scanHolds then d.scanLinksDown t
    else d) s

/-- TEST_LOGIC_RESET: IDCODE is selected; a device held in OM0 by a scan instruction boots (R573, R576). -/
def execTestLogicReset (s : State) : Host.Outcome State Fault Refusal :=
  onDev (fun t d =>
    let d := { d with jtag := { d.jtag with instruction := 1 } }
    if d.rst.inOm0 ∧ d.rst.scanHold then d.leaveOm0 t else d) s

end Sys2Proof.Machine
end

