-- ==== Sys2Proof/Machine/PortCmds.lean ====
section
/-! DEFINITION. Port configuration and control, and the configuration in flash (R9, R41 to R48, R431). -/
namespace Sys2Proof.Machine
open Sys2Proof

/-- The configuration in force of a group. -/
def Dev.groupNow (d : Dev) (g : Nat) : GroupConfig := {
  bifurcation := d.rd (Pg.BIFURCATION g), personality := d.rd (Pg.PERSONALITY g), maxRate := d.rd (Pg.CXL_MAX_RATE g), sris := d.rd (Pg.SRIS g) }

/-- Groups of a bitmap, in rising order. -/
def groupsOf (bitmap : Nat) : List Nat := (List.range 16).filter (fun g => fieldOf bitmap g 1 = 1)

/-- The configuration of every group after a change. -/
def Dev.groupsAfter (d : Dev) (changes : List (Nat × GroupConfig)) : List (Nat × GroupConfig) :=
  (List.range 16).map (fun g => (g, ((changes.find? (fun x => x.1 = g)).map (·.2)).getD (d.groupNow g)))

/-- Code 4 stands in both groups of an even and odd pair, with personality 3, or in neither (R44). -/
def gangsOk (gs : List (Nat × GroupConfig)) : Bool :=
  gs.all (fun x => decide (x.2.bifurcation ≠ 4) ||
    gs.any (fun y => decide (y.1 / 2 = x.1 / 2) && decide (y.1 ≠ x.1) && decide (y.2.bifurcation = 4) && decide (y.2.personality = 3) &&
      decide (x.2.personality = 3)))

/-- Ports of a group's configuration. -/
def groupPorts (c : GroupConfig) (g : Nat) : Nat :=
  if c.personality = 0 then 0 else (presentOffsets c.bifurcation (decide (g % 2 = 1))).length

/-- The limits of R9 and R43. -/
def limitsOk (gs : List (Nat × GroupConfig)) : Bool :=
  let n (p : Nat) : Nat := ((gs.filter (fun x => x.2.personality = p)).map (fun x => groupPorts x.2 x.1)).foldl (· + ·) 0
  decide (n 1 + n 2 + n 3 ≤ 64) && decide (n 2 ≤ 32) && decide ((gs.filter (fun x => x.2.personality = 3)).length ≤ 8)

/-- A changed group: its links go down, it powers off, and a configured one powers on again (R47). -/
def Dev.changeGroup (t g : Nat) (c : GroupConfig) (d : Dev) : Dev :=
  let d := (List.range 4).foldl (fun (d : Dev) k =>
    let p := 4 * g + k
    if ¬ d.present p then d
    else if d.personality p = 3 then (if d.rd (Pg.phy_STATE p) = 0 then d else d.enterDisabled t p)
    else d.removePort t p) d
  (d.wrFlag (Pg.POWERED g) false).setGroup g c

/-- PORT_CONFIG: every changed group at once, or none (R44 to R47). -/
def Dev.portConfig (t bitmap : Nat) (cfgs : List GroupConfig) (d : Dev) : Dev × Result :=
  let gs := groupsOf bitmap
  let changes := gs.zip cfgs
  let after := d.groupsAfter changes
  if d.mode ≠ 3 ∧ d.mode ≠ 10 then (d, .err .notPermitted)
  else if 2 ^ 16 ≤ bitmap ∨ cfgs.length ≠ gs.length ∨
      cfgs.any (fun c => decide (4 < c.bifurcation) || decide (3 < c.personality) || decide (15 < c.maxRate) || decide (1 < c.sris)) ∨
      ¬ gangsOk after then (d, .err .badParam)
  else if gs.any (fun g => (List.range 4).any (fun k => d.portInUse (4 * g + k))) then (d, .err .notPermitted)
  else if ¬ limitsOk after then (d, .err .noResource)
  else
    let d := changes.foldl (fun (d : Dev) x => d.changeGroup t x.1 x.2) d
    let wait := (changes.filter (fun x => x.2.personality ≠ 0)).map (·.1)
    if wait = [] then (d, .final .ok []) else (d, .run (.portConfig wait))

/-- PORT_CONFIG. -/
def execPortConfig (h : SilekHdr) (bitmap : Nat) (cfgs : List GroupConfig) (s : State) : Host.Outcome State Fault Refusal :=
  runSettled h { opcode := 0xa10, key := .portConfig h.key bitmap cfgs } (devBody fun t d => d.portConfig t bitmap cfgs) s

/-- A PORT_CONFIG whose changed groups are all powered. -/
def Dev.groupsReady (d : Dev) : Work → Bool
  | .portConfig gs => gs.all (fun g => d.flag (Pg.POWERED g))
  | _ => false

/-- GROUP_POWERED (R38, R431). -/
def execGroupPowered (group : Fin 16) (s : State) : Host.Outcome State Fault Refusal :=
  onSettled (fun t d =>
    if d.mode < 2 ∨ d.rd (Pg.PERSONALITY group.val) = 0 then d
    else
      let d := d.raise1 (Pg.POWERED group.val)
      d.finish t d.groupsReady .ok []) s

/-- PORT_CONTROL on a CXL port (R431): disable, enable, retrain through Recovery, which keeps DL_Active, or retrain through Detect. -/
def Dev.cxlControl (t p action : Nat) (d : Dev) : Dev :=
  match action with
  | 0 =>
    let d := d.removePort t p
    d.setPort p { d.port p with disabled := true }
  | 1 => d.setPort p { d.port p with disabled := false }
  | 2 => d
  | _ => d.removePort t p

/-- PORT_CONTROL on a QFL port (R112, R431). -/
def Dev.qflControl (t p action : Nat) (d : Dev) : Dev :=
  match action with
  | 0 => (d.raise1 (Pg.phy_PORT_DISABLE p)).portDisable t p
  | 1 => d.wrFlag (Pg.phy_PORT_DISABLE p) false
  | 2 => d.retrain p
  | _ => d.fullRetrain t p

/-- PORT_CONTROL. One that removes an agent replies once its reclaim is over (R23). -/
def execPortControl (h : SilekHdr) (port action : Nat) (s : State) : Host.Outcome State Fault Refusal :=
  runSettled h { opcode := 0xa11, key := .portControl h.key port action } (devBody fun t d =>
    if ¬ h.padOk ∨ 63 < port ∨ 3 < action ∨ ¬ d.present port then (d, .err .badParam)
    else if d.personality port = 3 then (d.qflControl t port action, .final .ok [])
    else
      let d := d.cxlControl t port action
      if (action = 0 ∨ action = 3) ∧ d.flag (Pg.RECLAIM_BUSY port) then (d, .run (.portControl port)) else (d, .final .ok [])) s

/-- The timeout fields that CONFIG_SAVE writes (log entry 46). -/
def timeoutFields : List Field :=
  [Ext.BIND_HOST_TIMEOUT, Ext.RELEASE_HOST_TIMEOUT, ChurnR.SNOOP_TIMEOUT, Glob.DRAIN_TIMEOUT, Glob.TARGET_TIMEOUT, Memb.YOKE_TIMEOUT,
    Memb.ENUM_TIMEOUT, Glob.WDT_TIMEOUT] ++ (List.range 16).map (fun c => Spc.ch_PCHG_TIMEOUT c)

/-- What CONFIG_SAVE writes (R431): the port configuration, the active Gate table, the routes, the timeout fields, the autostart mode. -/
def Dev.saved (d : Dev) (mode : Nat) : FlashConfig :=
  let routes := ((List.range 16).map (fun i => [Qfab.PORT i, Qfab.VALID i])).flatten
  { d.flash with
    groups := (List.range 16).map (fun g => (g, d.groupNow g))
    gate := some (d.gate.active.map (fun (x : Nat × Rule) => (x.1, BitVec.ofNat 256 { x.2 with hits := 0 }.bits)))
    fields := (routes ++ timeoutFields).foldl (fun (t : Tab Nat) f => Tab.set t f.key (d.rd f)) d.flash.fields
    autostart := if mode = 0xff then none else some mode }

/-- CONFIG_SAVE. -/
def execConfigSave (h : SilekHdr) (mode : Nat) (s : State) : Host.Outcome State Fault Refusal :=
  runSilek h { opcode := 0xa31, key := .configSave h.key mode } (devBody fun _ d =>
    if ¬ h.padOk ∨ ¬ ((4 ≤ mode ∧ mode ≤ 7) ∨ mode = 0xff) then (d, .err .badParam)
    else if d.sc.update.isSome ∨ (1 ≤ d.sc.pldmStep ∧ d.sc.pldmStep ≤ 3) then (d, .err .busy)
    else ({ d with flashNext := some (d.saved mode) }, .run .configSave)) s

/-- FLASH_PROGRAM_DONE: the configuration is in flash. -/
def execFlashProgramDone (s : State) : Host.Outcome State Fault Refusal :=
  onDev (fun t d =>
    match d.flashNext with
    | some f => ({ d with flash := f, flashNext := none }).finish t (· = Work.configSave) .ok []
    | none => d) s

end Sys2Proof.Machine
end

