-- ==== Sys2Proof/Machine/FmApi.lean ====
section
/-! DEFINITION. The CXL FM API over MCTP (R433 to R435): each command runs as the Silek command named and is answered in the FM API's
form as `Out.service opcode (tag :: return code :: extended status :: payload)`. -/
namespace Sys2Proof.Machine
open Sys2Proof

/-- FM API return codes (log entry 50): Success 0, Background Command Started 1, Invalid Input 2, Unsupported 3, Internal Error 4,
Busy 6. -/
def Status.fmCode : Status → Nat
  | .ok => 0
  | .inProgress => 1
  | .badOpcode => 3
  | .badParam => 2 | .notPermitted => 2 | .noResource => 2 | .versionMismatch => 2 | .authFail => 2 | .notQuiesced => 2
  | .busy => 6
  | .timeout => 4 | .aborted => 4 | .targetLost => 4 | .fenced => 4

/-- An FM API answer. -/
def Dev.fmAnswer (op tag : Nat) (st : Status) (payload : List Byte) (d : Dev) : Dev :=
  d.emit (.service op (tag :: st.fmCode :: st.code :: payload.map (fun b => b.toNat)))

/-- The Silek reply with an inner tag. -/
def Out.replyTo (tag : Nat) : Out → Option (Status × List Byte)
  | .reply _ _ g _ _ st p => if g = tag then some (st, p) else none
  | _ => none

/-- The header under which a command of endpoint `eid` runs, with SRC 0 and an inner tag above every Silek tag. -/
def fmHeader (eid tag : Nat) : SilekHdr := { requester := .fm eid, tag }

/-- An FM API background command runs. -/
def Dev.fmRuns (d : Dev) : Bool := d.silek.running.any (fun r => decide (65536 ≤ r.tag))

/-- The inner tag of the next FM API command. -/
def State.fmTag (s : State) : Nat := 65536 + s.dev.silek.nextId

/-- The next inner tag is taken. -/
def State.fmStart (s : State) : State :=
  { s with dev := { s.dev with silek := { s.dev.silek with nextId := s.dev.silek.nextId + 1 } } }

/-- The background command of the FM API is the one with an inner tag; the reply kept of an earlier one goes. -/
def Dev.fmStarts (eid inner : Nat) (d : Dev) : Dev :=
  { d with silek := { d.silek with fmBackground := some (.fm eid, inner), cache := d.silek.cache.filter (fun c => c.tag < 65536) } }

/-- Run the Silek command of an FM API command and answer in the FM API's form. A command that does not end at once is the one
background command; a second one has no effect and is answered Busy. -/
def State.fmRun (eid op tag : Nat) (k : SilekHdr → State → Host.Outcome State Fault Refusal) (s : State) :
    Host.Outcome State Fault Refusal :=
  if s.dev.mode ≤ 1 then .next s else
  let inner := s.fmTag
  let s0 := s.fmStart
  match k (fmHeader eid inner) s0 with
  | .next s1 =>
    let d := s1.dev
    (match (d.out.drop s.dev.out.length).findSome? (fun o => o.replyTo inner) with
     | some (st, p) =>
       let out := d.out.filter (fun o => (o.replyTo inner).isNone)
       let cache := d.silek.cache.filter (fun c => c.tag ≠ inner)
       .next { s1 with dev := ({ d with out, silek := { d.silek with cache } }).fmAnswer op tag st p }
     | none =>
       if s.dev.fmRuns then .next { s0 with dev := s0.dev.fmAnswer op tag .busy [] }
       else .next { s1 with dev := (d.fmStarts eid inner).fmAnswer op tag .inProgress [] })
  | o => o

/-- An FM API command refused before any Silek command runs. -/
def State.fmInvalid (op tag : Nat) (s : State) : Host.Outcome State Fault Refusal :=
  .next (if s.dev.mode ≤ 1 then s else { s with dev := s.dev.fmAnswer op tag .badParam [] })

/-! ### Identification and limits -/

/-- IDENTIFY. -/
def execIdentify (eid tag : Nat) (s : State) : Host.Outcome State Fault Refusal := s.fmRun eid 0x0001 tag execDeviceInfo

/-- BACKGROUND_OPERATION_STATUS: a resend of the background command: in progress, its cached final reply within 10 s, or nothing. -/
def execBackgroundOperationStatus (eid tag : Nat) (s : State) : Host.Outcome State Fault Refusal :=
  onDev (fun t d =>
    if d.mode ≤ 1 then d else
    match d.silek.fmBackground with
    | none => d.fmAnswer 0x0002 tag .ok []
    | some (r, inner) =>
      if d.silek.running.any (fun x => decide (x.req = r) && decide (x.tag = inner)) then d.fmAnswer 0x0002 tag .inProgress []
      else
        match d.silek.cache.find? (fun c => c.req = r ∧ c.tag = inner) with
        | some c => if t ≤ c.time + 10000000000 then d.fmAnswer 0x0002 tag c.status c.payload else d.fmAnswer 0x0002 tag .ok []
        | none => d.fmAnswer 0x0002 tag .ok []) s

/-- GET_RESPONSE_MESSAGE_LIMIT: reports the exponent of 2^11 bytes (log entry 51). -/
def execGetResponseMessageLimit (tag : Nat) (s : State) : Host.Outcome State Fault Refusal :=
  onDev (fun _ d => if d.mode ≤ 1 then d else d.fmAnswer 0x0003 tag .ok (leBytes 1 11)) s

/-- SET_RESPONSE_MESSAGE_LIMIT: an exponent of 8 to 11 is accepted and returned. -/
def execSetResponseMessageLimit (tag exponent : Nat) (s : State) : Host.Outcome State Fault Refusal :=
  onDev (fun _ d =>
    if d.mode ≤ 1 then d
    else if exponent < 8 ∨ 11 < exponent then d.fmAnswer 0x0004 tag .badParam []
    else ({ d with silek := { d.silek with responseLimit := exponent } }).fmAnswer 0x0004 tag .ok (leBytes 1 exponent)) s

/-- IDENTIFY_SWITCH_DEVICE: DEVICE_INFO and the status of every present port. -/
def execIdentifySwitchDevice (eid tag : Nat) (s : State) : Host.Outcome State Fault Refusal :=
  s.fmRun eid 0x5100 tag (fun h =>
    runSilek h { opcode := 0x103, key := .identifySwitchDevice eid tag } (queryBody fun s =>
      .final .ok (s.dev.deviceInfo ++ (s.dev.ports.map (fun p => leBytes 4 (s.portStatus p))).flatten)))

/-! ### Ports -/

/-- GET_PHYSICAL_PORT_STATE. -/
def execGetPhysicalPortState (eid tag first count : Nat) (s : State) : Host.Outcome State Fault Refusal :=
  s.fmRun eid 0x5101 tag (fun h => execPortStatusQuery h first count)

/-- PHYSICAL_PORT_CONTROL: 0 assert PERST as disable, 1 deassert PERST as enable, 2 reset as retrain. -/
def execPhysicalPortControl (eid tag port op : Nat) (s : State) : Host.Outcome State Fault Refusal :=
  if 2 < op then s.fmInvalid 0x5102 tag else s.fmRun eid 0x5102 tag (fun h => execPortControl h port op)

/-! ### Virtual switches -/

/-- GET_VIRTUAL_CXL_SWITCH_INFO. -/
def execGetVirtualCxlSwitchInfo (eid tag vi : Nat) (s : State) : Host.Outcome State Fault Refusal :=
  s.fmRun eid 0x5200 tag (fun h => execInstanceQuery h vi)

/-- INSTANCE_CONFIG with the instance's present values but for the device port of virtual downstream port `vppb`. -/
def State.vppb (h : SilekHdr) (vi vppb port : Nat) (s : State) : Host.Outcome State Fault Refusal :=
  let i := s.dev.cfgOf vi
  let t2 := (List.range 7).map (fun k => if k + 1 = vppb then port else Tab.getD i.type2 (k + 1) 0xff)
  execInstanceConfig h vi (i.portA.getD 0xff) (i.portB.getD 0xff) t2 i.msix (s.dev.rd (Vi.QUEUE_ALLOC vi)) true s

/-- BIND_VPPB: the device port of virtual downstream port 1 to 7 of an instance in use. -/
def execBindVppb (eid tag vi vppb port : Nat) (s : State) : Host.Outcome State Fault Refusal :=
  if vppb < 1 ∨ 7 < vppb ∨ 63 < vi ∨ 63 < port ∨ s.dev.viState vi = 0 then s.fmInvalid 0x5201 tag
  else s.fmRun eid 0x5201 tag (fun h s => s.vppb h vi vppb port)

/-- UNBIND_VPPB. -/
def execUnbindVppb (eid tag vi vppb : Nat) (s : State) : Host.Outcome State Fault Refusal :=
  if vppb < 1 ∨ 7 < vppb ∨ 63 < vi ∨ s.dev.viState vi = 0 then s.fmInvalid 0x5202 tag
  else s.fmRun eid 0x5202 tag (fun h s => s.vppb h vi vppb 0xff)

/-! ### Dynamic capacity (R434) -/

/-- Windows that are not enabled. -/
def Dev.freeWindows (d : Dev) : Nat := 256 - (d.windows.filter (fun x => x.2.enabled)).length

/-- GET_DCD_INFO: DEVICE_INFO and the free window count. -/
def execGetDcdInfo (eid tag : Nat) (s : State) : Host.Outcome State Fault Refusal :=
  s.fmRun eid 0x5600 tag (fun h =>
    runSilek h { opcode := 0x102, key := .getDcdInfo eid tag } (queryBody fun s =>
      .final .ok (s.dev.deviceInfo ++ leBytes 2 s.dev.freeWindows)))

/-- GET_HOST_DC_REGION_CONFIGURATION: the host's windows, as WINDOW_QUERY gives them. -/
def execGetHostDcRegionConfiguration (eid tag host : Nat) (s : State) : Host.Outcome State Fault Refusal :=
  s.fmRun eid 0x5601 tag (fun h =>
    runSilek h { opcode := 0x211, minMinor := 3, key := .getHostDcRegionConfiguration eid tag host } (queryBody fun s =>
      if 63 < host then .err .badParam
      else .final .ok ((s.dev.windowsOf host).map (fun x => leBytes 16 x.2.bits)).flatten))

/-- SET_DC_REGION_CONFIGURATION. -/
def execSetDcRegionConfiguration (eid tag window host region kind slotBase slotCount : Nat) (enable : Bool) (s : State) :
    Host.Outcome State Fault Refusal :=
  s.fmRun eid 0x5602 tag (fun h => execWindowConfig h window host region kind slotBase slotCount enable)

/-- The slots of the host's windows that hold an extent, in window and slot order. -/
def Dev.hostExtents (d : Dev) (host : Nat) : List BindSlot :=
  (((d.windowsOf host).map (fun x => x.2.slots)).flatten.map d.slot).filter (fun b => b.valid)

/-- GET_DC_REGION_EXTENT_LISTS: the slot entries from the start index on. -/
def execGetDcRegionExtentLists (eid tag host start count : Nat) (s : State) : Host.Outcome State Fault Refusal :=
  s.fmRun eid 0x5603 tag (fun h =>
    runSilek h { opcode := 0x241, key := .getDcRegionExtentLists eid tag host start count } (queryBody fun s =>
      if 63 < host ∨ 768 < count then .err .badParam
      else .final .ok ((((s.dev.hostExtents host).drop start).take count).map (fun b => leBytes 4 b.bits)).flatten))

/-- The extents of a list of device DPA and length, none when one is not of whole 256 MiB extents, none is there, there are more
than 64, or one comes twice. -/
def Dev.fmExtents (d : Dev) (l : List (Nat × Nat)) : Option (List Nat) :=
  if l.any (fun x => decide (x.1 % 2 ^ 28 ≠ 0) || decide (x.2 % 2 ^ 28 ≠ 0) || decide (2 ^ 46 < x.1 + x.2)) then none
  else if 2 ^ 34 < (l.map (·.2)).foldl (· + ·) 0 then none
  else
    let xs := (l.map (fun x => (List.range (x.2 / 2 ^ 28)).map (fun i => d.homeAddr * 2 ^ 18 + x.1 / 2 ^ 28 + i))).flatten
    if xs = [] ∨ ¬ xs.Nodup then none else some xs

/-- The window of a host's DC region. -/
def Dev.regionWindow (d : Dev) (host region : Nat) : Option (Nat × Window) := (d.windowsOf host).find? (fun x => x.2.region = region)

/-- The lowest free slots of a window. -/
def Dev.freeSlots (d : Dev) (w : Window) (n : Nat) : List Nat := (w.slots.filter (fun k => ¬ (d.slot k).valid ∧ ¬ (d.slot k).pending)).take n

/-- INITIATE_DYNAMIC_CAPACITY_ADD: selection policy 2, Prescriptive, only. -/
def execInitiateDynamicCapacityAdd (eid tag host policy region : Nat) (extents : List (Nat × Nat)) (s : State) :
    Host.Outcome State Fault Refusal :=
  match s.dev.fmExtents extents, s.dev.regionWindow host region with
  | some xs, some (w, x) =>
    if policy ≠ 2 then s.fmInvalid 0x5604 tag else
    s.fmRun eid 0x5604 tag (fun h =>
      runSettled h { opcode := 0x220, key := .initiateDynamicCapacityAdd eid tag host policy region extents } (devBody fun t d =>
        let ks := d.freeSlots x xs.length
        if ks.length < xs.length then (d, .err .noResource) else d.bindSlots t w ks (x.kind + 1) xs))
  | _, _ => s.fmInvalid 0x5604 tag

/-- INITIATE_DYNAMIC_CAPACITY_RELEASE: `forced` is Forced Removal; the extents are not zeroed. -/
def execInitiateDynamicCapacityRelease (eid tag host : Nat) (forced : Bool) (region : Nat) (extents : List (Nat × Nat)) (s : State) :
    Host.Outcome State Fault Refusal :=
  match s.dev.fmExtents extents, s.dev.regionWindow host region with
  | some xs, some (w, x) =>
    s.fmRun eid 0x5605 tag (fun h =>
      runSettled h { opcode := 0x221, key := .initiateDynamicCapacityRelease eid tag host forced region extents }
        (devBody fun t d =>
          let ks := xs.filterMap (fun y => x.slots.find? (fun k => (d.slot k).valid ∧ (d.slot k).fx = y))
          if ks.length < xs.length then (d, .err .badParam) else d.unbindSlots t w ks forced false))
  | _, _ => s.fmInvalid 0x5605 tag

end Sys2Proof.Machine
end

