-- ==== Sys2Proof/Machine/LadleRows.lean ====
section
/-! DEFINITION. The queue commands, the doorbells and the progress of descriptors (R38, R185, R292 to R297, R303, R304, R308,
R316). -/
namespace Sys2Proof.Machine
open Sys2Proof

/-- QUEUE_ASSIGN. -/
def execQueueAssign (h : SilekHdr) (pair owner index ladle : Nat) (s : State) : Host.Outcome State Fault Refusal :=
  runSettled h { opcode := 0x340, key := .queueAssign h.key pair owner index ladle }
    (devBody fun _ d => d.queueAssign pair owner index ladle) s

/-- A queue command of the fabric manager, or of an instance's mailbox by local index (R292). -/
def pairBody (h : SilekHdr) (pair : Nat) (f : Nat → Nat → Dev → Dev × Result) : State → State × Result :=
  devBody fun t d => match d.namedPair h.requester pair with
    | some q => f t q d
    | none => (d, .err .badParam)

/-- QUEUE_SETUP. -/
def execQueueSetup (h : SilekHdr) (pair log2Size sqBase cqBase vector : Nat) (enable : Bool) (s : State) : Host.Outcome State Fault Refusal :=
  runSettled h { opcode := 0x341, key := .queueSetup h.key pair log2Size sqBase cqBase vector enable, hostMay := fun _ _ => true }
    (pairBody h pair fun _ q d => d.queueSetup q log2Size sqBase cqBase vector enable) s

/-- QUEUE_DISABLE. -/
def execQueueDisable (h : SilekHdr) (pair : Nat) (s : State) : Host.Outcome State Fault Refusal :=
  runSettled h { opcode := 0x342, key := .queueDisable h.key pair, hostMay := fun _ _ => true }
    (pairBody h pair fun t q d => d.queueDisable t q) s

/-- QUEUE_RESET. -/
def execQueueReset (h : SilekHdr) (pair : Nat) (s : State) : Host.Outcome State Fault Refusal :=
  runSettled h { opcode := 0x343, key := .queueReset h.key pair, hostMay := fun _ _ => true }
    (pairBody h pair fun t q d => d.queueReset t q) s

/-- QUEUE_QUERY. -/
def execQueueQuery (h : SilekHdr) (pair : Nat) (s : State) : Host.Outcome State Fault Refusal :=
  runSilek h { opcode := 0x344, key := .queueQuery h.key pair, hostMay := fun _ _ => true }
    (pairBody h pair fun _ q d => (d, .final .ok (leBytes 32 (d.pair q).bits))) s

/-- LADLE_SUBMIT. -/
def execLadleSubmit (h : SilekHdr) (pair : Nat) (descriptors : List (BitVec 512)) (s : State) : Host.Outcome State Fault Refusal :=
  runSettled h { opcode := 0x345, minMinor := 2, key := .ladleSubmit h.key pair descriptors }
    (devBody fun _ d => let r := d.ladleSubmit pair descriptors; (r.1.later .recheck, r.2)) s

/-- SQ_TAIL. -/
def execSqTail (vi : Fin 64) (queue value : Nat) (s : State) : Host.Outcome State Fault Refusal :=
  onSettled (fun t d => d.hostDoorbell t vi queue false value) s

/-- CQ_HEAD. -/
def execCqHead (vi : Fin 64) (queue value : Nat) (s : State) : Host.Outcome State Fault Refusal :=
  onSettled (fun t d => d.hostDoorbell t vi queue true value) s

/-- DESCRIPTOR_FETCH. -/
def execDescriptorFetch (ladle : Fin 32) (s : State) : Host.Outcome State Fault Refusal :=
  onSettled (fun t d => d.descriptorFetch t ladle) s

/-- The head of a pair starts when its opcode is the one named and the Ladles run; the work it leads to follows. -/
def startDesc (pair op : Nat) (s : State) : Host.Outcome State Fault Refusal :=
  onSettled (fun t d => if d.ladlesRun ∨ d.mode = 10 then (d.startOpcode t pair op).later .recheck else d) s

/-- COPY. -/
def execCopyDesc (pair : Fin 8192) (s : State) : Host.Outcome State Fault Refusal := startDesc pair 1 s

/-- FILL. -/
def execFillDesc (pair : Fin 8192) (s : State) : Host.Outcome State Fault Refusal := startDesc pair 2 s

/-- COMPARE. -/
def execCompareDesc (pair : Fin 8192) (s : State) : Host.Outcome State Fault Refusal := startDesc pair 3 s

/-- CRC32C. -/
def execCrc32cDesc (pair : Fin 8192) (s : State) : Host.Outcome State Fault Refusal := startDesc pair 4 s

/-- ATOMIC. -/
def execAtomicDesc (pair : Fin 8192) (s : State) : Host.Outcome State Fault Refusal := startDesc pair 5 s

/-- ZERO_RELEASE. -/
def execZeroReleaseDesc (pair : Fin 8192) (s : State) : Host.Outcome State Fault Refusal := startDesc pair 6 s

/-- MIGRATE. -/
def execMigrateDesc (pair : Fin 8192) (s : State) : Host.Outcome State Fault Refusal := startDesc pair 7 s

/-- PIECE_DONE. -/
def execPieceDone (run piece : Nat) (s : State) : Host.Outcome State Fault Refusal :=
  onSettled (fun t d => d.pieceDone t run piece) s

/-- LADLE_POWER_DOWN. -/
def execLadlePowerDown (ladle : Fin 32) (s : State) : Host.Outcome State Fault Refusal :=
  onDev (fun _ d => d.ladlePowerDown ladle) s

/-- BLOCK_WAKE. -/
def execBlockWake (block : Fin 33) (s : State) : Host.Outcome State Fault Refusal :=
  onDev (fun _ d => d.blockWake block) s

end Sys2Proof.Machine
end

