-- ==== Sys2Proof/Machine/Rennet.lean ====
section
/-! DEFINITION. The Rennet: RENNET_SET, the exerciser's streams and its responder model, the end of a LANE_DROP, TEST messages; PRBS checkers (R109, R110,
R545 to R548). DELAY, CREDIT_HOLD and RESPONDER act on timing alone. -/
namespace Sys2Proof.Machine
open Sys2Proof

/-! ### Exerciser streams (R546) -/

/-- EXERCISE_INJECT: a repeating stream's next request. -/
def Dev.exerciseNext (t stream : Nat) (d : Dev) : Dev :=
  match d.rennet 7 stream with
  | none => d
  | some v => if 2 ≤ streamMode v then d.injectStream t v else d

/-- EXERCISE_INJECT. -/
def execExerciseInject (stream : Fin 4) (s : State) : Host.Outcome State Fault Refusal := onSettled (fun t d => d.exerciseNext t stream) s

/-! ### The responder model (R547) -/

/-- The responder answers a snoop: with a writeback when the holder's state is EXC or MOD; the slot keeps no copy. -/
def Dev.respondSnoop (t : Nat) (slice id s : Nat) (d : Dev) : Dev :=
  match d.tracker slice id with
  | none => d
  | some tr =>
    let dirty := d.exer.holders.any (fun x => decide (x.1 = s) && decide (x.2.1 = tr.la) && decide (2 ≤ x.2.2))
    let d := { d with exer := { d.exer with holders := d.exer.holders.filter (fun x => ¬ (x.1 = s ∧ x.2.1 = tr.la)) } }
    if ¬ dirty then d.snoopAnswered t tr s 0
    else
      let v := d.freeVal 12
      let (n, d) := d.drawn.newId
      let d := d.takeSnoopData t tr {
        id := n, kind := .wb, origin := .churn 0, master := masterChurn slice 1, fa := laFa tr.la, data := BitVec.ofNat 512 v
        slot := some s, time := t }
      match d.tracker slice id with
      | some tr => d.snoopAnswered t tr s 0
      | none => d

/-- RESPONDER_REPLY: the oldest memory request, or the oldest snoop, is answered. The data of a read is a free value. -/
def Dev.respondOne (t : Nat) (snoops : Bool) (d : Dev) : Dev :=
  if snoops then
    match d.exer.snoops with
    | [] => d
    | (slice, id, s) :: rest => ({ d with exer := { d.exer with snoops := rest } }).respondSnoop t slice id s
  else
    match d.exer.memory with
    | [] => d
    | (write, c) :: rest =>
      let v := d.freeVal 11
      let d := { d with exer := { d.exer with memory := rest } }
      if write then d.later (.ended c {}) else d.drawn.later (.ended c { data := BitVec.ofNat 512 v })

/-- RESPONDER_REPLY. -/
def execResponderReply (snoops : Bool) (s : State) : Host.Outcome State Fault Refusal := onSettled (fun t d => d.respondOne t snoops) s

/-! ### The end of a LANE_DROP (R546) -/

/-- LANE_DROP_EXPIRY: a timed drop ends. -/
def Dev.laneBack (l : Nat) (d : Dev) : Dev :=
  match d.rennet 6 l with
  | none => d
  | some v => if v % 65536 = 0 then d else d.setLane l { d.laneOf l with dropped := false }

/-- LANE_DROP_EXPIRY. -/
def execLaneDropExpiry (lane : Fin 256) (s : State) : Host.Outcome State Fault Refusal := onDev (fun _ d => d.laneBack lane) s

/-! ### RENNET_SET (R545) -/

/-- RENNET_SET: an accepted one consumes the unlock. -/
def execRennetSet (h : SilekHdr) (cls target setting : Nat) (s : State) : Host.Outcome State Fault Refusal :=
  runSettled h { opcode := 0x810, minMinor := 1, key := .rennetSet h.key cls target setting } (fun s =>
    if s.dev.mode ≠ 11 ∨ s.dev.partS ∨ ¬ s.guard.unlocked then (s, .err .notPermitted)
    else if ¬ s.dev.rennetTargetOk cls target ∨ ¬ rennetSetting cls setting then (s, .err .badParam)
    else match s.dev.rennetPut cls target setting with
    | none => (s, .err .noResource)
    | some d => ({ s with dev := d.applySetting s.time.now cls target setting, guard := { s.guard with unlocked := false } }, .final .ok [])) s

/-! ### TEST and TEST_RSP (R547) -/

/-- One TEST on a link, to the partner that trained it. -/
def Dev.sendTest (t p : Nat) (d : Dev) : Dev :=
  let dst := d.rd (Pg.phy_REMOTE_CHAIN p)
  let tag := d.freeTag dst 65536 d.fab.nextTag
  let (e2e, d) := d.nextE2e false dst
  let o : Outst := { dst, tag, e2e, vc := 5, opcode := 0x30, time := t, cont := .test }
  let d := { d with fab := { d.fab with outstanding := d.fab.outstanding ++ [o], nextTag := (tag + 1) % 65536 } }
  d.queueOn t p { vc := 5, opcode := 0x30, src := d.chainAddr, dst, master := masterFabric d.chainAddr 1, tag, epoch := d.epoch, e2e }

/-- TEST_PERIOD: once per 1 µs on each link whose link layer is UP, in OM11. -/
def execTestPeriod (s : State) : Host.Outcome State Fault Refusal :=
  onDev (fun t d =>
    if d.mode ≠ 11 then d
    else (d.ports.filter (fun p => d.isQflPort p && decide (d.rd (Pg.ll_LL_STATE p) = 2))).foldl (fun (d : Dev) p => d.sendTest t p) d) s

/-- TEST: counted and answered on the link it came over. -/
def Dev.testIn (t : Nat) (h : QflHdr) (d : Dev) : Dev :=
  let port := d.arrivedOn { vc := 5, opcode := 0x30, src := h.src, dst := h.dst, tag := h.tag, e2e := h.e2e }
  let (d, ok) := d.receiveFiltered t 5 0x30 h
  if ¬ ok then d else
  let d := { d with fab := { d.fab with tests := d.fab.tests + 1 } }
  let m : QflMsg := {
    vc := 5, opcode := 0x31, src := h.dst, dst := h.src, master := h.master, tag := h.tag, epoch := d.epoch, e2e := h.e2e }
  match port with
  | some p => d.queueOn t p m
  | none => d.enqueueMsg t m

/-- TEST. -/
def execTestMsg (qfl : QflHdr) (s : State) : Host.Outcome State Fault Refusal := onDev (fun t d => d.testIn t qfl) s

/-- TEST_RSP: counted and discarded. -/
def execTestRsp (qfl : QflHdr) (s : State) : Host.Outcome State Fault Refusal :=
  onDev (fun t d =>
    match d.matchResponse t 5 0x31 qfl with
    | (d, some _) => { d with fab := { d.fab with testReplies := d.fab.testReplies + 1 } }
    | (d, none) => d) s

/-! ### PRBS checkers (R110) -/

/-- A checker in sync counts bits and errors; both counts stop when the bit count reaches 2^48 − 1. How many errors of a report fell before
that bit is a free value, at most the bits that still count and not fewer than the bits past it leave (log entry 2). -/
def Dev.prbsCount (l bits errors : Nat) (d : Dev) : Dev :=
  if ¬ d.flag (Pg.lane_CHK_SYNC l) then d else
  let n := d.rd (Pg.lane_PRBS_BITS_LO l) + 2 ^ 32 * d.rd (Pg.lane_PRBS_BITS_HI l)
  let room := 2 ^ 48 - 1 - n
  if room = 0 then d
  else
    let m := n + min room bits
    let d' := (d.wr (Pg.lane_PRBS_BITS_LO l) (m % 2 ^ 32)).wr (Pg.lane_PRBS_BITS_HI l) (m / 2 ^ 32)
    if bits ≤ room then d'.add (Pg.lane_PRBS_ERRORS l) errors
    else
      let least := errors - (bits - room)
      let most := min errors room
      (d'.add (Pg.lane_PRBS_ERRORS l) (least + d.freeVal 14 % (most - least + 1))).drawn

/-- A checker that may run: in OM11, with a pattern, on a lane that LANE_DROP does not hold. -/
def Dev.checks (d : Dev) (l : Nat) : Bool :=
  decide (d.mode = 11) && decide (d.rd (Pg.lane_CHK_PATTERN l) ≠ 0) && !(d.laneOf l).dropped

/-- CHECKER_SYNC: the checker is in sync once the last 64 bits received are as the pattern predicts (R110); the bits and errors it has
counted in sync since its last report come with it. -/
def execCheckerSync (lane : Fin 256) (received : List Bool) (report : PrbsReport) (s : State) : Host.Outcome State Fault Refusal :=
  onDev (fun _ d =>
    if ¬ d.checks lane then d
    else if d.flag (Pg.lane_CHK_SYNC lane) then d.prbsCount lane report.bits report.errors
    else if prbsInSync (d.rd (Pg.lane_CHK_PATTERN lane)) received then (d.raise1 (Pg.lane_CHK_SYNC lane)).prbsCount lane report.bits report.errors
    else d) s

/-- SYNC_LOSS: with 256 or more errors in a window of 1,024 bits, what the checker had counted counts; it leaves sync and seeds itself
again. -/
def execSyncLoss (lane : Fin 256) (window : Nat) (report : PrbsReport) (s : State) : Host.Outcome State Fault Refusal :=
  onDev (fun _ d =>
    if ¬ d.flag (Pg.lane_CHK_SYNC lane) ∨ window < 256 then d
    else ((d.prbsCount lane report.bits report.errors).wrFlag (Pg.lane_CHK_SYNC lane) false).inc (Pg.lane_SYNC_LOSS lane)) s

end Sys2Proof.Machine
end

