-- ==== Sys2Proof/Machine/Security.lean ====
section
/-! DEFINITION. The commands of the security controller, MCTP, PLDM and SPDM services (R416, R461 to R488, R537). -/
namespace Sys2Proof.Machine
open Sys2Proof

/-- FW_UPDATE_START. -/
def execFwUpdateStart (h : SilekHdr) (bank len : Nat) (s : State) : Host.Outcome State Fault Refusal :=
  runSilek h { opcode := 0x701, key := .fwUpdateStart h.key bank len } (devBody fun _ d => d.fwUpdateStart h.secured bank len) s

/-- FLASH_ERASE_DONE (R484): the bank is in WRITING, and FW_UPDATE_START replies OK; a PLDM update pulls its first chunk. -/
def execFlashEraseDone (s : State) : Host.Outcome State Fault Refusal :=
  onDev (fun t d =>
    match d.sc.update with
    | none => d
    | some (b, pldm) =>
      if (d.bank b).state ≠ 0 then d else
      let d := (d.setBank b { d.bank b with state := 1 }).syncBanks
      let d := d.finish t (· = .eraseBank b) .ok []
      if pldm then d.askChunk b else d) s

/-- FW_UPDATE_DATA. -/
def execFwUpdateData (h : SilekHdr) (off len : Nat) (data : List Byte) (s : State) : Host.Outcome State Fault Refusal :=
  runSilek h { opcode := 0x702, key := .fwUpdateData h.key off len data }
    (devBody fun _ d => d.fwUpdateData h.secured off len data) s

/-- FW_UPDATE_VERIFY. -/
def execFwUpdateVerify (h : SilekHdr) (bank : Nat) (s : State) : Host.Outcome State Fault Refusal :=
  runSilek h { opcode := 0x703, key := .fwUpdateVerify h.key bank } (devBody fun _ d => d.fwUpdateVerify h.secured bank) s

/-- FW_ACTIVATE. -/
def execFwActivate (h : SilekHdr) (bank : Nat) (s : State) : Host.Outcome State Fault Refusal :=
  runSilek h { opcode := 0x704, key := .fwActivate h.key bank } (devBody fun t d => d.fwActivate t h.secured bank) s

/-- FW_QUERY (R484). -/
def execFwQuery (h : SilekHdr) (s : State) : Host.Outcome State Fault Refusal :=
  runSilek h { opcode := 0x705, key := .fwQuery h.key }
    (queryBody fun s => .final .ok (s.dev.bankReport 0 ++ s.dev.bankReport 1 ++ leBytes 2 0)) s

/-- SELF_TEST (R477). -/
def execSelfTest (h : SilekHdr) (s : State) : Host.Outcome State Fault Refusal :=
  runSilek h { opcode := 0x710, key := .selfTest h.key }
    (devBody fun _ d => if d.works (· = .selfTest) then (d, .err .busy) else (d, .run .selfTest)) s

/-- SELF_TEST_DONE (R477): OK, or ABORTED and the SC in ERROR. -/
def execSelfTestDone (ok : Bool) (s : State) : Host.Outcome State Fault Refusal :=
  onSettled (fun t d =>
    if ¬ d.works (· = .selfTest) then d
    else if ok then d.finish t (· = .selfTest) .ok []
    else (d.scError t).finish t (· = .selfTest) .aborted []) s

/-- HEALTH_TEST_FAILURE (R477). -/
def execHealthTestFailure (s : State) : Host.Outcome State Fault Refusal := onSettled (fun t d => d.scError t) s

/-- IDE_FAILURE (R71): a MAC failure or an IDE sequence error. -/
def execIdeFailure (port : Fin 64) (sequence : Bool) (s : State) : Host.Outcome State Fault Refusal :=
  onSettled (fun t d =>
    if d.rd (Pg.IDE_STATE port) = 2 then d.ideInsecure t port (if sequence then 2 else 1) else d) s

/-- IDE_REFRESH_TIMEOUT (R478): a refresh not completed within 1 s. -/
def execIdeRefreshTimeout (port : Fin 64) (s : State) : Host.Outcome State Fault Refusal :=
  onSettled (fun t d => if (d.port port).ideRefresh then d.ideInsecure t port 3 else d) s

/-- IDE_KEY_MANAGEMENT. -/
def execIdeKeyManagement (port : Fin 64) (op : IdeKeyOp) (anchorOk : Bool) (s : State) : Host.Outcome State Fault Refusal :=
  onDev (fun t d => d.ideKeys t port op anchorOk) s

/-- GET_CERTIFICATE (R473): slot 0 only, and only while the DeviceID certificate passed its hash check. -/
def execGetCertificate (slot : Nat) (s : State) : Host.Outcome State Fault Refusal :=
  onDev (fun _ d =>
    if d.mode ≤ 1 then d
    else if d.scReady ∧ slot = 0 ∧ d.sc.certSlot0 then
      d.emit (.service 0x602 [slot, d.flash.deviceIdCert, d.sc.deviceIdKey.getD 0, d.sc.aliasKey.getD 0])
    else d.spdmError 1 0x602) s

/-- CHALLENGE (R473, R474): the alias key signs. -/
def execChallenge (slot : Nat) (nonce : List Byte) (s : State) : Host.Outcome State Fault Refusal :=
  onDev (fun _ d =>
    if d.mode ≤ 1 then d
    else if d.scReady ∧ slot = 0 ∧ d.sc.certSlot0 then
      d.emit (.service 0x603 ((Config.ecdsaSign (d.sc.aliasKey.getD 0) nonce).map (·.toNat)))
    else d.spdmError 1 0x603) s

/-- GET_MEASUREMENTS (R475): index 1 to 6, or 0xFF for every block, signed by the alias key. -/
def execGetMeasurements (index : Nat) (nonce : List Byte) (s : State) : Host.Outcome State Fault Refusal :=
  onDev (fun _ d =>
    if d.mode ≤ 1 then d
    else if d.scReady ∧ ((1 ≤ index ∧ index ≤ 6) ∨ index = 0xff) then
      let ms := if index = 0xff then ([1, 2, 3, 4, 5, 6].map d.measurement).flatten else d.measurement index
      d.emit (.service 0x660 (index :: ms ++ (Config.ecdsaSign (d.sc.aliasKey.getD 0) nonce).map (·.toNat)))
    else d.spdmError 1 0x660) s

/-- KEY_EXCHANGE (R474): up to 96 sessions; a further one is refused with Busy. A requester that fails authentication posts event
0x0F (R483). -/
def execKeyExchange (transport : Nat) (mutualAuth authOk : Bool) (s : State) : Host.Outcome State Fault Refusal :=
  onDev (fun t d =>
    if d.mode ≤ 1 then d
    else if ¬ d.scReady then d.spdmError 1 0x664
    else if 96 ≤ d.sc.sessions.length then d.spdmError 3 0x664
    else if ¬ authOk then ((d.inc ScR.AUTH_FAILS).secEvent t 0xf).spdmError 1 0x664
    else
      let n := d.sc.nextSession
      let x : Session := { id := n, transport, mutualAuth }
      let d := { d with sc := { d.sc with sessions := d.sc.sessions ++ [x], nextSession := n + 1 } }
      ((d.wr ScR.SESSIONS d.sc.sessions.length).inc ScR.SESSIONS_OPENED).emit (.service 0x664 [n])) s

/-- REQUEST_UPDATE (R486): only in OM10, and not while another update runs. -/
def execRequestUpdate (secured : Bool) (s : State) : Host.Outcome State Fault Refusal :=
  onDev (fun _ d =>
    if d.mode ≤ 1 then d
    else if d.unsecured secured then d.pldmRefuse 1
    else if d.mode ≠ 10 then d.pldmRefuse 2
    else if d.sc.update.isSome ∨ (1 ≤ d.sc.pldmStep ∧ d.sc.pldmStep ≤ 3) then d.pldmRefuse 3
    else
      (((d.pldmAt 1).raise1 ScR.UPDATE_BUSY).raise1 ScR.UPDATE_PLDM).emit (.service 0x510 [])) s

/-- PASS_COMPONENT_TABLE (R486): the one component is 0x0964. -/
def execPassComponentTable (secured : Bool) (identifier : Nat) (s : State) : Host.Outcome State Fault Refusal :=
  onDev (fun _ d =>
    if d.mode ≤ 1 then d
    else if d.unsecured secured then d.pldmRefuse 1
    else if d.sc.pldmStep ≠ 1 then d.pldmRefuse 2
    else
      let ok := decide (identifier = 0x964)
      let d := if ok then d.pldmAt 2 else d
      d.emit (.service 0x513 [flagBit ok])) s

/-- UPDATE_COMPONENT (R486): FW_UPDATE_START on the bank that is not running. -/
def execUpdateComponent (secured : Bool) (identifier size : Nat) (s : State) : Host.Outcome State Fault Refusal :=
  onDev (fun _ d =>
    if d.mode ≤ 1 then d
    else if d.unsecured secured then d.pldmRefuse 1
    else if d.sc.pldmStep ≠ 2 ∨ d.mode ≠ 10 then d.pldmRefuse 2
    else if identifier ≠ 0x964 ∨ size < 4097 ∨ 25161728 < size then d.emit (.service 0x514 [0])
    else
      let b := if d.runs 0 then 1 else 0
      (d.beginUpdate b size true).emit (.service 0x514 [1])) s

/-- REQUEST_FIRMWARE_DATA (R486): a chunk arrives and is programmed; after the last, VerifyComplete and ApplyComplete report. -/
def execRequestFirmwareData (secured : Bool) (data : List Byte) (s : State) : Host.Outcome State Fault Refusal :=
  onDev (fun _ d =>
    if d.mode ≤ 1 then d
    else if d.unsecured secured then d.pldmRefuse 1
    else match d.sc.update with
    | some (b, true) =>
      let x := d.bank b
      if x.state ≠ 1 ∨ data.length ≠ min 1024 (x.declared - x.image.length) ∨ data = [] then d.pldmRefuse 2
      else if d.rd ScR.SC_STATE = 2 ∧ x.declared ≤ x.image.length + data.length then d.pldmRefuse 1
      else
        let d := d.program b data
        if (d.bank b).image.length < x.declared then d.askChunk b
        else
          let (d, c) := d.verifyBank b
          let d := d.endUpdate.emit (.service 0x516 [c])
          if c = 0 then (d.pldmAt 4).emit (.service 0x518 []) else d
    | _ => d.pldmRefuse 2) s

/-- ACTIVATE_FIRMWARE (R486): as FW_ACTIVATE; self-contained activation is not supported, and activation needs a reset. -/
def execActivateFirmware (secured selfContained : Bool) (s : State) : Host.Outcome State Fault Refusal :=
  onDev (fun t d =>
    if d.mode ≤ 1 then d
    else if d.unsecured secured then d.pldmRefuse 1
    else
      let b := if d.runs 0 then 1 else 0
      if d.sc.pldmStep ≠ 4 ∨ selfContained ∨ d.mode ≠ 10 ∨ (d.bank b).state ≠ 2 ∨ d.topBank = some b then d.pldmRefuse 2
      else ((d.activate t b).pldmAt 0).emit (.service 0x51a [1])) s

/-- SET_ENDPOINT_ID. -/
def execSetEndpointId (eid : Nat) (s : State) : Host.Outcome State Fault Refusal :=
  onDev (fun _ d => d.service (({ d with silek := { d.silek with endpointId := eid } }).emit (.service 0x01 [eid]))) s

/-- GET_ENDPOINT_ID. -/
def execGetEndpointId (s : State) : Host.Outcome State Fault Refusal :=
  onDev (fun _ d => d.service (d.emit (.service 0x02 [d.silek.endpointId]))) s

/-- GET_ENDPOINT_UUID: the spec gives no UUID, so it is a free constant of the part. -/
def execGetEndpointUuid (s : State) : Host.Outcome State Fault Refusal :=
  onDev (fun _ d => d.service (d.emit (.service 0x03 [Config.freeValue 94 0]))) s

/-- GET_MCTP_VERSION_SUPPORT: the version numbers are MCTP's own, free here. -/
def execGetMctpVersionSupport (s : State) : Host.Outcome State Fault Refusal :=
  onDev (fun _ d => d.service (d.emit (.service 0x04 [Config.freeValue 92 0]))) s

/-- GET_MESSAGE_TYPE_SUPPORT: control, PLDM, SPDM, secured messages, FM API, vendor defined (R416), by the DMTF type numbers. -/
def execGetMessageTypeSupport (s : State) : Host.Outcome State Fault Refusal :=
  onDev (fun _ d => d.service (d.emit (.service 0x05 [0, 1, 5, 6, 7, 0x7f]))) s

/-- GET_VENDOR_DEFINED_MESSAGE_SUPPORT: the IANA enterprise number of the identity registers (R416, R460). -/
def execGetVendorDefinedMessageSupport (selector : Nat) (s : State) : Host.Outcome State Fault Refusal :=
  onDev (fun _ d => d.service (d.emit (.service 0x06 (if selector = 0 then [0xff, 1, d.rd Ident.ENTERPRISE] else [])))) s

/-- SET_EVENT_RECEIVER. -/
def execSetEventReceiver (eid : Nat) (s : State) : Host.Outcome State Fault Refusal :=
  onDev (fun _ d => d.service (({ d with silek := { d.silek with eventReceiver := eid } }).emit (.service 0x204 []))) s

/-- GET_PDR_REPOSITORY_INFO: one record for each of the 52 sensors. -/
def execGetPdrRepositoryInfo (s : State) : Host.Outcome State Fault Refusal :=
  onDev (fun _ d => d.service (d.emit (.service 0x250 [52]))) s

/-- GET_PDR. -/
def execGetPdr (record : Nat) (s : State) : Host.Outcome State Fault Refusal :=
  onDev (fun _ d => d.service (d.emit (.service 0x251 (sensorPdr record)))) s

/-- GET_SENSOR_READING: the reading, or unavailable. -/
def execGetSensorReading (sensor : Nat) (s : State) : Host.Outcome State Fault Refusal :=
  onDev (fun _ d => d.service (d.emit (.service 0x211
    (match d.sensor sensor with
     | some v => if d.silek.sensorsOff.contains sensor then [sensor, 2] else [sensor, 0, v]
     | none => [sensor, 1])))) s

/-- GET_STATE_SENSOR_READINGS: sensor 52 reports the operating mode. -/
def execGetStateSensorReadings (sensor : Nat) (s : State) : Host.Outcome State Fault Refusal :=
  onDev (fun _ d => d.service (d.emit (.service 0x221 (if sensor = 52 then [52, 0, d.mode] else [sensor, 1])))) s

/-- SET_NUMERIC_SENSOR_ENABLE. -/
def execSetNumericSensorEnable (sensor : Nat) (enable : Bool) (s : State) : Host.Outcome State Fault Refusal :=
  onDev (fun _ d => d.service
    (let off := d.silek.sensorsOff.filter (fun x => x ≠ sensor)
     ({ d with silek := { d.silek with sensorsOff := if enable then off else off ++ [sensor] } }).emit (.service 0x210 [sensor]))) s

end Sys2Proof.Machine
end

