-- ==== Sys2Proof/Machine/SlotPower.lean ====
section
/-! DEFINITION. The slot power commands and events (R501 to R513). -/
namespace Sys2Proof.Machine
open Sys2Proof

/-- SLOT_POWER_ON. -/
def execSlotPowerOn (h : SilekHdr) (ch : Nat) (s : State) : Host.Outcome State Fault Refusal :=
  runSilek h { opcode := 0x601, key := .slotPowerOn h.key ch } (devBody fun _ d => d.slotPowerOn ch) s

/-- SLOT_POWER_OFF. -/
def execSlotPowerOff (h : SilekHdr) (ch force : Nat) (s : State) : Host.Outcome State Fault Refusal :=
  runSettled h { opcode := 0x602, key := .slotPowerOff h.key ch force } (devBody fun t d => d.slotPowerOff t ch force) s

/-- SLOT_POWER_CONFIG. -/
def execSlotPowerConfig (h : SilekHdr) (ch ilim timer : Nat) (s : State) : Host.Outcome State Fault Refusal :=
  runSilek h { opcode := 0x603, key := .slotPowerConfig h.key ch ilim timer }
    (devBody fun t d => d.slotPowerConfig t ch ilim timer) s

/-- SLOT_POWER_QUERY (R508). -/
def execSlotPowerQuery (h : SilekHdr) (ch : Nat) (s : State) : Host.Outcome State Fault Refusal :=
  runSilek h { opcode := 0x604, key := .slotPowerQuery h.key ch }
    (devBody fun _ d => d.spcCheck ch (d, .final .ok (d.slotPowerReport ch))) s

/-- ADC_SCAN (R510): every populated channel is measured, and the registers are updated at the end of the scan. -/
def execAdcScan (samples : List AdcSample) (s : State) : Host.Outcome State Fault Refusal :=
  onSettled (fun t d =>
    let d := (samples.zip (List.range 16)).foldl (fun d x => d.scanChannel t x.2 x.1) d
    d.wr Spc.SCAN_COUNT (d.rd Spc.SCAN_COUNT + 1)) s

/-- PCHG_TIMEOUT (R504): pre-charge not done in time is FAULT 3. -/
def execPchgTimeout (ch : Fin 16) (s : State) : Host.Outcome State Fault Refusal :=
  onSettled (fun t d => if d.rd (Spc.ch_STATE ch) = 1 then d.spcFault t ch 3 else d) s

/-- GATE_CHARGED (R504): the gate reaches VIN + 8 V, pre-charge falls, QUALIFY begins. -/
def execGateCharged (ch : Fin 16) (s : State) : Host.Outcome State Fault Refusal :=
  onDev (fun _ d =>
    if d.rd (Spc.ch_STATE ch) = 2 then (d.spcDrive (Spc.ch_PCHG_ON ch) (.spcPchg ch) false).wr (Spc.ch_STATE ch) 3 else d) s

/-- POWER_GOOD_TIMEOUT (R504): 100 ms in RAMP or QUALIFY is FAULT 4. -/
def execPowerGoodTimeout (ch : Fin 16) (s : State) : Host.Outcome State Fault Refusal :=
  onSettled (fun t d =>
    if d.rd (Spc.ch_STATE ch) = 2 ∨ d.rd (Spc.ch_STATE ch) = 3 then d.spcFault t ch 4 else d) s

/-- QUALIFICATION_END (R505): after 1 ms without a running fault timer and with VOUT at or above 10.8 V, SPCn_PG asserts. -/
def execQualificationEnd (ch : Fin 16) (s : State) : Host.Outcome State Fault Refusal :=
  onDev (fun t d =>
    if d.rd (Spc.ch_STATE ch) = 3 ∧ ¬ d.flag (Spc.ch_TIMER_RUN ch) ∧ 10800 ≤ d.rd (Spc.ch_VOUT ch) then
      let d := (d.wr (Spc.ch_STATE ch) 4).spcDrive (Spc.ch_PG ch) (.spcPg ch) true
      let d := d.raise1 (Spc.ch_PG_RISE_EVT ch)
      let d := d.post t 0xd (d.spcData ch 1)
      (d.finish t (· = .slotOn ch) .ok []).autoNext
    else d) s

/-- CURRENT_LIMIT (R502, R505): the gate regulates, the fault timer starts, a running qualification is cancelled. -/
def execCurrentLimit (ch : Fin 16) (s : State) : Host.Outcome State Fault Refusal :=
  onDev (fun t d =>
    if d.rd (Spc.ch_STATE ch) = 0 ∨ d.rd (Spc.ch_STATE ch) = 5 ∨ d.rd (Spc.ch_STATE ch) = 6 then d else d.limitStarts t ch) s

/-- CURRENT_LIMIT_END (R505): the timer stops without expiring, unless VOUT is still low after power-good (R506). -/
def execCurrentLimitEnd (ch : Fin 16) (s : State) : Host.Outcome State Fault Refusal :=
  onDev (fun _ d =>
    let d := d.wrFlag (Spc.ch_IN_LIMIT ch) false
    d.wrFlag (Spc.ch_TIMER_RUN ch) (decide (d.rd (Spc.ch_STATE ch) = 4) && decide (d.rd (Spc.ch_VOUT ch) < 10800))) s

/-- FAULT_TIMER (R506): expiry in current limit is FAULT 1, on output undervoltage FAULT 5. -/
def execFaultTimer (ch : Fin 16) (s : State) : Host.Outcome State Fault Refusal :=
  onSettled (fun t d =>
    if d.flag (Spc.ch_TIMER_RUN ch) then d.spcFault t ch (if d.flag (Spc.ch_IN_LIMIT ch) then 1 else 5) else d) s

/-- FAST_TRIP (R502, R506): in any state but OFF, gate, pre-charge and power-good fall and the channel enters FAULT 2. -/
def execFastTrip (ch : Fin 16) (s : State) : Host.Outcome State Fault Refusal :=
  onSettled (fun t d => if d.rd (Spc.ch_STATE ch) = 0 ∨ d.rd (Spc.ch_RSENSE ch) = 0 then d else d.spcFault t ch 2) s

/-- STOPPING_END (R504): 100 µs after SPCn_PG falls the gate is pulled low, the channel is OFF and SLOT_POWER_OFF replies OK. -/
def execStoppingEnd (ch : Fin 16) (s : State) : Host.Outcome State Fault Refusal :=
  onSettled (fun t d =>
    if d.rd (Spc.ch_STATE ch) = 5 then (d.spcOff t ch).finish t (· = .slotOff ch) .ok [] else d) s

/-- COOLDOWN_END (R504): the cool-down of a fault ends. -/
def execCooldownEnd (ch : Fin 16) (s : State) : Host.Outcome State Fault Refusal :=
  onDev (fun _ d => d.wrFlag (Spc.ch_COOLDOWN ch) false) s

end Sys2Proof.Machine
end

