-- ==== Sys2Proof/WellFormed.lean ====
section
/-! DEFINITION. What the Silek commands share, and which commands can arrive at all: the operands of a Silek command lie in the fields of its header (R407), a segment in
its carrier (R414 to R416). Values that a command's own rule checks are not checked here. -/
namespace Sys2Proof

/-- The header's fields have the widths of R407. -/
def SilekHdr.wf (h : SilekHdr) : Bool :=
  decide (h.major < 256) && decide (h.minor < 256) && decide (h.tag < 65536) && decide (h.dst < 256) && decide (h.src < 256) &&
    decide (h.epoch < 2 ^ 32) && decide (h.payload.length ≤ 3072) &&
    (match h.requester with
     | .fm eid => decide (eid < 256)
     | .mgmt => true
     | .member a => decide (1 ≤ a) && decide (a ≤ 16)
     | .host vi => decide (vi < 64))

/-- A segment's index and bytes fit its carrier: four segments of 1,020 bytes on the chain, 33 of 96 bytes on VC5, one body of 3,104
bytes over MCTP. -/
def segmentFits (via : SegPath) (index last : Nat) (bytes : List Byte) : Bool :=
  match via with
  | .chain _ _ _ _ => decide (index ≤ 3) && decide (last ≤ 3) && decide (bytes.length ≤ 1020)
  | .vc5 _ => decide (index ≤ 32) && decide (last ≤ 32) && decide (bytes.length ≤ 96)
  | .mctp _ _ => decide (bytes.length ≤ 3104)

/-- The header a command carries. -/
def Instr.header : Instr → Option SilekHdr
  | .silekVersion h => some h
  | .deviceInfo h => some h
  | .portStatusQuery h _ _ => some h
  | .commandSupport h _ => some h
  | .eventRead h _ _ _ => some h
  | .eventSubscribe h _ _ => some h
  | .eventNotify h _ _ => some h
  | .capacityAdd h _ _ _ _ _ => some h
  | .capacityRemove h _ _ => some h
  | .deviceCapacityQuery h _ => some h
  | .windowConfig h _ _ _ _ _ _ _ => some h
  | .windowQuery h _ _ => some h
  | .extentBind h _ _ _ _ _ => some h
  | .extentUnbind h _ _ _ _ _ => some h
  | .extentMigrate h _ _ _ _ => some h
  | .extentMigrateAbort h _ => some h
  | .extentZero h _ _ => some h
  | .extentQuery h _ _ => some h
  | .slotQuery h _ _ => some h
  | .instanceConfig h _ _ _ _ _ _ _ => some h
  | .instanceQuery h _ => some h
  | .instanceQuiesce h _ _ _ => some h
  | .instanceResume h _ => some h
  | .instanceReset h _ => some h
  | .qosSet h _ _ _ _ _ _ _ => some h
  | .qosQuery h _ => some h
  | .queueAssign h _ _ _ _ => some h
  | .queueSetup h _ _ _ _ _ _ => some h
  | .queueDisable h _ => some h
  | .queueReset h _ => some h
  | .queueQuery h _ => some h
  | .ladleSubmit h _ _ => some h
  | .gateWrite h _ _ _ => some h
  | .gateCommit h _ => some h
  | .gateRead h _ _ _ _ => some h
  | .gateDiscard h _ => some h
  | .sharerSlotSet h _ _ _ _ _ => some h
  | .sharerSlotQuery h => some h
  | .membershipSet h _ => some h
  | .membershipQuery h => some h
  | .memberJoin h _ => some h
  | .memberRejoin h _ _ _ => some h
  | .memberDeclareDead h _ => some h
  | .epochAdvance h _ _ _ _ _ _ _ _ _ => some h
  | .pairHeadSet h _ _ _ _ => some h
  | .mirrorResync h => some h
  | .replicaSet h _ _ _ _ => some h
  | .slotPowerOn h _ => some h
  | .slotPowerOff h _ _ => some h
  | .slotPowerConfig h _ _ _ => some h
  | .slotPowerQuery h _ => some h
  | .fwUpdateStart h _ _ => some h
  | .fwUpdateData h _ _ _ => some h
  | .fwUpdateVerify h _ => some h
  | .fwActivate h _ => some h
  | .fwQuery h => some h
  | .selfTest h => some h
  | .zeroize h _ => some h
  | .securityStatus h => some h
  | .regRead h _ _ => some h
  | .regWrite h _ _ => some h
  | .rennetSet h _ _ _ => some h
  | .rennetClear h => some h
  | .rennetQuery h => some h
  | .dirRead h _ _ => some h
  | .monitorConfig h _ _ _ => some h
  | .monitorRead h _ => some h
  | .skimmerConfig h _ _ _ _ => some h
  | .skimmerStop h => some h
  | .herdbookRead h _ _ => some h
  | .errorLogRead h _ _ => some h
  | .errorLogClear h _ => some h
  | .modeSet h _ _ _ => some h
  | .modeQuery h => some h
  | .portConfig h _ _ => some h
  | .portControl h _ _ => some h
  | .barrierCmd h _ _ => some h
  | .warmReset h _ => some h
  | .configSave h _ => some h
  | _ => none

/-- A segment fits its carrier. -/
def Instr.segmentOk (i : Instr) : Bool :=
  match i with
  | .silekSegment via _ index last _ bytes => segmentFits via index last bytes
  | _ => true

/-- The opcode of a Silek command (R430 to R432 and the tables of its chapters); 0 for the commands of other kinds. -/
def Instr.opcode : Instr → Nat
  | .silekVersion _ => 0x101
  | .deviceInfo _ => 0x102
  | .portStatusQuery _ _ _ => 0x103
  | .commandSupport _ _ => 0x104
  | .eventRead _ _ _ _ => 0x105
  | .eventSubscribe _ _ _ => 0x106
  | .eventNotify _ _ _ => 0x107
  | .capacityAdd _ _ _ _ _ _ => 0x201
  | .capacityRemove _ _ _ => 0x202
  | .deviceCapacityQuery _ _ => 0x203
  | .windowConfig _ _ _ _ _ _ _ _ => 0x210
  | .windowQuery _ _ _ => 0x211
  | .extentBind _ _ _ _ _ _ => 0x220
  | .extentUnbind _ _ _ _ _ _ => 0x221
  | .extentMigrate _ _ _ _ _ => 0x230
  | .extentMigrateAbort _ _ => 0x231
  | .extentZero _ _ _ => 0x232
  | .extentQuery _ _ _ => 0x240
  | .slotQuery _ _ _ => 0x241
  | .instanceConfig _ _ _ _ _ _ _ _ => 0x301
  | .instanceQuery _ _ => 0x302
  | .instanceQuiesce _ _ _ _ => 0x310
  | .instanceResume _ _ => 0x311
  | .instanceReset _ _ => 0x312
  | .qosSet _ _ _ _ _ _ _ _ => 0x320
  | .qosQuery _ _ => 0x321
  | .queueAssign _ _ _ _ _ => 0x340
  | .queueSetup _ _ _ _ _ _ _ => 0x341
  | .queueDisable _ _ => 0x342
  | .queueReset _ _ => 0x343
  | .queueQuery _ _ => 0x344
  | .ladleSubmit _ _ _ => 0x345
  | .gateWrite _ _ _ _ => 0x401
  | .gateCommit _ _ => 0x402
  | .gateRead _ _ _ _ _ => 0x403
  | .gateDiscard _ _ => 0x404
  | .sharerSlotSet _ _ _ _ _ _ => 0x510
  | .sharerSlotQuery _ => 0x511
  | .membershipSet _ _ => 0x501
  | .membershipQuery _ => 0x502
  | .memberJoin _ _ => 0x503
  | .memberRejoin _ _ _ _ => 0x504
  | .memberDeclareDead _ _ => 0x505
  | .epochAdvance _ _ _ _ _ _ _ _ _ _ => 0x506
  | .pairHeadSet _ _ _ _ _ => 0x507
  | .mirrorResync _ => 0x508
  | .replicaSet _ _ _ _ _ => 0x509
  | .slotPowerOn _ _ => 0x601
  | .slotPowerOff _ _ _ => 0x602
  | .slotPowerConfig _ _ _ _ => 0x603
  | .slotPowerQuery _ _ => 0x604
  | .fwUpdateStart _ _ _ => 0x701
  | .fwUpdateData _ _ _ _ => 0x702
  | .fwUpdateVerify _ _ => 0x703
  | .fwActivate _ _ => 0x704
  | .fwQuery _ => 0x705
  | .selfTest _ => 0x710
  | .zeroize _ _ => 0x711
  | .securityStatus _ => 0x720
  | .regRead _ _ _ => 0x801
  | .regWrite _ _ _ => 0x802
  | .rennetSet _ _ _ _ => 0x810
  | .rennetClear _ => 0x811
  | .rennetQuery _ => 0x812
  | .dirRead _ _ _ => 0x820
  | .monitorConfig _ _ _ _ => 0x901
  | .monitorRead _ _ => 0x902
  | .skimmerConfig _ _ _ _ _ => 0x910
  | .skimmerStop _ => 0x911
  | .herdbookRead _ _ _ => 0x920
  | .errorLogRead _ _ _ => 0x930
  | .errorLogClear _ _ => 0x931
  | .modeSet _ _ _ _ => 0xa01
  | .modeQuery _ => 0xa02
  | .portConfig _ _ _ => 0xa10
  | .portControl _ _ _ => 0xa11
  | .barrierCmd _ _ _ => 0xa20
  | .warmReset _ _ => 0xa30
  | .configSave _ _ => 0xa31
  | _ => 0

/-- The minor version that added a command (R411). -/
def Instr.minMinor : Instr → Nat
  | .eventSubscribe _ _ _ => 1
  | .eventNotify _ _ _ => 1
  | .windowQuery _ _ _ => 3
  | .extentMigrate _ _ _ _ _ => 2
  | .extentMigrateAbort _ _ => 2
  | .qosSet _ _ _ _ _ _ _ _ => 2
  | .qosQuery _ _ => 2
  | .ladleSubmit _ _ _ => 2
  | .sharerSlotQuery _ => 3
  | .pairHeadSet _ _ _ _ _ => 3
  | .mirrorResync _ => 3
  | .replicaSet _ _ _ _ _ => 3
  | .rennetSet _ _ _ _ => 1
  | .rennetClear _ => 1
  | .rennetQuery _ => 1
  | _ => 0

/-- A command with its EPOCH cleared: what a repeated tag is compared by (R421). -/
def Instr.keyed : Instr → Instr
  | .silekVersion h => .silekVersion h.key
  | .deviceInfo h => .deviceInfo h.key
  | .portStatusQuery h a b => .portStatusQuery h.key a b
  | .commandSupport h a => .commandSupport h.key a
  | .eventRead h a b c => .eventRead h.key a b c
  | .eventSubscribe h a b => .eventSubscribe h.key a b
  | .eventNotify h a b => .eventNotify h.key a b
  | .capacityAdd h a b c e f => .capacityAdd h.key a b c e f
  | .capacityRemove h a b => .capacityRemove h.key a b
  | .deviceCapacityQuery h a => .deviceCapacityQuery h.key a
  | .windowConfig h a b c e f g k => .windowConfig h.key a b c e f g k
  | .windowQuery h a b => .windowQuery h.key a b
  | .extentBind h a b c e f => .extentBind h.key a b c e f
  | .extentUnbind h a b c e f => .extentUnbind h.key a b c e f
  | .extentMigrate h a b c e => .extentMigrate h.key a b c e
  | .extentMigrateAbort h a => .extentMigrateAbort h.key a
  | .extentZero h a b => .extentZero h.key a b
  | .extentQuery h a b => .extentQuery h.key a b
  | .slotQuery h a b => .slotQuery h.key a b
  | .instanceConfig h a b c e f g k => .instanceConfig h.key a b c e f g k
  | .instanceQuery h a => .instanceQuery h.key a
  | .instanceQuiesce h a b c => .instanceQuiesce h.key a b c
  | .instanceResume h a => .instanceResume h.key a
  | .instanceReset h a => .instanceReset h.key a
  | .qosSet h a b c e f g k => .qosSet h.key a b c e f g k
  | .qosQuery h a => .qosQuery h.key a
  | .queueAssign h a b c e => .queueAssign h.key a b c e
  | .queueSetup h a b c e f g => .queueSetup h.key a b c e f g
  | .queueDisable h a => .queueDisable h.key a
  | .queueReset h a => .queueReset h.key a
  | .queueQuery h a => .queueQuery h.key a
  | .ladleSubmit h a b => .ladleSubmit h.key a b
  | .gateWrite h a b c => .gateWrite h.key a b c
  | .gateCommit h a => .gateCommit h.key a
  | .gateRead h a b c e => .gateRead h.key a b c e
  | .gateDiscard h a => .gateDiscard h.key a
  | .sharerSlotSet h a b c e f => .sharerSlotSet h.key a b c e f
  | .sharerSlotQuery h => .sharerSlotQuery h.key
  | .membershipSet h a => .membershipSet h.key a
  | .membershipQuery h => .membershipQuery h.key
  | .memberJoin h a => .memberJoin h.key a
  | .memberRejoin h a b c => .memberRejoin h.key a b c
  | .memberDeclareDead h a => .memberDeclareDead h.key a
  | .epochAdvance h a b c e f g k l m => .epochAdvance h.key a b c e f g k l m
  | .pairHeadSet h a b c e => .pairHeadSet h.key a b c e
  | .mirrorResync h => .mirrorResync h.key
  | .replicaSet h a b c e => .replicaSet h.key a b c e
  | .slotPowerOn h a => .slotPowerOn h.key a
  | .slotPowerOff h a b => .slotPowerOff h.key a b
  | .slotPowerConfig h a b c => .slotPowerConfig h.key a b c
  | .slotPowerQuery h a => .slotPowerQuery h.key a
  | .fwUpdateStart h a b => .fwUpdateStart h.key a b
  | .fwUpdateData h a b c => .fwUpdateData h.key a b c
  | .fwUpdateVerify h a => .fwUpdateVerify h.key a
  | .fwActivate h a => .fwActivate h.key a
  | .fwQuery h => .fwQuery h.key
  | .selfTest h => .selfTest h.key
  | .zeroize h a => .zeroize h.key a
  | .securityStatus h => .securityStatus h.key
  | .regRead h a b => .regRead h.key a b
  | .regWrite h a b => .regWrite h.key a b
  | .rennetSet h a b c => .rennetSet h.key a b c
  | .rennetClear h => .rennetClear h.key
  | .rennetQuery h => .rennetQuery h.key
  | .dirRead h a b => .dirRead h.key a b
  | .monitorConfig h a b c => .monitorConfig h.key a b c
  | .monitorRead h a => .monitorRead h.key a
  | .skimmerConfig h a b c e => .skimmerConfig h.key a b c e
  | .skimmerStop h => .skimmerStop h.key
  | .herdbookRead h a b => .herdbookRead h.key a b
  | .errorLogRead h a b => .errorLogRead h.key a b
  | .errorLogClear h a => .errorLogClear h.key a
  | .modeSet h a b c => .modeSet h.key a b c
  | .modeQuery h => .modeQuery h.key
  | .portConfig h a b => .portConfig h.key a b
  | .portControl h a b => .portControl h.key a b
  | .barrierCmd h a b => .barrierCmd h.key a b
  | .warmReset h a => .warmReset h.key a
  | .configSave h a => .configSave h.key a
  | i => i

/-- A command that can arrive. -/
def Instr.wf (i : Instr) : Bool :=
  (match i.header with
   | some h => h.wf
   | none => true) && i.segmentOk

end Sys2Proof
end

