-- ==== Sys2Proof/Machine/Messages.lean ====
section
/-! DEFINITION. Silek messages as bytes: parameters, segments and their reassembly, mailboxes, replies to this device's own commands
and their resending (R407 to R426). -/
namespace Sys2Proof.Machine
open Sys2Proof

/-! ### Parameters (R410) -/

/-- The parameters of a payload by their sizes in bytes, 0 standing for a Boolean's byte; bytes past the end read zero. -/
def params : List Nat → List Byte → List Nat
  | [], _ => []
  | n :: l, bs => leNat (bs.take (max 1 n)) :: params l (bs.drop (max 1 n))

/-- Bytes the parameters take. -/
def paramSize (ks : List Nat) : Nat := (ks.map (fun n => max 1 n)).foldl (· + ·) 0

/-- The payload is `used` bytes of parameters and their zero padding. -/
def payloadFits (used : Nat) (p : List Byte) : Bool :=
  decide (p.length = (used + 3) / 4 * 4) && (p.drop used).all (fun b => decide (b = 0))

/-- Booleans are 0 or 1. -/
def booleansOk (ks : List Nat) (vs : List Nat) : Bool := (ks.zip vs).all (fun x => decide (x.1 ≠ 0) || decide (x.2 ≤ 1))

/-- Records of n bytes each. -/
def recordsOf (n : Nat) : Nat → List Byte → List Nat
  | 0, _ => []
  | k + 1, bs => leNat (bs.take n) :: recordsOf n k (bs.drop n)

/-- A meaning that takes its parameters by position. -/
abbrev ByArgs := SilekHdr → (Nat → Nat) → State → Host.Outcome State Fault Refusal

/-- Run a meaning on parameters of fixed sizes. -/
def runFixed (ks : List Nat) (k : ByArgs) (h : SilekHdr) (s : State) : Host.Outcome State Fault Refusal :=
  let vs := params ks h.payload
  k { h with padOk := h.padOk && payloadFits (paramSize ks) h.payload && booleansOk ks vs } (fun i => (vs[i]?).getD 0) s

/-- A meaning with no parameters. -/
def plainArgs (k : SilekHdr → State → Host.Outcome State Fault Refusal) : ByArgs := fun h _ s => k h s

/-- Groups 0x01 to 0x05, the commands of fixed size. -/
def fixedLow (op : Nat) : Option (List Nat × ByArgs) :=
  match op with
  | 0x101 => some ([], plainArgs execSilekVersion)
  | 0x102 => some ([], plainArgs execDeviceInfo)
  | 0x103 => some ([1, 2], fun h a => execPortStatusQuery h (a 0) (a 1))
  | 0x104 => some ([1], fun h a => execCommandSupport h (a 0))
  | 0x105 => some ([4, 2, 4], fun h a => execEventRead h (a 0) (a 1) (a 2))
  | 0x106 => some ([1, 1], fun h a => execEventSubscribe h (a 0) (a 1))
  | 0x201 => some ([1, 1, 4, 2, 4], fun h a => execCapacityAdd h (a 0) (a 1) (a 2) (a 3) (a 4))
  | 0x202 => some ([4, 2], fun h a => execCapacityRemove h (a 0) (a 1))
  | 0x203 => some ([1], fun h a => execDeviceCapacityQuery h (a 0))
  | 0x210 => some ([2, 1, 1, 1, 4, 2, 0], fun h a => execWindowConfig h (a 0) (a 1) (a 2) (a 3) (a 4) (a 5) (decide (a 6 = 1)))
  | 0x211 => some ([2, 2], fun h a => execWindowQuery h (a 0) (a 1))
  | 0x221 => some ([2, 2, 2, 0, 0], fun h a => execExtentUnbind h (a 0) (a 1) (a 2) (decide (a 3 = 1)) (decide (a 4 = 1)))
  | 0x230 => some ([4, 4, 2, 0], fun h a => execExtentMigrate h (a 0) (a 1) (a 2) (decide (a 3 = 1)))
  | 0x231 => some ([4], fun h a => execExtentMigrateAbort h (a 0))
  | 0x232 => some ([4, 2], fun h a => execExtentZero h (a 0) (a 1))
  | 0x240 => some ([4, 2], fun h a => execExtentQuery h (a 0) (a 1))
  | 0x241 => some ([4, 2], fun h a => execSlotQuery h (a 0) (a 1))
  | 0x301 => some ([1, 1, 1, 1, 1, 1, 1, 1, 1, 1, 2, 2, 0], fun h a =>
      execInstanceConfig h (a 0) (a 1) (a 2) [a 3, a 4, a 5, a 6, a 7, a 8, a 9] (a 10) (a 11) (decide (a 12 = 1)))
  | 0x302 => some ([1], fun h a => execInstanceQuery h (a 0))
  | 0x310 => some ([1, 0, 2], fun h a => execInstanceQuiesce h (a 0) (decide (a 1 = 1)) (a 2))
  | 0x311 => some ([1], fun h a => execInstanceResume h (a 0))
  | 0x312 => some ([1], fun h a => execInstanceReset h (a 0))
  | 0x320 => some ([1, 1, 2, 2, 2, 1, 1], fun h a => execQosSet h (a 0) (a 1) (a 2) (a 3) (a 4) (a 5) (a 6))
  | 0x321 => some ([1], fun h a => execQosQuery h (a 0))
  | 0x340 => some ([2, 1, 2, 1], fun h a => execQueueAssign h (a 0) (a 1) (a 2) (a 3))
  | 0x341 => some ([2, 1, 8, 8, 2, 0], fun h a => execQueueSetup h (a 0) (a 1) (a 2) (a 3) (a 4) (decide (a 5 = 1)))
  | 0x342 => some ([2], fun h a => execQueueDisable h (a 0))
  | 0x343 => some ([2], fun h a => execQueueReset h (a 0))
  | 0x344 => some ([2], fun h a => execQueueQuery h (a 0))
  | 0x402 => some ([4], fun h a => execGateCommit h (a 0))
  | 0x403 => some ([1, 1, 2, 2], fun h a => execGateRead h (a 0) (a 1) (a 2) (a 3))
  | 0x404 => some ([1], fun h a => execGateDiscard h (a 0))
  | 0x501 => some ([2], fun h a => execMembershipSet h (a 0))
  | 0x502 => some ([], plainArgs execMembershipQuery)
  | 0x503 => some ([1], fun h a => execMemberJoin h (a 0))
  | 0x504 => some ([1, 1, 1], fun h a => execMemberRejoin h (a 0) (a 1) (a 2))
  | 0x505 => some ([1], fun h a => execMemberDeclareDead h (a 0))
  | 0x506 => some ([4, 4, 2, 2, 1, 1, 1, 0, 0], fun h a =>
      execEpochAdvance h (a 0) (a 1) (a 2) (a 3) (a 4) (a 5) (a 6) (decide (a 7 = 1)) (decide (a 8 = 1)))
  | 0x507 => some ([1, 1, 1, 1], fun h a => execPairHeadSet h (a 0) (a 1) (a 2) (a 3))
  | 0x508 => some ([], plainArgs execMirrorResync)
  | 0x509 => some ([1, 1, 1, 4], fun h a => execReplicaSet h (a 0) (a 1) (a 2) (a 3))
  | 0x510 => some ([1, 0, 1, 1, 1], fun h a => execSharerSlotSet h (a 0) (decide (a 1 = 1)) (a 2) (a 3) (a 4))
  | 0x511 => some ([], plainArgs execSharerSlotQuery)
  | _ => none

/-- Groups 0x06 to 0x0A, the commands of fixed size. -/
def fixedHigh (op : Nat) : Option (List Nat × ByArgs) :=
  match op with
  | 0x601 => some ([1], fun h a => execSlotPowerOn h (a 0))
  | 0x602 => some ([1, 0], fun h a => execSlotPowerOff h (a 0) (a 1))
  | 0x603 => some ([1, 2, 2], fun h a => execSlotPowerConfig h (a 0) (a 1) (a 2))
  | 0x604 => some ([1], fun h a => execSlotPowerQuery h (a 0))
  | 0x701 => some ([1, 4], fun h a => execFwUpdateStart h (a 0) (a 1))
  | 0x703 => some ([1], fun h a => execFwUpdateVerify h (a 0))
  | 0x704 => some ([1], fun h a => execFwActivate h (a 0))
  | 0x705 => some ([], plainArgs execFwQuery)
  | 0x710 => some ([], plainArgs execSelfTest)
  | 0x711 => some ([4], fun h a => execZeroize h (a 0))
  | 0x720 => some ([], plainArgs execSecurityStatus)
  | 0x801 => some ([4, 2], fun h a => execRegRead h (a 0) (a 1))
  | 0x802 => some ([4, 4], fun h a => regWrite h (a 0) (a 1))
  | 0x810 => some ([1, 2, 4], fun h a => execRennetSet h (a 0) (a 1) (a 2))
  | 0x811 => some ([], plainArgs execRennetClear)
  | 0x812 => some ([], plainArgs execRennetQuery)
  | 0x820 => some ([1, 2], fun h a => execDirRead h (a 0) (a 1))
  | 0x901 => some ([1, 1, 2], fun h a => execMonitorConfig h (a 0) (a 1) (a 2))
  | 0x902 => some ([1], fun h a => execMonitorRead h (a 0))
  | 0x910 => some ([1, 8, 4, 2], fun h a => execSkimmerConfig h (a 0) (a 1) (a 2) (a 3))
  | 0x911 => some ([], plainArgs execSkimmerStop)
  | 0x920 => some ([4, 2], fun h a => execHerdbookRead h (a 0) (a 1))
  | 0x930 => some ([4, 2], fun h a => execErrorLogRead h (a 0) (a 1))
  | 0x931 => some ([4], fun h a => execErrorLogClear h (a 0))
  | 0xa01 => some ([1, 1, 1], fun h a => execModeSet h (a 0) (a 1) (a 2))
  | 0xa02 => some ([], plainArgs execModeQuery)
  | 0xa11 => some ([1, 1], fun h a => execPortControl h (a 0) (a 1))
  | 0xa20 => some ([1, 2], fun h a => execBarrierCmd h (a 0) (a 1))
  | 0xa30 => some ([2], fun h a => execWarmReset h (a 0))
  | 0xa31 => some ([1], fun h a => execConfigSave h (a 0))
  | _ => none

/-- A header whose payload has `used` bytes of parameters. -/
def fitHeader (h : SilekHdr) (used : Nat) : SilekHdr := { h with padOk := h.padOk && payloadFits used h.payload }

/-- The group configurations of PORT_CONFIG: SRIS is a Boolean. -/
def groupConfigs (n : Nat) (bs : List Byte) : List GroupConfig :=
  (recordsOf 4 n bs).map (fun v => {
    bifurcation := fieldOf v 0 8, personality := fieldOf v 8 8, maxRate := fieldOf v 16 8, sris := fieldOf v 24 8 })

/-- The commands whose size their own parameters give. -/
def runSized (h : SilekHdr) (op : Nat) (s : State) : Option (Host.Outcome State Fault Refusal) :=
  let p := h.payload
  let a (i n : Nat) : Nat := leNat ((p.drop i).take n)
  match op with
  | 0x107 =>
    let n := a 0 2
    some (execEventNotify (fitHeader h (2 + 32 * n)) n ((recordsOf 32 (min n 16) (p.drop 2)).map (BitVec.ofNat 256)) s)
  | 0x220 =>
    let n := a 4 2
    some (execExtentBind (fitHeader h (7 + 4 * n)) (a 0 2) (a 2 2) n (a 6 1) (recordsOf 4 (min n 64) (p.drop 7)) s)
  | 0x345 =>
    let n := (p.length - 2) / 64
    some (execLadleSubmit (fitHeader h (2 + 64 * n)) (a 0 2) ((recordsOf 64 (min n 17) (p.drop 2)).map (BitVec.ofNat 512)) s)
  | 0x401 =>
    let n := a 3 2
    some (execGateWrite (fitHeader h (5 + 32 * n)) (a 0 1) (a 1 2) ((recordsOf 32 (min n 65) (p.drop 5)).map (BitVec.ofNat 256)) s)
  | 0x702 =>
    let n := a 4 2
    let h := fitHeader h (8 + n)
    some (execFwUpdateData { h with padOk := h.padOk && decide (a 6 2 = 0) } (a 0 4) n ((p.drop 8).take n) s)
  | 0xa10 =>
    let n := (groupsOf (a 0 2)).length
    let cs := groupConfigs n (p.drop 2)
    let h := fitHeader h (2 + 4 * n)
    some (execPortConfig { h with padOk := h.padOk && cs.all (fun c => decide (c.sris ≤ 1)) } (a 0 2) cs s)
  | _ => none

/-- Run a command from its opcode and its header with the payload. An opcode of no command returns BAD_OPCODE (R412). -/
def runOpcode (h : SilekHdr) (op : Nat) (s : State) : Host.Outcome State Fault Refusal :=
  match runSized h op s with
  | some o => o
  | none =>
    match (fixedLow op).or (fixedHigh op) with
    | some (ks, k) => runFixed ks k h s
    | none => runSilek h { opcode := op, minMinor := 4, key := .doorbell 0 } (queryBody fun _ => .err .badOpcode) s

/-! ### Headers (R407) -/

/-- A field of n bytes at byte i. -/
def byteField (bs : List Byte) (i n : Nat) : Nat := leNat ((bs.drop i).take n)

/-- The message is a reply. -/
def isReplyMessage (bs : List Byte) : Bool := decide (byteField bs 4 1 % 2 = 1)

/-- The header of a command of 16 bytes and more; a header with bits that a command does not carry, or a LENGTH that is not the
payload's, makes the command BAD_PARAM. A command relayed by the acting primary is secured as it was there (R485). -/
def headerOf (r : Requester) (secured broadcast : Bool) (bs : List Byte) : SilekHdr :=
  let flags := byteField bs 4 1
  let relayed := decide (fieldOf flags 3 1 = 1)
  let member : Bool := match r with
    | .member _ => true
    | _ => false
  { requester := r, major := byteField bs 0 1, minor := byteField bs 1 1, tag := byteField bs 6 2, dst := byteField bs 8 1
    src := byteField bs 9 1, epoch := byteField bs 12 4, ordered := decide (fieldOf flags 2 1 = 1), relayed
    padOk := decide (flags / 16 = 0) && decide (fieldOf flags 1 1 = 0) && decide (byteField bs 5 1 = 0) &&
      decide (byteField bs 10 2 = bs.length - 16) && decide (bs.length ≤ 3088)
    secured := secured || (relayed && member), broadcast, payload := bs.drop 16 }

/-! ### Mailboxes (R417) -/

/-- The mailbox takes its message: DOORBELL clears, BUSY sets, the message in MB_BUFFER runs. -/
def State.submit (mb : Nat) (s : State) : Host.Outcome State Fault Refusal :=
  let s := { s with dev := (s.dev.wrFlag (Mbx.DOORBELL mb) false).raise1 (Mbx.BUSY mb) }
  let len := min 3072 (leNat (Memory.readBytes s.mem (Mailbox.cell mb 0x10a) 2))
  let bs := Memory.readBytes s.mem (Mailbox.cell mb 0x100) (16 + len)
  let h := headerOf (if mb = 64 then .mgmt else .host mb) false false bs
  runOpcode { h with padOk := h.padOk && !isReplyMessage bs } (byteField bs 2 2) s

/-- The mailbox's DOORBELL is set and may be taken: an instance's takes its turn among the posted writes of its port (R267). -/
def Dev.ringFree (d : Dev) (mb : Nat) : Bool := d.flag (Mbx.DOORBELL mb) && (decide (64 ≤ mb) || (d.doorbellPort mb).isNone)

/-- After a command that may have written a mailbox's DOORBELL. -/
def thenRing (mb : Nat) (o : Host.Outcome State Fault Refusal) : Host.Outcome State Fault Refusal :=
  match o with
  | .next t => if t.dev.ringFree mb then t.submit mb else .next t
  | o => o

/-- The mailbox whose DOORBELL a write at an offset can reach. -/
def mailboxAt (off : Nat) : Nat := if off < instBase then 64 else (off - instBase) / 0x100000

/-- DOORBELL. -/
def execDoorbell (mb : Fin 65) (s : State) : Host.Outcome State Fault Refusal := thenRing mb (.next (s.ringMark mb))

/-- REG_WRITE (R432). -/
def execRegWrite (h : SilekHdr) (off value : Nat) (s : State) : Host.Outcome State Fault Refusal := thenRing 64 (regWrite h off value s)

/-- A register write over a path, with the message of a doorbell it rings. -/
def State.writePath (path : AccessPath) (off size v : Nat) (s : State) : Host.Outcome State Fault Refusal :=
  if ¬ s.dev.pathOpen path then .next s
  else thenRing (mailboxAt off) (settled s (.next (s.writeAccess State.ringMark path off size v)))

/-- REGISTER_WRITE (R438). -/
def execRegisterWrite (path : AccessPath) (off size : Nat) (value : BitVec 64) (s : State) : Host.Outcome State Fault Refusal :=
  s.writePath path off size value.toNat

/-- BIT_ALIAS_WRITE: a 4-byte write of an alias word (R446). -/
def execBitAliasWrite (path : AccessPath) (off : Nat) (value : BitVec 32) (s : State) : Host.Outcome State Fault Refusal :=
  s.writePath path off 4 value.toNat

/-! ### Replies to this device's own commands (R413, R419, R426) -/

/-- A status byte; codes above 0x0D are failures (R408). -/
def statusOf (n : Nat) : Status :=
  match n with
  | 0 => .ok | 1 => .busy | 2 => .badOpcode | 3 => .badParam | 4 => .notPermitted | 5 => .notQuiesced | 6 => .fenced
  | 7 => .versionMismatch | 8 => .inProgress | 9 => .targetLost | 10 => .authFail | 11 => .noResource | 12 => .timeout
  | _ => .aborted

/-- The epoch check of a reply from a member: a device that joins or is rejoined answers outside the epoch (R390, R398, R399). -/
def Dev.replyEpoch (t a e : Nat) (d : Dev) : Dev × Bool :=
  let joining : Bool := match d.memb.joining with
    | some (b, _, _) => decide (b = a)
    | none => false
  if d.memb.rejoining ∨ joining ∨ e = d.epoch ∨ d.lateEpoch t a e then (d, true)
  else if e = 0 then (d, false)
  else if newerEpoch e d.epoch then (d.inc Memb.NEWER_EPOCH_DROPS, false)
  else ((d.inc Memb.STALE_DROPS).fencedNotice t a, false)

/-- A reply to a command this device sent. -/
def Dev.ownReply (t : Nat) (c : SentCommand) (interim : Bool) (minor : Nat) (st : Status) (payload : List Byte) (d : Dev) : Dev :=
  let d := if 256 ≤ c.dst ∨ (Tab.get d.silek.settled c.dst).isSome then d
    else { d with silek := { d.silek with settled := Tab.set d.silek.settled c.dst minor } }
  if interim then
    { d with silek := { d.silek with
        sent := d.silek.sent.map (fun x => if x.id = c.id then { x with interim := true, resends := 0, time := t } else x) } }
  else d.sentReply t c st payload

/-- A member has taken a REG_WRITE of a route entry: the manager's copy follows (R376). -/
def Dev.routeTaken (a : Nat) (p : List Byte) (d : Dev) : Dev :=
  let off := leNat (p.take 4)
  if off < 0x3040 ∨ 0x3080 ≤ off then d else
  let c := d.copyOf a
  let v := leNat ((p.drop 4).take 1) % 128
  d.setCopy a { c with routes := Tab.put c.routes ((off - 0x303c) / 4) (if 64 ≤ v then v else 0) 0 }

/-- A reply to a relayed command goes to the fabric manager under its own tag. -/
def State.relayReply (r : Relay) (interim : Bool) (st : Status) (payload : List Byte) (s : State) : State :=
  if interim then
    (match execInterimReply r.req r.tag s with
     | .next t => t
     | _ => s)
  else
    let d := { s.dev with silek := { s.dev.silek with relays := s.dev.silek.relays.filter (fun x => x.id ≠ r.id) } }
    let d := if r.opcode = 0x802 ∧ st = .ok then d.routeTaken r.dst r.payload else d
    { s with dev := d.finish s.time.now (· = Work.relay r.id) st payload }

/-- A reply arrived from `src`, 256 + e for an MCTP endpoint. -/
def State.replyIn (src : Nat) (bs : List Byte) (s : State) : State :=
  let tag := byteField bs 6 2
  let interim := decide (fieldOf (byteField bs 4 1) 1 1 = 1)
  let st := statusOf (byteField bs 5 1)
  let (d, ok) := if 256 ≤ src then (s.dev, true) else s.dev.replyEpoch s.time.now src (byteField bs 12 4)
  let s := { s with dev := d }
  if ¬ ok then s else
  match d.silek.sent.find? (fun c => c.dst = src ∧ c.tag = tag) with
  | some c => { s with dev := d.ownReply s.time.now c interim (byteField bs 1 1) st (bs.drop 16) }
  | none =>
    match d.silek.relays.find? (fun r => r.dst = src ∧ r.ownTag = tag) with
    | some r => s.relayReply r interim st (bs.drop 16)
    | none => s

/-- The work that issued a command ends with TIMEOUT. -/
def Dev.sentTimeout (t : Nat) (c : SentCommand) (d : Dev) : Dev :=
  if c.opcode = 0x402 then
    ({ d with silek := { d.silek with sent := d.silek.sent.filter (fun x => x.id ≠ c.id) } }).finish t (· = Work.commit) .timeout []
  else d.sentReply t c .timeout []

/-- SILEK_RESEND: 20 ms without a reply, or 100 ms after an INTERIM one; after three resends without a reply the work ends with
TIMEOUT. EPOCH_ADVANCE, MEMBER_JOIN and notices to an MCTP endpoint have limits of their own (R389, R399, R429). -/
def Dev.resend (t id : Nat) (d : Dev) : Dev :=
  match d.silek.sent.find? (fun c => c.id = id) with
  | some c =>
    if c.opcode = 0x506 ∨ 256 ≤ c.dst then d
    else if 3 ≤ c.resends ∧ c.opcode ≠ 0x503 then d.sentTimeout t c
    else
      let sent := d.silek.sent.map (fun x => if x.id = id then { x with resends := x.resends + 1, time := t } else x)
      ({ d with silek := { d.silek with sent } }).sendOne t c
  | none =>
    match d.silek.relays.find? (fun r => r.id = id) with
    | none => d
    | some r =>
      if 3 ≤ r.resends then
        ({ d with silek := { d.silek with relays := d.silek.relays.filter (fun x => x.id ≠ id) } }).finish t (· = Work.relay id) .timeout []
      else
        let relays := d.silek.relays.map (fun x => if x.id = id then { x with resends := x.resends + 1 } else x)
        ({ d with silek := { d.silek with relays } }).sendRelay t r

/-- SILEK_RESEND. -/
def execSilekResend (id : Nat) (s : State) : Host.Outcome State Fault Refusal := onSettled (fun t d => d.resend t id) s

/-! ### Whole messages -/

/-- A whole message from a member or an MCTP endpoint. -/
def State.message (r : Requester) (src : Nat) (secured broadcast : Bool) (bs : List Byte) (s : State) :
    Host.Outcome State Fault Refusal :=
  if bs.length < 16 then .next s
  else if isReplyMessage bs then settled s (.next (s.replyIn src bs))
  else thenRing 64 (runOpcode (headerOf r secured broadcast bs) (byteField bs 2 2) s)

/-! ### Segments (R414, R415) -/

/-- Take a segment: the partial messages that remain, what was dropped, and the whole message when the last segment came. -/
def takeSegment (ps : List Partial) (src tag : Nat) (reply vc5 : Bool) (index last : Nat) (full : Bool) (bytes : List Byte) :
    List Partial × Nat × Option (List Byte) :=
  let here (p : Partial) : Bool := decide (p.src = src) && decide (p.vc5 = vc5)
  let others := ps.filter (fun p => !here p)
  let mine := ps.filter here
  let whole := decide (index = last)
  if index = 0 then
    if ¬ whole ∧ ¬ full then (others, mine.length, none)
    else if whole then (others, mine.length, some bytes)
    else (others ++ [{ src, tag, reply, vc5, next := 1, last, bytes }], mine.length, none)
  else
    match mine.find? (fun p => p.tag = tag ∧ p.reply = reply) with
    | none => (ps, 0, none)
    | some p =>
      if p.next ≠ index ∨ p.last ≠ last ∨ (¬ whole ∧ ¬ full) then (others, 1, none)
      else if whole then (others, 0, some (p.bytes ++ bytes))
      else (others ++ [{ p with next := index + 1, bytes := p.bytes ++ bytes }], 0, none)

/-- A segment from member `src` on the chain or on VC5. -/
def State.segment (src tag index last : Nat) (reply vc5 broadcast full : Bool) (bytes : List Byte) (s : State) :
    Host.Outcome State Fault Refusal :=
  let (ps, drops, m) := takeSegment s.dev.silek.partials src tag reply vc5 index last full bytes
  let s := { s with dev := { s.dev with silek := { s.dev.silek with
    partials := ps, segmentDrops := s.dev.silek.segmentDrops + drops } } }
  match m with
  | none => .next s
  | some bs => s.message (.member src) src false broadcast bs

/-- A SILEK frame of the chain: kept when it is for this device, passed on otherwise, both for a broadcast of another. -/
def State.chainFrame (l : ChainLine) (src dst epoch tag index last : Nat) (reply : Bool) (bytes : List Byte) (s : State) :
    Host.Outcome State Fault Refusal :=
  let d := s.dev
  let f := chainFrameOf l dst src epoch (.silek (chainSegment index last tag reply bytes))
  let kept : Bool := decide (l.crc = f.crc l.type.toNat) && decide (l.type.toNat = 5) &&
    (if l.bcast then decide (src ≠ d.chainAddr) else decide (dst = d.chainAddr))
  let s := { s with dev := d.chainIn l f (fun d => if l.bcast ∨ dst ≠ d.chainAddr then d.passFrame f else d) }
  if kept then s.segment src tag index last reply false l.bcast (decide (bytes.length = 1020)) bytes else .next s

/-- A VC5 segment: SILEK_CMD passes the duplicate filter and is answered by SILEK_SEG_ACK. -/
def State.vc5Frame (q : QflHdr) (tag index last : Nat) (reply : Bool) (bytes : List Byte) (s : State) :
    Host.Outcome State Fault Refusal :=
  let t := s.time.now
  let d := s.dev.takeRx { vc := 5, opcode := if reply then 2 else 1, src := q.src, dst := q.dst, tag := q.tag, e2e := q.e2e }
  if ¬ d.ownAddr q.dst then .next { s with dev := d } else
  let (d, ok) := if reply then (d, true) else d.passFilter t q
  if ¬ ok then .next { s with dev := d }
  else
    let d := if reply then d else d.respond t q 5 3 []
    ({ s with dev := d }).segment q.src tag index last reply true false (decide (bytes.length = 96)) bytes

/-- The body of an MCTP message of type 0x7F: the enterprise number, 1, three zero bytes, then the Silek message (R416). -/
def State.mctpBody (eid : Nat) (secured : Bool) (bytes : List Byte) (s : State) : Host.Outcome State Fault Refusal :=
  if s.dev.mode ≤ 1 ∨ bytes.take 8 ≠ leBytes 4 (s.dev.rd Ident.ENTERPRISE) ++ [1, 0, 0, 0] then .next s
  else s.message (.fm eid) (256 + eid) secured false (bytes.drop 8)

/-- SILEK_SEGMENT: a segment on the chain or VC5, or a whole message body over MCTP. One that its carrier cannot hold faults. -/
def execSilekSegment (via : SegPath) (tag index last : Nat) (reply : Bool) (bytes : List Byte) (s : State) :
    Host.Outcome State Fault Refusal :=
  if ¬ segmentFits via index last bytes then .fault .illFormed
  else if s.dev.mode = 0 then .next s
  else match via with
  | .chain l src dst epoch => s.chainFrame l src dst epoch tag index last reply bytes
  | .vc5 q => s.vc5Frame q tag index last reply bytes
  | .mctp eid secured => s.mctpBody eid secured bytes

/-- SEGMENT_TIMEOUT: 10 ms without the last segment of a source's message. -/
def execSegmentTimeout (src : Nat) (vc5 : Bool) (s : State) : Host.Outcome State Fault Refusal :=
  onDev (fun _ d =>
    let gone := d.silek.partials.filter (fun p => p.src = src ∧ p.vc5 = vc5)
    { d with silek := { d.silek with
        partials := d.silek.partials.filter (fun p => ¬ (p.src = src ∧ p.vc5 = vc5)), segmentDrops := d.silek.segmentDrops + gone.length } }) s

/-- SILEK_SEG_ACK answers a SILEK_CMD by its E2E_SEQ. -/
def execSilekSegAck (qfl : QflHdr) (s : State) : Host.Outcome State Fault Refusal :=
  onSettled (fun t d =>
    match d.matchResponse t 5 3 qfl with
    | (d, some o) => d.closeOutst o {}
    | (d, none) => d) s

end Sys2Proof.Machine
end

