-- ==== Sys2Proof/Machine/PortRows.lean ====
section
/-! DEFINITION. Events of CXL ports: removal, presence, training, reset pins, PTM, lost targets (R49, R52, R60, R64, R68, R72, R180,
R231, R273). -/
namespace Sys2Proof.Machine
open Sys2Proof

/-- REMOVAL. -/
def execRemoval (port : Fin 64) (s : State) : Host.Outcome State Fault Refusal :=
  onSettled (fun t d => d.removePort t port) s

/-- SNOOP_TIMEOUT: a host that does not answer a snoop in time is taken down, which is a removal (R231). -/
def execSnoopTimeout (port : Fin 64) (tag : Nat) (s : State) : Host.Outcome State Fault Refusal :=
  onSettled (fun t d => if (d.snoopOf port tag).isSome then d.removePort t port else d) s

/-- TARGET_TIMEOUT: a target with buffered entries is lost, and its port's link goes down (R273). -/
def execTargetTimeout (port : Fin 64) (s : State) : Host.Outcome State Fault Refusal :=
  onSettled (fun t d => if d.buf.entries.any (fun e => e.port = port) then d.removePort t port else d) s

/-- PRESENCE_DEBOUNCE. -/
def execPresenceDebounce (port : Fin 64) (present : Bool) (s : State) : Host.Outcome State Fault Refusal :=
  onSettled (fun t d => d.presenceDebounce t port present) s

/-- SLOT_SETTLE_EXPIRY. -/
def execSlotSettleExpiry (port : Fin 64) (s : State) : Host.Outcome State Fault Refusal :=
  onDev (fun _ d => d.settleExpiry port) s

/-- PORT_ADMIT. -/
def execPortAdmit (port : Fin 64) (s : State) : Host.Outcome State Fault Refusal :=
  onDev (fun t d => d.portAdmit t port) s

/-- CXL_LINK_UP. -/
def execCxlLinkUp (port : Fin 64) (gen rate width : Nat) (flit256 latencyOpt poisonCapable : Bool) (capacity : List Nat) (type2 : Bool)
    (s : State) : Host.Outcome State Fault Refusal :=
  onSettled (fun t d => d.cxlLinkUp t port gen rate width flit256 latencyOpt poisonCapable capacity type2) s

/-- TRAINING_RETRY. -/
def execTrainingRetry (port : Fin 64) (s : State) : Host.Outcome State Fault Refusal :=
  onDev (fun _ d => d.trainingRetry port) s

/-- PERST_RELEASE. -/
def execPerstRelease (port : Fin 64) (s : State) : Host.Outcome State Fault Refusal :=
  onDev (fun _ d => d.perstRelease port) s

/-- HOST_PERST: a conventional reset of the virtual hierarchy on the host port, which takes its link down (R64, R335). -/
def execHostPerst (port : Fin 64) (s : State) : Host.Outcome State Fault Refusal :=
  onSettled (fun t d => if d.isHostPort port then d.removePort t port else d) s

/-- The host port presents a virtual downstream port, which is a PTM responder (R60, R320, R326). -/
def Dev.presentsPort (d : Dev) (p : Nat) : Bool :=
  match d.viOfPort p with
  | some vi => d.presents vi 8
  | none => false

/-- PTM_REQUEST: answered with FABRIC_TIME, by a device port and by each virtual downstream port of a host port's instance. -/
def execPtmRequest (port : Fin 64) (s : State) : Host.Outcome State Fault Refusal :=
  onDev (fun t d =>
    if ¬ d.carries port then d
    else if d.isHostPort port then (if d.presentsPort port then d.emit (.host port (.ptmResponse t)) else d)
    else if d.isDevicePort port then d.emit (.device port (.ptmResponse t)) else d) s

end Sys2Proof.Machine
end

