-- ==== Sys2Proof/Machine/QflRows.lean ====
section
/-! DEFINITION. QFL messages that reached this device: requests of peers, recalls, responses, timeouts and the mirror channel (R119,
R144 to R148, R203, R222 to R225, R237, R248, R252, R382 to R386, R400, R401). -/
namespace Sys2Proof.Machine
open Sys2Proof

/-! ### Requests of peers (VC0) -/

/-- The caching opcodes, whose requester is the slot of the sending device (R203). -/
def cachingOp (op : Nat) : Bool := op = 1 || op = 2 || op = 3 || op = 4 || op = 5 || op = 6 || op = 10

/-- The kind of a VC0 opcode; a caching read of a device without a slot is served as one that keeps no copy. -/
def kindOfOp (op : Nat) (slot : Bool) : Kind :=
  match op with
  | 1 => if slot then .rdShared else .rdNc
  | 2 => if slot then .rdOwn else .rdNc
  | 3 => if slot then .invOwn else .flush
  | 4 => .flush
  | 5 => .evictClean
  | 6 => if slot then .wb else .wrNc
  | 7 => .rdNc
  | 8 => .wrNc
  | 9 => .atomic
  | _ => .reclaim

/-- The access a peer's request asks for. -/
def Dev.peerAccess (t op : Nat) (h : QflHdr) (w : ReqWord) (be : Enables) (data : Line) (atom : Option AtomArgs) (d : Dev) :
    Access × Dev :=
  let slot := if cachingOp op then d.slotOfChain h.src else none
  let (id, d) := d.newId
  ({ id, kind := kindOfOp op slot.isSome, origin := .peer h.src op h.tag h.e2e, master := h.master, fa := w.addr, be, data
     keep := if op = 6 ∧ slot.isSome then w.keep else 0, atom, slot, naks := w.naks, ticket := w.ticket, time := t }, d)

/-- A VC0 request reached this device: it passes the Gate and is served, or refused when the extent is not served here or the mode serves
no extents (R32). While
admission is stopped it is not served (R284, R285). -/
def Dev.peerRequest (t op : Nat) (h : QflHdr) (w : ReqWord) (be : Enables) (data : Line) (atom : Option AtomArgs) (d : Dev) : Dev :=
  let (d, ok) := d.receiveFiltered t 0 op h
  if ¬ ok ∨ d.stopped then d else
  let (a, d) := d.peerAccess t op h w be data atom
  if d.isHome w.addr ∧ d.serves then d.later (.launch a) else d.later (.answer a { ending := .decodeMiss })

/-- QFL_RD_NC. -/
def execQflRdNc (h : QflHdr) (w : ReqWord) (s : State) : Host.Outcome State Fault Refusal :=
  onSettled (fun t d => d.peerRequest t 7 h w (BitVec.allOnes 64) 0 none) s

/-- QFL_WR_NC. -/
def execQflWrNc (h : QflHdr) (w : ReqWord) (be : Enables) (data : Line) (s : State) : Host.Outcome State Fault Refusal :=
  onSettled (fun t d => d.peerRequest t 8 h w be data none) s

/-- QFL_ATOMIC: OP, then the addend, new value or compare value, then the swap value; a malformed one is answered with MSG_ERROR
cause 5 (R248, R252). -/
def execQflAtomic (h : QflHdr) (w : ReqWord) (op a b : Nat) (s : State) : Host.Outcome State Fault Refusal :=
  onSettled (fun t d =>
    let g : AtomArgs := { op, a, b }
    if op = 0 ∨ 4 < op ∨ w.addr % g.size ≠ 0 then
      let (d, ok) := d.receiveFiltered t 0 9 h
      if ok then d.respond t h 2 0xff [BitVec.ofNat 64 5] else d
    else d.peerRequest t 9 h w (BitVec.allOnes 64) 0 (some g)) s

/-- PRD_SHARED. -/
def execPrdShared (h : QflHdr) (w : ReqWord) (s : State) : Host.Outcome State Fault Refusal :=
  onSettled (fun t d => d.peerRequest t 1 h w (BitVec.allOnes 64) 0 none) s

/-- PRD_OWN. -/
def execPrdOwn (h : QflHdr) (w : ReqWord) (s : State) : Host.Outcome State Fault Refusal :=
  onSettled (fun t d => d.peerRequest t 2 h w (BitVec.allOnes 64) 0 none) s

/-- PINV_OWN. -/
def execPinvOwn (h : QflHdr) (w : ReqWord) (s : State) : Host.Outcome State Fault Refusal :=
  onSettled (fun t d => d.peerRequest t 3 h w (BitVec.allOnes 64) 0 none) s

/-- PFLUSH. -/
def execPflush (h : QflHdr) (w : ReqWord) (s : State) : Host.Outcome State Fault Refusal :=
  onSettled (fun t d => d.peerRequest t 4 h w (BitVec.allOnes 64) 0 none) s

/-- PEVICT. -/
def execPevict (h : QflHdr) (w : ReqWord) (s : State) : Host.Outcome State Fault Refusal :=
  onSettled (fun t d => d.peerRequest t 5 h w (BitVec.allOnes 64) 0 none) s

/-- PWB. -/
def execPwb (h : QflHdr) (w : ReqWord) (data : Line) (s : State) : Host.Outcome State Fault Refusal :=
  onSettled (fun t d => d.peerRequest t 6 h w (BitVec.allOnes 64) data none) s

/-- PLOST at the home. A tracker that waits for the recall of that slot takes it as the slot's answer: RECLAIM of the slot (R237). -/
def Dev.plostIn (t : Nat) (h : QflHdr) (w : ReqWord) (d : Dev) : Dev :=
  let (d, ok) := d.receiveFiltered t 0 10 h
  if ¬ ok then d else
  let (a, d) := d.peerAccess t 10 h w (BitVec.allOnes 64) 0 none
  if ¬ d.isHome w.addr then d.later (.answer a { ending := .decodeMiss }) else
  match d.trackerOn (lineAddr w.addr), a.slot with
  | some tr, some q =>
    if tr.snooped.contains q then
      (d.deadAnswer t 2 q tr).later (.answer a {})
    else d.later (.launch a)
  | _, _ => d.later (.launch a)

/-- PLOST. -/
def execPlost (h : QflHdr) (w : ReqWord) (s : State) : Host.Outcome State Fault Refusal :=
  onSettled (fun t d => d.plostIn t h w) s

/-! ### Recalls at a proxy (VC1) -/

/-- A recall of a home reached this device: 0 RECALL_INV, 1 RECALL_DATA, 2 RECALL_CUR. It waits while the line has a tracker. -/
def Dev.recallIn (t kind : Nat) (h : QflHdr) (addr : Nat) (d : Dev) : Dev :=
  let (d, ok) := d.receiveFiltered t 1 (kind + 1) h
  if ¬ ok then d else
  let la := lineAddr addr
  if d.homeLine la then d.respond t h 2 3 [completionWord 0 false false] else
  let (id, d) := d.newId
  let a : Access := { id, kind := .recall, origin := .churn 0, master := h.master, fa := laFa la, keep := kind, time := t }
  let d := d.churnWork { slice := sliceOf la, acc := a, la, reply := some (h.src, h.tag, h.e2e) }
  (d.proxyYield t la).later (.lineFree (sliceOf la) la)

/-- RECALL_INV. -/
def execRecallInv (h : QflHdr) (addr : Nat) (s : State) : Host.Outcome State Fault Refusal :=
  onSettled (fun t d => d.recallIn t 0 h addr) s

/-- RECALL_DATA. -/
def execRecallData (h : QflHdr) (addr : Nat) (s : State) : Host.Outcome State Fault Refusal :=
  onSettled (fun t d => d.recallIn t 1 h addr) s

/-- RECALL_CUR. -/
def execRecallCur (h : QflHdr) (addr : Nat) (s : State) : Host.Outcome State Fault Refusal :=
  onSettled (fun t d => d.recallIn t 2 h addr) s

/-! ### Responses (VC2, VC3) -/

/-- A response that matches an outstanding request ends it (R147). -/
def Dev.responseIn (t vc op : Nat) (h : QflHdr) (r : Answer) (d : Dev) : Dev :=
  match d.matchResponse t vc op h with
  | (d, some o) => d.closeOutst o r
  | (d, none) => d

/-- How a completion ends: with an error when its ERROR bit is set. -/
def endingOf (error : Bool) : Ending := if error then .errorResponse else .done

/-- CMP. -/
def execCmp (h : QflHdr) (grant : Nat) (error : Bool) (s : State) : Host.Outcome State Fault Refusal :=
  onSettled (fun t d => d.responseIn t 2 1 h { grant, bare := true, poison := error, ending := endingOf error }) s

/-- QFL_NAK: the retrying agent keeps the request, or the proxy waits to send its own again (R211, R223). -/
def Dev.nakIn (t : Nat) (h : QflHdr) (hint : Nat) (ticket : Option Nat) (d : Dev) : Dev :=
  match d.matchResponse t 2 2 h with
  | (d, none) => d
  | (d, some o) =>
    let keep (a : Access) (d : Dev) : Dev :=
      { d with chn := { d.chn with retries := d.chn.retries ++ [{ acc := { a with naks := min 3 (a.naks + 1), ticket }, hint }] } }
    match o.cont with
    | .direct a => keep a d
    | .tracker slice id 3 =>
      (match d.tracker slice id with
       | some tr => ((keep tr.acc d).setTracker { tr with step := 2 }).proxyYield t tr.la
       | none => d)
    | c => d.later (.ended c { poison := true, ending := .errorResponse })

/-- QFL_NAK. -/
def execQflNak (h : QflHdr) (cause hint : Nat) (ticket : Option Nat) (s : State) : Host.Outcome State Fault Refusal :=
  onSettled (fun t d => d.nakIn t h (if cause = 0 then 0 else hint) ticket) s

/-- RECALL_RSP. -/
def execRecallRsp (h : QflHdr) (grant : Nat) (s : State) : Host.Outcome State Fault Refusal :=
  onSettled (fun t d => d.responseIn t 2 3 h { grant, bare := true }) s

/-- DATA. -/
def execDataMsg (h : QflHdr) (grant : Nat) (poison error : Bool) (data : Line) (s : State) : Host.Outcome State Fault Refusal :=
  onSettled (fun t d => d.responseIn t 3 1 h { data, poison := poison || error, grant, ending := endingOf error }) s

/-- RECALL_DATA_RSP. -/
def execRecallDataRsp (h : QflHdr) (grant : Nat) (poison : Bool) (data : Line) (s : State) : Host.Outcome State Fault Refusal :=
  onSettled (fun t d => d.responseIn t 3 2 h { data, poison, grant }) s

/-- ATOMIC_RSP. -/
def execAtomicRsp (h : QflHdr) (poison error : Bool) (value : Nat) (s : State) : Host.Outcome State Fault Refusal :=
  onSettled (fun t d => d.responseIn t 3 3 h {
    data := BitVec.ofNat 512 (value % 2 ^ 128), poison := poison || error, ending := endingOf error }) s

/-- MSG_ERROR: the request failed on its way or at its destination. -/
def execMsgError (h : QflHdr) (cause : Nat) (s : State) : Host.Outcome State Fault Refusal :=
  onSettled (fun t d => if cause = 0 then d else d.responseIn t 2 0xff h { poison := true, ending := .errorResponse }) s

/-- A message to the mirror was not acknowledged in 4 ms: it is outstanding no more; a tracker goes on waiting for YOKE_TIMEOUT (R385), and a
resynchronisation whose copy it was cannot complete and is abandoned (DEDUCED, log entry 77). -/
def Dev.mirTimedOut (t : Nat) (o : Outst) (d : Dev) : Dev :=
  match o.cont with
  | .mirrorEntry _ _ _ => d
  | _ => if 1 ≤ d.rd Memb.RESYNC_PHASE ∧ d.rd Memb.RESYNC_PHASE ≤ 3 then d.abandonResync t else d

/-- TRANSACTION_TIMEOUT (R145, R146). A recall is sent again (R224). -/
def Dev.transactionTimeout (t dst tag : Nat) (d : Dev) : Dev :=
  match d.fab.outstanding.find? (fun o => o.dst = dst ∧ o.tag = tag) with
  | none => d
  | some o =>
    let d := if 1 ≤ dst ∧ dst ≤ 16 then d.inc (Qfab.TIMEOUTS (dst - 1)) else d
    let d := ({ d with fab := { d.fab with outstanding := d.fab.outstanding.erase o } }).sendWaiting t
    if o.vc = 4 then d.mirTimedOut t o else d.closeOutst o { poison := true, ending := .timedOut }

/-- TRANSACTION_TIMEOUT. -/
def execTransactionTimeout (dst tag : Nat) (s : State) : Host.Outcome State Fault Refusal :=
  onSettled (fun t d => d.transactionTimeout t dst tag) s

/-! ### The mirror channel (VC4) -/

/-- A VC4 message reached the mirror; only a device in OM6 applies it (R382). -/
def Dev.mirIn (t op : Nat) (h : QflHdr) (apply : Dev → Dev) (d : Dev) : Dev :=
  let (d, ok) := d.receiveFiltered t 4 op h
  if ok ∧ d.mode = 6 then apply d else d

/-- MIR_ACK at once. -/
def Dev.mirAck (t : Nat) (h : QflHdr) (d : Dev) : Dev := d.respond t h 4 3 []

/-- A write into the replica region (R381): the line that holds the bytes; MIR_ACK follows its acceptance. -/
def Dev.replicaWrite (t : Nat) (h : QflHdr) (unit off : Nat) (be : Enables) (data : Line) (d : Dev) : Dev :=
  let (id, d) := d.newId
  let a : Access := { id, kind := .wrNc, origin := .churn 0, master := masterFabric h.src 2, be, data, time := t }
  d.agentPush t {
    id, port := d.rd Memb.REPLICA_PORT, ld := d.rd Memb.REPLICA_LD, dpa := (d.rd Memb.REPLICA_DPA_UNIT + unit) * 2 ^ 28 + 64 * (off / 64)
    write := true, acc := a, cont := .replicaAck h.src h.tag h.e2e }

/-- Write 16 bytes of the replica region. -/
def Dev.replicaEntry (t : Nat) (h : QflHdr) (unit off : Nat) (entry : BitVec 128) (d : Dev) : Dev :=
  d.replicaWrite t h unit off (enablesAt (off % 64) 16) (placeAt (off % 64) 16 entry.toNat)

/-- The first copy of a new resynchronisation finds a replica that was in sync: it starts over. -/
def Dev.copyBegins (copy : Bool) (d : Dev) : Dev :=
  if copy ∧ d.memb.synced then { d with memb := { d.memb with synced := false, replica1 := [], replica2 := [] } } else d

/-- The replica holds an entry, or none, at a key. -/
def putReplica (r : Tab DirEntry) (k : Nat) (e : Option DirEntry) : Tab DirEntry :=
  match e with
  | some x => Tab.set r k x
  | none => Tab.erase r k

/-- MIR_ENTRY at the mirror. -/
def Dev.mirEntryIn (t : Nat) (h : QflHdr) (location entry : Nat) (d : Dev) : Dev :=
  let e := DirEntry.ofBits entry
  let d := (d.mon t 55 0x704 0xffff (match e with
    | some x => laFa x.la
    | none => 0)).inc Memb.MIRROR_WRITES
  let d := d.copyBegins (decide (fieldOf location 63 1 = 1))
  if fieldOf location 0 1 = 0 then
    let k := wayKey (fieldOf location 1 5) (fieldOf location 6 12) (fieldOf location 18 4)
    ({ d with memb := { d.memb with replica1 := putReplica d.memb.replica1 k e } }).replicaEntry t h 0 (16 * k) (BitVec.ofNat 128 entry)
  else
    let k := fieldOf location 1 26 * 4 + fieldOf location 27 2
    ({ d with memb := { d.memb with replica2 := putReplica d.memb.replica2 k e } }).replicaEntry t h 1 (16 * k) (BitVec.ofNat 128 entry)

/-- MIR_ENTRY. -/
def execMirEntry (h : QflHdr) (location : BitVec 64) (entry : BitVec 128) (s : State) : Host.Outcome State Fault Refusal :=
  onSettled (fun t d => d.mirIn t 1 h (fun d => d.mirEntryIn t h location.toNat entry.toNat)) s

/-- One record of fabric state at the mirror: KIND, INDEX (with the member in its upper bits, log entry 40) and the record. -/
def Dev.mirRecord (kind member index n : Nat) (d : Dev) : Dev :=
  let c := d.copyOf member
  let gate (active : Bool) (k : Nat) : Gate :=
    if active then { c.gate with active := Tab.put c.gate.active k (Rule.ofBits (BitVec.ofNat 256 n)) {} }
    else { c.gate with staging := Tab.put c.gate.staging k (Rule.ofBits (BitVec.ofNat 256 n)) {} }
  match kind with
  | 1 => d.setExt index (Extent.ofBits n)
  | 2 =>
    let x : SharerSlot := { valid := decide (fieldOf n 0 1 = 1), kind := fieldOf n 1 1, port := fieldOf n 2 6, chain := fieldOf n 8 5 }
    d.setCopy member { c with sharers := Tab.put c.sharers index x {} }
  | 3 => d.setCopy member { c with slots := Tab.put c.slots index (BindSlot.ofBits n) {} }
  | 4 => d.setCopy member { c with windows := Tab.put c.windows index (Window.ofBits n) {} }
  | 5 => d.setCopy member { c with gate := gate (decide (4096 ≤ index)) (index % 4096) }
  | 6 => d.wr Memb.CONFIGURED (fieldOf n 32 16)
  | 7 => { d with memb := { d.memb with headMap := Tab.set d.memb.headMap (32 * member + index) (fieldOf n 0 6, fieldOf n 6 4) } }
  | 8 => d.setCopy member { c with routes := Tab.put c.routes index (n % 128) 0 }
  | _ => d

/-- MIR_STATE. -/
def execMirState (h : QflHdr) (word : BitVec 64) (units : List (BitVec 64)) (s : State) : Host.Outcome State Fault Refusal :=
  onSettled (fun t d => d.mirIn t 2 h (fun d =>
    let n := units.foldr (fun (u : BitVec 64) v => u.toNat + 2 ^ 64 * v) 0
    let w := word.toNat
    (d.mirRecord (fieldOf w 0 8) (fieldOf w 27 5) (fieldOf w 8 19) n).mirAck t h)) s

/-- MIR_BUCKET: the four entries of a tier-2 bucket. -/
def Dev.mirBucketIn (t : Nat) (h : QflHdr) (location : Nat) (data : Line) (d : Dev) : Dev :=
  let d := d.copyBegins (decide (fieldOf location 63 1 = 1))
  let b := fieldOf location 1 26
  let r := (List.range 4).foldl (fun (r : Tab DirEntry) i =>
    putReplica r (b * 4 + i) (DirEntry.ofBits (fieldOf data.toNat (128 * i) 128))) d.memb.replica2
  ({ d with memb := { d.memb with replica2 := r } }).replicaWrite t h 1 (64 * b) (BitVec.allOnes 64) data

/-- MIR_BUCKET. -/
def execMirBucket (h : QflHdr) (location : BitVec 64) (data : Line) (s : State) : Host.Outcome State Fault Refusal :=
  onSettled (fun t d => d.mirIn t 4 h (fun d => d.mirBucketIn t h location.toNat data)) s

/-- MIR_CLOSE: the replica is complete. -/
def execMirClose (h : QflHdr) (count : Nat) (s : State) : Host.Outcome State Fault Refusal :=
  onSettled (fun t d => d.mirIn t 5 h (fun d =>
    ({ d with memb := { d.memb with synced := true } }.wr Memb.RESYNC_COPIED (min 2097152 count)).mirAck t h)) s

/-- MIR_ACK. -/
def execMirAck (h : QflHdr) (s : State) : Host.Outcome State Fault Refusal :=
  onSettled (fun t d => d.responseIn t 4 3 h {}) s

/-- RESYNC_COPY_DONE. -/
def execResyncCopyDone (s : State) : Host.Outcome State Fault Refusal :=
  onSettled (fun t d => d.copyDone t) s

/-- YOKE_TIMEOUT: trackers have waited for MIR_ACK (R385). A mirror whose heartbeats still arrive leaves the alive set by an epoch
advance; a silent one is declared dead by the partition rule when its silence is counted. -/
def Dev.yokeTimeout (t : Nat) (d : Dev) : Dev :=
  let m := d.rd Memb.MIRROR_ADDR
  if d.mode ≠ 5 ∨ m = 0 ∨ d.chn.mirrorWaits.isEmpty ∨ d.silentAt m then d
  else
    let e := d.epochArgs
    let d := { d with memb := { d.memb with yokeWait := some m } }
    d.advance t { e with alive := dropAddr e.alive m, mirror := 0 }

/-- YOKE_TIMEOUT. -/
def execYokeTimeout (s : State) : Host.Outcome State Fault Refusal := onSettled (fun t d => d.yokeTimeout t) s

/-- MIRROR_RESYNC_DEADLINE: 60 s in OM5 without a resynchronised mirror (R379). -/
def execMirrorResyncDeadline (s : State) : Host.Outcome State Fault Refusal :=
  onSettled (fun t d => if d.mode = 5 ∧ ¬ d.memb.synced then d.enterMode t 8 12 else d) s

end Sys2Proof.Machine
end

