-- ==== Sys2Proof/Machine/Dispatch.lean ====
section
/-! DEFINITION. One arm per command of the opcode table: each calls that command's own meaning. -/
namespace Sys2Proof.Machine

/-- The effect of a command on everything but the queue. -/
def exec (i : Instr) (s : State) : Host.Outcome State Fault Refusal :=
  match i with
  | .silekVersion h => Sys2Proof.Machine.execSilekVersion h s
  | .deviceInfo h => Sys2Proof.Machine.execDeviceInfo h s
  | .portStatusQuery h first count => Sys2Proof.Machine.execPortStatusQuery h first count s
  | .commandSupport h group => Sys2Proof.Machine.execCommandSupport h group s
  | .eventRead h first count ackUpto => Sys2Proof.Machine.execEventRead h first count ackUpto s
  | .eventSubscribe h cls eid => Sys2Proof.Machine.execEventSubscribe h cls eid s
  | .eventNotify h count records => Sys2Proof.Machine.execEventNotify h count records s
  | .eventNotifyPeriod => Sys2Proof.Machine.execEventNotifyPeriod s
  | .capacityAdd h port ld unit count first => Sys2Proof.Machine.execCapacityAdd h port ld unit count first s
  | .capacityRemove h first count => Sys2Proof.Machine.execCapacityRemove h first count s
  | .deviceCapacityQuery h port => Sys2Proof.Machine.execDeviceCapacityQuery h port s
  | .windowConfig h window vi region kind slotBase slotCount enable => Sys2Proof.Machine.execWindowConfig h window vi region kind slotBase slotCount enable s
  | .windowQuery h first count => Sys2Proof.Machine.execWindowQuery h first count s
  | .extentBind h window off count kind extents => Sys2Proof.Machine.execExtentBind h window off count kind extents s
  | .extentUnbind h window off count force zero => Sys2Proof.Machine.execExtentUnbind h window off count force zero s
  | .extentMigrate h src dst queue zero => Sys2Proof.Machine.execExtentMigrate h src dst queue zero s
  | .extentMigrateAbort h src => Sys2Proof.Machine.execExtentMigrateAbort h src s
  | .extentZero h extent queue => Sys2Proof.Machine.execExtentZero h extent queue s
  | .extentQuery h first count => Sys2Proof.Machine.execExtentQuery h first count s
  | .slotQuery h first count => Sys2Proof.Machine.execSlotQuery h first count s
  | .instanceConfig h vi portA portB type2 msix queues enable => Sys2Proof.Machine.execInstanceConfig h vi portA portB type2 msix queues enable s
  | .instanceQuery h vi => Sys2Proof.Machine.execInstanceQuery h vi s
  | .instanceQuiesce h vi force timeout => Sys2Proof.Machine.execInstanceQuiesce h vi force timeout s
  | .instanceResume h vi => Sys2Proof.Machine.execInstanceResume h vi s
  | .instanceReset h vi => Sys2Proof.Machine.execInstanceReset h vi s
  | .qosSet h vi mask limit trackerMin trackerMax accessWeight ladleWeight => Sys2Proof.Machine.execQosSet h vi mask limit trackerMin trackerMax accessWeight ladleWeight s
  | .qosQuery h vi => Sys2Proof.Machine.execQosQuery h vi s
  | .queueAssign h pair owner index ladle => Sys2Proof.Machine.execQueueAssign h pair owner index ladle s
  | .queueSetup h pair log2Size sqBase cqBase vector enable => Sys2Proof.Machine.execQueueSetup h pair log2Size sqBase cqBase vector enable s
  | .queueDisable h pair => Sys2Proof.Machine.execQueueDisable h pair s
  | .queueReset h pair => Sys2Proof.Machine.execQueueReset h pair s
  | .queueQuery h pair => Sys2Proof.Machine.execQueueQuery h pair s
  | .ladleSubmit h pair descriptors => Sys2Proof.Machine.execLadleSubmit h pair descriptors s
  | .gateWrite h addr first rules => Sys2Proof.Machine.execGateWrite h addr first rules s
  | .gateCommit h expected => Sys2Proof.Machine.execGateCommit h expected s
  | .gateRead h addr sel first count => Sys2Proof.Machine.execGateRead h addr sel first count s
  | .gateDiscard h addr => Sys2Proof.Machine.execGateDiscard h addr s
  | .commitDrainDone => Sys2Proof.Machine.execCommitDrainDone s
  | .sharerSlotSet h slot valid kind port chain => Sys2Proof.Machine.execSharerSlotSet h slot valid kind port chain s
  | .sharerSlotQuery h => Sys2Proof.Machine.execSharerSlotQuery h s
  | .membershipSet h bitmap => Sys2Proof.Machine.execMembershipSet h bitmap s
  | .membershipQuery h => Sys2Proof.Machine.execMembershipQuery h s
  | .memberJoin h role => Sys2Proof.Machine.execMemberJoin h role s
  | .joinTimeout => Sys2Proof.Machine.execJoinTimeout s
  | .memberRejoin h addr role mode => Sys2Proof.Machine.execMemberRejoin h addr role mode s
  | .memberDeclareDead h addr => Sys2Proof.Machine.execMemberDeclareDead h addr s
  | .epochAdvance h epoch prev configured alive primary mirror pair failover kept => Sys2Proof.Machine.execEpochAdvance h epoch prev configured alive primary mirror pair failover kept s
  | .epochAdvanceResend => Sys2Proof.Machine.execEpochAdvanceResend s
  | .pairHeadSet h expander addr port ld => Sys2Proof.Machine.execPairHeadSet h expander addr port ld s
  | .mirrorResync h => Sys2Proof.Machine.execMirrorResync h s
  | .replicaSet h addr port ld unit => Sys2Proof.Machine.execReplicaSet h addr port ld unit s
  | .slotPowerOn h ch => Sys2Proof.Machine.execSlotPowerOn h ch s
  | .slotPowerOff h ch force => Sys2Proof.Machine.execSlotPowerOff h ch force s
  | .slotPowerConfig h ch ilim timer => Sys2Proof.Machine.execSlotPowerConfig h ch ilim timer s
  | .slotPowerQuery h ch => Sys2Proof.Machine.execSlotPowerQuery h ch s
  | .fwUpdateStart h bank len => Sys2Proof.Machine.execFwUpdateStart h bank len s
  | .flashEraseDone => Sys2Proof.Machine.execFlashEraseDone s
  | .fwUpdateData h off len data => Sys2Proof.Machine.execFwUpdateData h off len data s
  | .fwUpdateVerify h bank => Sys2Proof.Machine.execFwUpdateVerify h bank s
  | .fwActivate h bank => Sys2Proof.Machine.execFwActivate h bank s
  | .fwQuery h => Sys2Proof.Machine.execFwQuery h s
  | .selfTest h => Sys2Proof.Machine.execSelfTest h s
  | .zeroize h word => Sys2Proof.Machine.execZeroize h word s
  | .securityStatus h => Sys2Proof.Machine.execSecurityStatus h s
  | .regRead h off count => Sys2Proof.Machine.execRegRead h off count s
  | .regWrite h off value => Sys2Proof.Machine.execRegWrite h off value s
  | .rennetSet h cls target setting => Sys2Proof.Machine.execRennetSet h cls target setting s
  | .rennetClear h => Sys2Proof.Machine.execRennetClear h s
  | .rennetQuery h => Sys2Proof.Machine.execRennetQuery h s
  | .dirRead h slice set => Sys2Proof.Machine.execDirRead h slice set s
  | .monitorConfig h block counter event => Sys2Proof.Machine.execMonitorConfig h block counter event s
  | .monitorRead h block => Sys2Proof.Machine.execMonitorRead h block s
  | .skimmerConfig h vi base size interval => Sys2Proof.Machine.execSkimmerConfig h vi base size interval s
  | .skimmerStop h => Sys2Proof.Machine.execSkimmerStop h s
  | .herdbookRead h off len => Sys2Proof.Machine.execHerdbookRead h off len s
  | .errorLogRead h first count => Sys2Proof.Machine.execErrorLogRead h first count s
  | .errorLogClear h upto => Sys2Proof.Machine.execErrorLogClear h upto s
  | .modeSet h expected target role => Sys2Proof.Machine.execModeSet h expected target role s
  | .modeQuery h => Sys2Proof.Machine.execModeQuery h s
  | .portConfig h bitmap cfgs => Sys2Proof.Machine.execPortConfig h bitmap cfgs s
  | .portControl h port action => Sys2Proof.Machine.execPortControl h port action s
  | .barrierCmd h scope id => Sys2Proof.Machine.execBarrierCmd h scope id s
  | .warmReset h delay => Sys2Proof.Machine.execWarmReset h delay s
  | .configSave h mode => Sys2Proof.Machine.execConfigSave h mode s
  | .identify eid tag => Sys2Proof.Machine.execIdentify eid tag s
  | .backgroundOperationStatus eid tag => Sys2Proof.Machine.execBackgroundOperationStatus eid tag s
  | .getResponseMessageLimit tag => Sys2Proof.Machine.execGetResponseMessageLimit tag s
  | .setResponseMessageLimit tag exponent => Sys2Proof.Machine.execSetResponseMessageLimit tag exponent s
  | .identifySwitchDevice eid tag => Sys2Proof.Machine.execIdentifySwitchDevice eid tag s
  | .getPhysicalPortState eid tag first count => Sys2Proof.Machine.execGetPhysicalPortState eid tag first count s
  | .physicalPortControl eid tag port op => Sys2Proof.Machine.execPhysicalPortControl eid tag port op s
  | .getVirtualCxlSwitchInfo eid tag vi => Sys2Proof.Machine.execGetVirtualCxlSwitchInfo eid tag vi s
  | .bindVppb eid tag vi vppb port => Sys2Proof.Machine.execBindVppb eid tag vi vppb port s
  | .unbindVppb eid tag vi vppb => Sys2Proof.Machine.execUnbindVppb eid tag vi vppb s
  | .getDcdInfo eid tag => Sys2Proof.Machine.execGetDcdInfo eid tag s
  | .getHostDcRegionConfiguration eid tag host => Sys2Proof.Machine.execGetHostDcRegionConfiguration eid tag host s
  | .setDcRegionConfiguration eid tag window host region kind slotBase slotCount enable => Sys2Proof.Machine.execSetDcRegionConfiguration eid tag window host region kind slotBase slotCount enable s
  | .getDcRegionExtentLists eid tag host start count => Sys2Proof.Machine.execGetDcRegionExtentLists eid tag host start count s
  | .initiateDynamicCapacityAdd eid tag host policy region extents => Sys2Proof.Machine.execInitiateDynamicCapacityAdd eid tag host policy region extents s
  | .initiateDynamicCapacityRelease eid tag host forced region extents => Sys2Proof.Machine.execInitiateDynamicCapacityRelease eid tag host forced region extents s
  | .setEndpointId eid => Sys2Proof.Machine.execSetEndpointId eid s
  | .getEndpointId => Sys2Proof.Machine.execGetEndpointId s
  | .getEndpointUuid => Sys2Proof.Machine.execGetEndpointUuid s
  | .getMctpVersionSupport => Sys2Proof.Machine.execGetMctpVersionSupport s
  | .getMessageTypeSupport => Sys2Proof.Machine.execGetMessageTypeSupport s
  | .getVendorDefinedMessageSupport selector => Sys2Proof.Machine.execGetVendorDefinedMessageSupport selector s
  | .setEventReceiver eid => Sys2Proof.Machine.execSetEventReceiver eid s
  | .getPdrRepositoryInfo => Sys2Proof.Machine.execGetPdrRepositoryInfo s
  | .getPdr record => Sys2Proof.Machine.execGetPdr record s
  | .getSensorReading sensor => Sys2Proof.Machine.execGetSensorReading sensor s
  | .getStateSensorReadings sensor => Sys2Proof.Machine.execGetStateSensorReadings sensor s
  | .setNumericSensorEnable sensor enable => Sys2Proof.Machine.execSetNumericSensorEnable sensor enable s
  | .requestUpdate secured => Sys2Proof.Machine.execRequestUpdate secured s
  | .passComponentTable secured identifier => Sys2Proof.Machine.execPassComponentTable secured identifier s
  | .updateComponent secured identifier size => Sys2Proof.Machine.execUpdateComponent secured identifier size s
  | .requestFirmwareData secured data => Sys2Proof.Machine.execRequestFirmwareData secured data s
  | .activateFirmware secured selfContained => Sys2Proof.Machine.execActivateFirmware secured selfContained s
  | .getCertificate slot => Sys2Proof.Machine.execGetCertificate slot s
  | .challenge slot nonce => Sys2Proof.Machine.execChallenge slot nonce s
  | .getMeasurements index nonce => Sys2Proof.Machine.execGetMeasurements index nonce s
  | .keyExchange transport mutualAuth authOk => Sys2Proof.Machine.execKeyExchange transport mutualAuth authOk s
  | .doorbell mb => Sys2Proof.Machine.execDoorbell mb s
  | .interimReply req tag => Sys2Proof.Machine.execInterimReply req tag s
  | .silekSegment via tag index last reply bytes => Sys2Proof.Machine.execSilekSegment via tag index last reply bytes s
  | .segmentTimeout src vc5 => Sys2Proof.Machine.execSegmentTimeout src vc5 s
  | .silekResend id => Sys2Proof.Machine.execSilekResend id s
  | .silekSegAck qfl => Sys2Proof.Machine.execSilekSegAck qfl s
  | .memrd port tag hpa keep => Sys2Proof.Machine.execMemrd port tag hpa keep s
  | .meminv port tag hpa keep => Sys2Proof.Machine.execMeminv port tag hpa keep s
  | .memclnevct port tag hpa => Sys2Proof.Machine.execMemclnevct port tag hpa s
  | .memwr port tag hpa keep be data poison => Sys2Proof.Machine.execMemwr port tag hpa keep be data poison s
  | .memspecrd port hpa => Sys2Proof.Machine.execMemspecrd port hpa s
  | .birsp port tag keeps => Sys2Proof.Machine.execBirsp port tag keeps s
  | .biconflict port tag => Sys2Proof.Machine.execBiconflict port tag s
  | .snoopTimeout port tag => Sys2Proof.Machine.execSnoopTimeout port tag s
  | .mrd port tag addr len => Sys2Proof.Machine.execMrd port tag addr len s
  | .mwr port addr data relaxed poison => Sys2Proof.Machine.execMwr port addr data relaxed poison s
  | .atomicop port tag addr op size a b => Sys2Proof.Machine.execAtomicop port tag addr op size a b s
  | .cxlIoCompletion port tag ok poison data => Sys2Proof.Machine.execCxlIoCompletion port tag ok poison data s
  | .cxlCache port vport data => Sys2Proof.Machine.execCxlCache port vport data s
  | .configurationWrite port function register value functionMask => Sys2Proof.Machine.execConfigurationWrite port function register value functionMask s
  | .cxlMemReadData port tag data poison => Sys2Proof.Machine.execCxlMemReadData port tag data poison s
  | .cxlMemWriteCompletion port ld => Sys2Proof.Machine.execCxlMemWriteCompletion port ld s
  | .hostWriteAck port count => Sys2Proof.Machine.execHostWriteAck port count s
  | .nakRetry id => Sys2Proof.Machine.execNakRetry id s
  | .ticketAdmission slice number => Sys2Proof.Machine.execTicketAdmission slice number s
  | .ticketExpiry slice number => Sys2Proof.Machine.execTicketExpiry slice number s
  | .churnWayWait slice id => Sys2Proof.Machine.execChurnWayWait slice id s
  | .tier2BucketReadDone slice id bad => Sys2Proof.Machine.execTier2BucketReadDone slice id bad s
  | .qflRdNc h w => Sys2Proof.Machine.execQflRdNc h w s
  | .qflWrNc h w be data => Sys2Proof.Machine.execQflWrNc h w be data s
  | .qflAtomic h w op a b => Sys2Proof.Machine.execQflAtomic h w op a b s
  | .prdShared h w => Sys2Proof.Machine.execPrdShared h w s
  | .prdOwn h w => Sys2Proof.Machine.execPrdOwn h w s
  | .pinvOwn h w => Sys2Proof.Machine.execPinvOwn h w s
  | .pflush h w => Sys2Proof.Machine.execPflush h w s
  | .pevict h w => Sys2Proof.Machine.execPevict h w s
  | .pwb h w data => Sys2Proof.Machine.execPwb h w data s
  | .plost h w => Sys2Proof.Machine.execPlost h w s
  | .recallInv h addr => Sys2Proof.Machine.execRecallInv h addr s
  | .recallData h addr => Sys2Proof.Machine.execRecallData h addr s
  | .recallCur h addr => Sys2Proof.Machine.execRecallCur h addr s
  | .cmp h grant error => Sys2Proof.Machine.execCmp h grant error s
  | .qflNak h cause hint ticket => Sys2Proof.Machine.execQflNak h cause hint ticket s
  | .recallRsp h grant => Sys2Proof.Machine.execRecallRsp h grant s
  | .dataMsg h grant poison error data => Sys2Proof.Machine.execDataMsg h grant poison error data s
  | .recallDataRsp h grant poison data => Sys2Proof.Machine.execRecallDataRsp h grant poison data s
  | .atomicRsp h poison error value => Sys2Proof.Machine.execAtomicRsp h poison error value s
  | .msgError h cause => Sys2Proof.Machine.execMsgError h cause s
  | .transactionTimeout dst tag => Sys2Proof.Machine.execTransactionTimeout dst tag s
  | .mirEntry h location entry => Sys2Proof.Machine.execMirEntry h location entry s
  | .mirState h word units => Sys2Proof.Machine.execMirState h word units s
  | .mirBucket h location data => Sys2Proof.Machine.execMirBucket h location data s
  | .mirClose h count => Sys2Proof.Machine.execMirClose h count s
  | .mirAck h => Sys2Proof.Machine.execMirAck h s
  | .resyncCopyDone => Sys2Proof.Machine.execResyncCopyDone s
  | .yokeTimeout => Sys2Proof.Machine.execYokeTimeout s
  | .mirrorResyncDeadline => Sys2Proof.Machine.execMirrorResyncDeadline s
  | .migrationComplete index => Sys2Proof.Machine.execMigrationComplete index s
  | .unbindScanComplete id => Sys2Proof.Machine.execUnbindScanComplete id s
  | .bindHostTimeout id => Sys2Proof.Machine.execBindHostTimeout id s
  | .releaseHostTimeout id => Sys2Proof.Machine.execReleaseHostTimeout id s
  | .addDynamicCapacityResponse port slots => Sys2Proof.Machine.execAddDynamicCapacityResponse port slots s
  | .releaseDynamicCapacity port slots => Sys2Proof.Machine.execReleaseDynamicCapacity port slots s
  | .getDynamicCapacityExtentList port => Sys2Proof.Machine.execGetDynamicCapacityExtentList port s
  | .hdmDecoderCommit port window base size ways dpa commit => Sys2Proof.Machine.execHdmDecoderCommit port window base size ways dpa commit s
  | .virtualHotAdd vi => Sys2Proof.Machine.execVirtualHotAdd vi s
  | .ptmRequest port => Sys2Proof.Machine.execPtmRequest port s
  | .functionLevelReset vi => Sys2Proof.Machine.execFunctionLevelReset vi s
  | .secondaryBusReset vi upstream => Sys2Proof.Machine.execSecondaryBusReset vi upstream s
  | .downstreamSecondaryBusReset vi vport => Sys2Proof.Machine.execDownstreamSecondaryBusReset vi vport s
  | .hostPerst port => Sys2Proof.Machine.execHostPerst port s
  | .quiesceComplete vi => Sys2Proof.Machine.execQuiesceComplete vi s
  | .quiesceTimeout vi => Sys2Proof.Machine.execQuiesceTimeout vi s
  | .resetComplete vi => Sys2Proof.Machine.execResetComplete vi s
  | .moderationTimer vi vector => Sys2Proof.Machine.execModerationTimer vi vector s
  | .vectorUnmask vi vector => Sys2Proof.Machine.execVectorUnmask vi vector s
  | .memoryAgentGrant port => Sys2Proof.Machine.execMemoryAgentGrant port s
  | .sqTail vi queue value => Sys2Proof.Machine.execSqTail vi queue value s
  | .cqHead vi queue value => Sys2Proof.Machine.execCqHead vi queue value s
  | .descriptorFetch ladle => Sys2Proof.Machine.execDescriptorFetch ladle s
  | .copyDesc pair => Sys2Proof.Machine.execCopyDesc pair s
  | .fillDesc pair => Sys2Proof.Machine.execFillDesc pair s
  | .compareDesc pair => Sys2Proof.Machine.execCompareDesc pair s
  | .crc32cDesc pair => Sys2Proof.Machine.execCrc32cDesc pair s
  | .atomicDesc pair => Sys2Proof.Machine.execAtomicDesc pair s
  | .zeroReleaseDesc pair => Sys2Proof.Machine.execZeroReleaseDesc pair s
  | .migrateDesc pair => Sys2Proof.Machine.execMigrateDesc pair s
  | .pieceDone run piece => Sys2Proof.Machine.execPieceDone run piece s
  | .ladlePowerDown ladle => Sys2Proof.Machine.execLadlePowerDown ladle s
  | .targetTimeout port => Sys2Proof.Machine.execTargetTimeout port s
  | .removal port => Sys2Proof.Machine.execRemoval port s
  | .presenceDebounce port present => Sys2Proof.Machine.execPresenceDebounce port present s
  | .reclaimDone slot => Sys2Proof.Machine.execReclaimDone slot s
  | .devicePortReclaimDone port => Sys2Proof.Machine.execDevicePortReclaimDone port s
  | .slotSettleExpiry port => Sys2Proof.Machine.execSlotSettleExpiry port s
  | .portAdmit port => Sys2Proof.Machine.execPortAdmit port s
  | .cxlLinkUp port gen rate width flit256 latencyOpt poisonCapable capacity type2 => Sys2Proof.Machine.execCxlLinkUp port gen rate width flit256 latencyOpt poisonCapable capacity type2 s
  | .trainingRetry port => Sys2Proof.Machine.execTrainingRetry port s
  | .perstRelease port => Sys2Proof.Machine.execPerstRelease port s
  | .ideFailure port sequence => Sys2Proof.Machine.execIdeFailure port sequence s
  | .ideRefreshTimeout port => Sys2Proof.Machine.execIdeRefreshTimeout port s
  | .receiverDetect port lanes => Sys2Proof.Machine.execReceiverDetect port lanes s
  | .disabledHoldoff port => Sys2Proof.Machine.execDisabledHoldoff port s
  | .ts1 port set => Sys2Proof.Machine.execTs1 port set s
  | .ts2 port set => Sys2Proof.Machine.execTs2 port set s
  | .skpOrderedSet lane set => Sys2Proof.Machine.execSkpOrderedSet lane set s
  | .skpInterval port => Sys2Proof.Machine.execSkpInterval port s
  | .deskew port skew => Sys2Proof.Machine.execDeskew port skew s
  | .eios port => Sys2Proof.Machine.execEios port s
  | .loopbackEnter port => Sys2Proof.Machine.execLoopbackEnter port s
  | .activeEntry port => Sys2Proof.Machine.execActiveEntry port s
  | .electricalIdleDetect port => Sys2Proof.Machine.execElectricalIdleDetect port s
  | .train1Timeout port final => Sys2Proof.Machine.execTrain1Timeout port final s
  | .equaliseTimeout port => Sys2Proof.Machine.execEqualiseTimeout port s
  | .train2Timeout port => Sys2Proof.Machine.execTrain2Timeout port s
  | .recoveryTimeout port => Sys2Proof.Machine.execRecoveryTimeout port s
  | .eqRequestResend port lane => Sys2Proof.Machine.execEqRequestResend port lane s
  | .eqEvaluationDone port lane eye => Sys2Proof.Machine.execEqEvaluationDone port lane eye s
  | .lossOfLock port lane => Sys2Proof.Machine.execLossOfLock port lane s
  | .portDisable path port value => Sys2Proof.Machine.execPortDisable path port value s
  | .retrain path port value => Sys2Proof.Machine.execRetrain path port value s
  | .fullRetrain path port value => Sys2Proof.Machine.execFullRetrain path port value s
  | .loopbackReq path port value => Sys2Proof.Machine.execLoopbackReq path port value s
  | .genPattern path lane value => Sys2Proof.Machine.execGenPattern path lane value s
  | .prbsClear path lane value => Sys2Proof.Machine.execPrbsClear path lane value s
  | .injectError path lane value => Sys2Proof.Machine.execInjectError path lane value s
  | .flit port bits => Sys2Proof.Machine.execFlit port bits s
  | .ack rx seq synced => Sys2Proof.Machine.execAck rx seq synced s
  | .nak rx seq map synced resync => Sys2Proof.Machine.execNak rx seq map synced resync s
  | .credit rx vc count => Sys2Proof.Machine.execCredit rx vc count s
  | .seqSync rx next => Sys2Proof.Machine.execSeqSync rx next s
  | .widthReqMessage rx width id => Sys2Proof.Machine.execWidthReqMessage rx width id s
  | .widthAck rx msg => Sys2Proof.Machine.execWidthAck rx msg s
  | .widthRefuse rx msg => Sys2Proof.Machine.execWidthRefuse rx msg s
  | .widthReady rx msg => Sys2Proof.Machine.execWidthReady rx msg s
  | .widthSwitch port width id => Sys2Proof.Machine.execWidthSwitch port width id s
  | .widthMark port => Sys2Proof.Machine.execWidthMark port s
  | .wakingLanesLocked port => Sys2Proof.Machine.execWakingLanesLocked port s
  | .widthGo path port value => Sys2Proof.Machine.execWidthGo path port value s
  | .widthResponseTimeout port => Sys2Proof.Machine.execWidthResponseTimeout port s
  | .widthWakeTimeout port => Sys2Proof.Machine.execWidthWakeTimeout port s
  | .widthRetryDelay port => Sys2Proof.Machine.execWidthRetryDelay port s
  | .ackTimer port => Sys2Proof.Machine.execAckTimer port s
  | .nakTimer port => Sys2Proof.Machine.execNakTimer port s
  | .replayTimer port => Sys2Proof.Machine.execReplayTimer port s
  | .linkHold port => Sys2Proof.Machine.execLinkHold port s
  | .oldestFlitAge port => Sys2Proof.Machine.execOldestFlitAge port s
  | .routeReturn port => Sys2Proof.Machine.execRouteReturn port s
  | .seqSyncRepeat port => Sys2Proof.Machine.execSeqSyncRepeat port s
  | .creditRefresh port => Sys2Proof.Machine.execCreditRefresh port s
  | .messageLifetime port => Sys2Proof.Machine.execMessageLifetime port s
  | .keyRoll port => Sys2Proof.Machine.execKeyRoll port s
  | .encryptionSessionTimeout port => Sys2Proof.Machine.execEncryptionSessionTimeout port s
  | .qflSpdmMessage port opcode authOk final => Sys2Proof.Machine.execQflSpdmMessage port opcode authOk final s
  | .timeSyncPeriod => Sys2Proof.Machine.execTimeSyncPeriod s
  | .timeReq rx => Sys2Proof.Machine.execTimeReq rx s
  | .timeRsp rx t3 => Sys2Proof.Machine.execTimeRsp rx t3 s
  | .timeT2 rx t2 => Sys2Proof.Machine.execTimeT2 rx t2 s
  | .timeSyncAbandon => Sys2Proof.Machine.execTimeSyncAbandon s
  | .ppsEdge => Sys2Proof.Machine.execPpsEdge s
  | .ppsTimeout => Sys2Proof.Machine.execPpsTimeout s
  | .ppsOut => Sys2Proof.Machine.execPpsOut s
  | .speedWindow cycles => Sys2Proof.Machine.execSpeedWindow cycles s
  | .avsStep ok => Sys2Proof.Machine.execAvsStep ok s
  | .pmbusRetry ok => Sys2Proof.Machine.execPmbusRetry ok s
  | .vcoreMeasure mv => Sys2Proof.Machine.execVcoreMeasure mv s
  | .temperatureScan temps => Sys2Proof.Machine.execTemperatureScan temps s
  | .histogramSample => Sys2Proof.Machine.execHistogramSample s
  | .laneHour lane errors => Sys2Proof.Machine.execLaneHour lane errors s
  | .nakStormWindow => Sys2Proof.Machine.execNakStormWindow s
  | .herdbookPeriodicWrite => Sys2Proof.Machine.execHerdbookPeriodicWrite s
  | .herdbookFlush => Sys2Proof.Machine.execHerdbookFlush s
  | .herdbookWriteDone ok => Sys2Proof.Machine.execHerdbookWriteDone ok s
  | .skimmerInterval => Sys2Proof.Machine.execSkimmerInterval s
  | .tripleScrub off => Sys2Proof.Machine.execTripleScrub off s
  | .gateScrub staging index fixed => Sys2Proof.Machine.execGateScrub staging index fixed s
  | .arrayRewrite table index => Sys2Proof.Machine.execArrayRewrite table index s
  | .tier2En path value => Sys2Proof.Machine.execTier2En path value s
  | .tier2ZeroingDone => Sys2Proof.Machine.execTier2ZeroingDone s
  | .csrKey path value => Sys2Proof.Machine.execCsrKey path value s
  | .pgConfig path group value => Sys2Proof.Machine.execPgConfig path group value s
  | .bitAliasWrite path off value => Sys2Proof.Machine.execBitAliasWrite path off value s
  | .latchingRead path off size => Sys2Proof.Machine.execLatchingRead path off size s
  | .clearOnRead path off size => Sys2Proof.Machine.execClearOnRead path off size s
  | .arrayEntryRead path off size => Sys2Proof.Machine.execArrayEntryRead path off size s
  | .arrayWindowWrite path off size => Sys2Proof.Machine.execArrayWindowWrite path off size s
  | .recordSelect path number => Sys2Proof.Machine.execRecordSelect path number s
  | .clearMonitor path mon => Sys2Proof.Machine.execClearMonitor path mon s
  | .ovfClear path mon bits => Sys2Proof.Machine.execOvfClear path mon bits s
  | .registerWrite path off size value => Sys2Proof.Machine.execRegisterWrite path off size value s
  | .chainBreak => Sys2Proof.Machine.execChainBreak s
  | .breakFrame rx => Sys2Proof.Machine.execBreakFrame rx s
  | .lineEndDetect pair => Sys2Proof.Machine.execLineEndDetect pair s
  | .ringRestore => Sys2Proof.Machine.execRingRestore s
  | .ringFrame rx => Sys2Proof.Machine.execRingFrame rx s
  | .enumListenEnd => Sys2Proof.Machine.execEnumListenEnd s
  | .enumFrame rx next turns own => Sys2Proof.Machine.execEnumFrame rx next turns own s
  | .enumDone rx count shape => Sys2Proof.Machine.execEnumDone rx count shape s
  | .enumTimeout => Sys2Proof.Machine.execEnumTimeout s
  | .heartbeatPeriod => Sys2Proof.Machine.execHeartbeatPeriod s
  | .heartbeat via src epoch word => Sys2Proof.Machine.execHeartbeat via src epoch word s
  | .fenced via src dst notice => Sys2Proof.Machine.execFenced via src dst notice s
  | .bootComplete kat linear16 => Sys2Proof.Machine.execBootComplete kat linear16 s
  | .rstNRise straps inRange zeroizeHigh => Sys2Proof.Machine.execRstNRise straps inRange zeroizeHigh s
  | .rstNLow => Sys2Proof.Machine.execRstNLow s
  | .supplyFault rail => Sys2Proof.Machine.execSupplyFault rail s
  | .zeroizeN => Sys2Proof.Machine.execZeroizeN s
  | .healthTestFailure => Sys2Proof.Machine.execHealthTestFailure s
  | .pwrfail => Sys2Proof.Machine.execPwrfail s
  | .pwrfailDrainLimit => Sys2Proof.Machine.execPwrfailDrainLimit s
  | .drainTimeout => Sys2Proof.Machine.execDrainTimeout s
  | .warmResetDrainDone => Sys2Proof.Machine.execWarmResetDrainDone s
  | .watchdogExpiry => Sys2Proof.Machine.execWatchdogExpiry s
  | .adcScan samples => Sys2Proof.Machine.execAdcScan samples s
  | .pchgTimeout ch => Sys2Proof.Machine.execPchgTimeout ch s
  | .gateCharged ch => Sys2Proof.Machine.execGateCharged ch s
  | .powerGoodTimeout ch => Sys2Proof.Machine.execPowerGoodTimeout ch s
  | .qualificationEnd ch => Sys2Proof.Machine.execQualificationEnd ch s
  | .currentLimit ch => Sys2Proof.Machine.execCurrentLimit ch s
  | .currentLimitEnd ch => Sys2Proof.Machine.execCurrentLimitEnd ch s
  | .faultTimer ch => Sys2Proof.Machine.execFaultTimer ch s
  | .fastTrip ch => Sys2Proof.Machine.execFastTrip ch s
  | .stoppingEnd ch => Sys2Proof.Machine.execStoppingEnd ch s
  | .cooldownEnd ch => Sys2Proof.Machine.execCooldownEnd ch s
  | .exerciseInject stream => Sys2Proof.Machine.execExerciseInject stream s
  | .responderReply snoops => Sys2Proof.Machine.execResponderReply snoops s
  | .laneDropExpiry lane => Sys2Proof.Machine.execLaneDropExpiry lane s
  | .testPeriod => Sys2Proof.Machine.execTestPeriod s
  | .testMsg qfl => Sys2Proof.Machine.execTestMsg qfl s
  | .testRsp qfl => Sys2Proof.Machine.execTestRsp qfl s
  | .checkerSync lane received report => Sys2Proof.Machine.execCheckerSync lane received report s
  | .syncLoss lane window report => Sys2Proof.Machine.execSyncLoss lane window report s
  | .ideKeyManagement port op anchorOk => Sys2Proof.Machine.execIdeKeyManagement port op anchorOk s
  | .jtagInstructionLoad code => Sys2Proof.Machine.execJtagInstructionLoad code s
  | .testLogicReset => Sys2Proof.Machine.execTestLogicReset s
  | .warmResetDelay => Sys2Proof.Machine.execWarmResetDelay s
  | .groupPowered group => Sys2Proof.Machine.execGroupPowered group s
  | .blockWake block => Sys2Proof.Machine.execBlockWake block s
  | .selfTestDone ok => Sys2Proof.Machine.execSelfTestDone ok s
  | .flashProgramDone => Sys2Proof.Machine.execFlashProgramDone s

end Sys2Proof.Machine
end

