-- ==== Sys2Proof/Machine/Idle.lean ====
section
/-! DEFINITION. What the block does on an empty queue (log entry 1): held Silek commands, the clock, the monitors' time, the sweep. -/
namespace Sys2Proof.Machine
open Sys2Proof

/-- A held command is taken out to start; its INTERIM reply, if sent, is remembered while it does. -/
def State.release (x : HeldCommand) (s : State) : State :=
  { s with dev := { s.dev with silek := { s.dev.silek with held := s.dev.silek.held.erase x, releasing := some x.interim } } }

/-- The held command has started. -/
def State.released (s : State) : State :=
  { s with dev := { s.dev with silek := { s.dev.silek with releasing := none } } }

/-- A mailbox of an instance whose DOORBELL waited and may now be taken. -/
def Dev.ringNext (d : Dev) : Option Nat := (List.range 64).find? (fun mb => d.ringFree mb)

/-- A port whose oldest held doorbell may go on. -/
def Dev.doorbellFree (d : Dev) : Option Nat :=
  (d.edge.held.find? (fun h => isPosted h.cmd && !d.stopped && !d.flag (Mbx.DOORBELL ((d.viOfPort h.port).getD 64)) &&
    !d.edge.jobs.any (fun j => decide (j.port = h.port) && decide (j.kind = 1)))).map (·.port)

/-- One nanosecond: FABRIC_TIME, the fixed counters of the monitors, one line of a sweep under way (R55, R58, R201, R526). In OM0
nothing runs. -/
def State.tick (s : State) : State :=
  if s.dev.mode = 0 then s else
  let u := s.time.tick (decide (s.activeSource ≠ 0))
  let d := s.dev.monTick
  let d := if d.chn.sweeps = [] then d else (d.sweepStep u.now).finishCommand u.now s.dev
  { s with time := u, dev := d }

end Sys2Proof.Machine
end

