-- ==== Sys2Proof/Machine/Step.lean ====
section
/-! DEFINITION. One step: the command at the front of the queue is executed on the state with the rest; on an empty queue the block
does what its clock brings (log entry 1). -/
namespace Sys2Proof.Machine
open Sys2Proof

/-- Start a held Silek command (R422). -/
def State.startHeld (x : HeldCommand) (s : State) : Host.Outcome State Fault Refusal :=
  (fun (o : Host.Outcome State Fault Refusal) =>
    match o with
    | .next t => .next t.released
    | o => o) (exec x.cmd (s.release x))

/-- What happens on an empty queue: a held command that may start does, then a doorbell that waited for its turn; otherwise a nanosecond
passes. -/
def idle (s : State) : Host.Outcome State Fault Refusal :=
  match s.dev.nextHeld with
  | some x => s.startHeld x
  | none =>
    match s.dev.ringNext with
    | some mb => s.submit mb
    | none =>
      match s.dev.doorbellFree with
      | some p => onSettled (fun _ d => d.later (.takeHeld p)) s
      | none => .next s.tick

/-- One step. -/
def step (s : State) : Host.Outcome State Fault Refusal :=
  match s.pending with
  | c :: rest => exec c { s with pending := rest }
  | [] => idle s

/-- The state with the command that a word spells at the front of its queue; no word spells one, so the state itself. -/
def State.withFetchWord (s : State) (nbits w : Nat) : State :=
  match decodeTableWord nbits w with
  | some c => { s with pending := c :: s.pending }
  | none => s

end Sys2Proof.Machine
end

