-- ==== Sys2Proof/Safety.lean ====
section
/-! DEFINITION. What counts as a safe state, and the words the statements are written in: when a Silek command is taken up, what its
answer leaves, and what an effect leaves unchanged. -/
namespace Sys2Proof.Machine
open Sys2Proof

/-! ### Invariants -/

/-- The mailbox memory is in its canonical form. -/
def State.MemOk (s : State) : Prop := Memory.wf s.mem = true

/-- The key guard (R448, R450): a guard that is locked out is locked and has seen eight wrong keys in a row; otherwise fewer. -/
def State.GuardOk (s : State) : Prop :=
  (s.guard.lockedOut = true → s.guard.unlocked = false ∧ s.guard.wrongRun = 8) ∧ (s.guard.lockedOut = false → s.guard.wrongRun < 8)

/-- The invariant every step keeps. -/
def State.Inv (s : State) : Prop := s.MemOk ∧ s.GuardOk

/-! ### The responder -/

/-- The responder takes a command's body up at once: none of the refusals, repetitions and waits of R407 to R426 applies. -/
def State.admits (s : State) (h : SilekHdr) (i : CmdInfo) : Bool :=
  let d := s.dev
  decide (1 < d.mode) && (!h.broadcast || (decide (i.opcode = 0x506) && decide (h.dst = 0))) &&
    decide (d.checkEpoch s.time.now h i.opcode = .accept) && (decide (i.opcode = 0x101) || decide (h.major = 2)) &&
    decide (i.minMinor ≤ if i.opcode = 0x101 then 3 else min h.minor 3) && decide (d.lookupTag s.time.now h i = .none) &&
    (decide (h.dst = 0) || decide (h.dst = d.chainAddr)) && d.sourceMay h i && d.modeAccepts i.opcode (d.fromPrimary h) && h.padOk &&
    decide (d.silek.running.length < 64) && !d.mailboxFull h.requester &&
    (d.silek.releasing.isSome || (!(h.ordered && decide (d.runningOf h.requester ≠ [])) &&
      !d.silek.held.any (fun x => decide (x.req = h.requester))))

/-- The operating minor version of a command (R412). -/
def CmdInfo.minorOf (i : CmdInfo) (h : SilekHdr) : Nat := if i.opcode = 0x101 then 3 else min h.minor 3

/-- The state a command's body starts from: the management monitor has counted the command (R525). -/
def State.begun (s : State) : State := { s with dev := s.dev.mon s.time.now 0x39 0x901 0xffff 0 }

/-- The state after a command that ends at once has sent its final reply. -/
def State.answered (s : State) (h : SilekHdr) (i : CmdInfo) (st : Status) (payload : List Byte) : State :=
  s.finalReply h i (i.minorOf h) st payload

/-- The state after a command that goes on: it runs with its work, and its final reply comes later (R422). -/
def State.runs (s : State) (h : SilekHdr) (i : CmdInfo) (w : Work) : State :=
  { s with dev := { s.dev with silek := { s.dev.silek with running := s.dev.silek.running ++ [{
    req := h.requester, tag := h.tag, minor := i.minorOf h, opcode := i.opcode, cmd := i.key, src := h.src, work := w
    interim := s.dev.silek.releasing = some true }] } } }

/-- A command as the responder knows it: opcode and the minor version that added it (R411). -/
def CmdInfo.of (opcode minMinor : Nat) (key : Instr) : CmdInfo := { opcode, minMinor, key }

/-- What ends a command that acted from state x: the work it handed on is done, fabric state is mirrored (R383), and mailboxes
take the replies that are ready (R417). -/
def State.settledFrom (x s : State) : State := ({ s with dev := s.dev.finishCommand s.time.now x.dev }).takeMail

/-- The state with another device. -/
def State.withDev (s : State) (d : Dev) : State := { s with dev := d }

/-- Above OM1 and outside the release of held commands, nothing sent or kept bears the next inner tag of the FM API. -/
def State.fmFresh (s : State) : Bool :=
  decide (1 < s.dev.mode) && s.dev.silek.releasing.isNone && s.dev.out.all (fun o => (o.replyTo s.fmTag).isNone) &&
    s.dev.silek.cache.all (fun c => decide (c.tag ≠ s.fmTag))

/-- No command of the requester with the tag runs, is held, or has its reply in the cache (R421). -/
def Dev.tagFree (d : Dev) (h : SilekHdr) : Bool :=
  d.silek.running.all (fun x => !(decide (x.req = h.requester) && decide (x.tag = h.tag))) &&
    d.silek.held.all (fun x => !(decide (x.req = h.requester) && decide (x.tag = h.tag))) &&
    d.silek.cache.all (fun x => !(decide (x.req = h.requester) && decide (x.tag = h.tag)))

/-- The state once a message has gone out and the reply cache holds something else. -/
def State.sending (s : State) (o : Out) (cache : List CachedReply) : State :=
  s.withDev { s.dev with out := s.dev.out ++ [o], silek := { s.dev.silek with cache } }

/-- The state once a Silek command was refused: the error reply goes out and is kept (R408, R421). -/
def State.refuses (s : State) (h : SilekHdr) (c : Instr) (st : Status) : State :=
  s.sending (.reply h.requester c.opcode h.tag (min h.minor 3) 1 st []) (cacheInsert s.dev.silek.cache {
    req := h.requester, tag := h.tag, cmd := c.keyed, opcode := c.opcode, minor := min h.minor 3, src := h.src, status := st
    payload := [], time := s.time.now })

/-- A message's fields fit the header of R118. -/
def QflMsg.fits (m : QflMsg) : Bool :=
  decide (m.vc < 8) && decide (m.len < 16) && decide (m.opcode < 256) && decide (m.src < 32) && decide (m.dst < 32) &&
    decide (m.hops < 8) && decide (m.master < 65536) && decide (m.tag < 65536) && decide (m.epoch < 2 ^ 32) && decide (m.e2e < 2 ^ 32)

/-- A message as the link carries it: its FILTERED bit is written out, and the time at which it entered the device does not travel. -/
def QflMsg.carried (m : QflMsg) : QflMsg := { m with bit7 := some m.filtered, born := 0 }

/-! ### Frames -/

/-- The host ports of an instance hold out all the credits its queue allows, or it returns none. -/
def Dev.creditsOut (vi : Nat) (d : Dev) : Bool :=
  (d.limitPending vi || !d.edge.limitPending.contains vi) &&
    (decide (d.rd (Vi.STATE vi) ≠ 1) || d.stopped || (d.creditShares vi).all (fun x => decide (x.2 ≤ Tab.getD d.edge.credits x.1 0)))

/-- No host port is owed a credit, and none whose link is down holds one out. -/
def Dev.creditsSettled (d : Dev) : Bool := d.edge.credits.all (fun x => d.linkUp x.1) && d.inst.all (fun x => d.creditsOut x.1)

/-- No work waits inside the device, no mirror is fed, no mailbox waits for a reply and no host port is owed a credit: a command's
effect ends with its own. -/
def Dev.calm (d : Dev) : Bool :=
  decide (d.work = []) && !d.hasMirror && decide (d.silek.mail = []) && d.creditsSettled

/-- Register fields outside a list of keys keep their values. -/
def Dev.sameRegs (d e : Dev) (keys : List Nat) : Prop := ∀ f : Field, f.key ∉ keys → e.rd f = d.rd f

/-- Only register fields of the device change, and only those of a list of keys. -/
def Dev.changesOnly (d e : Dev) (keys : List Nat) : Prop := e = { d with regs := e.regs } ∧ d.sameRegs e keys

/-- Only the named register fields change, and the device sends something. -/
def Dev.changesAndSends (d e : Dev) (keys : List Nat) (sent : List Out) : Prop :=
  e = { d with regs := e.regs, out := d.out ++ sent } ∧ d.sameRegs e keys

end Sys2Proof.Machine
end

