-- ==== Sys2Proof/Certificates/Slice0/Obligations.lean ====
section
/-! DEFINITION. The statements for the provers: what each command does, what the machine keeps, and how a step runs. -/
open Sys2Proof Sys2Proof.Machine

/-- The commands of group 0x01xx and the event queue -/
def Obligations.GeneralCommands : Prop :=
  (∀ (h : SilekHdr) (s : State) (d : Dev) (i : CmdInfo), d = s.begun.dev → i = .of 0x101 0 (.silekVersion h.key) → s.admits h i =
      true → exec (.silekVersion h) s = .next (s.begun.answered h i .ok [1, 2, 3])) ∧
  (∀ (h : SilekHdr) (s : State) (d : Dev) (i : CmdInfo), d = s.begun.dev → i = .of 0x102 0 (.deviceInfo h.key) → s.admits h i =
      true → exec (.deviceInfo h) s = .next (s.begun.answered h i .ok s.begun.dev.deviceInfo)) ∧
  (∀ (h : SilekHdr) (first count : Nat) (s : State) (d : Dev) (i : CmdInfo), d = s.begun.dev → i = .of 0x103 0 (.portStatusQuery
      h.key first count) → s.admits h i = true → 1 ≤ count → count ≤ 64 → first + count ≤ 64 → exec (.portStatusQuery h first count)
      s = .next (s.begun.answered h i .ok (((List.range count).map (fun k => leBytes 4 (s.begun.portStatus (first + k)))).flatten))) ∧
  (∀ (h : SilekHdr) (group : Nat) (s : State) (d : Dev) (i : CmdInfo), d = s.begun.dev → i = .of 0x104 0 (.commandSupport h.key
      group) → s.admits h i = true → 1 ≤ group → group ≤ 10 → exec (.commandSupport h group) s = .next (s.begun.answered h i .ok
      (leBytes 32 (supportMap group (min h.minor 3))))) ∧
  (∀ (h : SilekHdr) (first count ack : Nat) (s : State) (d : Dev) (i : CmdInfo), d = s.begun.dev → i = .of 0x105 0 (.eventRead
      h.key first count ack) → s.admits h i = true → count ≤ 64 → ack = 0 → exec (.eventRead h first count ack) s = .next
      ((s.withDev (d.syncEventPending s.time.now)).answered h i .ok (leBytes 2 ((d.events.queue.dropWhile (fun r => r.seq <
      first)).take count).length ++ zeros 2 ++ (((d.events.queue.dropWhile (fun r => r.seq < first)).take count).map
      EventRec.bytes).flatten))) ∧
  (∀ (h : SilekHdr) (cls eid : Nat) (s : State) (d : Dev) (i : CmdInfo), d = s.begun.dev → i = .of 0x106 1 (.eventSubscribe h.key
      cls eid) → s.admits h i = true → d.mode ≠ 6 → d.mode ≠ 7 → cls ≤ 2 → exec (.eventSubscribe h cls eid) s = .next ((s.withDev
      ({ d with events := { d.events with cls := cls, eid := eid, notified := [] }, silek := { d.silek with sent := d.silek.sent.filter (fun c => c.opcode ≠ 0x107) } }.syncEventPending
      s.time.now)).answered h i .ok [])) ∧
  (∀ (h : SilekHdr) (count : Nat) (records : List (BitVec 256)) (s : State) (d : Dev) (i : CmdInfo), d = s.begun.dev → i = .of
      0x107 1 (.eventNotify h.key count records) → s.admits h i = true → 1 ≤ count → count ≤ 16 → records.length = count → exec
      (.eventNotify h count records) s = .next ((s.withDev (records.foldl (fun (d : Dev) r => if (EventRec.ofBits r).code = 3 then
      (d.queueEvent s.time.now (EventRec.ofBits r)).noticeRelease s.time.now (EventRec.ofBits r).source (EventRec.ofBits r).data
      else d.queueEvent s.time.now (EventRec.ofBits r)) d)).answered h i .ok [])) ∧
  (∀ (s : State) (d : Dev), d = s.dev → 2 ≤ d.mode → d.mode ≠ 6 → d.mode ≠ 7 → d.events.cls = 1 → d.events.queue ≠ [] → exec
      (.eventNotifyPeriod) s = .next (s.withDev
      ({ d with events := { d.events with notified := d.events.queue.take 16 }, silek := { d.silek with sent := d.silek.sent.filter (fun c => c.opcode ≠ 0x107) } }.sendCommand
      s.time.now (256 + d.events.eid) 0x107 0 (leBytes 2 (d.events.queue.take 16).length ++ ((d.events.queue.take 16).map
      EventRec.bytes).flatten))))

/-- Capacity, extent and window commands -/
def Obligations.CapacityAndWindows : Prop :=
  (∀ (h : SilekHdr) (port ld unit count first : Nat) (s : State) (d : Dev) (i : CmdInfo), d = s.begun.dev → i = .of 0x201 0
      (.capacityAdd h.key port ld unit count first) → s.admits h i = true → d.pairForeign = false → d.isDevicePort port = true →
      d.linkUp port = true → 0 < count → ld < (d.port port).capacity.length → unit + count ≤ (d.port port).capacity.getD ld 0 →
      (List.range count).any (fun k => d.registered port ld (unit + k)) = false → first + count ≤ 262144 → d.extents.any (fun x =>
      decide (x.2.state ≠ 0 ∧ first ≤ x.1 ∧ x.1 < first + count)) = false → exec (.capacityAdd h port ld unit count first) s = .next
      (s.settledFrom ((s.withDev (Dev.register port ld count unit first d)).answered h i .ok []))) ∧
  (∀ (h : SilekHdr) (first count : Nat) (s : State) (d : Dev) (i : CmdInfo), d = s.begun.dev → i = .of 0x202 0 (.capacityRemove
      h.key first count) → s.admits h i = true → 0 < count → first + count ≤ 262144 → (d.extents.filter (fun x => decide (first ≤
      x.1 ∧ x.1 < first + count))).any (fun x => decide (x.2.migrating = true ∨ x.2.state = 7 ∨ 0 < x.2.bindCount)) = false → exec
      (.capacityRemove h first count) s = .next (s.settledFrom ((s.withDev
      ({ d with extents := d.extents.filter (fun x => decide ¬ (first ≤ x.1 ∧ x.1 < first + count)) })).answered h i .ok []))) ∧
  (∀ (h : SilekHdr) (port : Nat) (s : State) (d : Dev) (i : CmdInfo), d = s.begun.dev → i = .of 0x203 0 (.deviceCapacityQuery
      h.key port) → s.admits h i = true → d.isDevicePort port = true → d.linkUp port = true → exec (.deviceCapacityQuery h port) s =
      .next (s.begun.answered h i .ok (leBytes 4 (d.port port).capacity.length ++ ((d.port port).capacity.zipIdx.map (fun x =>
      leBytes 1 x.2 ++ leBytes 1 (flagBit (d.port port).poisonCapable) ++ leBytes 2 0 ++ leBytes 4 x.1)).flatten))) ∧
  (∀ (h : SilekHdr) (w vi region kind base count : Nat) (enable : Bool) (s : State) (d : Dev) (i : CmdInfo), d = s.begun.dev → i =
      .of 0x210 0 (.windowConfig h.key w vi region kind base count enable) → s.admits h i = true → w ≤ 255 → vi ≤ 63 → region ≤ 7 →
      kind ≤ 2 → enable = false → d.memberOf w = none → d.heldSlots (d.win w) = [] → exec (.windowConfig h w vi region kind base
      count enable) s = .next (s.settledFrom ((s.withDev (d.setWin w {})).answered h i .ok []))) ∧
  (∀ (h : SilekHdr) (w vi region kind base count : Nat) (enable : Bool) (s : State) (d : Dev) (i : CmdInfo), d = s.begun.dev → i =
      .of 0x210 0 (.windowConfig h.key w vi region kind base count enable) → s.admits h i = true → w ≤ 255 → vi ≤ 63 → region ≤ 7 →
      kind ≤ 2 → enable = true → d.memberOf w = none → (d.win w).enabled = false → ((d.windowsOf vi).filter (fun x => decide (x.1 ≠
      w))).length < 8 → ((d.windowsOf vi).filter (fun x => decide (x.1 ≠ w))).any (fun x => decide (x.2.region = region)) = false →
      base + count ≤ 262144 → d.windows.any (fun x => decide (x.1 ≠ w) && x.2.enabled && decide (x.2.slotBase < base + count) &&
      decide (base < x.2.slotBase + x.2.slotCount)) = false → 0 < count → count ≤ 32768 → (kind = 1 → d.hostGen vi ≠ 1 ∧ d.hostGen
      vi ≠ 2) → exec (.windowConfig h w vi region kind base count enable) s = .next (s.settledFrom ((s.withDev (d.setWin w
      { enabled := true, committed := false, vi := vi, region := region, kind := kind, slotBase := base, slotCount := count, hpaUnit := 0, size := 0 })).answered
      h i .ok []))) ∧
  (∀ (h : SilekHdr) (first count : Nat) (s : State) (d : Dev) (i : CmdInfo), d = s.begun.dev → i = .of 0x211 3 (.windowQuery h.key
      first count) → s.admits h i = true → 1 ≤ count → count ≤ 64 → first + count ≤ 256 → exec (.windowQuery h first count) s =
      .next (s.begun.answered h i .ok (((List.range count).map (fun k => leBytes 16 (d.win (first + k)).bits)).flatten))) ∧
  (∀ (h : SilekHdr) (first count : Nat) (s : State) (d : Dev) (i : CmdInfo), d = s.begun.dev → i = .of 0x240 0 (.extentQuery h.key
      first count) → s.admits h i = true → 1 ≤ count → count ≤ 384 → first + count ≤ 262144 → exec (.extentQuery h first count) s =
      .next (s.begun.answered h i .ok (((List.range count).map (fun k => leBytes 8 (d.ext (first + k)).bits)).flatten))) ∧
  (∀ (h : SilekHdr) (first count : Nat) (s : State) (d : Dev) (i : CmdInfo), d = s.begun.dev → i =
      { CmdInfo.of 0x241 0 (.slotQuery h.key first count) with hostMay := fun d v => d.slotsOwn v first count } → s.admits h i =
      true → 1 ≤ count → count ≤ 768 → first + count ≤ 262144 → exec (.slotQuery h first count) s = .next (s.begun.answered h i .ok
      (((List.range count).map (fun k => leBytes 4 (d.slot (first + k)).bits)).flatten))) ∧
  (∀ (port : Fin 64) (w : Fin 256) (base size ways dpa : Nat) (commit : Bool) (s : State) (d : Dev), d = s.dev → d.linkUp port =
      true → (d.win w).enabled = true → d.viOfPort port = some (d.win w).vi → commit = true → base % 2 ^ 28 = 0 → size % 2 ^ 28 = 0
      → size ≤ (d.win w).slotCount * 2 ^ 28 → ways = 1 → dpa = (d.win w).region * 2 ^ 43 → exec (.hdmDecoderCommit port w base size
      ways dpa commit) s = .next (s.settledFrom (s.withDev ((d.setWin w
      { d.win w with committed := true, hpaUnit := base / 2 ^ 28 % 2 ^ 24, size := size / 2 ^ 28 }).emit (.host port (.decoderCommit
      w true))))))

/-- Binding, unbinding, migrating and zeroing commands start their work -/
def Obligations.BindAndMigrate : Prop :=
  (∀ (h : SilekHdr) (w off n kind : Nat) (list : List Nat) (s : State) (d : Dev) (i : CmdInfo) (l : List Nat) (f : Dev) (g : Dev),
      d = s.begun.dev → i = .of 0x220 0 (.extentBind h.key w off n kind list) → s.admits h i = true → l = (List.range n).map (fun k
      => (d.win w).slotBase + off + k) → f = list.foldl (fun (e : Dev) y => e.takeExtent kind d.chainAddr (d.win w).vi y) d → g =
      (l.zip list).foldl (fun (e : Dev) y => e.setSlot y.1 { pending := true, chain := fxChain y.2, extent := fxExtent y.2 })
      { f with binder := { f.binder with nextId := f.binder.nextId + 1 } } → w ≤ 255 → 1 ≤ n → n ≤ 64 → list.length = n → list.any
      (fun y => decide (2 ^ 23 ≤ y)) = false → d.memberOf w = none → (d.win w).enabled = true → (d.win w).kind + 1 = kind → off + n
      ≤ (d.win w).slotCount → kind ≠ 2 → d.hostGen (d.win w).vi = 3 → d.rd (Vi.STATE (d.win w).vi) < 2 → l.any (fun k => (d.slot
      k).valid || (d.slot k).pending || d.binder.bindings.any (fun b => decide (b.member = 0) && b.slots.contains k)) = false →
      d.bindRefusal kind list = none → d.bindCounts kind list = none → (f.acting = true → f.otherOwners list = []) → f.hostGen
      (f.win w).vi = 3 → d.memb.rejoining = false → exec (.extentBind h w off n kind list) s = .next (s.settledFrom ((s.withDev
      (({ g with binder := { g.binder with bindings := g.binder.bindings.filter (fun y => y.id ≠ f.binder.nextId) ++ [({ id := f.binder.nextId, window := w, slots := l, fresh := list.map (fun y => d.ownExtent y && decide ((d.ext (fxExtent y)).state = 1)), list := list, kind := kind } : Binding)] } }
      : Dev).toDcHost w 0 l)).runs h i (.bind f.binder.nextId)))) ∧
  (∀ (h : SilekHdr) (w off n : Nat) (force zero : Bool) (s : State) (d : Dev) (i : CmdInfo) (l : List Nat), d = s.begun.dev → i =
      .of 0x221 0 (.extentUnbind h.key w off n force zero) → s.admits h i = true → l = (List.range n).map (fun k => (d.win
      w).slotBase + off + k) → w ≤ 255 → 1 ≤ n → n ≤ 64 → d.memberOf w = none → (d.win w).enabled = true → off + n ≤ (d.win
      w).slotCount → force = false → l.any (fun k => decide ¬ ((d.slot k).valid = true)) = false → l.any (fun k => d.ownExtent
      (d.slot k).fx && (d.ext (d.slot k).extent).migrating) = false → l.any (fun k => d.ownExtent (d.slot k).fx && decide ((d.ext
      (d.slot k).extent).state = 6)) = false → d.hostGen (d.win w).vi = 3 → d.rd (Vi.STATE (d.win w).vi) < 2 →
      d.binder.unbindings.any (fun u => decide (u.waiting.any (fun k => l.contains k) = true ∨ (u.member = 0 ∧ u.stage < 2 ∧
      u.slots.any (fun k => l.contains k) = true))) = false → (d.acting = true → (d.otherOwners (l.map (fun k => (d.slot
      k).fx))).filter (fun c => d.alive c) = []) → exec (.extentUnbind h w off n force zero) s = .next (s.settledFrom ((s.withDev
      ((l.foldl (fun (e : Dev) k => e.modOwn (e.slot k).fx (fun e => { e with unbinding := true }))
      ({ d with binder := { d.binder with nextId := d.binder.nextId + 1, unbindings := d.binder.unbindings.filter (fun y => y.id ≠ d.binder.nextId) ++ [({ id := d.binder.nextId, vi := (d.win w).vi, slots := l, waiting := l, zero := zero, list := l.map (fun k => (d.slot k).fx), window := w, force := false, stage := 2 } : Unbinding)] } }
      : Dev)).toDcHost w 1 l)).runs h i (.unbind d.binder.nextId)))) ∧
  (∀ (h : SilekHdr) (src dst q : Nat) (zero : Bool) (s : State) (d : Dev) (i : CmdInfo) (f : Dev), d = s.begun.dev → i = .of 0x230
      2 (.extentMigrate h.key src dst q zero) → s.admits h i = true → f =
      (({ d.wakeChurn with binder := { d.binder with migrations := Tab.set d.binder.migrations 0 { source := src, dest := dst, zero := zero, queue := q } } }
      : Dev).modExt src (fun e => { e with migrating := true, migIndex := 0 })).modExt dst (fun e =>
      { e with migrating := true, migIndex := 0 }) → src < 2 ^ 18 → dst < 2 ^ 18 → 3 ≤ (d.ext src).state → (d.ext src).state ≤ 5 →
      (d.ext src).unbinding = false → (d.ext src).migrating = false → ((d.ext dst).state = 1 ∨ (d.ext dst).state = 2) → (d.ext
      dst).migrating = false → d.linkUp (d.ext dst).port = true → ((d.ext src).port ≠ (d.ext dst).port ∨ (d.ext src).ld ≠ (d.ext
      dst).ld ∨ (d.ext src).dpaUnit ≠ (d.ext dst).dpaUnit) → ((d.ext src).state = 4 → (d.ext dst).poisonCapable = true ∨ d.flag
      ChurnR.TIER2_ACTIVE = true) → Tab.get d.binder.migrations 0 = none → d.queueRefusal q 1 = none → exec (.extentMigrate h src
      dst q zero) s = .next (s.settledFrom ((s.withDev (f.postDesc q
      { opcode := 7, srcSpace := 2, dstSpace := 2, length := 0x10000000, zeroAfter := zero, src := faOf f.homeAddr src 0, dst := faOf f.homeAddr dst 0 }
      2)).runs h i (.migrate src)))) ∧
  (∀ (h : SilekHdr) (src : Nat) (index : Nat) (m : Migration) (s : State) (d : Dev) (i : CmdInfo), d = s.begun.dev → i = .of 0x231
      2 (.extentMigrateAbort h.key src) → s.admits h i = true → d.ownerOf src = none → d.binder.migrations.find? (fun x => decide
      (x.2.source = fxExtent src)) = some (index, m) → m.phase = 1 → exec (.extentMigrateAbort h src) s = .next (s.settledFrom
      ((s.withDev (d.abandon s.time.now index 2 .aborted)).answered h i .ok []))) ∧
  (∀ (h : SilekHdr) (e q : Nat) (s : State) (d : Dev) (i : CmdInfo), d = s.begun.dev → i = .of 0x232 0 (.extentZero h.key e q) →
      s.admits h i = true → d.ownerOf e = none → (d.ext (fxExtent e)).state = 2 → d.queueRefusal q 0 = none → exec (.extentZero h e
      q) s = .next (s.settledFrom ((s.withDev ((d.modExt (fxExtent e) (fun x => { x with state := 7 })).postDesc q (d.zeroDesc
      (fxExtent e)) 1)).runs h i (.zero (fxExtent e)))))

/-- Configuring, quiescing, resuming and resetting virtual instances -/
def Obligations.InstanceCommands : Prop :=
  (∀ (h : SilekHdr) (vi a b : Nat) (t2 : List Nat) (msix queues : Nat) (enable : Bool) (base : Nat) (s : State) (d : Dev) (i :
      CmdInfo) (x : Inst) (f : Dev), d = s.begun.dev → i = .of 0x301 0 (.instanceConfig h.key vi a b t2 msix queues enable) →
      s.admits h i = true → x =
      { d.instOf vi with msixBase := base, next := some { portA := some a, portB := none, type2 := [], msix := msix }, trackerMin := 0, trackerMax := 480, accessWeight := 16, ladleWeight := 16, enabledBefore := true }
      → f = (d.setInst vi x).wr (Vi.QUEUE_ALLOC vi) queues → vi ≤ 63 → enable = true → d.viState vi = 0 → 1 ≤ msix → msix ≤ 2048 →
      queues ≤ 1024 → t2 = [255, 255, 255, 255, 255, 255, 255] → d.hostPortOk vi (some a) = true → b = 255 → d.pairsOf vi ≤ queues →
      (d.cfgOf vi).msix ≠ msix → lowestRun (d.runsOf ((List.range 64).filter (fun v => decide (v ≠ vi)))) msix = some base →
      (((List.range 64).filter (fun v => decide (v ≠ vi))).map (fun v => d.rd (Vi.QUEUE_ALLOC v))).foldl (· + ·) 0 + queues +
      d.fmPairs ≤ 8192 → (((List.range 64).filter (fun v => decide (v ≠ vi))).map (fun v => (d.cfgOf v).type2.length)).foldl (· + ·)
      0 ≤ 32 → 256 ≤ d.queueFree → (d.instOf vi).enabledBefore = false → exec (.instanceConfig h vi a b t2 msix queues enable) s =
      .next (s.settledFrom ((s.withDev (((((f.setInst vi { x with portA := some a, portB := none, type2 := [], next := none }).wr
      (Vi.MSIX_COUNT vi) msix).wrFlag (Vi.DUAL_PORT vi) false).wr (Vi.STATE vi) 1).wr (Vi.REQ_QUEUE_LIMIT vi) 256)).answered h i .ok
      []))) ∧
  (∀ (h : SilekHdr) (vi a b : Nat) (t2 : List Nat) (msix queues : Nat) (enable : Bool) (s : State) (d : Dev) (i : CmdInfo), d =
      s.begun.dev → i = .of 0x301 0 (.instanceConfig h.key vi a b t2 msix queues enable) → s.admits h i = true → vi ≤ 63 → enable =
      false → d.viState vi = 3 → d.windowsOf vi = [] → d.pairsOf vi = 0 → exec (.instanceConfig h vi a b t2 msix queues enable) s =
      .next (s.settledFrom ((s.withDev (d.unconfigure vi)).answered h i .ok []))) ∧
  (∀ (h : SilekHdr) (vi : Nat) (s : State) (d : Dev) (i : CmdInfo), d = s.begun.dev → i =
      { CmdInfo.of 0x302 0 (.instanceQuery h.key vi) with hostMay := fun _ v => decide (v = vi) } → s.admits h i = true → vi ≤ 63 →
      exec (.instanceQuery h vi) s = .next (s.begun.answered h i .ok (((List.range 4).map (fun w => leBytes 8 (d.instWord vi
      w))).flatten))) ∧
  (∀ (h : SilekHdr) (vi : Nat) (force : Bool) (timeout : Nat) (s : State) (d : Dev) (i : CmdInfo), d = s.begun.dev → i = .of 0x310
      0 (.instanceQuiesce h.key vi force timeout) → s.admits h i = true → vi ≤ 63 → timeout ≤ 65535 → d.viState vi = 1 → force =
      false → exec (.instanceQuiesce h vi force timeout) s = .next (s.settledFrom ((s.withDev ((d.setInst vi
      { d.instOf vi with timed := decide (timeout ≠ 0), managed := true, resetKind := 0 }).beginQuiesce vi)).runs h i (.quiesce
      vi)))) ∧
  (∀ (h : SilekHdr) (vi : Nat) (force : Bool) (timeout : Nat) (s : State) (d : Dev) (i : CmdInfo), d = s.begun.dev → i = .of 0x310
      0 (.instanceQuiesce h.key vi force timeout) → s.admits h i = true → vi ≤ 63 → timeout ≤ 65535 → d.viState vi = 1 → force =
      true → exec (.instanceQuiesce h vi force timeout) s = .next (s.settledFrom ((s.withDev (((d.setInst vi
      { d.instOf vi with timed := decide (timeout ≠ 0), managed := true, resetKind := 0 }).beginQuiesce vi).forceQuiesce s.time.now
      vi)).runs h i (.quiesce vi)))) ∧
  (∀ (h : SilekHdr) (vi : Nat) (s : State) (d : Dev) (i : CmdInfo) (f : Dev) (g : Dev), d = s.begun.dev → i = .of 0x311 0
      (.instanceResume h.key vi) → s.admits h i = true → f = d.finish s.time.now (fun w => decide (w = .quiesce vi)) .aborted [] → g
      =
      ((({ f with buf := { f.buf with barriers := f.buf.barriers.filter (fun (x : Barrier) => decide ¬ (x.scope = 4 ∧ x.id = vi)) } }
      : Dev).setInst vi { d.instOf vi with managed := false }).wr (Vi.STATE vi) 1) → vi ≤ 63 → d.viState vi = 3 → exec
      (.instanceResume h vi) s = .next (s.settledFrom ((s.withDev (((d.instOf vi).portA.toList ++ (d.instOf vi).portB.toList).foldl
      (fun (d : Dev) p => d.later (.takeHeld p)) ((((g.ladles.pairs.filter (fun (x : Nat × Pair) => x.2.state = 3 ∧ ¬ x.2.fm ∧
      x.2.inst = vi ∧ x.2.heldError ≠ 0)).foldl (fun (d : Dev) (x : Nat × Pair) => (d.setPair x.1
      { d.pair x.1 with heldError := 0 }).later (.pairError x.1 x.2.heldError))
      { g with ladles := { g.ladles with pairs := g.ladles.pairs.map (fun (x : Nat × Pair) => if x.2.state = 3 ∧ ¬ x.2.fm ∧ x.2.inst = vi then (x.1, { x.2 with state := 2 }) else x) } }
      : Dev)).later .recheck))).answered h i .ok []))) ∧
  (∀ (h : SilekHdr) (vi : Nat) (s : State) (d : Dev) (i : CmdInfo), d = s.begun.dev → i = .of 0x312 0 (.instanceReset h.key vi) →
      s.admits h i = true → vi ≤ 63 → d.viState vi = 3 → exec (.instanceReset h vi) s = .next (s.settledFrom ((s.withDev
      (d.startReset s.time.now vi 1)).runs h i (.instanceReset vi)))) ∧
  (∀ (h : SilekHdr) (vi mask limit tmin tmax aw lw : Nat) (s : State) (d : Dev) (i : CmdInfo), d = s.begun.dev → i = .of 0x320 2
      (.qosSet h.key vi mask limit tmin tmax aw lw) → s.admits h i = true → vi ≤ 63 → mask = 8 → aw ≤ 255 → (d.instOf vi).trackerMin
      ≤ (d.instOf vi).trackerMax → (d.setInst vi { d.instOf vi with accessWeight := aw }).minSum ≤ 480 → d.chn.stalled = [] → exec
      (.qosSet h vi mask limit tmin tmax aw lw) s = .next (s.settledFrom ((s.withDev
      ({ d.setInst vi { d.instOf vi with accessWeight := aw } with chn := { d.chn with stalled := [] } })).answered h i .ok []))) ∧
  (∀ (h : SilekHdr) (vi : Nat) (s : State) (d : Dev) (i : CmdInfo), d = s.begun.dev → i =
      { CmdInfo.of 0x321 2 (.qosQuery h.key vi) with hostMay := fun _ v => decide (v = vi) } → s.admits h i = true → vi ≤ 63 → exec
      (.qosQuery h vi) s = .next (s.begun.answered h i .ok (d.qosReport vi)))

/-- Resets, quiesce steps and interrupts of virtual instances -/
def Obligations.InstanceEvents : Prop :=
  (∀ (vi : Fin 64) (b : Barrier) (s : State) (d : Dev) (f : Dev), d = s.dev → f =
      { d with buf := { d.buf with barriers := d.buf.barriers.filter (fun (x : Barrier) => decide ¬ (x.scope = 4 ∧ x.id = vi)) } } →
      d.viState vi = 2 → d.quiesceReady vi = true → d.quiesceBarrier vi = some b → (d.instOf vi).resetKind = 0 → exec
      (.quiesceComplete vi) s = .next (s.settledFrom (s.withDev (((f.flushVectors s.time.now vi).wr (Vi.STATE vi) 3).finish
      s.time.now (fun w => decide (w = .quiesce vi)) .ok (leBytes 4 b.covered ++ leBytes 4 b.discarded ++ leBytes 1 (flagBit
      (d.instOf vi).forced)))))) ∧
  (∀ (vi : Fin 64) (s : State) (d : Dev), d = s.dev → (d.instOf vi).timed = false → exec (.quiesceTimeout vi) s = .next (s.withDev
      d)) ∧
  (∀ (vi : Fin 64) (s : State) (d : Dev), d = s.dev → (d.instOf vi).timed = true → exec (.quiesceTimeout vi) s = .next (s.withDev
      (d.finish s.time.now (fun w => decide (w = .quiesce vi)) .timeout []))) ∧
  (∀ (vi : Fin 64) (s : State) (d : Dev), d = s.dev → d.viState vi = 3 → exec (.functionLevelReset vi) s = .next (s.settledFrom
      (s.withDev ((d.setInst vi { d.instOf vi with managed := true, forced := false, aborted := [] }).startReset s.time.now vi 2)))) ∧
  (∀ (vi : Fin 64) (upstream : Bool) (s : State) (d : Dev), d = s.dev → d.viState vi = 3 → upstream = true → exec
      (.secondaryBusReset vi upstream) s = .next (s.settledFrom (s.withDev (((d.setInst vi
      { d.instOf vi with managed := true, forced := false, aborted := [] }).startReset s.time.now vi 2).resetType2 vi)))) ∧
  (∀ (vi : Fin 64) (vport : Fin 8) (p : Nat) (s : State) (d : Dev), d = s.dev → Tab.get (d.instOf vi).type2 vport = some p →
      d.linkUp p = true → exec (.downstreamSecondaryBusReset vi vport) s = .next (s.withDev (d.emit (.device p
      .functionLevelReset)))) ∧
  (∀ (vi : Fin 65) (vector : Fin 2048) (s : State) (d : Dev), d = s.dev → exec (.vectorUnmask vi vector) s = .next (s.withDev
      (({ d with irq := { d.irq with table := Tab.set d.irq.table (vecKey vi vector * 4 + 3) (Tab.getD d.irq.table (vecKey vi vector * 4 + 3) 1 / 2 * 2) } }
      : Dev).sendUnmasked s.time.now vi))) ∧
  (∀ (vi : Fin 64) (vector : Fin 2048) (s : State) (d : Dev), d = s.dev → d.irq.timers.contains (vecKey vi vector) = true → exec
      (.moderationTimer vi vector) s = .next (s.withDev (d.sendVector s.time.now vi vector))) ∧
  (∀ (vi : Fin 64) (x : Nat × List Nat × List Nat × Bool) (s : State) (d : Dev), d = s.dev → d.binder.hotPlug.filter (fun h =>
      decide (h.1 = (vi : Nat))) = [x] → exec (.virtualHotAdd vi) s = .next (s.settledFrom (s.withDev
      ((({ d with binder := { d.binder with hotPlug := d.binder.hotPlug.filter (fun h => decide (h.1 ≠ (vi : Nat))) } } :
      Dev).applySlots s.time.now x).toHost vi (.slotPresence vi 0 true))))) ∧
  (∀ (vi : Fin 64) (s : State) (d : Dev) (f : Dev) (g : Dev) (k : Dev), d = s.dev → f = d.clearRegs (0x4000000 + 0x100000 * (vi :
      Nat) + 0x1000) (0x4000000 + 0x100000 * (vi : Nat) + 0x2000) → g =
      { f with silek := { f.silek with mail := f.silek.mail.filter (fun x => decide (x.1 ≠ (vi : Nat))) } } → k = ((((g.raise1
      (Vi.RESET_EVT vi)).wr (Vi.LAST_RESET vi) 1).inc InstR.INSTANCE_RESETS).setInst vi
      { d.instOf vi with resetKind := 0, managed := false, aborted := [] }).wr (Vi.STATE vi) 1 → d.viState vi = 4 → d.mailboxRuns vi
      = false → d.binder.unbindings = [] → d.quiesceReady vi = true → (d.instOf vi).resetKind = 1 → (d.instOf vi).portA = none →
      (d.instOf vi).portB = none → exec (.resetComplete vi) s = .next (s.settledFrom (s.withDev ((((k.irqEvent s.time.now vi 0
      true).post s.time.now 7 ((vi : Nat) + 2 ^ 8 * 1 + 2 ^ 16 * flagBit (d.instOf vi).forced + 2 ^ 32 * (d.instOf
      vi).aborted.length)).leaveReset s.time.now vi).finish s.time.now (fun w => decide (w = .instanceReset vi)) .ok []))))

/-- Assigning, setting up, disabling and resetting queue pairs, and submitting to one -/
def Obligations.QueueCommands : Prop :=
  (∀ (h : SilekHdr) (q owner index ladle : Nat) (s : State) (d : Dev) (i : CmdInfo) (mine : List (Nat × Pair)), d = s.begun.dev →
      i = .of 0x340 0 (.queueAssign h.key q owner index ladle) → s.admits h i = true → mine = (d.ladles.pairs.filter (fun y =>
      decide (y.1 ≠ q ∧ y.2.state ≠ 0))).filter (fun y => decide (¬ y.2.fm ∧ y.2.inst = owner)) → q ≤ 8191 → owner ≤ 63 → index ≤
      1023 → ladle ≤ 31 → (d.pair q).state < 2 → (d.pair q).disabling = false → mine.any (fun y => decide (y.2.localIndex = index))
      = false → mine.length < d.rd (Vi.QUEUE_ALLOC owner) → exec (.queueAssign h q owner index ladle) s = .next (s.settledFrom
      ((s.withDev (d.setPair q { state := 1, inst := owner, localIndex := index, ladle := ladle })).answered h i .ok []))) ∧
  (∀ (h : SilekHdr) (pair log2 sq cq vector : Nat) (enable : Bool) (q : Nat) (s : State) (d : Dev) (i : CmdInfo), d = s.begun.dev
      → i = { CmdInfo.of 0x341 0 (.queueSetup h.key pair log2 sq cq vector enable) with hostMay := fun _ _ => true } → s.admits h i
      = true → d.namedPair h.requester pair = some q → sq % 4096 = 0 → cq % 4096 = 0 → 4 ≤ log2 → log2 ≤ 12 → vector < d.rd
      (Vi.MSIX_COUNT (d.pair q).inst) → (d.pair q).state = 1 → (d.pair q).disabling = false → enable = true → exec (.queueSetup h
      pair log2 sq cq vector enable) s = .next (s.settledFrom ((s.withDev (d.setPair q
      { d.pair q with log2Size := log2, sqBase := sq, cqBase := cq, vector := vector, errorCause := 0, state := 2, sqHead := 0, sqTail := 0, cqHead := 0, cqTail := 0, cqUsed := 0, phase := true, doorbells := [], fetched := [], ready := [], fetching := none, lostWrite := false, granted := false, heldError := 0 })).answered
      h i .ok []))) ∧
  (∀ (h : SilekHdr) (pair : Nat) (q : Nat) (s : State) (d : Dev) (i : CmdInfo), d = s.begun.dev → i =
      { CmdInfo.of 0x342 0 (.queueDisable h.key pair) with hostMay := fun _ _ => true } → s.admits h i = true → d.namedPair
      h.requester pair = some q → (d.pair q).state = 1 → exec (.queueDisable h pair) s = .next (s.settledFrom ((s.withDev
      d).answered h i .ok []))) ∧
  (∀ (h : SilekHdr) (pair : Nat) (q : Nat) (s : State) (d : Dev) (i : CmdInfo) (f : Dev), d = s.begun.dev → i =
      { CmdInfo.of 0x342 0 (.queueDisable h.key pair) with hostMay := fun _ _ => true } → s.admits h i = true → f = d.setPair q
      { d.pair q with disabling := true, doorbells := [] } → d.namedPair h.requester pair = some q → (d.pair q).state = 2 → (d.pair
      q).disabling = false → ((f.pairIdle s.time.now q).pair q).disabling = false → exec (.queueDisable h pair) s = .next
      (s.settledFrom ((s.withDev (f.pairIdle s.time.now q)).answered h i .ok []))) ∧
  (∀ (h : SilekHdr) (pair : Nat) (q : Nat) (s : State) (d : Dev) (i : CmdInfo) (f : Dev), d = s.begun.dev → i =
      { CmdInfo.of 0x343 0 (.queueReset h.key pair) with hostMay := fun _ _ => true } → s.admits h i = true → f = d.setPair q
      { d.pair q with disabling := true, doorbells := [] } → d.namedPair h.requester pair = some q → (d.pair q).state = 4 → (d.pair
      q).disabling = false → ((f.pairIdle s.time.now q).pair q).disabling = true → exec (.queueReset h pair) s = .next
      (s.settledFrom ((s.withDev f).runs h i (.queueDisable q)))) ∧
  (∀ (h : SilekHdr) (pair : Nat) (q : Nat) (s : State) (d : Dev) (i : CmdInfo), d = s.begun.dev → i =
      { CmdInfo.of 0x344 0 (.queueQuery h.key pair) with hostMay := fun _ _ => true } → s.admits h i = true → d.namedPair
      h.requester pair = some q → exec (.queueQuery h pair) s = .next ((s.withDev d).answered h i .ok (leBytes 32 (d.pair q).bits))) ∧
  (∀ (h : SilekHdr) (q : Nat) (ds : List (BitVec 512)) (s : State) (d : Dev) (i : CmdInfo) (f : Dev), d = s.begun.dev → i = .of
      0x345 2 (.ladleSubmit h.key q ds) → s.admits h i = true → f = d.setPair q ((d.pair q).take (ds.map Desc.ofBits) 0) → q ≤ 8191
      → 1 ≤ ds.length → ds.length ≤ 16 → d.fmPair q = true → d.ringUsed q + d.ringKept q + ds.length ≤ 64 → exec (.ladleSubmit h q
      ds) s = .next (s.settledFrom ((s.withDev
      (({ f with silek := { f.silek with nextId := d.silek.nextId + 1 }, ladles := { f.ladles with submits := f.ladles.submits ++ [{ id := d.silek.nextId, pair := q, orders := (List.range ds.length).map (· + (d.pair q).nextOrder) }] } }
      : Dev).later .recheck)).runs h i (.fan d.silek.nextId))))

/-- The head descriptor of a pair starts as its opcode -/
def Obligations.Descriptors : Prop :=
  (∀ (q : Fin 8192) (order purpose : Nat) (y : Desc) (rest : List (Nat × Desc × Nat)) (credit : Tab Int) (g : Dev) (s : State) (d
      : Dev) (f : Dev), d = s.dev → f = (g.setPair q { d.pair q with fetched := rest, granted := false }).mon s.time.now (48 +
      (d.pair q).ladle / 8) 0x301 (d.pair q).master 0 → (((d.pair q).granted = true ∧ g = d) ∨ ((d.pair q).granted = false ∧
      d.ladleTurn (d.pair q).ladle = some ((q : Nat), credit) ∧ g = d.takeTurn q credit)) → d.ladlesRun = true → (d.pair q).fetched
      = (order, y, purpose) :: rest → y.opcode = 1 → d.mayStart q = true → y.fence = false → y.check (d.pair q).fm (decide (purpose
      ≠ 0)) = none → exec (.copyDesc q) s = .next (s.settledFrom (s.withDev
      ((({ f with ladles := { f.ladles with runs := f.ladles.runs ++ [{ id := f.ladles.nextRun, pair := q, ladle := (d.pair q).ladle, desc := y, order := order, crc := Nat.xor (y.opA % 2 ^ 32) 0xffffffff, purpose := purpose }], nextRun := f.ladles.nextRun + 1 } }
      : Dev).issuePieces 33 s.time.now f.ladles.nextRun).later .recheck)))) ∧
  (∀ (q : Fin 8192) (order purpose : Nat) (y : Desc) (rest : List (Nat × Desc × Nat)) (credit : Tab Int) (g : Dev) (s : State) (d
      : Dev) (f : Dev), d = s.dev → f = (g.setPair q { d.pair q with fetched := rest, granted := false }).mon s.time.now (48 +
      (d.pair q).ladle / 8) 0x301 (d.pair q).master 0 → (((d.pair q).granted = true ∧ g = d) ∨ ((d.pair q).granted = false ∧
      d.ladleTurn (d.pair q).ladle = some ((q : Nat), credit) ∧ g = d.takeTurn q credit)) → d.ladlesRun = true → (d.pair q).fetched
      = (order, y, purpose) :: rest → y.opcode = 2 → d.mayStart q = true → y.fence = false → y.check (d.pair q).fm (decide (purpose
      ≠ 0)) = none → exec (.fillDesc q) s = .next (s.settledFrom (s.withDev
      ((({ f with ladles := { f.ladles with runs := f.ladles.runs ++ [{ id := f.ladles.nextRun, pair := q, ladle := (d.pair q).ladle, desc := y, order := order, crc := Nat.xor (y.opA % 2 ^ 32) 0xffffffff, purpose := purpose }], nextRun := f.ladles.nextRun + 1 } }
      : Dev).issuePieces 33 s.time.now f.ladles.nextRun).later .recheck)))) ∧
  (∀ (q : Fin 8192) (order purpose : Nat) (y : Desc) (rest : List (Nat × Desc × Nat)) (credit : Tab Int) (g : Dev) (s : State) (d
      : Dev) (f : Dev), d = s.dev → f = (g.setPair q { d.pair q with fetched := rest, granted := false }).mon s.time.now (48 +
      (d.pair q).ladle / 8) 0x301 (d.pair q).master 0 → (((d.pair q).granted = true ∧ g = d) ∨ ((d.pair q).granted = false ∧
      d.ladleTurn (d.pair q).ladle = some ((q : Nat), credit) ∧ g = d.takeTurn q credit)) → d.ladlesRun = true → (d.pair q).fetched
      = (order, y, purpose) :: rest → y.opcode = 3 → d.mayStart q = true → y.fence = false → y.check (d.pair q).fm (decide (purpose
      ≠ 0)) = none → exec (.compareDesc q) s = .next (s.settledFrom (s.withDev
      ((({ f with ladles := { f.ladles with runs := f.ladles.runs ++ [{ id := f.ladles.nextRun, pair := q, ladle := (d.pair q).ladle, desc := y, order := order, crc := Nat.xor (y.opA % 2 ^ 32) 0xffffffff, purpose := purpose }], nextRun := f.ladles.nextRun + 1 } }
      : Dev).issuePieces 33 s.time.now f.ladles.nextRun).later .recheck)))) ∧
  (∀ (q : Fin 8192) (order purpose : Nat) (y : Desc) (rest : List (Nat × Desc × Nat)) (credit : Tab Int) (g : Dev) (s : State) (d
      : Dev) (f : Dev), d = s.dev → f = (g.setPair q { d.pair q with fetched := rest, granted := false }).mon s.time.now (48 +
      (d.pair q).ladle / 8) 0x301 (d.pair q).master 0 → (((d.pair q).granted = true ∧ g = d) ∨ ((d.pair q).granted = false ∧
      d.ladleTurn (d.pair q).ladle = some ((q : Nat), credit) ∧ g = d.takeTurn q credit)) → d.ladlesRun = true → (d.pair q).fetched
      = (order, y, purpose) :: rest → y.opcode = 4 → d.mayStart q = true → y.fence = false → y.check (d.pair q).fm (decide (purpose
      ≠ 0)) = none → exec (.crc32cDesc q) s = .next (s.settledFrom (s.withDev
      ((({ f with ladles := { f.ladles with runs := f.ladles.runs ++ [{ id := f.ladles.nextRun, pair := q, ladle := (d.pair q).ladle, desc := y, order := order, crc := Nat.xor (y.opA % 2 ^ 32) 0xffffffff, purpose := purpose }], nextRun := f.ladles.nextRun + 1 } }
      : Dev).issuePieces 33 s.time.now f.ladles.nextRun).later .recheck)))) ∧
  (∀ (q : Fin 8192) (order purpose : Nat) (y : Desc) (rest : List (Nat × Desc × Nat)) (credit : Tab Int) (g : Dev) (s : State) (d
      : Dev) (f : Dev), d = s.dev → f = (g.setPair q { d.pair q with fetched := rest, granted := false }).mon s.time.now (48 +
      (d.pair q).ladle / 8) 0x301 (d.pair q).master 0 → (((d.pair q).granted = true ∧ g = d) ∨ ((d.pair q).granted = false ∧
      d.ladleTurn (d.pair q).ladle = some ((q : Nat), credit) ∧ g = d.takeTurn q credit)) → d.ladlesRun = true → (d.pair q).fetched
      = (order, y, purpose) :: rest → y.opcode = 5 → d.mayStart q = true → y.fence = false → y.check (d.pair q).fm (decide (purpose
      ≠ 0)) = none → exec (.atomicDesc q) s = .next (s.settledFrom (s.withDev
      ((({ f with ladles := { f.ladles with runs := f.ladles.runs ++ [{ id := f.ladles.nextRun, pair := q, ladle := (d.pair q).ladle, desc := y, order := order, crc := Nat.xor (y.opA % 2 ^ 32) 0xffffffff, purpose := purpose }], nextRun := f.ladles.nextRun + 1 } }
      : Dev).issuePieces 33 s.time.now f.ladles.nextRun).later .recheck)))) ∧
  (∀ (q : Fin 8192) (order purpose : Nat) (y : Desc) (rest : List (Nat × Desc × Nat)) (credit : Tab Int) (g : Dev) (s : State) (d
      : Dev) (f : Dev), d = s.dev → f = (g.setPair q { d.pair q with fetched := rest, granted := false }).mon s.time.now (48 +
      (d.pair q).ladle / 8) 0x301 (d.pair q).master 0 → (((d.pair q).granted = true ∧ g = d) ∨ ((d.pair q).granted = false ∧
      d.ladleTurn (d.pair q).ladle = some ((q : Nat), credit) ∧ g = d.takeTurn q credit)) → d.ladlesRun = true → (d.pair q).fetched
      = (order, y, purpose) :: rest → y.opcode = 6 → d.mayStart q = true → y.fence = false → y.check (d.pair q).fm (decide (purpose
      ≠ 0)) = none → (f.ext (faExtent y.dst)).state = 7 → f.isHome y.dst = true → exec (.zeroReleaseDesc q) s = .next (s.settledFrom
      (s.withDev
      ((({ f with ladles := { f.ladles with runs := f.ladles.runs ++ [{ id := f.ladles.nextRun, pair := q, ladle := (d.pair q).ladle, desc := y, order := order, crc := Nat.xor (y.opA % 2 ^ 32) 0xffffffff, purpose := purpose }], nextRun := f.ladles.nextRun + 1 } }
      : Dev).issuePieces 33 s.time.now f.ladles.nextRun).later .recheck)))) ∧
  (∀ (q : Fin 8192) (order purpose : Nat) (y : Desc) (rest : List (Nat × Desc × Nat)) (credit : Tab Int) (g : Dev) (s : State) (d
      : Dev) (f : Dev), d = s.dev → f = (g.setPair q { d.pair q with fetched := rest, granted := false }).mon s.time.now (48 +
      (d.pair q).ladle / 8) 0x301 (d.pair q).master 0 → (((d.pair q).granted = true ∧ g = d) ∨ ((d.pair q).granted = false ∧
      d.ladleTurn (d.pair q).ladle = some ((q : Nat), credit) ∧ g = d.takeTurn q credit)) → d.ladlesRun = true → (d.pair q).fetched
      = (order, y, purpose) :: rest → y.opcode = 7 → d.mayStart q = true → y.fence = false → y.check (d.pair q).fm (decide (purpose
      ≠ 0)) = none → exec (.migrateDesc q) s = .next (s.settledFrom (s.withDev
      ((({ f with ladles := { f.ladles with runs := f.ladles.runs ++ [{ id := f.ladles.nextRun, pair := q, ladle := (d.pair q).ladle, desc := y, order := order, crc := Nat.xor (y.opA % 2 ^ 32) 0xffffffff, purpose := purpose }], nextRun := f.ladles.nextRun + 1 } }
      : Dev).issuePieces 33 s.time.now f.ladles.nextRun).later .recheck))))

/-- Doorbells, descriptor fetches, pieces and power of the Ladles -/
def Obligations.LadleEvents : Prop :=
  (∀ (vi : Fin 64) (queue value : Nat) (k : Nat) (s : State) (d : Dev), d = s.dev → d.doorbellPort vi = none → d.flag
      (Mbx.DOORBELL vi) = false → d.localPair vi queue = some k → (d.pair k).state = 2 → d.ladlesRun = true → value < (d.pair
      k).size → ((d.pair k).sqTail + (d.pair k).size - (d.pair k).sqHead) % (d.pair k).size + (value + (d.pair k).size - (d.pair
      k).sqTail) % (d.pair k).size ≤ (d.pair k).size - 1 → exec (.sqTail vi queue value) s = .next (s.settledFrom (s.withDev
      (d.setPair k { d.pair k with sqTail := value })))) ∧
  (∀ (vi : Fin 64) (queue value : Nat) (k : Nat) (s : State) (d : Dev), d = s.dev → d.doorbellPort vi = none → d.flag
      (Mbx.DOORBELL vi) = false → d.localPair vi queue = some k → (d.pair k).state = 2 → d.ladlesRun = true → value < (d.pair
      k).size → (value + (d.pair k).size - (d.pair k).cqHead) % (d.pair k).size ≤ (d.pair k).cqUsed → exec (.cqHead vi queue value)
      s = .next (s.settledFrom (s.withDev ((((d.setPair k
      { d.pair k with cqHead := value, cqUsed := (d.pair k).cqUsed - (value + (d.pair k).size - (d.pair k).cqHead) % (d.pair k).size }).flushRecords
      4096 s.time.now k).submitsDone s.time.now).pairIdle s.time.now k)))) ∧
  (∀ (ladle : Fin 32) (vi q : Nat) (credit : Tab Int) (s : State) (d : Dev) (ready : List (Nat × Pair)), d = s.dev → ready =
      d.ladles.pairs.filter (fun x => decide (x.2.ladle = (ladle : Nat)) && (d.mayStart x.1 || d.mayFetch x.1)) → d.ladlesRun = true
      → d.flag (LadleR.GATED ladle) = false → d.stopped = false → d.placesUsed ladle < 8 → ready.filter (fun x => x.2.fm) = [] →
      grantCredits (Tab.getD d.ladles.credit ladle []) ((List.range 64).filter (fun vi => ready.any (fun x => decide (x.2.inst =
      vi)))) d.ladleWeight = some (vi, credit) → nextPair (Tab.getD d.ladles.lastPair (128 * ladle + vi) 8192) ((ready.filter (fun x
      => decide (x.2.inst = vi))).map (·.1)) = some q → d.mayFetch q = true → exec (.descriptorFetch ladle) s = .next (s.settledFrom
      (s.withDev ((d.takeTurn q credit).ringRead s.time.now q)))) ∧
  (∀ (run piece : Nat) (r z : Run) (p : Piece) (s : State) (d : Dev) (f : Dev), d = s.dev → f = d.retirePiece s.time.now r p →
      d.run run = some r → r.pieces.find? (fun p => decide (p.index = piece)) = some p → p.over = true → r.desc.opcode ≠ 7 → f.run
      run = some z → z.pieces ≠ [] → exec (.pieceDone run piece) s = .next (s.settledFrom (s.withDev f))) ∧
  (∀ (run piece : Nat) (r z : Run) (p : Piece) (s : State) (d : Dev) (f : Dev), d = s.dev → f = d.retirePiece s.time.now r p →
      d.run run = some r → r.pieces.find? (fun p => decide (p.index = piece)) = some p → p.over = true → r.desc.opcode ≠ 7 → f.run
      run = some z → z.pieces = [] → z.exhausted = true → z.silent = false → z.desc.opcode ≠ 7 → exec (.pieceDone run piece) s =
      .next (s.settledFrom (s.withDev
      (((({ f with ladles := { f.ladles with runs := f.ladles.runs.filter (fun x => decide (x.id ≠ run)) } } : Dev).complete
      s.time.now z.pair z.order z.completion z.desc.irq).later (.descDone z.desc.opcode z.purpose z.completion.status z.desc.src
      z.desc.dst)).later .recheck)))) ∧
  (∀ (ladle : Fin 32) (s : State) (d : Dev), d = s.dev → d.ladles.runs.any (fun r => decide (r.ladle = (ladle : Nat))) = false →
      d.ladles.pairs = [] → exec (.ladlePowerDown ladle) s = .next (s.withDev (d.raise1 (LadleR.GATED ladle)))) ∧
  (∀ (block : Fin 33) (s : State) (d : Dev), d = s.dev → (block : Nat) < 32 → exec (.blockWake block) s = .next (s.withDev
      (d.wrFlag (LadleR.GATED block) false))) ∧
  (∀ (block : Fin 33) (s : State) (d : Dev), d = s.dev → (block : Nat) = 32 → exec (.blockWake block) s = .next (s.withDev
      ({ d with chn := { d.chn with gated := false } })))

/-- The Gate commands and their scrub -/
def Obligations.GateCommands : Prop :=
  (∀ (h : SilekHdr) (addr first : Nat) (rules : List (BitVec 256)) (s : State) (d : Dev) (i : CmdInfo), d = s.begun.dev → i = .of
      0x401 0 (.gateWrite h.key addr first rules) → s.admits h i = true → 1 ≤ rules.length → rules.length ≤ 64 → first +
      rules.length ≤ 4096 → rules.any ruleBad = false → addr = 0 → exec (.gateWrite h addr first rules) s = .next (s.settledFrom
      ((s.withDev
      ({ d with gate := { d.gate with staging := stageRules d.gate.staging first rules, active := if d.memb.rejoining then stageRules d.gate.active first rules else d.gate.active } })).answered
      h i .ok []))) ∧
  (∀ (h : SilekHdr) (expected : Nat) (s : State) (d : Dev) (i : CmdInfo), d = s.begun.dev → i = .of 0x402 0 (.gateCommit h.key
      expected) → s.admits h i = true → d.memb.rejoining = false → d.flag GateR.COMMIT_BUSY = false → d.silek.running.any (fun r =>
      decide (r.work = .commit)) = false → expected = d.rd GateR.RULE_EPOCH → exec (.gateCommit h expected) s = .next (s.settledFrom
      ((s.withDev (((d.raise1 GateR.COMMIT_BUSY).switchRules).otherMembers.foldl (fun (e : Dev) a => (e.setCopy a
      { e.copyOf a with gate := { (e.copyOf a).gate with active := commitTable (e.copyOf a).gate.active (e.copyOf a).gate.staging } }).sendCommand
      s.time.now a 0x402 0 (leBytes 4 expected)) ((d.raise1 GateR.COMMIT_BUSY).switchRules))).runs h i .commit))) ∧
  (∀ (s : State) (d : Dev), d = s.dev → d.flag GateR.COMMIT_BUSY = true → d.inFlightOld = 0 → exec (.commitDrainDone) s = .next
      (s.withDev ((d.wrFlag GateR.COMMIT_BUSY false).commitReply s.time.now))) ∧
  (∀ (h : SilekHdr) (addr sel first count : Nat) (s : State) (d : Dev) (i : CmdInfo), d = s.begun.dev → i = .of 0x403 0 (.gateRead
      h.key addr sel first count) → s.admits h i = true → sel ≤ 1 → 1 ≤ count → count ≤ 64 → first + count ≤ 4096 → addr = 0 → exec
      (.gateRead h addr sel first count) s = .next (s.begun.answered h i .ok (((List.range count).map (fun k => leBytes 32 (Tab.getD
      (if sel = 0 then d.gate.active else d.gate.staging) (first + k) {}).bits)).flatten))) ∧
  (∀ (h : SilekHdr) (addr : Nat) (s : State) (d : Dev) (i : CmdInfo), d = s.begun.dev → i = .of 0x404 0 (.gateDiscard h.key addr)
      → s.admits h i = true → addr = 0 → exec (.gateDiscard h addr) s = .next (s.settledFrom ((s.withDev
      ({ d with gate := { d.gate with staging := d.gate.active } })).answered h i .ok []))) ∧
  (∀ (staging : Bool) (index : Fin 4096) (fixed : Nat) (s : State) (d : Dev) (f : Dev), d = s.dev → f = ((d.hbCount 4 1).logErr
      s.time.now { cls := 2, severity := 1, source := 8, addr := 32 * (index : Nat), detail := 7 }).raise1 GateR.RULE_ECC_EVT →
      d.mode ≠ 0 → 2 ≤ fixed → staging = false → exec (.gateScrub staging index fixed) s = .next (s.withDev
      ({ f with gate := { f.gate with active := Tab.set f.gate.active index { Tab.getD f.gate.active index {} with damaged := true } } })))

/-- The commands of group 0x05xx -/
def Obligations.MembershipCommands : Prop :=
  (∀ (h : SilekHdr) (bitmap : Nat) (s : State) (d : Dev) (i : CmdInfo) (f : Dev), d = s.begun.dev → i = .of 0x501 0
      (.membershipSet h.key bitmap) → s.admits h i = true → f = d.advance s.time.now { d.epochArgs with configured := bitmap } →
      d.acting = true → bitmap < 2 ^ 16 → hasAddr bitmap d.epochArgs.primary = true → d.epochArgs.mirror = 0 → f.memb.advancing =
      none → exec (.membershipSet h bitmap) s = .next (s.settledFrom ((s.withDev f).answered h i .ok []))) ∧
  (∀ (h : SilekHdr) (s : State) (d : Dev) (i : CmdInfo), d = s.begun.dev → i = .of 0x502 0 (.membershipQuery h.key) → s.admits h i
      = true → d.acting = true → exec (.membershipQuery h) s = .next (s.begun.answered h i .ok d.membershipReport)) ∧
  (∀ (h : SilekHdr) (role : Nat) (a : Nat) (s : State) (d : Dev) (i : CmdInfo), d = s.begun.dev → i = .of 0x503 0 (.memberJoin
      h.key role) → s.admits h i = true → h.requester = .member a → role = 3 → d.acting = true → d.mayJoin a 7 = true →
      d.memb.joining = none → exec (.memberJoin h role) s = .next (s.settledFrom ((s.withDev (d.admitMember s.time.now a 7
      false)).runs h i (.join a)))) ∧
  (∀ (s : State) (d : Dev), d = s.dev → d.memb.rejoining = true → d.mode = 3 → exec (.joinTimeout) s = .next (s.settledFrom
      (s.withDev
      ((({ d with memb := { d.memb with rejoining := false, autostart := false }, silek := { d.silek with sent := d.silek.sent.filter (fun c => decide (c.opcode ≠ 0x503)) } }
      : Dev).wrFlag Glob.TRANSITION_BUSY false).finish s.time.now Work.isModeSet .timeout [])))) ∧
  (∀ (h : SilekHdr) (addr role mode : Nat) (a : Nat) (s : State) (d : Dev) (i : CmdInfo), d = s.begun.dev → i = .of 0x504 0
      (.memberRejoin h.key addr role mode) → s.admits h i = true → h.requester = .member a → d.mode = 9 → addr = d.chainAddr →
      d.memb.discarding = true → exec (.memberRejoin h addr role mode) s = .next (s.settledFrom ((s.withDev
      ({ d with memb := { d.memb with rejoining := true, joinRole := mode }, fab := { d.fab with filters := [], e2e := [] } })).answered
      h i .ok []))) ∧
  (∀ (h : SilekHdr) (addr role mode : Nat) (a : Nat) (s : State) (d : Dev) (i : CmdInfo), d = s.begun.dev → i = .of 0x504 0
      (.memberRejoin h.key addr role mode) → s.admits h i = true → h.requester = .fm a → d.acting = true → 1 ≤ addr → addr ≤ 16 →
      role = 3 → mode = 7 → d.mayJoin addr 7 = true → d.silentAt addr = false → d.rd (Memb.peer_MODE_SEEN (addr - 1)) = 9 →
      d.memb.joining = none → exec (.memberRejoin h addr role mode) s = .next (s.settledFrom ((s.withDev
      (({ d with memb := { d.memb with joining := some (addr, 1, true), joinRole := 7 } } : Dev).sendCommand s.time.now addr 0x504 0
      (leBytes 1 addr ++ leBytes 1 3 ++ leBytes 1 7))).runs h i (.join addr)))) ∧
  (∀ (h : SilekHdr) (a : Nat) (s : State) (d : Dev) (i : CmdInfo) (f : Dev), d = s.begun.dev → i = .of 0x505 0 (.memberDeclareDead
      h.key a) → s.admits h i = true → f = d.declareDead s.time.now [a] → d.acting = true → a ≠ d.chainAddr → 1 ≤ a → a ≤ 16 →
      d.alive a = true → f.deathOver a = false → exec (.memberDeclareDead h a) s = .next (s.settledFrom ((s.withDev f).runs h i
      (.declareDead a)))) ∧
  (∀ (h : SilekHdr) (a : Nat) (s : State) (d : Dev) (i : CmdInfo) (f : Dev), d = s.begun.dev → i = .of 0x505 0 (.memberDeclareDead
      h.key a) → s.admits h i = true → f = d.declareDead s.time.now [a] → d.acting = true → a ≠ d.chainAddr → 1 ≤ a → a ≤ 16 →
      d.alive a = true → f.deathOver a = true → exec (.memberDeclareDead h a) s = .next (s.settledFrom ((s.withDev f).answered h i
      .ok []))) ∧
  (∀ (h : SilekHdr) (a : Nat) (s : State) (d : Dev) (i : CmdInfo), d = s.begun.dev → i = .of 0x505 0 (.memberDeclareDead h.key a)
      → s.admits h i = true → d.acting = true → a ≠ d.chainAddr → 1 ≤ a → a ≤ 16 → d.alive a = false → exec (.memberDeclareDead h a)
      s = .next (s.settledFrom ((s.withDev d).answered h i .ok []))) ∧
  (∀ (h : SilekHdr) (epoch prev configured alive primary mirror pair : Nat) (failover kept : Bool) (a : Nat) (s : State) (d : Dev)
      (i : CmdInfo), d = s.begun.dev → i = .of 0x506 0 (.epochAdvance h.key epoch prev configured alive primary mirror pair failover
      kept) → s.admits h i = true → h.requester = .member a → d.memb.rejoining = false → a = d.rd Memb.PRIMARY_ADDR → a ≠ 0 → prev =
      d.epoch → d.epoch ≠ 0 → 5 ≤ d.mode → failover = false → exec (.epochAdvance h epoch prev configured alive primary mirror pair
      failover kept) s = .next (s.settledFrom ((s.withDev (d.takeEpoch s.time.now
      { epoch := epoch, prev := prev, configured := configured, alive := alive, primary := primary, mirror := mirror, pair := pair, failover := false, kept := kept })).answered
      h i .ok []))) ∧
  (∀ (l : List Nat) (s : State) (d : Dev), d = s.dev → d.memb.advancing = some l → exec (.epochAdvanceResend) s = .next (s.withDev
      ((d.silek.sent.filter (fun c => decide (c.opcode = 0x506) && l.contains c.dst)).foldl (fun (e : Dev) (c : SentCommand) =>
      e.sendOne s.time.now c) d))) ∧
  (∀ (h : SilekHdr) (n a port ld : Nat) (s : State) (d : Dev) (i : CmdInfo), d = s.begun.dev → i = .of 0x507 3 (.pairHeadSet h.key
      n a port ld) → s.admits h i = true → d.acting = true → n ≤ 31 → 1 ≤ a → a ≤ 16 → port ≤ 63 → ld ≤ 15 → a ≠ d.chainAddr → exec
      (.pairHeadSet h n a port ld) s = .next (s.settledFrom ((s.withDev
      ({ d with memb := { d.memb with headMap := Tab.set d.memb.headMap (32 * a + n) (port, ld) } })).answered h i .ok []))) ∧
  (∀ (h : SilekHdr) (s : State) (d : Dev) (i : CmdInfo), d = s.begun.dev → i = .of 0x508 3 (.mirrorResync h.key) → s.admits h i =
      true → d.acting = true → d.rd Memb.MIRROR_ADDR ≠ 0 → d.rd (Memb.peer_MODE_SEEN (d.rd Memb.MIRROR_ADDR - 1)) = 6 → exec
      (.mirrorResync h) s = .next (s.settledFrom ((s.withDev ((d.abandonResync s.time.now).startResync)).runs h i .resync))) ∧
  (∀ (h : SilekHdr) (a port ld unit : Nat) (m : Nat) (s : State) (d : Dev) (i : CmdInfo), d = s.begun.dev → i = .of 0x509 3
      (.replicaSet h.key a port ld unit) → s.admits h i = true → h.requester = .member m → d.isDevicePort port = true → ld ≤ 15 →
      unit + (1 + d.rd ChurnR.T2_UNITS) ≤ (d.port port).capacity.getD ld 0 → d.extents.any (fun x => decide (x.2.state ≠ 0) &&
      decide (x.2.port = port) && decide (x.2.ld = ld) && decide (unit ≤ x.2.dpaUnit) && decide (x.2.dpaUnit < unit + (1 + d.rd
      ChurnR.T2_UNITS))) = false → exec (.replicaSet h a port ld unit) s = .next (s.settledFrom ((s.withDev ((((d.wr
      Memb.REPLICA_PORT port).wr Memb.REPLICA_LD ld).wr Memb.REPLICA_DPA_UNIT unit).wr Memb.REPLICA_UNITS (1 + d.rd
      ChurnR.T2_UNITS))).answered h i .ok []))) ∧
  (∀ (h : SilekHdr) (k : Nat) (valid : Bool) (kind port chain : Nat) (s : State) (d : Dev) (i : CmdInfo), d = s.begun.dev → i =
      .of 0x510 0 (.sharerSlotSet h.key k valid kind port chain) → s.admits h i = true → k ≤ 63 → valid = true → kind = 0 →
      d.isHostPort port = true → d.chn.slots.any (fun y => decide (y.1 ≠ k ∧ y.2.valid ∧ y.2.kind = 0 ∧ y.2.port = port ∧ y.2.chain
      = 0)) = false → d.refs k = 0 → d.sharer k = {} → exec (.sharerSlotSet h k valid kind port chain) s = .next (s.settledFrom
      ((s.withDev
      ({ d with chn := { d.chn with slots := Tab.put d.chn.slots k { valid := true, kind := 0, port := port, chain := 0 } {} } })).answered
      h i .ok []))) ∧
  (∀ (h : SilekHdr) (s : State) (d : Dev) (i : CmdInfo), d = s.begun.dev → i = .of 0x511 3 (.sharerSlotQuery h.key) → s.admits h i
      = true → exec (.sharerSlotQuery h) s = .next (s.begun.answered h i .ok (((List.range 64).map (fun k => leBytes 8 (d.sharerBits
      k))).flatten)))

/-- Mode commands, port configuration and configuration in flash -/
def Obligations.ModeCommands : Prop :=
  (∀ (h : SilekHdr) (expected target role : Nat) (s : State) (d : Dev) (i : CmdInfo), d = s.begun.dev → i = .of 0xa01 0 (.modeSet
      h.key expected target role) → s.admits h i = true → d.mode = 3 → expected = 3 → target = 4 → role = 0 → d.flag
      Glob.TRANSITION_BUSY = false → exec (.modeSet h expected target role) s = .next (s.settledFrom ((s.withDev (d.enterMode
      s.time.now 4 1)).answered h i .ok []))) ∧
  (∀ (h : SilekHdr) (expected target role : Nat) (s : State) (d : Dev) (i : CmdInfo), d = s.begun.dev → i = .of 0xa01 0 (.modeSet
      h.key expected target role) → s.admits h i = true → d.mode = 3 → expected = 3 → target = 7 → role = 3 → d.flag
      Glob.TRANSITION_BUSY = false → d.chainAddr ≠ 0 → exec (.modeSet h expected target role) s = .next (s.settledFrom ((s.withDev
      ((({ d with memb := { d.memb with rejoining := true, joinRole := 7, autostart := false } } : Dev).raise1
      Glob.TRANSITION_BUSY).sendJoin s.time.now 7)).runs h i (.modeSet 7)))) ∧
  (∀ (h : SilekHdr) (expected target role : Nat) (s : State) (d : Dev) (i : CmdInfo), d = s.begun.dev → i = .of 0xa01 0 (.modeSet
      h.key expected target role) → s.admits h i = true → d.mode = 10 → expected = 10 → target = 3 → role ≤ 3 → d.flag
      Glob.TRANSITION_BUSY = false → d.sc.update = none → d.sc.pldmStep = 0 → exec (.modeSet h expected target role) s = .next
      (s.settledFrom ((s.withDev (d.enterMode s.time.now 3 1)).answered h i .ok []))) ∧
  (∀ (h : SilekHdr) (s : State) (d : Dev) (i : CmdInfo), d = s.begun.dev → i = .of 0xa02 0 (.modeQuery h.key) → s.admits h i =
      true → exec (.modeQuery h) s = .next (s.begun.answered h i .ok (leBytes 4 d.modeStatus))) ∧
  (∀ (h : SilekHdr) (bitmap : Nat) (cfgs : List GroupConfig) (c : GroupConfig) (s : State) (d : Dev) (i : CmdInfo), d =
      s.begun.dev → i = .of 0xa10 0 (.portConfig h.key bitmap cfgs) → s.admits h i = true → d.mode = 3 → bitmap = 1 → cfgs = [c] →
      c.bifurcation ≤ 4 → c.personality ≤ 3 → c.maxRate ≤ 15 → c.sris ≤ 1 → gangsOk (d.groupsAfter [(0, c)]) = true → (List.range
      4).any (fun k => d.portInUse (4 * 0 + k)) = false → limitsOk (d.groupsAfter [(0, c)]) = true → c.personality ≠ 0 → exec
      (.portConfig h bitmap cfgs) s = .next (s.settledFrom ((s.withDev (d.changeGroup s.time.now 0 c)).runs h i (.portConfig [0])))) ∧
  (∀ (group : Fin 16) (s : State) (d : Dev), d = s.dev → 2 ≤ d.mode → d.rd (Pg.PERSONALITY group) ≠ 0 → exec (.groupPowered group)
      s = .next (s.settledFrom (s.withDev ((d.raise1 (Pg.POWERED group)).finish s.time.now (d.raise1 (Pg.POWERED group)).groupsReady
      .ok [])))) ∧
  (∀ (h : SilekHdr) (port action : Nat) (s : State) (d : Dev) (i : CmdInfo) (f : Dev) (g : Dev), d = s.begun.dev → i = .of 0xa11 0
      (.portControl h.key port action) → s.admits h i = true → f = d.removePort s.time.now port → g = f.setPort port
      { f.port port with disabled := true } → port ≤ 63 → action = 0 → d.present port = true → d.personality port ≠ 3 → g.flag
      (Pg.RECLAIM_BUSY port) = false → exec (.portControl h port action) s = .next (s.settledFrom ((s.withDev g).answered h i .ok
      []))) ∧
  (∀ (h : SilekHdr) (port action : Nat) (s : State) (d : Dev) (i : CmdInfo) (f : Dev) (g : Dev), d = s.begun.dev → i = .of 0xa11 0
      (.portControl h.key port action) → s.admits h i = true → f = d.removePort s.time.now port → g = f.setPort port
      { f.port port with disabled := true } → port ≤ 63 → action = 0 → d.present port = true → d.personality port ≠ 3 → g.flag
      (Pg.RECLAIM_BUSY port) = true → exec (.portControl h port action) s = .next (s.settledFrom ((s.withDev g).runs h i
      (.portControl port)))) ∧
  (∀ (h : SilekHdr) (port action : Nat) (s : State) (d : Dev) (i : CmdInfo), d = s.begun.dev → i = .of 0xa11 0 (.portControl h.key
      port action) → s.admits h i = true → port ≤ 63 → action ≤ 3 → d.present port = true → d.personality port = 3 → exec
      (.portControl h port action) s = .next (s.settledFrom ((s.withDev (d.qflControl s.time.now port action)).answered h i .ok
      []))) ∧
  (∀ (h : SilekHdr) (mode : Nat) (s : State) (d : Dev) (i : CmdInfo), d = s.begun.dev → i = .of 0xa31 0 (.configSave h.key mode) →
      s.admits h i = true → mode = 255 → d.sc.update = none → d.sc.pldmStep = 0 → exec (.configSave h mode) s = .next ((s.withDev
      ({ d with flashNext := some (d.saved 255) })).runs h i .configSave)) ∧
  (∀ (x : FlashConfig) (s : State) (d : Dev), d = s.dev → d.flashNext = some x → exec (.flashProgramDone) s = .next (s.withDev
      (({ d with flash := x, flashNext := none } : Dev).finish s.time.now (fun w => decide (w = .configSave)) .ok []))) ∧
  (∀ (h : SilekHdr) (scope id : Nat) (s : State) (d : Dev) (i : CmdInfo), d = s.begun.dev → i =
      { CmdInfo.of 0xa20 0 (.barrierCmd h.key scope id) with hostMay := fun d vi => (decide (scope = 0) && decide (id = vi)) || (decide (scope = 1) && (let q := Tab.getD d.ladles.pairs id {}; decide (q.state ≠ 0) && !q.fm && decide (q.inst = vi))) }
      → s.admits h i = true → scope = 3 → id = 0 → d.buf.barriers = [] → d.covered 3 0 = [] → exec (.barrierCmd h scope id) s =
      .next ((s.withDev d).answered h i .ok (({ scope := 3, id := 0, left := [], covered := 0 } : Barrier).payload)))

/-- Warm reset, watchdog, power fall, OM0, zeroisation, boot and JTAG -/
def Obligations.ResetEvents : Prop :=
  (∀ (h : SilekHdr) (delay : Nat) (s : State) (d : Dev) (i : CmdInfo), d = s.begun.dev → i = .of 0xa30 0 (.warmReset h.key delay)
      → s.admits h i = true → delay ≤ 1000 → d.flag Glob.TRANSITION_BUSY = false → exec (.warmReset h delay) s = .next ((s.withDev
      ({ d with rst := { d.rst with warmDelay := some (if d.mode = 11 then 5 else 3) } })).answered h i .ok [])) ∧
  (∀ (c : Nat) (s : State) (d : Dev), d = s.dev → d.rst.warmDelay = some c → 2 ≤ d.mode → d.rst.draining = none → exec
      (.warmResetDelay) s = .next (s.withDev (((({ d with rst := { d.rst with draining := some c, warmDelay := none } } :
      Dev).raise1 Glob.TRANSITION_BUSY).wrFlag Glob.LAST_DRAIN_INCOMPLETE false).wr Glob.LAST_DRAIN_DISCARDS 0))) ∧
  (∀ (s : State) (d : Dev), d = s.dev → d.flaws = [] → 2 ≤ d.mode → ((d.raise1 Glob.WDT_EXPIRED_EVT).hbCount 10 1).rst.draining =
      none → exec (.watchdogExpiry) s = .next (s.withDev (((d.raise1 Glob.WDT_EXPIRED_EVT).hbCount 10 1).startWarm 4))) ∧
  (∀ (e : EgressEntry) (s : State) (d : Dev) (g : Dev), d = s.dev → g = (d.logErr s.time.now
      { cls := 9, severity := 1, source := 0x20 + e.port / 4, access := 8, addr := e.addr, detail := 1 }).dropWrites →
      d.rst.draining.isSome = true → d.rst.powerFall = false → d.buf.entries = [e] → d.buf.remote = [] → e.writes.length = 1 → exec
      (.drainTimeout) s = .next (s.withDev (((g.raise1 Glob.LAST_DRAIN_INCOMPLETE).wr Glob.LAST_DRAIN_DISCARDS (saturate 16
      1)).hbCount 11 1))) ∧
  (∀ (s : State) (c : Nat), s.dev.rst.draining = some c → s.dev.drainOver = true → exec .warmResetDrainDone s = .next
      { pending := s.pending, time := { now := s.time.now }, dev := s.dev.warmRestart s.time.now c }) ∧
  (∀ (s : State) (d : Dev), d = s.dev → d.mode ≠ 0 → exec (.pwrfail) s = .next (s.withDev
      (({ d with rst := { d.rst with powerFall := true } } : Dev).raise1 Glob.PWRFAIL_HOLD))) ∧
  (∀ (s : State) (d : Dev), d = s.dev → d.rst.powerFall = true → d.buf.entries = [] → d.buf.remote = [] → exec
      (.pwrfailDrainLimit) s = .next (s.withDev
      (({ d with hbk := { d.hbk with powerFail := some (d.hbk.powerOns, s.time.now, 0, []) }, rst := { d.rst with powerFall := false } }
      : Dev).dropWrites))) ∧
  (∀ (straps : Straps) (inRange zeroizeHigh : Bool) (s : State) (d : Dev) (f : Dev), d = s.dev → f =
      ((({ d with rst := { d.rst with inOm0 := false, pinLow := false, straps := straps, scanHold := false, booting := true, exitTime := s.time.now } }
      : Dev).wr Glob.CAUSE d.rst.cause).wr Glob.RAIL (if d.rst.cause = 2 then d.rst.rail else 0)) → d.rst.inOm0 = true →
      d.rst.pinLow = true → inRange = true → zeroizeHigh = true → d.jtag.instruction = 1 → exec (.rstNRise straps inRange
      zeroizeHigh) s = .next (s.withDev (if d.rst.cause = 2 ∧ d.rst.rail = 6 then (List.range 16).foldl (fun (x : Dev) c => x.wr
      (Spc.ch_LAST_FAULT c) 7) f else f))) ∧
  (∀ (s : State), s.dev.rst.inOm0 = false → exec .rstNLow s = .next ((s.toOm0 1 0 false).withDev
      { s.dev.enterOm0 s.time.now 1 0 false with rst := { (s.dev.enterOm0 s.time.now 1 0 false).rst with pinLow := true } })) ∧
  (∀ (s : State) (rail : Fin 6), s.dev.rst.inOm0 = false → exec (.supplyFault rail) s = .next (s.toOm0 2 (rail + 1) false)) ∧
  (∀ (s : State), exec .zeroizeN s = .next (s.zeroise 2)) ∧
  (∀ (h : SilekHdr) (word a : Nat) (s : State) (i : CmdInfo), i = .of 0x711 0 (.zeroize h.key word) → s.admits h i = true →
      h.requester = .fm a → s.begun.dev.unsecured h.secured = false → word = 0x5a45524f → exec (.zeroize h word) s = .next
      ((s.begun.answer h.requester 0x711 h.tag (min h.minor 3) h.src 1 .ok []).zeroise 1)) ∧
  (∀ (kat : Nat) (linear16 : Bool) (s : State) (d : Dev), d = s.dev → d.mode = 1 → d.rst.booting = true → kat ≠ 0 → exec
      (.bootComplete kat linear16) s = .next (s.settledFrom (s.withDev ((((({ d with rst := { d.rst with booting := false } } :
      Dev).raise1 Glob.HALTED).wr ScR.LAST_EVENT kat).raise1 ScR.SEC_EVT).noteBoot.noteMode s.time.now 1 9)))) ∧
  (∀ (code : Fin 256) (s : State) (d : Dev), d = s.dev → code = 1 → exec (.jtagInstructionLoad code) s = .next (s.settledFrom
      (s.withDev (({ d with jtag := { d.jtag with instruction := 1 } } : Dev).emit (.jtag d.idcode))))) ∧
  (∀ (s : State) (d : Dev), d = s.dev → d.rst.scanHold = false → exec (.testLogicReset) s = .next (s.withDev
      ({ d with jtag := { d.jtag with instruction := 1 } })))

/-- The slot power controllers -/
def Obligations.SlotPower : Prop :=
  (∀ (h : SilekHdr) (ch : Nat) (s : State) (d : Dev) (i : CmdInfo), d = s.begun.dev → i = .of 0x601 0 (.slotPowerOn h.key ch) →
      s.admits h i = true → ch ≤ 15 → d.rd (Spc.ch_RSENSE ch) ≠ 0 → d.rd (Spc.ch_STATE ch) = 0 → d.flag (Spc.ch_COOLDOWN ch) = false
      → exec (.slotPowerOn h ch) s = .next ((s.withDev ((d.wr (Spc.ch_STATE ch) 1).spcDrive (Spc.ch_PCHG_ON ch) (.spcPchg ch)
      true)).runs h i (.slotOn ch))) ∧
  (∀ (h : SilekHdr) (ch force : Nat) (s : State) (d : Dev) (i : CmdInfo) (f : Dev), d = s.begun.dev → i = .of 0x602 0
      (.slotPowerOff h.key ch force) → s.admits h i = true → f = (((d.powerGoodFalls s.time.now ch).wrFlag (Spc.ch_TIMER_RUN ch)
      false).wrFlag (Spc.ch_IN_LIMIT ch) false).wr (Spc.ch_STATE ch) 5 → ch ≤ 15 → d.rd (Spc.ch_RSENSE ch) ≠ 0 → d.rd (Spc.ch_STATE
      ch) = 4 → force = 1 → exec (.slotPowerOff h ch force) s = .next (s.settledFrom ((s.withDev (f.post s.time.now 0xd (f.spcData
      ch 2))).runs h i (.slotOff ch)))) ∧
  (∀ (h : SilekHdr) (ch ilim timer : Nat) (f : Dev) (s : State) (d : Dev) (i : CmdInfo), d = s.begun.dev → i = .of 0x603 0
      (.slotPowerConfig h.key ch ilim timer) → s.admits h i = true → ch ≤ 15 → d.rd (Spc.ch_RSENSE ch) ≠ 0 → 10 ≤ ilim → ilim ≤ 120
      → 1 ≤ timer → timer ≤ 255 → ilim * d.rd (Spc.ch_RSENSE ch) ≤ 2500 → f = (d.wr (Spc.ch_ILIM ch) ilim).wr (Spc.ch_FAULT_TIMER
      ch) timer → exec (.slotPowerConfig h ch ilim timer) s = .next ((s.withDev (f.limitCheck s.time.now ch)).answered h i .ok [])) ∧
  (∀ (h : SilekHdr) (ch : Nat) (s : State) (d : Dev) (i : CmdInfo), d = s.begun.dev → i = .of 0x604 0 (.slotPowerQuery h.key ch) →
      s.admits h i = true → ch ≤ 15 → d.rd (Spc.ch_RSENSE ch) ≠ 0 → exec (.slotPowerQuery h ch) s = .next ((s.withDev d).answered h
      i .ok (d.slotPowerReport ch))) ∧
  (∀ (samples : List AdcSample) (x : AdcSample) (s : State) (d : Dev) (f : Dev), d = s.dev → f = d.scanChannel s.time.now 0 x →
      samples = [x] → exec (.adcScan samples) s = .next (s.settledFrom (s.withDev (f.wr Spc.SCAN_COUNT (f.rd Spc.SCAN_COUNT + 1))))) ∧
  (∀ (ch : Fin 16) (s : State) (d : Dev), d = s.dev → d.rd (Spc.ch_STATE ch) = 1 → exec (.pchgTimeout ch) s = .next (s.settledFrom
      (s.withDev (d.spcFault s.time.now ch 3)))) ∧
  (∀ (ch : Fin 16) (s : State) (d : Dev), d = s.dev → d.rd (Spc.ch_STATE ch) = 2 → exec (.gateCharged ch) s = .next (s.withDev
      ((d.spcDrive (Spc.ch_PCHG_ON ch) (.spcPchg ch) false).wr (Spc.ch_STATE ch) 3))) ∧
  (∀ (ch : Fin 16) (s : State) (d : Dev), d = s.dev → (d.rd (Spc.ch_STATE ch) = 2 ∨ d.rd (Spc.ch_STATE ch) = 3) → exec
      (.powerGoodTimeout ch) s = .next (s.settledFrom (s.withDev (d.spcFault s.time.now ch 4)))) ∧
  (∀ (ch : Fin 16) (s : State) (d : Dev) (f : Dev), d = s.dev → f = ((d.wr (Spc.ch_STATE ch) 4).spcDrive (Spc.ch_PG ch) (.spcPg
      ch) true).raise1 (Spc.ch_PG_RISE_EVT ch) → d.rd (Spc.ch_STATE ch) = 3 → d.flag (Spc.ch_TIMER_RUN ch) = false → 10800 ≤ d.rd
      (Spc.ch_VOUT ch) → exec (.qualificationEnd ch) s = .next (s.withDev (((f.post s.time.now 0xd (f.spcData ch 1)).finish
      s.time.now (fun w => decide (w = .slotOn ch)) .ok []).autoNext))) ∧
  (∀ (ch : Fin 16) (s : State) (d : Dev), d = s.dev → d.rd (Spc.ch_STATE ch) = 4 → exec (.currentLimit ch) s = .next (s.withDev
      (d.limitStarts s.time.now ch))) ∧
  (∀ (ch : Fin 16) (s : State) (d : Dev), d = s.dev → (d.wrFlag (Spc.ch_IN_LIMIT ch) false).rd (Spc.ch_STATE ch) = 3 → exec
      (.currentLimitEnd ch) s = .next (s.withDev ((d.wrFlag (Spc.ch_IN_LIMIT ch) false).wrFlag (Spc.ch_TIMER_RUN ch) false))) ∧
  (∀ (ch : Fin 16) (s : State) (d : Dev), d = s.dev → d.flag (Spc.ch_TIMER_RUN ch) = true → exec (.faultTimer ch) s = .next
      (s.settledFrom (s.withDev (d.spcFault s.time.now ch (if d.flag (Spc.ch_IN_LIMIT ch) then 1 else 5))))) ∧
  (∀ (ch : Fin 16) (s : State) (d : Dev), d = s.dev → d.rd (Spc.ch_STATE ch) ≠ 0 → d.rd (Spc.ch_RSENSE ch) ≠ 0 → exec (.fastTrip
      ch) s = .next (s.settledFrom (s.withDev (d.spcFault s.time.now ch 2)))) ∧
  (∀ (ch : Fin 16) (s : State) (d : Dev), d = s.dev → d.rd (Spc.ch_STATE ch) = 5 → exec (.stoppingEnd ch) s = .next (s.settledFrom
      (s.withDev ((d.spcOff s.time.now ch).finish s.time.now (fun w => decide (w = .slotOff ch)) .ok [])))) ∧
  (∀ (ch : Fin 16) (s : State) (d : Dev), d = s.dev → exec (.cooldownEnd ch) s = .next (s.withDev (d.wrFlag (Spc.ch_COOLDOWN ch)
      false)))

/-- The core clock index and the core supply -/
def Obligations.CoreSupply : Prop :=
  (∀ (cycles : List Nat) (c : Nat) (s : State) (d : Dev), d = s.dev → d.mode ≠ 0 → cycles = [c] → 0 < c → c ≤ 1250 → ((d.wr
      Glob.SPEED_INDEX c).wr Glob.SLOW_TILE 0).rd Glob.SPEED_FASTEST ≤ c → c ≤ ((d.wr Glob.SPEED_INDEX c).wr Glob.SLOW_TILE 0).rd
      Glob.SPEED_SLOWEST → exec (.speedWindow cycles) s = .next (s.withDev (((d.wr Glob.SPEED_INDEX c).wr Glob.SLOW_TILE
      0).threshold 3 1 false))) ∧
  (∀ (ok : Bool) (s : State) (d : Dev) (f : Dev), d = s.dev → f = d.wr Glob.VCORE_SET (d.rd Glob.VCORE_SET + 5) → ok = true →
      d.mode ≠ 0 → d.rst.booting = false → d.thermal.pmbus = 0 → d.flag Glob.AVS_EN = true → d.rd Glob.SPEED_TARGET < d.rd
      Glob.SPEED_INDEX → d.rd Glob.VCORE_SET < 5 * d.rd Glob.VCORE_MAX → exec (.avsStep ok) s = .next (s.withDev ((f.wrFlag
      Glob.AT_MAX (decide (f.rd Glob.SPEED_TARGET < f.rd Glob.SPEED_INDEX) && decide (d.rd Glob.VCORE_SET + 5 = 5 * f.rd
      Glob.VCORE_MAX))).voutCommand))) ∧
  (∀ (ok : Bool) (s : State) (d : Dev), d = s.dev → ok = true → d.mode ≠ 0 → d.thermal.pmbus = 1 → exec (.pmbusRetry ok) s = .next
      (s.withDev ({ d.voutCommand with thermal := { d.voutCommand.thermal with pmbus := 0 } }))) ∧
  (∀ (mv : Nat) (s : State) (d : Dev), d = s.dev → d.mode ≠ 0 → 700 ≤ mv → mv ≤ 900 → exec (.vcoreMeasure mv) s = .next (s.withDev
      (((d.wr Glob.VCORE_MEASURED mv).threshold 2 3 false).threshold 2 1 false)))

/-- Firmware update by Silek and by PLDM -/
def Obligations.FirmwareUpdate : Prop :=
  (∀ (h : SilekHdr) (bank len : Nat) (s : State) (d : Dev) (i : CmdInfo), d = s.begun.dev → i = .of 0x701 0 (.fwUpdateStart h.key
      bank len) → s.admits h i = true → d.unsecured h.secured = false → d.mode = 10 → bank ≤ 1 → d.sc.update = none → d.sc.pldmStep
      = 0 → d.runs bank = false → 4097 ≤ len → len ≤ 25161728 → exec (.fwUpdateStart h bank len) s = .next ((s.withDev
      (d.beginUpdate bank len false)).runs h i (.eraseBank bank))) ∧
  (∀ (b : Nat) (s : State) (d : Dev), d = s.dev → d.sc.update = some (b, false) → (d.bank b).state = 0 → exec (.flashEraseDone) s
      = .next (s.withDev (((d.setBank b { d.bank b with state := 1 }).syncBanks).finish s.time.now (fun w => decide (w = .eraseBank
      b)) .ok []))) ∧
  (∀ (h : SilekHdr) (off len : Nat) (data : List Byte) (b : Nat) (s : State) (d : Dev) (i : CmdInfo), d = s.begun.dev → i = .of
      0x702 0 (.fwUpdateData h.key off len data) → s.admits h i = true → d.unsecured h.secured = false → d.mode = 10 → d.sc.update =
      some (b, false) → (d.bank b).state = 1 → 1 ≤ len → len ≤ 3064 → data.length = len → off = (d.bank b).image.length → off + len
      ≤ (d.bank b).declared → exec (.fwUpdateData h off len data) s = .next ((s.withDev ((d.setBank b
      { d.bank b with image := (d.bank b).image ++ data }).wr ScR.BYTES_WRITTEN (off + len))).answered h i .ok [])) ∧
  (∀ (h : SilekHdr) (bank : Nat) (s : State) (d : Dev) (i : CmdInfo) (f : Dev) (c : Nat), d = s.begun.dev → i = .of 0x703 0
      (.fwUpdateVerify h.key bank) → s.admits h i = true → f = (d.verifyBank bank).1.endUpdate → c = (d.verifyBank bank).2 →
      d.unsecured h.secured = false → d.mode = 10 → bank ≤ 1 → d.sc.update = some (bank, false) → (d.bank bank).state = 1 → (d.bank
      bank).declared ≤ (d.bank bank).image.length → d.rd ScR.SC_STATE ≠ 2 → exec (.fwUpdateVerify h bank) s = .next ((s.withDev (if
      c = 0 then f else f.inc ScR.AUTH_FAILS)).answered h i (if c = 0 then .ok else .authFail) (if c = 0 then [] else leBytes 1 c))) ∧
  (∀ (h : SilekHdr) (bank : Nat) (s : State) (d : Dev) (i : CmdInfo), d = s.begun.dev → i = .of 0x704 0 (.fwActivate h.key bank) →
      s.admits h i = true → d.unsecured h.secured = false → d.mode = 10 → bank ≤ 1 → (d.bank bank).state = 2 → d.topBank ≠ some bank
      → exec (.fwActivate h bank) s = .next ((s.withDev (d.activate s.time.now bank)).answered h i .ok [])) ∧
  (∀ (h : SilekHdr) (s : State) (d : Dev) (i : CmdInfo), d = s.begun.dev → i = .of 0x705 0 (.fwQuery h.key) → s.admits h i = true
      → exec (.fwQuery h) s = .next (s.begun.answered h i .ok (d.bankReport 0 ++ d.bankReport 1 ++ leBytes 2 0))) ∧
  (∀ (h : SilekHdr) (s : State) (d : Dev) (i : CmdInfo), d = s.begun.dev → i = .of 0x710 0 (.selfTest h.key) → s.admits h i = true
      → d.works (fun w => decide (w = .selfTest)) = false → exec (.selfTest h) s = .next ((s.withDev d).runs h i .selfTest)) ∧
  (∀ (ok : Bool) (s : State) (d : Dev), d = s.dev → d.works (fun w => decide (w = .selfTest)) = true → exec (.selfTestDone ok) s =
      .next (s.settledFrom (s.withDev ((if ok = true then d else d.scError s.time.now).finish s.time.now (fun w => decide (w =
      .selfTest)) (if ok = true then .ok else .aborted) [])))) ∧
  (∀ (secured : Bool) (s : State) (d : Dev), d = s.dev → d.mode = 10 → d.unsecured secured = false → d.sc.update = none →
      d.sc.pldmStep = 0 → exec (.requestUpdate secured) s = .next (s.withDev ((((d.pldmAt 1).raise1 ScR.UPDATE_BUSY).raise1
      ScR.UPDATE_PLDM).emit (.service 0x510 [])))) ∧
  (∀ (secured : Bool) (identifier : Nat) (s : State) (d : Dev), d = s.dev → d.mode = 10 → d.unsecured secured = false →
      d.sc.pldmStep = 1 → identifier = 0x964 → exec (.passComponentTable secured identifier) s = .next (s.withDev ((d.pldmAt 2).emit
      (.service 0x513 [1])))) ∧
  (∀ (secured : Bool) (identifier size : Nat) (s : State) (d : Dev), d = s.dev → d.mode = 10 → d.unsecured secured = false →
      d.sc.pldmStep = 2 → identifier = 0x964 → 4097 ≤ size → size ≤ 25161728 → exec (.updateComponent secured identifier size) s =
      .next (s.withDev ((d.beginUpdate (if d.runs 0 = true then 1 else 0) size true).emit (.service 0x514 [1])))) ∧
  (∀ (secured : Bool) (data : List Byte) (b : Nat) (s : State) (d : Dev), d = s.dev → d.mode = 10 → d.unsecured secured = false →
      d.sc.update = some (b, true) → (d.bank b).state = 1 → d.rd ScR.SC_STATE ≠ 2 → data ≠ [] → data.length = min 1024 ((d.bank
      b).declared - (d.bank b).image.length) → ((d.program b data).bank b).image.length < (d.bank b).declared → exec
      (.requestFirmwareData secured data) s = .next (s.withDev ((d.program b data).askChunk b))) ∧
  (∀ (secured selfContained : Bool) (s : State) (d : Dev) (b : Nat), d = s.dev → b = (if d.runs 0 = true then 1 else 0) → d.mode =
      10 → d.unsecured secured = false → d.sc.pldmStep = 4 → selfContained = false → (d.bank b).state = 2 → d.topBank ≠ some b →
      exec (.activateFirmware secured selfContained) s = .next (s.withDev (((d.activate s.time.now b).pldmAt 0).emit (.service 0x51a
      [1]))))

/-- SPDM, IDE and MCTP services -/
def Obligations.ServiceMessages : Prop :=
  (∀ (s : State) (d : Dev) (f : Dev), d = s.dev → f = (d.wr ScR.SC_STATE 2).wrFlag ScR.DRBG_OK false → d.rd ScR.SC_STATE ≠ 2 →
      exec (.healthTestFailure) s = .next (s.settledFrom (s.withDev
      ((({ f with sc := { f.sc with drbg := false, lfsr := some (Nat.xor s.time.now f.fuses.serial % 2 ^ 64) } } : Dev).secEvent
      s.time.now 3).dropSessionKeys s.time.now)))) ∧
  (∀ (port : Fin 64) (sequence : Bool) (s : State) (d : Dev), d = s.dev → d.rd (Pg.IDE_STATE port) = 2 → exec (.ideFailure port
      sequence) s = .next (s.settledFrom (s.withDev (d.ideInsecure s.time.now port (if sequence = true then 2 else 1))))) ∧
  (∀ (port : Fin 64) (s : State) (d : Dev), d = s.dev → (d.port port).ideRefresh = true → exec (.ideRefreshTimeout port) s = .next
      (s.settledFrom (s.withDev (d.ideInsecure s.time.now port 3)))) ∧
  (∀ (port : Fin 64) (op : IdeKeyOp) (anchorOk : Bool) (s : State) (d : Dev), d = s.dev → d.linkUp port = true → d.rd ScR.SC_STATE
      ≠ 2 → d.isHostPort port = true → d.isDevicePort port = false → d.rd (Pg.CXL_GEN port) ≠ 1 → d.ideSession port = true → op =
      .programCurrent → exec (.ideKeyManagement port op anchorOk) s = .next (s.withDev ((d.setPort port
      { d.port port with ideCurrent := true }).wr (Pg.IDE_STATE port) 1))) ∧
  (∀ (slot : Nat) (s : State) (d : Dev), d = s.dev → 2 ≤ d.mode → d.scReady = true → slot = 0 → d.sc.certSlot0 = true → exec
      (.getCertificate slot) s = .next (s.withDev (d.emit (.service 0x602 [0, d.flash.deviceIdCert, d.sc.deviceIdKey.getD 0,
      d.sc.aliasKey.getD 0])))) ∧
  (∀ (slot : Nat) (nonce : List Byte) (s : State) (d : Dev), d = s.dev → 2 ≤ d.mode → d.scReady = true → slot = 0 → d.sc.certSlot0
      = true → exec (.challenge slot nonce) s = .next (s.withDev (d.emit (.service 0x603 ((Config.ecdsaSign (d.sc.aliasKey.getD 0)
      nonce).map (fun x => x.toNat)))))) ∧
  (∀ (index : Nat) (nonce : List Byte) (s : State) (d : Dev), d = s.dev → 2 ≤ d.mode → d.scReady = true → 1 ≤ index → index ≤ 6 →
      exec (.getMeasurements index nonce) s = .next (s.withDev (d.emit (.service 0x660 (index :: d.measurement index ++
      (Config.ecdsaSign (d.sc.aliasKey.getD 0) nonce).map (fun x => x.toNat)))))) ∧
  (∀ (transport : Nat) (mutualAuth authOk : Bool) (s : State) (d : Dev), d = s.dev → 2 ≤ d.mode → d.scReady = true →
      d.sc.sessions.length < 96 → authOk = true → exec (.keyExchange transport mutualAuth authOk) s = .next (s.withDev
      (((({ d with sc := { d.sc with sessions := d.sc.sessions ++ [{ id := d.sc.nextSession, transport := transport, mutualAuth := mutualAuth }], nextSession := d.sc.nextSession + 1 } }
      : Dev).wr ScR.SESSIONS (d.sc.sessions.length + 1)).inc ScR.SESSIONS_OPENED).emit (.service 0x664 [d.sc.nextSession])))) ∧
  (∀ (eid : Nat) (s : State) (d : Dev), d = s.dev → 2 ≤ d.mode → exec (.setEndpointId eid) s = .next (s.withDev
      (({ d with silek := { d.silek with endpointId := eid } } : Dev).emit (.service 0x01 [eid])))) ∧
  (∀ (s : State) (d : Dev), d = s.dev → 2 ≤ d.mode → exec (.getEndpointId) s = .next (s.withDev (d.emit (.service 0x02
      [d.silek.endpointId])))) ∧
  (∀ (s : State) (d : Dev), d = s.dev → 2 ≤ d.mode → exec (.getEndpointUuid) s = .next (s.withDev (d.emit (.service 0x03
      [Config.freeValue 94 0])))) ∧
  (∀ (s : State) (d : Dev), d = s.dev → 2 ≤ d.mode → exec (.getMctpVersionSupport) s = .next (s.withDev (d.emit (.service 0x04
      [Config.freeValue 92 0])))) ∧
  (∀ (s : State) (d : Dev), d = s.dev → 2 ≤ d.mode → exec (.getMessageTypeSupport) s = .next (s.withDev (d.emit (.service 0x05 [0,
      1, 5, 6, 7, 0x7f])))) ∧
  (∀ (selector : Nat) (s : State) (d : Dev), d = s.dev → 2 ≤ d.mode → exec (.getVendorDefinedMessageSupport selector) s = .next
      (s.withDev (d.emit (.service 0x06 (if selector = 0 then [0xff, 1, d.rd Ident.ENTERPRISE] else []))))) ∧
  (∀ (eid : Nat) (s : State) (d : Dev), d = s.dev → 2 ≤ d.mode → exec (.setEventReceiver eid) s = .next (s.withDev
      (({ d with silek := { d.silek with eventReceiver := eid } } : Dev).emit (.service 0x204 [])))) ∧
  (∀ (s : State) (d : Dev), d = s.dev → 2 ≤ d.mode → exec (.getPdrRepositoryInfo) s = .next (s.withDev (d.emit (.service 0x250
      [52])))) ∧
  (∀ (record : Nat) (s : State) (d : Dev), d = s.dev → 2 ≤ d.mode → exec (.getPdr record) s = .next (s.withDev (d.emit (.service
      0x251 (sensorPdr record))))) ∧
  (∀ (sensor : Nat) (v : Nat) (s : State) (d : Dev), d = s.dev → 2 ≤ d.mode → d.sensor sensor = some v →
      d.silek.sensorsOff.contains sensor = false → exec (.getSensorReading sensor) s = .next (s.withDev (d.emit (.service 0x211
      [sensor, 0, v])))) ∧
  (∀ (sensor : Nat) (s : State) (d : Dev), d = s.dev → 2 ≤ d.mode → exec (.getStateSensorReadings sensor) s = .next (s.withDev
      (d.emit (.service 0x221 (if sensor = 52 then [52, 0, d.mode] else [sensor, 1]))))) ∧
  (∀ (sensor : Nat) (enable : Bool) (s : State) (d : Dev), d = s.dev → 2 ≤ d.mode → enable = true → exec (.setNumericSensorEnable
      sensor enable) s = .next (s.withDev
      (({ d with silek := { d.silek with sensorsOff := d.silek.sensorsOff.filter (fun x => decide (x ≠ sensor)) } } : Dev).emit
      (.service 0x210 [sensor]))))

/-- The register accesses that are commands of their own -/
def Obligations.RegisterRows : Prop :=
  (∀ (path : AccessPath) (port : Fin 64) (value : BitVec 32) (s : State), s.dev.pathOpen path = true → exec (.portDisable path
      port value) s = .next (s.settledFrom (s.writeAccess (fun _ u => u) path (0x20000 + 0x1000 * ((port : Nat) / 4) + 0x100 + 0x20
      * ((port : Nat) % 4)) 4 value.toNat))) ∧
  (∀ (path : AccessPath) (port : Fin 64) (value : BitVec 32) (s : State), s.dev.pathOpen path = true → exec (.retrain path port
      value) s = .next (s.settledFrom (s.writeAccess (fun _ u => u) path (0x20000 + 0x1000 * ((port : Nat) / 4) + 0x100 + 0x20 *
      ((port : Nat) % 4)) 4 value.toNat))) ∧
  (∀ (path : AccessPath) (port : Fin 64) (value : BitVec 32) (s : State), s.dev.pathOpen path = true → exec (.fullRetrain path
      port value) s = .next (s.settledFrom (s.writeAccess (fun _ u => u) path (0x20000 + 0x1000 * ((port : Nat) / 4) + 0x100 + 0x20
      * ((port : Nat) % 4)) 4 value.toNat))) ∧
  (∀ (path : AccessPath) (port : Fin 64) (value : BitVec 32) (s : State), s.dev.pathOpen path = true → exec (.loopbackReq path
      port value) s = .next (s.settledFrom (s.writeAccess (fun _ u => u) path (0x20000 + 0x1000 * ((port : Nat) / 4) + 0x100 + 0x20
      * ((port : Nat) % 4)) 4 value.toNat))) ∧
  (∀ (path : AccessPath) (lane : Fin 256) (value : BitVec 32) (s : State), s.dev.pathOpen path = true → exec (.genPattern path
      lane value) s = .next (s.settledFrom (s.writeAccess (fun _ u => u) path (0x20000 + 0x1000 * ((lane : Nat) / 16) + 0x400 + 0x20
      * ((lane : Nat) % 16) + 0xc) 4 value.toNat))) ∧
  (∀ (path : AccessPath) (lane : Fin 256) (value : BitVec 32) (s : State), s.dev.pathOpen path = true → exec (.prbsClear path lane
      value) s = .next (s.settledFrom (s.writeAccess (fun _ u => u) path (0x20000 + 0x1000 * ((lane : Nat) / 16) + 0x400 + 0x20 *
      ((lane : Nat) % 16) + 0xc) 4 value.toNat))) ∧
  (∀ (path : AccessPath) (lane : Fin 256) (value : BitVec 32) (s : State), s.dev.pathOpen path = true → exec (.injectError path
      lane value) s = .next (s.settledFrom (s.writeAccess (fun _ u => u) path (0x20000 + 0x1000 * ((lane : Nat) / 16) + 0x400 + 0x20
      * ((lane : Nat) % 16) + 0xc) 4 value.toNat))) ∧
  (∀ (path : AccessPath) (port : Fin 64) (value : BitVec 32) (s : State), s.dev.pathOpen path = true → exec (.widthGo path port
      value) s = .next (s.settledFrom (s.writeAccess (fun _ u => u) path (0x20000 + 0x1000 * ((port : Nat) / 4) + 0x200 + 0x40 *
      ((port : Nat) % 4)) 4 value.toNat))) ∧
  (∀ (path : AccessPath) (value : BitVec 32) (s : State), s.dev.pathOpen path = true → exec (.tier2En path value) s = .next
      (s.settledFrom (s.writeAccess (fun _ u => u) path (0x5000) 4 value.toNat))) ∧
  (∀ (path : AccessPath) (group : Fin 16) (value : BitVec 32) (s u : State), s.dev.pathOpen path = true → guardedPath path = true
      → u = (s.passGuard path).2 → exec (.pgConfig path group value) s = .next (s.settledFrom (u.withDev (u.dev.secEvent s.time.now
      2)))) ∧
  (∀ (path : AccessPath) (off size : Nat) (s : State), s.dev.pathOpen path = true → off = 0x2008 → size = 4 → exec (.latchingRead
      path off size) s = .next (s.settledFrom (s.withDev (((s.dev.setLatch path
      { s.dev.latch path with high := Tab.put (s.dev.latch path).high 0x200c (s.plainWord 0x200c) 0 }).scrub 0x2008).emit (.readData
      path 0x2008 4 (fieldOf (s.plainWord 0x2008) 0 32)))))) ∧
  (∀ (path : AccessPath) (off size : Nat) (s : State), s.dev.pathOpen path = true → off = 0x10 → size = 4 → exec (.clearOnRead
      path off size) s = .next (s.settledFrom
      { s with guard := { s.guard with wrongKeys := 0 }, dev := (s.dev.scrub 0x10).emit (.readData path 0x10 4 (fieldOf (s.plainWord 0x10) 0 32)) })) ∧
  (∀ (path : AccessPath) (off size : Nat) (i : Fin 262144) (s : State), s.dev.pathOpen path = true → off = 0x400000 + 8 * (i :
      Nat) → size = 4 → exec (.arrayEntryRead path off size) s = .next (s.settledFrom (s.withDev ((s.dev.setLatch path
      { s.dev.latch path with entry := some (off, entryWords (s.dev.ext i).bits 2) }).emit (.readData path off 4 (fieldOf (fieldOf
      (s.dev.ext i).bits 0 32) 0 32)))))) ∧
  (∀ (path : AccessPath) (off size : Nat) (s : State), s.dev.pathOpen path = true → 0x100000 ≤ off → off < 0x120000 → off % 4 = 0
      → size = 4 → exec (.arrayWindowWrite path off size) s = .next (s.settledFrom (s.withDev (s.dev.inc
      Glob.ARRAY_WRITES_IGNORED)))) ∧
  (∀ (off : Nat) (s : State), s.dev.mode ≠ 0 → exec (.tripleScrub off) s = .next (s.withDev (s.dev.scrub (canonical off)))) ∧
  (∀ (table : Fin 6) (index : Nat) (s : State) (d : Dev), d = s.dev → d.mode ≠ 0 → exec (.arrayRewrite table index) s = .next
      (s.withDev ((d.hbCount 4 1).logErr s.time.now
      { cls := 2, severity := 1, source := arrayPage table, addr := index, detail := 8 })))

/-- What the triggers of the port and lane registers do -/
def Obligations.RegisterTriggers : Prop :=
  (∀ (t : Nat) (port : Fin 64) (d : Dev), d.trigger t (0x20100 + 0x1000 * ((port : Nat) / 4) + 0x20 * ((port : Nat) % 4)) 8 =
      d.retrain port ∧ d.trigger t (0x20100 + 0x1000 * ((port : Nat) / 4) + 0x20 * ((port : Nat) % 4)) 9 = d.fullRetrain t port) ∧
  (∀ (t : Nat) (port : Fin 64) (d : Dev), d.trigger t (0x20200 + 0x1000 * ((port : Nat) / 4) + 0x40 * ((port : Nat) % 4)) 0 =
      d.widthGo port) ∧
  (∀ (t : Nat) (lane : Fin 256) (d : Dev), d.trigger t (0x2040c + 0x1000 * ((lane : Nat) / 16) + 0x20 * ((lane : Nat) % 16)) 4 =
      d.prbsClear lane ∧ d.trigger t (0x2040c + 0x1000 * ((lane : Nat) / 16) + 0x20 * ((lane : Nat) % 16)) 5 = d.injectError lane)

/-- The key guard: unlocking and wrong keys -/
def Obligations.KeyGuard : Prop :=
  (∀ (path : AccessPath) (value : BitVec 32) (s : State), s.dev.mode ≠ 0 → (path = .bar0 ∨ path = .reg) → s.guard.lockedOut =
      false → value = 0x4d494c4b → exec (.csrKey path value) s = .next (s.settledFrom
      { s with guard := { s.guard with unlocked := true, wrongRun := 0 } })) ∧
  (∀ (path : AccessPath) (value : BitVec 32) (s : State), s.dev.mode ≠ 0 → (path = .bar0 ∨ path = .reg) → s.guard.lockedOut =
      false → value ≠ 0x4d494c4b → s.guard.wrongRun < 7 → exec (.csrKey path value) s = .next (s.settledFrom
      { s with guard := { s.guard with unlocked := false, wrongRun := s.guard.wrongRun + 1, wrongKeys := saturate 16 (s.guard.wrongKeys + 1) }, dev := s.dev.hbCount 7 1 })) ∧
  (∀ (path : AccessPath) (value : BitVec 32) (s : State), s.dev.mode ≠ 0 → (path = .bar0 ∨ path = .reg) → s.guard.lockedOut =
      false → value ≠ 0x4d494c4b → s.guard.wrongRun = 7 → exec (.csrKey path value) s = .next (s.settledFrom
      { s with guard := { unlocked := false, lockedOut := true, wrongRun := 8, lockoutEvt := true, wrongKeys := saturate 16 (s.guard.wrongKeys + 1) }, dev := ((s.dev.hbCount 7 1).hbCount 8 1).secEvent s.time.now 1 })) ∧
  (∀ (s : State), s.plainWord 0xff0 = 0)

/-- The lock-out of the key guard -/
def Obligations.KeyLockOut : Prop :=
  (∀ (path : AccessPath) (value : BitVec 32) (s : State), s.dev.mode ≠ 0 → (path = .bar0 ∨ path = .reg) → s.guard.lockedOut =
      false → value ≠ 0x4d494c4b → s.guard.wrongRun = 7 → exec (.csrKey path value) s = .next (s.settledFrom
      { s with guard := { unlocked := false, lockedOut := true, wrongRun := 8, lockoutEvt := true, wrongKeys := saturate 16 (s.guard.wrongKeys + 1) }, dev := ((s.dev.hbCount 7 1).hbCount 8 1).secEvent s.time.now 1 })) ∧
  (∀ (path : AccessPath) (value : BitVec 32) (s : State), s.dev.mode ≠ 0 → (path = .bar0 ∨ path = .reg) → s.guard.lockedOut = true
      → exec (.csrKey path value) s = .next (s.settledFrom s)) ∧
  (∀ (path : AccessPath) (value : BitVec 32) (s : State), s.dev.pathOpen path = true → (path = .cp ∨ path = .jtag) → exec (.csrKey
      path value) s = .next (s.settledFrom s))

/-- Registers by command: SECURITY_STATUS, REG_READ, REG_WRITE, DIR_READ, mailbox buffer writes and alias writes -/
def Obligations.RegisterCommands : Prop :=
  (∀ (h : SilekHdr) (s : State) (d : Dev) (i : CmdInfo), d = s.begun.dev → i = .of 0x720 0 (.securityStatus h.key) → s.admits h i
      = true → exec (.securityStatus h) s = .next (s.begun.answered h i .ok (((List.range 8).map (fun w => leBytes 4
      (s.begun.plainWord (0xc000 + 4 * w)))).flatten))) ∧
  (∀ (h : SilekHdr) (off count : Nat) (s u : State) (i : CmdInfo), i = .of 0x801 0 (.regRead h.key off count) → s.admits h i =
      true → 1 ≤ count → count ≤ 256 → off % 4 = 0 → off + 4 * count ≤ 0x4000000 → u = (State.regWords count off s.begun).2 → exec
      (.regRead h off count) s = .next (s.settledFrom (u.answered h i .ok (State.regWords count off s.begun).1))) ∧
  (∀ (h : SilekHdr) (off value : Nat) (s u : State) (i : CmdInfo), i = .of 0x802 0 (.regWrite h.key off value) → s.admits h i =
      true → off % 4 = 0 → off < 0x4000000 → value < 2 ^ 32 → s.begun.dev.badRoute off (2 ^ 32 - 1) value = false → u =
      s.settledFrom ((s.begun.writeAccess State.ringMark .reg off 4 value).answered h i .ok []) → u.dev.ringFree 64 = false → exec
      (.regWrite h off value) s = .next u) ∧
  (∀ (h : SilekHdr) (slice set : Nat) (s : State) (d : Dev) (i : CmdInfo), d = s.begun.dev → i = .of 0x820 0 (.dirRead h.key slice
      set) → s.admits h i = true → slice ≤ 31 → set ≤ 4095 → exec (.dirRead h slice set) s = .next (s.begun.answered h i .ok
      (d.dirWays slice set))) ∧
  (∀ (path : AccessPath) (off size : Nat) (value : BitVec 64) (s u : State), s.dev.pathOpen path = true → 0xa100 ≤ off → off <
      0xb000 → off % 4 = 0 → size = 4 → s.dev.flag (Mbx.BUSY 64) = false → s.dev.calm = true → s.dev.ringFree 64 = false → u =
      { s with mem := (List.range 4).foldl (fun (m : Memory) k => Memory.write m (Mailbox.cell 64 (off - 0xa000) + k) (BitVec.ofNat 8 (value.toNat % 2 ^ 32 / 2 ^ (8 * k)))) s.mem }
      → exec (.registerWrite path off size value) s = .next (s.settledFrom u)) ∧
  (∀ (path : AccessPath) (off a b : Nat) (value : BitVec 32) (s u : State), s.dev.pathOpen path = true → 0x2000000 ≤ off → off <
      0x4000000 → off % 4 = 0 → a = (aliasOf off).1 → b = (aliasOf off).2 → u = s.settledFrom (s.aliasWrite State.ringMark path a b
      (value.toNat % 2)) → u.dev.ringFree 64 = false → exec (.bitAliasWrite path off value) s = .next u)

/-- Mailbox doorbells, message segments, replies and resending -/
def Obligations.MessageEvents : Prop :=
  (∀ (mb : Fin 65) (bs : List Byte) (s u : State) (h : SilekHdr) (i : CmdInfo), bs = Memory.readBytes s.mem (Mailbox.cell mb
      0x100) 16 → 2 ≤ s.dev.mode → s.dev.flag (Mbx.BUSY mb) = false → (s.dev.raise1 (Mbx.DOORBELL mb)).ringFree mb = true → leNat
      (Memory.readBytes s.mem (Mailbox.cell mb 0x10a) 2) = 0 → isReplyMessage bs = false → byteField bs 2 2 = 0x101 → u = s.withDev
      (((s.dev.raise1 (Mbx.DOORBELL mb)).wrFlag (Mbx.DOORBELL mb) false).raise1 (Mbx.BUSY mb)) → h = headerOf (if (mb : Nat) = 64
      then .mgmt else .host mb) false false bs → i = .of 0x101 0 (.silekVersion h.key) → u.admits h i = true → exec (.doorbell mb) s
      = .next (u.begun.answered h i .ok versionPayload)) ∧
  (∀ (l : ChainLine) (f : ChainFrame) (tag index last src dst epoch : Nat) (reply : Bool) (bytes : List Byte) (s : State), f =
      chainFrameOf l dst src epoch (.silek (chainSegment index last tag reply bytes)) → segmentFits (.chain l src dst epoch) index
      last bytes = true → s.dev.mode ≠ 0 → l.crc = f.crc 5 → l.type = 5 → l.bcast = false → dst ≠ s.dev.chainAddr → s.dev.atEnd
      l.reverse = false → l.hops.val < 15 → exec (.silekSegment (.chain l src dst epoch) tag index last reply bytes) s = .next
      (s.withDev (s.dev.emit (.chain { f with hops := f.hops + 1 })))) ∧
  (∀ (l : ChainLine) (f : ChainFrame) (tag index last src dst epoch : Nat) (reply : Bool) (bytes : List Byte) (s : State), f =
      chainFrameOf l dst src epoch (.silek (chainSegment index last tag reply bytes)) → segmentFits (.chain l src dst epoch) index
      last bytes = true → s.dev.mode ≠ 0 → l.crc ≠ f.crc l.type.toNat → exec (.silekSegment (.chain l src dst epoch) tag index last
      reply bytes) s = .next (s.withDev { s.dev with memb := { s.dev.memb with crcDrops := s.dev.memb.crcDrops + 1 } })) ∧
  (∀ (l : ChainLine) (f : ChainFrame) (tag last src dst epoch : Nat) (reply : Bool) (bytes : List Byte) (s : State) (k : Silek), f
      = chainFrameOf l dst src epoch (.silek (chainSegment 0 last tag reply bytes)) → l.crc = f.crc 5 → l.type = 5 → l.bcast = false
      → k = s.dev.silek → 1 ≤ last → last ≤ 3 → bytes.length = 1020 → s.dev.mode ≠ 0 → dst = s.dev.chainAddr → k.partials = [] →
      exec (.silekSegment (.chain l src dst epoch) tag 0 last reply bytes) s = .next (s.withDev
      { s.dev with silek := { k with partials := [{ src := src, tag := tag, reply := reply, vc5 := false, next := 1, last := last, bytes := bytes }] } })) ∧
  (∀ (via : SegPath) (tag index last : Nat) (reply : Bool) (bytes : List Byte) (s : State), segmentFits via index last bytes =
      false → exec (.silekSegment via tag index last reply bytes) s = .fault .illFormed) ∧
  (∀ (src : Nat) (vc5 : Bool) (s : State) (d : Dev) (l : List Partial), d = s.dev → l = d.silek.partials.filter (fun x => decide
      (x.src = src ∧ x.vc5 = vc5)) → exec (.segmentTimeout src vc5) s = .next (s.withDev
      ({ d with silek := { d.silek with partials := d.silek.partials.filter (fun x => decide ¬ (x.src = src ∧ x.vc5 = vc5)), segmentDrops := d.silek.segmentDrops + l.length } }))) ∧
  (∀ (id : Nat) (c : SentCommand) (s : State) (d : Dev), d = s.dev → d.silek.sent = [c] → c.id = id → c.opcode ≠ 0x506 → c.dst <
      256 → c.resends < 3 → exec (.silekResend id) s = .next (s.settledFrom (s.withDev (Dev.sendOne s.time.now c
      { d with silek := { d.silek with sent := [{ c with resends := c.resends + 1, time := s.time.now }] } })))) ∧
  (∀ (qfl : QflHdr) (o : Outst) (s : State) (d : Dev) (f : Dev), d = s.dev → f = (d.matchResponse s.time.now 5 3 qfl).1 →
      (d.matchResponse s.time.now 5 3 qfl).2 = some o → exec (.silekSegAck qfl) s = .next (s.settledFrom (s.withDev (f.closeOutst o
      {})))) ∧
  (∀ (req : Requester) (tag : Nat) (s : State) (d : Dev) (r : Running), d = s.dev → d.runningOf req = [r] → r.tag = tag →
      r.interim = false → tag < 65536 → req.mailbox = none → exec (.interimReply req tag) s = .next
      (({ s with dev := { d with silek := { d.silek with running := d.silek.running.map (fun x => if x = r then { r with interim := true } else x) } } }).answer
      req r.opcode tag r.minor r.src 3 .inProgress []))

/-- Requests of hosts -/
def Obligations.HostRequests : Prop :=
  (∀ (port : Fin 64) (tag hpa keep : Nat) (vi : Nat) (s : State) (d : Dev) (f : Dev), d = s.dev → f =
      ({ d with edge := { d.edge with credits := Tab.put d.edge.credits port (Tab.getD d.edge.credits port 0 - 1) 0 } } : Dev) →
      f.flaws = [] → f.isHostPort port = true → f.linkUp port = true → f.rd (Pg.IDE_STATE port) ≠ 3 → f.trafficVi port = some vi →
      f.rd (Vi.STATE vi) ≠ 0 → f.mustHold port vi (.memrd port tag hpa keep) d.stopped = false → exec (.memrd port tag hpa keep) s =
      .next (s.settledFrom (s.withDev (f.memRequest s.time.now port vi tag hpa (if keep = 1 then .rdShared else if keep = 2 then
      .rdOwn else .rdNc) 0 (BitVec.allOnes 64) 0 false)))) ∧
  (∀ (port : Fin 64) (tag hpa keep : Nat) (vi : Nat) (s : State) (d : Dev) (f : Dev), d = s.dev → f =
      ({ d with edge := { d.edge with credits := Tab.put d.edge.credits port (Tab.getD d.edge.credits port 0 - 1) 0 } } : Dev) →
      f.flaws = [] → f.isHostPort port = true → f.linkUp port = true → f.rd (Pg.IDE_STATE port) ≠ 3 → f.trafficVi port = some vi →
      f.rd (Vi.STATE vi) ≠ 0 → f.mustHold port vi (.meminv port tag hpa keep) d.stopped = false → exec (.meminv port tag hpa keep) s
      = .next (s.settledFrom (s.withDev (f.memRequest s.time.now port vi tag hpa (if keep = 2 then .invOwn else .flush) 0
      (BitVec.allOnes 64) 0 false)))) ∧
  (∀ (port : Fin 64) (tag hpa : Nat) (vi : Nat) (s : State) (d : Dev) (f : Dev), d = s.dev → f =
      ({ d with edge := { d.edge with credits := Tab.put d.edge.credits port (Tab.getD d.edge.credits port 0 - 1) 0 } } : Dev) →
      f.flaws = [] → f.isHostPort port = true → f.linkUp port = true → f.rd (Pg.IDE_STATE port) ≠ 3 → f.trafficVi port = some vi →
      f.rd (Vi.STATE vi) ≠ 0 → f.mustHold port vi (.memclnevct port tag hpa) d.stopped = false → exec (.memclnevct port tag hpa) s =
      .next (s.settledFrom (s.withDev (f.memRequest s.time.now port vi tag hpa .evictClean 0 (BitVec.allOnes 64) 0 false)))) ∧
  (∀ (port : Fin 64) (tag hpa keep : Nat) (be : Enables) (data : Line) (poison : Bool) (vi : Nat) (s : State) (d : Dev) (f : Dev),
      d = s.dev → f =
      ({ d with edge := { d.edge with credits := Tab.put d.edge.credits port (Tab.getD d.edge.credits port 0 - 1) 0 } } : Dev) →
      f.flaws = [] → f.isHostPort port = true → f.linkUp port = true → f.rd (Pg.IDE_STATE port) ≠ 3 → f.trafficVi port = some vi →
      f.rd (Vi.STATE vi) ≠ 0 → f.mustHold port vi (.memwr port tag hpa keep be data poison) d.stopped = false → exec (.memwr port
      tag hpa keep be data poison) s = .next (s.settledFrom (s.withDev (f.memRequest s.time.now port vi tag hpa .wrNc keep be data
      poison)))) ∧
  (∀ (port : Fin 64) (hpa : Nat) (vi : Nat) (fa kind : Nat) (s : State) (d : Dev) (f : Dev), d = s.dev → f =
      ({ d with edge := { d.edge with credits := Tab.put d.edge.credits port (Tab.getD d.edge.credits port 0 - 1) 0 } } : Dev) →
      f.flaws = [] → f.isHostPort port = true → f.linkUp port = true → f.rd (Pg.IDE_STATE port) ≠ 3 → f.trafficVi port = some vi →
      f.rd (Vi.STATE vi) ≠ 0 → f.mustHold port vi (.memspecrd port hpa) d.stopped = false → f.serves = true → (f.mon s.time.now 54
      0x601 (f.portMaster port vi) hpa).decode vi hpa = some (fa, kind) → exec (.memspecrd port hpa) s = .next (s.settledFrom
      (s.withDev (((f.mon s.time.now 54 0x601 (f.portMaster port vi) hpa).gateCheck s.time.now
      { space := 0, vi := 0, master := (f.mon s.time.now 54 0x601 (f.portMaster port vi) hpa).portMaster port vi, addr := fa } 1
      7).1)))) ∧
  (∀ (port : Fin 64) (tag addr len : Nat) (vi : Nat) (x : Nat) (s : State) (d : Dev) (f : Dev), d = s.dev → f =
      ({ d with edge := { d.edge with credits := Tab.put d.edge.credits port (Tab.getD d.edge.credits port 0 - 1) 0 } } : Dev) →
      f.flaws = [] → f.isHostPort port = true → f.linkUp port = true → f.rd (Pg.IDE_STATE port) ≠ 3 → f.trafficVi port = some vi →
      f.rd (Vi.STATE vi) ≠ 0 → f.mustHold port vi (.mrd port tag addr len) d.stopped = false → f.ioAddr port vi addr = some x → exec
      (.mrd port tag addr len) s = .next (s.settledFrom (s.withDev (f.ioRequest s.time.now port vi tag x len 0 [] false none)))) ∧
  (∀ (port : Fin 64) (addr : Nat) (data : List Byte) (relaxed poison : Bool) (vi : Nat) (x : Nat) (s : State) (d : Dev) (f : Dev),
      d = s.dev → f =
      ({ d with edge := { d.edge with credits := Tab.put d.edge.credits port (Tab.getD d.edge.credits port 0 - 1) 0 } } : Dev) →
      f.flaws = [] → f.isHostPort port = true → f.linkUp port = true → f.rd (Pg.IDE_STATE port) ≠ 3 → f.trafficVi port = some vi →
      f.rd (Vi.STATE vi) ≠ 0 → f.mustHold port vi (.mwr port addr data relaxed poison) d.stopped = false → f.ioAddr port vi addr =
      some x → exec (.mwr port addr data relaxed poison) s = .next (s.settledFrom (s.withDev (f.ioRequest s.time.now port vi 0 x
      data.length 1 data poison none)))) ∧
  (∀ (port : Fin 64) (tag addr op size a b : Nat) (vi : Nat) (x : Nat) (s : State) (d : Dev) (f : Dev), d = s.dev → f =
      ({ d with edge := { d.edge with credits := Tab.put d.edge.credits port (Tab.getD d.edge.credits port 0 - 1) 0 } } : Dev) →
      f.flaws = [] → f.isHostPort port = true → f.linkUp port = true → f.rd (Pg.IDE_STATE port) ≠ 3 → f.trafficVi port = some vi →
      f.rd (Vi.STATE vi) ≠ 0 → f.mustHold port vi (.atomicop port tag addr op size a b) d.stopped = false → op = 1 → size = 8 →
      f.personality port = 1 → f.ioAddr port vi addr = some x → x % 8 = 0 → exec (.atomicop port tag addr op size a b) s = .next
      (s.settledFrom (s.withDev (f.ioRequest s.time.now port vi tag x 8 2 [] false (some { op := 1, a := a, b := b })))))

/-- Snoop responses, completions, acknowledgements and grants -/
def Obligations.HostResponses : Prop :=
  (∀ (port : Fin 64) (tag keeps : Nat) (x : HostSnoop) (tr : Tracker) (s : State) (d : Dev) (f : Dev) (h : HeldAnswer), d = s.dev
      → f =
      ({ d with edge := { d.edge with snoops := d.edge.snoops.filter (fun x => decide ¬ (x.port = (port : Nat) ∧ x.tag = tag)), answers := [] } }
      : Dev) → h = f.heldAnswer x (some keeps) → d.flaws = [] → d.carries port = true → d.snoopOf port tag = some x → d.edge.answers
      = [] → ({ f with edge := { f.edge with answers := [h] } } : Dev).answerFree h = true → f.tracker x.slice x.tracker = some tr →
      tr.snooped.contains x.slot = true → exec (.birsp port tag keeps) s = .next (s.settledFrom (s.withDev (f.snoopAnswered
      s.time.now tr x.slot keeps)))) ∧
  (∀ (port : Fin 64) (tag : Nat) (x : HostSnoop) (tr : Tracker) (s : State) (d : Dev) (f : Dev) (h : HeldAnswer), d = s.dev → f =
      ({ d with edge := { d.edge with answers := [] } } : Dev) → h = f.heldAnswer x none → d.carries port = true → d.snoopOf port
      tag = some x → d.edge.answers = [] → ({ f with edge := { f.edge with answers := [h] } } : Dev).answerFree h = true → f.isDead
      x.slot = false → f.tracker x.slice x.tracker = some tr → tr.writes = 0 → exec (.biconflict port tag) s = .next (s.settledFrom
      (s.withDev (f.emit (.host x.port (.biConflictAck x.tag)))))) ∧
  (∀ (port : Fin 64) (tag : Nat) (ok poison : Bool) (data : List Byte) (s : State) (d : Dev), d = s.dev → d.ladles.hostReads.any
      (fun x => decide (x.tag = tag) && decide (x.port = (port : Nat)) && decide (x.incarnation = d.rd (Pg.INCARNATION port))) =
      true → exec (.cxlIoCompletion port tag ok poison data) s = .next (s.settledFrom (s.withDev (d.later (.hostData tag ok poison
      data))))) ∧
  (∀ (port : Fin 64) (vport : Nat) (data : List Byte) (vi q : Nat) (s : State) (d : Dev), d = s.dev → d.linkUp port = true → d.rd
      (Pg.IDE_STATE port) ≠ 3 → d.isHostPort port = true → d.viOfPort port = some vi → Tab.get (d.instOf vi).type2 vport = some q →
      d.rd (Pg.CXL_GEN port) ≠ 1 → d.type2Up q = true → d.rd (Pg.IDE_STATE q) ≠ 3 → exec (.cxlCache port vport data) s = .next
      (s.settledFrom (s.withDev (d.emit (.device q (.forwarded data)))))) ∧
  (∀ (port : Fin 64) (function register value : Nat) (functionMask : Option Bool) (vi : Nat) (s : State) (d : Dev), d = s.dev →
      d.isHostPort port = true → d.carries port = true → d.viOfPort port = some vi → d.presents vi (function % 16) = true →
      functionMask = none → exec (.configurationWrite port function register value functionMask) s = .next (s.settledFrom (s.withDev
      ({ d with edge := { d.edge with config := Tab.set d.edge.config ((vi * 16 + function % 16) * 4096 + register % 4096) (configKept (function % 16) (register % 4096) (Tab.getD d.edge.config ((vi * 16 + function % 16) * 4096 + register % 4096) 0) value) } })))) ∧
  (∀ (port : Fin 64) (tag : Nat) (data : Line) (poison : Bool) (r : AgentReq) (s : State) (d : Dev) (f : Dev), d = s.dev → f =
      ({ d with agents := { d.agents with reads := d.agents.reads.erase r } } : Dev).mon s.time.now ((port : Nat) / 4) 0x102
      r.acc.master r.acc.fa → d.agents.reads.find? (fun x => decide (x.port = (port : Nat) ∧ x.id = tag)) = some r → r.incarnation =
      d.rd (Pg.INCARNATION port) → exec (.cxlMemReadData port tag data poison) s = .next (s.settledFrom (s.withDev (f.later (.ended
      r.cont { data := if poison = true then 0 else data, poison := poison }))))) ∧
  (∀ (port : Fin 64) (ld : Fin 16) (e : EgressEntry) (s : State) (d : Dev), d = s.dev → d.buf.entries.find? (fun x => decide
      (x.port = (port : Nat) ∧ x.ld = (ld : Nat) ∧ d.sentNow x = true)) = some e → exec (.cxlMemWriteCompletion port ld) s = .next
      (s.settledFrom (s.withDev (((d.dropEntry s.time.now e none).sendNext s.time.now port ld).later .recheck)))) ∧
  (∀ (port : Fin 64) (count : Nat) (e : EgressEntry) (s : State) (d : Dev), d = s.dev → count = 1 → d.buf.entries.find? (fun x =>
      decide (x.port = (port : Nat) ∧ d.sentNow x = true)) = some e → exec (.hostWriteAck port count) s = .next (s.settledFrom
      (s.withDev ((d.dropEntry s.time.now e none).later .recheck)))) ∧
  (∀ (port : Fin 64) (r : AgentReq) (s : State) (d : Dev), d = s.dev → (d.agents.queue.filter (fun x => decide (x.port = (port :
      Nat)) && d.grantable x)).find? (fun x => decide (x.acc.master / 4096 = 3)) = some r → exec (.memoryAgentGrant port) s = .next
      (s.settledFrom (s.withDev (d.grant s.time.now r))))

/-- What happens at the Churn by time and by the end of its reads -/
def Obligations.ChurnEvents : Prop :=
  (∀ (id : Nat) (r : Retry) (p g : Nat) (s : State) (d : Dev), d = s.dev → d.chn.retries.find? (fun x => decide (x.acc.id = id)) =
      some r → r.acc.origin = .mem p g → d.chn.trackers = [] → exec (.nakRetry id) s = .next (s.settledFrom (s.withDev
      (({ d with chn := { d.chn with retries := d.chn.retries.erase r } } : Dev).later (.launch r.acc))))) ∧
  (∀ (slice : Fin 32) (number : Fin 256) (k : Ticket) (a : Access) (s : State) (d : Dev), d = s.dev → d.chn.tickets.find? (fun x
      => decide (x.slice = (slice : Nat) ∧ x.number = (number : Nat))) = some k → k.waiting = some a → d.blocked slice a (some k) =
      0 → exec (.ticketAdmission slice number) s = .next (s.settledFrom (s.withDev
      (({ d with chn := { d.chn with tickets := d.chn.tickets.map (fun x => if x = k then { k with waiting := none } else x) } } :
      Dev).sliceAdmit s.time.now a)))) ∧
  (∀ (slice : Fin 32) (number : Fin 256) (k : Ticket) (s : State) (d : Dev), d = s.dev → d.chn.tickets.find? (fun x => decide
      (x.slice = (slice : Nat) ∧ x.number = (number : Nat))) = some k → k.waiting = none → d.chn.trackers = [] → exec (.ticketExpiry
      slice number) s = .next (s.settledFrom (s.withDev ((d.releaseTicket k).inc (ChurnR.TICKETS_EXPIRED slice))))) ∧
  (∀ (slice : Fin 32) (id : Fin 512) (tr : Tracker) (s : State) (d : Dev), d = s.dev → d.chn.waiting = [] → d.tracker slice id =
      some tr → tr.phase = .evict → tr.wayFor = none → tr.victim = none → tr.acc.isChurn = true → exec (.churnWayWait slice id) s =
      .next (s.settledFrom (s.withDev (d.takeWay s.time.now tr)))) ∧
  (∀ (slice : Fin 32) (id : Fin 512) (bad : Bool) (tr : Tracker) (s : State) (d : Dev), d = s.dev → bad = false → d.tracker slice
      id = some tr → tr.phase = .tier2 → d.findBucket tr.la = none → exec (.tier2BucketReadDone slice id bad) s = .next
      (s.settledFrom (s.withDev (d.looked s.time.now { tr with phase := .lookup })))) ∧
  (∀ (s : State) (d : Dev), d = s.dev → d.chn.zeroing = true → d.flag ChurnR.TIER2_EN = true → exec (.tier2ZeroingDone) s = .next
      (s.settledFrom (s.withDev ((({ d with chn := { d.chn with zeroing := false, tier2 := [] } } : Dev).raise1
      ChurnR.TIER2_ACTIVE).sinkWaiting s.time.now none)))) ∧
  (∀ (slot : Fin 64) (r : Reclaim) (s : State) (d : Dev) (f : Dev) (g : Dev) (x : Dev) (y : Dev), d = s.dev → f = (List.range
      32).foldl (fun (x : Dev) c => x.startWork s.time.now c) d → g =
      (({ (f.markDead slot false) with chn := { (f.markDead slot false).chn with reclaims := (f.markDead slot false).chn.reclaims.filter (fun x => decide (x.slot ≠ (slot : Nat))) } }
      : Dev)).raise1 ChurnR.RECLAIM_DONE_EVT → x = (g.finishDeaths s.time.now).post s.time.now 4 ((slot : Nat) + 2 ^ 32 * r.entries
      + 2 ^ 64 * r.lost) → y =
      ({ x with chn := { x.chn with reclaims := x.chn.reclaims.map (fun (z : Reclaim) => { z with scanned := true }) } } : Dev) →
      d.chn.reclaims = [r] → r.slot = (slot : Nat) → r.scanned = true → f.chn.reclaims = [r] → f.slotScanned slot = true →
      f.poisonPending = false → f.chn.mirrorWaits = [] → g.sharer slot = {} → exec (.reclaimDone slot) s = .next (s.settledFrom
      (s.withDev ((y.wrFlag ChurnR.RECLAIM_SCAN (!y.chn.reclaims.isEmpty)).startScan s.time.now)))) ∧
  (∀ (port : Fin 64) (s : State) (d : Dev), d = s.dev → d.chn.portReclaims = [{ port := port }] → d.extents = [] → (d.portReclaim
      s.time.now port) = d → exec (.devicePortReclaimDone port) s = .next (s.settledFrom (s.withDev
      ((({ d with chn := { d.chn with portReclaims := [] } } : Dev).portReclaimed s.time.now port).later .recheck))))

/-- Answers and releases of hosts, time limits and the end of migrations -/
def Obligations.CapacityEvents : Prop :=
  (∀ (port : Fin 64) (slots : List Nat) (vi k : Nat) (b : Binding) (s : State) (d : Dev), d = s.dev → d.dcInstance port = some vi
      → d.binder.hotPlug = [] → d.offersOf vi = [b] → slots = b.slots → b.slots = [k] → exec (.addDynamicCapacityResponse port
      slots) s = .next (s.settledFrom (s.withDev ((d.toHost vi (.dcResult vi true)).endBinding s.time.now b [k] false)))) ∧
  (∀ (port : Fin 64) (slots : List Nat) (vi k : Nat) (s : State) (d : Dev) (f : Dev) (g : Dev) (u : Unbinding), d = s.dev → f =
      d.toHost vi (.dcResult vi true) → g = f.post s.time.now 3 (vi + 2 ^ 32 * k) → u =
      { id := f.binder.nextId, vi := vi, slots := [k], waiting := [k], command := false, byHost := true, list := [(f.slot k).fx] } →
      d.dcInstance port = some vi → slots = [k] → (d.windowsOf vi).any (fun w => w.2.holds k) = true → (d.slot k).valid = true →
      f.binder.unbindings = [] → f.ownExtent (f.slot k).fx = true → exec (.releaseDynamicCapacity port slots) s = .next
      (s.settledFrom (s.withDev
      (({ g with binder := { g.binder with nextId := f.binder.nextId + 1, unbindings := g.binder.unbindings ++ [u] } } :
      Dev).releaseSlots s.time.now u [k])))) ∧
  (∀ (port : Fin 64) (vi : Nat) (s : State) (d : Dev), d = s.dev → d.dcInstance port = some vi → exec
      (.getDynamicCapacityExtentList port) s = .next (s.withDev (d.emit (.host port (.dcExtents vi (d.dcExtents vi)))))) ∧
  (∀ (id : Nat) (b : Binding) (s : State) (d : Dev), d = s.dev → d.binder.bindings.find? (fun x => decide (x.id = id ∧ x.member =
      0 ∧ x.asked = [])) = some b → exec (.bindHostTimeout id) s = .next (s.settledFrom (s.withDev (d.endBinding s.time.now b []
      true)))) ∧
  (∀ (id : Nat) (u : Unbinding) (k : Nat) (s : State) (d : Dev), d = s.dev → d.binder.unbindings.find? (fun x => decide (x.id =
      id)) = some u → u.waiting = [k] → ((d.setUnbinding { u with waiting := [], timedOut := true }).clearUnbinding (d.slot
      k).fx).acting = false → exec (.releaseHostTimeout id) s = .next (s.settledFrom (s.withDev (((d.setUnbinding
      { u with waiting := [], timedOut := true }).clearUnbinding (d.slot k).fx).unbindEnd s.time.now
      { u with waiting := [], timedOut := true })))) ∧
  (∀ (id : Nat) (u : Unbinding) (y : Nat × Nat) (s : State) (d : Dev), d = s.dev → d.binder.unbindings.find? (fun x => decide
      (x.id = id)) = some u → u.finishing = [y] → d.drained u.vi y.2 = true → d.scanClean u.vi y.2 = true → d.ownExtent y.2 = true →
      exec (.unbindScanComplete id) s = .next (s.settledFrom (s.withDev ((((d.setUnbinding { u with finishing := [] }).dropBinding
      s.time.now ((d.setUnbinding { u with finishing := [] }).whose { u with finishing := [] }) u.zero y.2).clearUnbinding
      y.2).unbindEnd s.time.now { u with finishing := [] })))) ∧
  (∀ (index : Fin 32) (m : Migration) (s : State) (d : Dev) (f : Dev), d = s.dev → f = ((d.setExt m.source
      { d.ext m.source with port := (d.ext m.dest).port, ld := (d.ext m.dest).ld, dpaUnit := (d.ext m.dest).dpaUnit, poisonCapable := (d.ext m.dest).poisonCapable, migrating := false, migIndex := 0 }).setExt
      m.dest
      { d.ext m.dest with port := (d.ext m.source).port, ld := (d.ext m.source).ld, dpaUnit := (d.ext m.source).dpaUnit, poisonCapable := (d.ext m.source).poisonCapable, migrating := false, migIndex := 0, state := 2 }).releaseHeld
      index → Tab.get d.binder.migrations index = some m → m.phase = 2 → d.dualsOpen m.source = false → d.lostWork m.source = false
      → m.zero = false → d.ladles.runs = [] → f.ladles.runs = [] → exec (.migrationComplete index) s = .next (s.settledFrom
      (s.withDev
      ((({ f with binder := { f.binder with migrations := Tab.erase f.binder.migrations index }, ladles := { f.ladles with runs := [] } }
      : Dev).finish s.time.now (fun w => decide (w = .migrate m.source)) .ok []).later .recheck))))

/-- Events of CXL ports -/
def Obligations.PortEvents : Prop :=
  (∀ (port : Fin 64) (s : State) (d : Dev), d = s.dev → exec (.removal port) s = .next (s.settledFrom (s.withDev (d.removePort
      s.time.now port)))) ∧
  (∀ (port : Fin 64) (tag : Nat) (s : State) (d : Dev), d = s.dev → (d.snoopOf port tag).isSome = true → exec (.snoopTimeout port
      tag) s = .next (s.settledFrom (s.withDev (d.removePort s.time.now port)))) ∧
  (∀ (port : Fin 64) (s : State) (d : Dev), d = s.dev → d.buf.entries.any (fun x => decide (x.port = (port : Nat))) = true → exec
      (.targetTimeout port) s = .next (s.settledFrom (s.withDev (d.removePort s.time.now port)))) ∧
  (∀ (port : Fin 64) (present : Bool) (s : State) (d : Dev), d = s.dev → d.present port = true → present = true → exec
      (.presenceDebounce port present) s = .next (s.settledFrom (s.withDev ((d.setPort port
      { d.port port with presentIn := true }).wrFlag (Pg.PRESENT port) true)))) ∧
  (∀ (port : Fin 64) (present : Bool) (s : State) (d : Dev), d = s.dev → d.present port = true → present = false → exec
      (.presenceDebounce port present) s = .next (s.settledFrom (s.withDev (((d.setPort port
      { d.port port with presentIn := false }).wrFlag (Pg.PRESENT port) false).removePort s.time.now port)))) ∧
  (∀ (port : Fin 64) (s : State) (d : Dev), d = s.dev → (d.port port).removed = true → exec (.slotSettleExpiry port) s = .next
      (s.withDev (d.wr (Pg.SETTLE_REMAINING port) 0))) ∧
  (∀ (port : Fin 64) (s : State) (d : Dev) (n : Nat), d = s.dev → n = (d.rd (Pg.INCARNATION port) + 1) % 65536 → (d.port
      port).removed = true → d.flag (Pg.RECLAIM_BUSY port) = false → d.rd (Pg.SETTLE_REMAINING port) = 0 → d.agents.reads = [] →
      exec (.portAdmit port) s = .next (s.withDev (((((d.wr (Pg.INCARNATION port) n).wrFlag (Pg.SETTLING port) false).wrFlag
      (Pg.ADMIT_HELD port) false).setPort port { d.port port with removed := false, admitted := true }).post s.time.now 0xa ((port :
      Nat) + 2 ^ 8 + 2 ^ 16 * n)))) ∧
  (∀ (port : Fin 64) (gen rate width : Nat) (flit256 latencyOpt poisonCapable : Bool) (capacity : List Nat) (type2 : Bool) (s :
      State) (d : Dev) (f : Dev), d = s.dev → f = (((((d.raise1 (Pg.DL_UP port)).wr (Pg.RATE port) (min (min rate (d.rd
      (Pg.CXL_MAX_RATE ((port : Nat) / 4)))) 6)).wr (Pg.WIDTH port) (max 1 (min width (2 ^ d.widthCfg port)))).wr (Pg.CXL_GEN port)
      3).wrFlag (Pg.FLIT_256 port) true).wrFlag (Pg.LATENCY_OPT port) false → d.isHostPort port = true → d.linkUp port = false → 3 ≤
      d.mode → d.flag (Pg.POWERED ((port : Nat) / 4)) = true → (d.port port).disabled = false → d.scanHolds = false → (d.port
      port).removed = false → (d.port port).admitted = true → d.isDevicePort port = false → gen = 3 → flit256 = true → latencyOpt =
      false → f.isHostPort port = true → f.isDevicePort port = false → (f.setPort port
      { d.port port with lastGen := 3, poisonCapable := false, capacity := [], type2 := type2 }).isDevicePort port = false → exec
      (.cxlLinkUp port gen rate width flit256 latencyOpt poisonCapable capacity type2) s = .next (s.settledFrom (s.withDev
      ((f.setPort port { d.port port with lastGen := 3, poisonCapable := false, capacity := [], type2 := type2 }).later (.takeHeld
      port))))) ∧
  (∀ (port : Fin 64) (s : State) (d : Dev), d = s.dev → d.isHostPort port = true → d.linkUp port = false → d.flag (Pg.PRESENT
      port) = true → (d.port port).admitted = true → (d.port port).disabled = false → exec (.trainingRetry port) s = .next
      (s.withDev (d.countPort port .training))) ∧
  (∀ (port : Fin 64) (s : State) (d : Dev), d = s.dev → d.perstMay port = true → (d.port port).perstHigh = false → exec
      (.perstRelease port) s = .next (s.withDev ((d.setPort port { d.port port with perstHigh := true }).emit (.pin (.perst port)
      true)))) ∧
  (∀ (port : Fin 64) (s : State) (d : Dev), d = s.dev → d.isHostPort port = true → exec (.hostPerst port) s = .next (s.settledFrom
      (s.withDev (d.removePort s.time.now port)))) ∧
  (∀ (port : Fin 64) (s : State) (d : Dev), d = s.dev → d.carries port = true → d.isHostPort port = true → d.presentsPort port =
      true → exec (.ptmRequest port) s = .next (s.withDev (d.emit (.host port (.ptmResponse s.time.now)))))

/-- Requests of peers over the fabric -/
def Obligations.PeerRequests : Prop :=
  (∀ (h : QflHdr) (w : ReqWord) (s : State) (d : Dev) (f : Dev) (g : Access × Dev), d = s.dev → f = (d.receiveFiltered s.time.now
      0 1 h).1 → g = f.peerAccess s.time.now 1 h w (BitVec.allOnes 64) 0 none → (d.receiveFiltered s.time.now 0 1 h).2 = true →
      f.stopped = false → g.2.isHome w.addr = true → g.2.serves = true → exec (.prdShared h w) s = .next (s.settledFrom (s.withDev
      (g.2.later (.launch g.1))))) ∧
  (∀ (h : QflHdr) (w : ReqWord) (s : State) (d : Dev) (f : Dev) (g : Access × Dev), d = s.dev → f = (d.receiveFiltered s.time.now
      0 2 h).1 → g = f.peerAccess s.time.now 2 h w (BitVec.allOnes 64) 0 none → (d.receiveFiltered s.time.now 0 2 h).2 = true →
      f.stopped = false → g.2.isHome w.addr = true → g.2.serves = true → exec (.prdOwn h w) s = .next (s.settledFrom (s.withDev
      (g.2.later (.launch g.1))))) ∧
  (∀ (h : QflHdr) (w : ReqWord) (s : State) (d : Dev) (f : Dev) (g : Access × Dev), d = s.dev → f = (d.receiveFiltered s.time.now
      0 3 h).1 → g = f.peerAccess s.time.now 3 h w (BitVec.allOnes 64) 0 none → (d.receiveFiltered s.time.now 0 3 h).2 = true →
      f.stopped = false → g.2.isHome w.addr = true → g.2.serves = true → exec (.pinvOwn h w) s = .next (s.settledFrom (s.withDev
      (g.2.later (.launch g.1))))) ∧
  (∀ (h : QflHdr) (w : ReqWord) (s : State) (d : Dev) (f : Dev) (g : Access × Dev), d = s.dev → f = (d.receiveFiltered s.time.now
      0 4 h).1 → g = f.peerAccess s.time.now 4 h w (BitVec.allOnes 64) 0 none → (d.receiveFiltered s.time.now 0 4 h).2 = true →
      f.stopped = false → g.2.isHome w.addr = true → g.2.serves = true → exec (.pflush h w) s = .next (s.settledFrom (s.withDev
      (g.2.later (.launch g.1))))) ∧
  (∀ (h : QflHdr) (w : ReqWord) (s : State) (d : Dev) (f : Dev) (g : Access × Dev), d = s.dev → f = (d.receiveFiltered s.time.now
      0 5 h).1 → g = f.peerAccess s.time.now 5 h w (BitVec.allOnes 64) 0 none → (d.receiveFiltered s.time.now 0 5 h).2 = true →
      f.stopped = false → g.2.isHome w.addr = true → g.2.serves = true → exec (.pevict h w) s = .next (s.settledFrom (s.withDev
      (g.2.later (.launch g.1))))) ∧
  (∀ (h : QflHdr) (w : ReqWord) (data : Line) (s : State) (d : Dev) (f : Dev) (g : Access × Dev), d = s.dev → f =
      (d.receiveFiltered s.time.now 0 6 h).1 → g = f.peerAccess s.time.now 6 h w (BitVec.allOnes 64) data none → (d.receiveFiltered
      s.time.now 0 6 h).2 = true → f.stopped = false → g.2.isHome w.addr = true → g.2.serves = true → exec (.pwb h w data) s = .next
      (s.settledFrom (s.withDev (g.2.later (.launch g.1))))) ∧
  (∀ (h : QflHdr) (w : ReqWord) (s : State) (d : Dev) (f : Dev) (g : Access × Dev), d = s.dev → f = (d.receiveFiltered s.time.now
      0 7 h).1 → g = f.peerAccess s.time.now 7 h w (BitVec.allOnes 64) 0 none → (d.receiveFiltered s.time.now 0 7 h).2 = true →
      f.stopped = false → g.2.isHome w.addr = true → g.2.serves = true → exec (.qflRdNc h w) s = .next (s.settledFrom (s.withDev
      (g.2.later (.launch g.1))))) ∧
  (∀ (h : QflHdr) (w : ReqWord) (be : Enables) (data : Line) (s : State) (d : Dev) (f : Dev) (g : Access × Dev), d = s.dev → f =
      (d.receiveFiltered s.time.now 0 8 h).1 → g = f.peerAccess s.time.now 8 h w be data none → (d.receiveFiltered s.time.now 0 8
      h).2 = true → f.stopped = false → g.2.isHome w.addr = true → g.2.serves = true → exec (.qflWrNc h w be data) s = .next
      (s.settledFrom (s.withDev (g.2.later (.launch g.1))))) ∧
  (∀ (h : QflHdr) (w : ReqWord) (op a b : Nat) (s : State) (d : Dev) (f : Dev) (g : Access × Dev), d = s.dev → f =
      (d.receiveFiltered s.time.now 0 9 h).1 → g = f.peerAccess s.time.now 9 h w (BitVec.allOnes 64) 0 (some
      { op := op, a := a, b := b }) → (d.receiveFiltered s.time.now 0 9 h).2 = true → f.stopped = false → g.2.isHome w.addr = true →
      g.2.serves = true → 1 ≤ op → op ≤ 4 → w.addr % ({ op := op, a := a, b := b } : AtomArgs).size = 0 → exec (.qflAtomic h w op a
      b) s = .next (s.settledFrom (s.withDev (g.2.later (.launch g.1))))) ∧
  (∀ (h : QflHdr) (w : ReqWord) (s : State) (d : Dev) (f : Dev) (g : Access × Dev), d = s.dev → f = (d.receiveFiltered s.time.now
      0 10 h).1 → g = f.peerAccess s.time.now 10 h w (BitVec.allOnes 64) 0 none → (d.receiveFiltered s.time.now 0 10 h).2 = true →
      g.2.isHome w.addr = true → g.2.trackerOn (lineAddr w.addr) = none → exec (.plost h w) s = .next (s.settledFrom (s.withDev
      (g.2.later (.launch g.1)))))

/-- Recalls at a proxy, responses, and time limits of transactions -/
def Obligations.RecallsAndResponses : Prop :=
  (∀ (h : QflHdr) (addr : Nat) (s : State) (d : Dev) (f : Dev) (w : ChurnWork), d = s.dev → f = (d.receiveFiltered s.time.now 1 1
      h).1 → w =
      { slice := sliceOf (lineAddr addr), acc := { id := f.newId.1, kind := .recall, origin := .churn 0, master := h.master, fa := laFa (lineAddr addr), keep := 0, time := s.time.now }, la := lineAddr addr, reply := some (h.src, h.tag, h.e2e) }
      → (d.receiveFiltered s.time.now 1 1 h).2 = true → f.homeLine (lineAddr addr) = false → exec (.recallInv h addr) s = .next
      (s.settledFrom (s.withDev (((f.newId.2.churnWork w).proxyYield s.time.now (lineAddr addr)).later (.lineFree (sliceOf (lineAddr
      addr)) (lineAddr addr)))))) ∧
  (∀ (h : QflHdr) (addr : Nat) (s : State) (d : Dev) (f : Dev) (w : ChurnWork), d = s.dev → f = (d.receiveFiltered s.time.now 1 2
      h).1 → w =
      { slice := sliceOf (lineAddr addr), acc := { id := f.newId.1, kind := .recall, origin := .churn 0, master := h.master, fa := laFa (lineAddr addr), keep := 1, time := s.time.now }, la := lineAddr addr, reply := some (h.src, h.tag, h.e2e) }
      → (d.receiveFiltered s.time.now 1 2 h).2 = true → f.homeLine (lineAddr addr) = false → exec (.recallData h addr) s = .next
      (s.settledFrom (s.withDev (((f.newId.2.churnWork w).proxyYield s.time.now (lineAddr addr)).later (.lineFree (sliceOf (lineAddr
      addr)) (lineAddr addr)))))) ∧
  (∀ (h : QflHdr) (addr : Nat) (s : State) (d : Dev) (f : Dev) (w : ChurnWork), d = s.dev → f = (d.receiveFiltered s.time.now 1 3
      h).1 → w =
      { slice := sliceOf (lineAddr addr), acc := { id := f.newId.1, kind := .recall, origin := .churn 0, master := h.master, fa := laFa (lineAddr addr), keep := 2, time := s.time.now }, la := lineAddr addr, reply := some (h.src, h.tag, h.e2e) }
      → (d.receiveFiltered s.time.now 1 3 h).2 = true → f.homeLine (lineAddr addr) = false → exec (.recallCur h addr) s = .next
      (s.settledFrom (s.withDev (((f.newId.2.churnWork w).proxyYield s.time.now (lineAddr addr)).later (.lineFree (sliceOf (lineAddr
      addr)) (lineAddr addr)))))) ∧
  (∀ (h : QflHdr) (grant : Nat) (error : Bool) (o : Outst) (s : State) (d : Dev) (f : Dev), d = s.dev → f = (d.matchResponse
      s.time.now 2 1 h).1 → (d.matchResponse s.time.now 2 1 h).2 = some o → exec (.cmp h grant error) s = .next (s.settledFrom
      (s.withDev (f.closeOutst o { grant := grant, bare := true, poison := error, ending := endingOf error })))) ∧
  (∀ (h : QflHdr) (cause hint : Nat) (ticket : Option Nat) (o : Outst) (a : Access) (s : State) (d : Dev) (f : Dev), d = s.dev → f
      = (d.matchResponse s.time.now 2 2 h).1 → (d.matchResponse s.time.now 2 2 h).2 = some o → o.cont = .direct a → cause ≠ 0 → exec
      (.qflNak h cause hint ticket) s = .next (s.settledFrom (s.withDev
      ({ f with chn := { f.chn with retries := f.chn.retries ++ [{ acc := { a with naks := min 3 (a.naks + 1), ticket := ticket }, hint := hint }] } })))) ∧
  (∀ (h : QflHdr) (grant : Nat) (o : Outst) (s : State) (d : Dev) (f : Dev), d = s.dev → f = (d.matchResponse s.time.now 2 3 h).1
      → (d.matchResponse s.time.now 2 3 h).2 = some o → exec (.recallRsp h grant) s = .next (s.settledFrom (s.withDev (f.closeOutst
      o { grant := grant, bare := true })))) ∧
  (∀ (h : QflHdr) (grant : Nat) (poison error : Bool) (data : Line) (o : Outst) (s : State) (d : Dev) (f : Dev), d = s.dev → f =
      (d.matchResponse s.time.now 3 1 h).1 → (d.matchResponse s.time.now 3 1 h).2 = some o → exec (.dataMsg h grant poison error
      data) s = .next (s.settledFrom (s.withDev (f.closeOutst o
      { data := data, poison := poison || error, grant := grant, ending := endingOf error })))) ∧
  (∀ (h : QflHdr) (grant : Nat) (poison : Bool) (data : Line) (o : Outst) (s : State) (d : Dev) (f : Dev), d = s.dev → f =
      (d.matchResponse s.time.now 3 2 h).1 → (d.matchResponse s.time.now 3 2 h).2 = some o → exec (.recallDataRsp h grant poison
      data) s = .next (s.settledFrom (s.withDev (f.closeOutst o { data := data, poison := poison, grant := grant })))) ∧
  (∀ (h : QflHdr) (poison error : Bool) (value : Nat) (o : Outst) (s : State) (d : Dev) (f : Dev), d = s.dev → f =
      (d.matchResponse s.time.now 3 3 h).1 → (d.matchResponse s.time.now 3 3 h).2 = some o → exec (.atomicRsp h poison error value)
      s = .next (s.settledFrom (s.withDev (f.closeOutst o
      { data := BitVec.ofNat 512 (value % 2 ^ 128), poison := poison || error, ending := endingOf error })))) ∧
  (∀ (h : QflHdr) (cause : Nat) (o : Outst) (s : State) (d : Dev) (f : Dev), d = s.dev → f = (d.matchResponse s.time.now 2 255
      h).1 → (d.matchResponse s.time.now 2 255 h).2 = some o → cause ≠ 0 → exec (.msgError h cause) s = .next (s.settledFrom
      (s.withDev (f.closeOutst o { poison := true, ending := .errorResponse })))) ∧
  (∀ (dst tag : Nat) (o : Outst) (s : State) (d : Dev) (f : Dev), d = s.dev → f = d.inc (Qfab.TIMEOUTS (dst - 1)) →
      d.fab.outstanding.find? (fun x => decide (x.dst = dst ∧ x.tag = tag)) = some o → 1 ≤ dst → dst ≤ 16 → o.vc ≠ 4 → exec
      (.transactionTimeout dst tag) s = .next (s.settledFrom (s.withDev
      ((({ f with fab := { f.fab with outstanding := f.fab.outstanding.erase o } } : Dev).sendWaiting s.time.now).closeOutst o
      { poison := true, ending := .timedOut }))))

/-- The mirror channel and the end of a resynchronisation -/
def Obligations.MirrorChannel : Prop :=
  (∀ (h : QflHdr) (location : BitVec 64) (entry : BitVec 128) (s : State) (d : Dev) (f : Dev), d = s.dev → f = (d.receiveFiltered
      s.time.now 4 1 h).1 → (d.receiveFiltered s.time.now 4 1 h).2 = true → f.mode = 6 → exec (.mirEntry h location entry) s = .next
      (s.settledFrom (s.withDev (f.mirEntryIn s.time.now h location.toNat entry.toNat)))) ∧
  (∀ (h : QflHdr) (word : BitVec 64) (units : List (BitVec 64)) (s : State) (d : Dev) (f : Dev), d = s.dev → f =
      (d.receiveFiltered s.time.now 4 2 h).1 → (d.receiveFiltered s.time.now 4 2 h).2 = true → f.mode = 6 → exec (.mirState h word
      units) s = .next (s.settledFrom (s.withDev ((f.mirRecord (fieldOf word.toNat 0 8) (fieldOf word.toNat 27 5) (fieldOf
      word.toNat 8 19) (units.foldr (fun (u : BitVec 64) v => u.toNat + 2 ^ 64 * v) 0)).mirAck s.time.now h)))) ∧
  (∀ (h : QflHdr) (location : BitVec 64) (data : Line) (s : State) (d : Dev) (f : Dev), d = s.dev → f = (d.receiveFiltered
      s.time.now 4 4 h).1 → (d.receiveFiltered s.time.now 4 4 h).2 = true → f.mode = 6 → exec (.mirBucket h location data) s = .next
      (s.settledFrom (s.withDev (f.mirBucketIn s.time.now h location.toNat data)))) ∧
  (∀ (h : QflHdr) (count : Nat) (s : State) (d : Dev) (f : Dev), d = s.dev → f = (d.receiveFiltered s.time.now 4 5 h).1 →
      (d.receiveFiltered s.time.now 4 5 h).2 = true → f.mode = 6 → exec (.mirClose h count) s = .next (s.settledFrom (s.withDev
      ((({ f with memb := { f.memb with synced := true } } : Dev).wr Memb.RESYNC_COPIED (min 2097152 count)).mirAck s.time.now h)))) ∧
  (∀ (h : QflHdr) (o : Outst) (s : State) (d : Dev) (f : Dev), d = s.dev → f = (d.matchResponse s.time.now 4 3 h).1 →
      (d.matchResponse s.time.now 4 3 h).2 = some o → exec (.mirAck h) s = .next (s.settledFrom (s.withDev (f.closeOutst o {})))) ∧
  (∀ (s : State) (d : Dev) (f : Dev), d = s.dev → f = (d.wr Memb.RESYNC_COPIED 0).wr Memb.RESYNC_PHASE 3 → d.acting = true → d.rd
      Memb.RESYNC_PHASE = 2 → d.chn.tier1 = [] → d.chn.tier2 = [] → d.chn.image = [] → d.flaws = [] → exec (.resyncCopyDone) s =
      .next (s.settledFrom (s.withDev (f.qflSend s.time.now 4 5 (f.rd Memb.MIRROR_ADDR) (masterFabric f.chainAddr 2) true [0]
      .mirrorClose)))) ∧
  (∀ (s : State) (d : Dev) (m : Nat), d = s.dev → m = d.rd Memb.MIRROR_ADDR → d.mode = 5 → m ≠ 0 → d.chn.mirrorWaits.isEmpty =
      false → d.silentAt m = false → exec (.yokeTimeout) s = .next (s.settledFrom (s.withDev
      (({ d with memb := { d.memb with yokeWait := some m } } : Dev).advance s.time.now
      { d.epochArgs with alive := dropAddr d.epochArgs.alive m, mirror := 0 })))) ∧
  (∀ (s : State) (d : Dev), d = s.dev → d.mode = 5 → d.memb.synced = false → exec (.mirrorResyncDeadline) s = .next (s.settledFrom
      (s.withDev (d.enterMode s.time.now 8 12))))

/-- Training of a QFL port -/
def Obligations.Training : Prop :=
  (∀ (port : Fin 64) (s : State) (d : Dev), d = s.dev → d.rd (Pg.phy_STATE port) = 0 → d.mayTrain port = true → exec
      (.disabledHoldoff port) s = .next (s.withDev (d.enterDetect s.time.now port))) ∧
  (∀ (port : Fin 64) (lanes : BitVec 32) (found : List Nat) (s : State) (d : Dev), d = s.dev → d.rd (Pg.phy_STATE port) = 1 →
      found = (d.portLanes port).filter (fun x => lanes.getLsbD x) → found ≠ [] → (d.qphy port).tested ≠ some found → exec
      (.receiverDetect port lanes) s = .next (s.withDev
      ({ d with phy := Tab.put d.phy (port : Nat) { d.qphy port with tested := some found } {} }))) ∧
  (∀ (port : Fin 64) (lanes : BitVec 32) (found : List Nat) (s : State) (d : Dev) (f : Dev), d = s.dev → f = (d.drawn.wr
      (Pg.phy_NONCE_LOCAL port) (d.freeVal 10)).setQphy port { d.qphy port with tested := some found, detected := found } → d.rd
      (Pg.phy_STATE port) = 1 → found = (d.portLanes port).filter (fun x => lanes.getLsbD x) → found ≠ [] → (d.qphy port).tested =
      some found → exec (.receiverDetect port lanes) s = .next (s.withDev (((found.foldl (fun (x : Dev) n => x.detectLane port n
      (preset (f.rd (Pg.phy_INIT_PRESET port)))) f).wr (Pg.phy_STATE port) 2).sendTs1 port))) ∧
  (∀ (port : Fin 64) (set : Ts1Set) (lanes : List Ts1Lane) (s : State) (d : Dev), d = s.dev → d.isQflPort port = true → lanes =
      set.lanes.filter (fun y => ¬ (d.laneOf (laneBase port + y.lane)).dropped) → lanes ≠ [] → d.rd (Pg.phy_STATE port) = 5 →
      lanes.any (fun y => (d.lanesInUse port).contains y.lane) = true → exec (.ts1 port set) s = .next (s.withDev (d.enterRecovery
      port))) ∧
  (∀ (port : Fin 64) (set : Ts2Set) (s : State) (d : Dev), d = s.dev → d.isQflPort port = true → d.rd (Pg.phy_STATE port) = 4 →
      (d.portLanes port).all (fun x => (d.laneOf (laneBase port + x)).dropped) = false → countSame (d.qphy port).ts2 set = (set, 8)
      → exec (.ts2 port set) s = .next (s.withDev ((d.setQphy port { d.qphy port with ts2 := some (set, 8) }).ts2Eight s.time.now
      port set))) ∧
  (∀ (port : Fin 64) (s : State) (d : Dev), d = s.dev → (d.rd (Pg.phy_STATE port) = 4 ∨ d.rd (Pg.phy_STATE port) = 6) → (d.qphy
      port).ready = true → exec (.activeEntry port) s = .next (s.withDev (d.enterActive port))) ∧
  (∀ (lane : Fin 256) (skips : Nat) (place : SkpPlace) (codes : List (BitVec 10)) (p : Nat) (s : State) (d : Dev), d = s.dev →
      d.laneOwner lane = some p → d.isQflPort p = true → (d.laneOf lane).dropped = false → d.rd (Pg.phy_STATE p) ≠ 7 → exec
      (.skpOrderedSet lane ⟨skips, place, codes⟩) s = .next (s.withDev (d.laneReceives p lane skips place codes))) ∧
  (∀ (lane : Fin 256) (skips : Nat) (place : SkpPlace) (codes : List (BitVec 10)) (p : Nat) (s : State) (d : Dev), d = s.dev →
      d.laneOwner lane = some p → d.isQflPort p = true → (d.laneOf lane).dropped = false → d.rd (Pg.phy_STATE p) = 7 → exec
      (.skpOrderedSet lane ⟨skips, place, codes⟩) s = .next (s.withDev (d.emit (.qfl p (.retimed (lane.val - laneBase p) codes))))) ∧
  (∀ (x : LaneScan) (skips : Nat) (e : Int), 1 ≤ skips → skips ≤ 5 → e = x.lane.elastic + (skips : Int) - 3 → x.skpSet skips
      .inPlace =
      { x with lane := { x.lane with skpsLost := 0, symbols := x.lane.symbols + 1 + skips, elastic := max (-8) (min 8 (if 0 < e then e - 1 else if e < 0 then e + 1 else e)) } }) ∧
  (∀ (x : LaneScan) (skips : Nat), (skips = 0 ∨ 5 < skips) → (x.skpSet skips .inPlace).violations = x.violations + 1) ∧
  (∀ (x : LaneScan) (skips : Nat) (place : SkpPlace), place ≠ .inPlace → 3 ≤ x.lane.skpsLost → (x.skpSet skips place).lost = true) ∧
  (∀ (port : Fin 64) (s : State) (d : Dev), d = s.dev → 2 ≤ d.rd (Pg.phy_STATE port) → d.rd (Pg.phy_STATE port) ≤ 6 → exec
      (.skpInterval port) s = .next (s.withDev (d.emit (.qfl port .skp)))) ∧
  (∀ (port : Fin 64) (skew : Nat) (s : State) (d : Dev), d = s.dev → d.rd (Pg.phy_STATE port) = 6 → skew ≤ 112 → exec (.deskew
      port skew) s = .next (s.withDev (((d.setQphy port { d.qphy port with deskews := (d.qphy port).deskews + 1 }).wr (Pg.phy_SKEW
      port) skew).recoverStep port))) ∧
  (∀ (port : Fin 64) (s : State) (d : Dev), d = s.dev → 2 ≤ d.rd (Pg.phy_STATE port) → exec (.eios port) s = .next (s.withDev
      (d.setQphy port { d.qphy port with partnerIdle := true }))) ∧
  (∀ (port : Fin 64) (s : State) (d : Dev), d = s.dev → d.rd (Pg.phy_STATE port) = 5 → d.mode ≠ 11 → exec (.loopbackEnter port) s
      = .next (s.withDev (d.countPort port .lcm))) ∧
  (∀ (port : Fin 64) (s : State) (d : Dev), d = s.dev → d.rd (Pg.phy_STATE port) = 5 → d.mode = 11 → d.rd (Pg.ll_LL_STATE port) ≠
      0 → exec (.loopbackEnter port) s = .next (s.withDev ((((d.wr (Pg.ll_LL_STATE port) 3).wr (Pg.phy_STATE port) 7).showInUse
      port).qflPortDown port))) ∧
  (∀ (port : Fin 64) (s : State) (d : Dev), d = s.dev → (d.rd (Pg.phy_STATE port) = 5 ∨ d.rd (Pg.phy_STATE port) = 6 ∨ d.rd
      (Pg.phy_STATE port) = 7) → exec (.electricalIdleDetect port) s = .next (s.withDev (d.enterDetect s.time.now port))) ∧
  (∀ (port : Fin 64) (final : Bool) (s : State) (d : Dev), d = s.dev → d.rd (Pg.phy_STATE port) = 2 → (final = true ∨ (d.qphy
      port).complete = [] ∨ (d.qphy port).deskews < 2) → exec (.train1Timeout port final) s = .next (s.withDev (d.trainFail
      s.time.now port 1))) ∧
  (∀ (port : Fin 64) (s : State) (d : Dev), d = s.dev → d.rd (Pg.phy_STATE port) = 3 → exec (.equaliseTimeout port) s = .next
      (s.withDev (d.trainFail s.time.now port 2))) ∧
  (∀ (port : Fin 64) (s : State) (d : Dev), d = s.dev → d.rd (Pg.phy_STATE port) = 4 → exec (.train2Timeout port) s = .next
      (s.withDev (d.trainFail s.time.now port 3))) ∧
  (∀ (port : Fin 64) (s : State) (d : Dev), d = s.dev → d.rd (Pg.phy_STATE port) = 6 → exec (.recoveryTimeout port) s = .next
      (s.withDev ((d.wr (Pg.phy_LAST_FAIL port) 6).enterDetect s.time.now port))) ∧
  (∀ (port : Fin 64) (lane : Fin 32) (e : EqLane) (s : State) (d : Dev), d = s.dev → Tab.get (d.qphy port).eq lane = some e → d.rd
      (Pg.phy_STATE port) = 3 → e.kind ≠ 0 → e.evaluating = false → e.done = false → d.eqOver s.time.now port = false → exec
      (.eqRequestResend port lane) s = .next (s.withDev (d.sendTs1 port))) ∧
  (∀ (port : Fin 64) (lane : Fin 32) (eye : Fin 64) (e : EqLane) (eq : Tab EqLane) (s : State) (d : Dev), d = s.dev → Tab.get
      (d.qphy port).eq lane = some e → d.rd (Pg.phy_STATE port) = 3 → e.evaluating = true → e.done = false → e.kind = 2 → (eye :
      Nat) ≤ e.bestEye → 2 ≤ e.requests → eq = Tab.set (d.qphy port).eq lane { e with done := true, evaluating := false } → exec
      (.eqEvaluationDone port lane eye) s = .next (s.withDev (((((d.wr (Pg.lane_EYE (laneBase port + lane)) eye).wr
      (Pg.lane_EQ_REQUESTS (laneBase port + lane)) e.requests).setQphy port
      { d.qphy port with eq := eq, eqDone := (d.qphy port).eqDone || eq.all (fun z => z.2.done) }).sendTs1 port).equaliseDone
      port))) ∧
  (∀ (port : Fin 64) (lane : Fin 32) (s : State) (d : Dev), d = s.dev → (d.portLanes port).contains lane = true → exec
      (.lossOfLock port lane) s = .next (s.withDev (d.laneLost port lane)))

/-- Flits, acknowledgements, credits and the link layer timers -/
def Obligations.LinkFlits : Prop :=
  (∀ (port : Fin 64) (bits : BitVec 1024) (s : State) (d : Dev) (f : Dev), d = s.dev → f = (d.inc (Pg.ll_CRC_ERRORS port)).mon
      s.time.now (port / 4) 0x105 0xffff 0 → d.rd (Pg.phy_STATE port) ≠ 7 → d.hears port = true → bits.toNat % 4 = 2 → bits.toNat /
      2 ^ 992 ≠ flitCrc (fieldOf (bits.toNat % 2 ^ 32) 2 12) bits → (f.link port).badRun < 3 → exec (.flit port bits) s = .next
      (s.withDev (f.setLink port { f.link port with badRun := (f.link port).badRun + 1 }))) ∧
  (∀ (port : Fin 64) (bits : BitVec 1024) (s : State) (d : Dev) (f : Dev), d = s.dev → f = d.setLink port
      { d.link port with nextNew := ((d.link port).nextNew + 1) % 4096, rxFlits := (d.link port).rxFlits + 1 } → d.rd (Pg.phy_STATE
      port) ≠ 7 → d.hears port = true → bits.toNat % 4 = 1 → d.flag (Pg.ll_RX_SYNCED port) = true → (d.link port).badRun = 0 →
      bits.toNat / 2 ^ 992 = flitCrc (d.link port).nextNew bits → fieldOf (bits.toNat % 2 ^ 32) 14 1 = 0 → d.flag (Pg.ll_ENCRYPTED
      port) = false → f.flag (Pg.ll_ENCRYPTED port) = false → f.link port =
      { d.link port with nextNew := ((d.link port).nextNew + 1) % 4096, rxFlits := (d.link port).rxFlits + 1 } → exec (.flit port
      bits) s = .next (s.withDev ((f.setLink port { f.link port with badRun := 0 }).acceptFlit s.time.now port (d.link port).nextNew
      (flitMessages false (fieldOf (bits.toNat % 2 ^ 32) 16 15) (fieldOf bits.toNat 32 960))))) ∧
  (∀ (port : Fin 64) (seq : Fin 4096) (synced : Bool) (crc : BitVec 8) (s : State) (d : Dev), d = s.dev → d.hears port = true →
      crc = wheyCrc 1 [seq, flagBit synced] → exec (.ack ⟨port, crc⟩ seq synced) s = .next (s.withDev (((d.freeReplay port
      seq).confirm port synced).pump port))) ∧
  (∀ (port : Fin 64) (seq : Fin 4096) (map : BitVec 16) (synced resync : Bool) (crc : BitVec 8) (s : State) (d : Dev) (f : Dev), d
      = s.dev → f = d.freeReplay port seq → (f.confirm port synced).flaws = [] → d.hears port = true → resync = false → (f.confirm
      port synced).selective port = false → crc = wheyCrc 2 [seq, map.toNat, flagBit synced, flagBit resync] → exec (.nak ⟨port,
      crc⟩ seq map synced resync) s = .next (s.withDev (((f.confirm port synced).replayFlits s.time.now port ((f.confirm port
      synced).link port).replay).pump port))) ∧
  (∀ (port : Fin 64) (vc : Fin 8) (count : BitVec 16) (crc : BitVec 8) (s : State) (d : Dev), d = s.dev → d.flaws = [] → d.hears
      port = true → (vc : Nat) ≤ 5 → (d.link port).creditSeen.contains (vc : Nat) = true → crc = wheyCrc 3 [vc, count.toNat] → exec
      (.credit ⟨port, crc⟩ vc count) s = .next (s.withDev ((((d.setLink port
      { d.link port with limit := Tab.put (d.link port).limit vc count.toNat 0 }).syncUp port).pump port).syncLink port))) ∧
  (∀ (port : Fin 64) (next : Fin 4096) (crc : BitVec 8) (s : State) (d : Dev) (f : Dev), d = s.dev → f = d.setLink port
      { d.link port with nextNew := next, rxFlits := (d.link port).rxFlits + (next.val + 4096 - (d.link port).nextNew) % 4096 } →
      d.hears port = true → crc = wheyCrc 4 [next] → (f.raise1 (Pg.ll_RX_SYNCED port)).missing port = [] → exec (.seqSync ⟨port,
      crc⟩ next) s = .next (s.withDev ((f.raise1 (Pg.ll_RX_SYNCED port)).sendAck port))) ∧
  (∀ (port : Fin 64) (s : State) (d : Dev), d = s.dev → (d.link port).confirmed = false → exec (.seqSyncRepeat port) s = .next
      (s.withDev (d.whey port 4 [d.rd (Pg.ll_NEXT_TX_SEQ port)]))) ∧
  (∀ (port : Fin 64) (s : State) (d : Dev), d = s.dev → exec (.creditRefresh port) s = .next (s.withDev ((List.range 6).foldl (fun
      x v => x.sendCredit port v) d))) ∧
  (∀ (port : Fin 64) (s : State) (d : Dev), d = s.dev → d.hears port = true → 0 < (d.link port).sinceAck → d.missing port = [] →
      exec (.ackTimer port) s = .next (s.withDev (d.sendAck port))) ∧
  (∀ (port : Fin 64) (s : State) (d : Dev), d = s.dev → d.hears port = true → d.missing port ≠ [] → exec (.nakTimer port) s =
      .next (s.withDev (d.sendNak s.time.now port false))) ∧
  (∀ (port : Fin 64) (s : State) (d : Dev) (f : Dev), d = s.dev → f = (d.setLink port
      { d.link port with expiries := (d.link port).expiries + 1 }).replayFlits s.time.now port (d.link port).replay → d.flaws = [] →
      d.hears port = true → (d.link port).replay ≠ [] → d.selective port = false → (d.link port).expiries + 1 < f.rd
      (Pg.ll_REPLAY_LIMIT port) → exec (.replayTimer port) s = .next (s.withDev f)) ∧
  (∀ (port : Fin 64) (s : State) (d : Dev), d = s.dev → d.rd (Pg.ll_LL_STATE port) = 3 → exec (.linkHold port) s = .next
      (s.withDev (d.qflLinkDown s.time.now port))) ∧
  (∀ (port : Fin 64) (s : State) (d : Dev), d = s.dev → (d.link port).replay ≠ [] → exec (.oldestFlitAge port) s = .next
      (s.withDev (d.qflLinkDown s.time.now port))) ∧
  (∀ (port : Fin 64) (x : QflLink) (s : State) (d : Dev), d = s.dev → d.flag (Pg.ll_ROUTED_AWAY port) = true → d.rd
      (Pg.ll_LL_STATE port) = 2 → x = d.link (d.rd (Pg.ll_TWIN_PORT port)) → x.txq.any (fun m => d.routedBy port m) = false →
      x.replay.any (fun y => y.msgs.any (fun m => d.routedBy port m)) = false → exec (.routeReturn port) s = .next (s.withDev
      ((d.wrFlag (Pg.ll_ROUTED_AWAY port) false).pump port))) ∧
  (∀ (port : Fin 64) (m : QflMsg) (s : State) (d : Dev) (f : Dev), d = s.dev → f = (d.setLink port
      { d.link port with txq := [], replay := [] }).inc Qfab.LIFETIME_DROPS → (d.link port).txq = [m] → (d.link port).replay = [] →
      m.born + 500000 ≤ s.time.now → f.ownAddr m.src = false → exec (.messageLifetime port) s = .next (s.withDev (f.msgError
      s.time.now m 3)))

/-- Changing the width of a QFL link -/
def Obligations.WidthChange : Prop :=
  (∀ (port : Fin 64) (width : Fin 8) (id : BitVec 8) (crc : BitVec 8) (s : State) (d : Dev), d = s.dev → d.hears port = true → crc
      = wheyCrc 5 [0, width, id.toNat] → (d.link port).widthStep = 0 → d.widthOk port width = false → exec (.widthReqMessage ⟨port,
      crc⟩ width id) s = .next (s.withDev (d.whey port 5 [2, width, id.toNat]))) ∧
  (∀ (port : Fin 64) (width : Fin 8) (id : BitVec 8) (crc : BitVec 8) (s : State) (d : Dev), d = s.dev → d.hears port = true → crc
      = wheyCrc 5 [0, width, id.toNat] → (d.link port).widthStep = 0 → d.widthOk port width = true → exec (.widthReqMessage ⟨port,
      crc⟩ width id) s = .next (s.withDev (((((d.setLink port { d.link port with width := some (width, id.toNat, false) }).raise1
      (Pg.ll_WIDTH_BUSY port)).wr (Pg.ll_WIDTH_TARGET port) width).whey port 5 [1, width, id.toNat]).widthStart port))) ∧
  (∀ (port : Fin 64) (width : Fin 8) (id crc : BitVec 8) (s : State) (d : Dev), d = s.dev → d.hears port = true → crc = wheyCrc 5
      [1, width, id.toNat] → d.widthAsked port id.toNat = true → exec (.widthAck ⟨port, crc⟩ ⟨width, id⟩) s = .next (s.withDev
      (d.widthStart port))) ∧
  (∀ (port : Fin 64) (width : Fin 8) (id crc : BitVec 8) (s : State) (d : Dev), d = s.dev → d.hears port = true → crc = wheyCrc 5
      [2, width, id.toNat] → d.widthAsked port id.toNat = true → exec (.widthRefuse ⟨port, crc⟩ ⟨width, id⟩) s = .next (s.withDev
      ((d.widthClear port).raise1 (Pg.ll_WIDTH_FAIL_EVT port)))) ∧
  (∀ (port : Fin 64) (width : Fin 8) (id crc : BitVec 8) (k : Nat) (own : Bool) (s : State) (d : Dev), d = s.dev → d.hears port =
      true → crc = wheyCrc 5 [3, width, id.toNat] → (d.link port).widthStep = 2 → (d.link port).width = some (k, id.toNat, own) →
      exec (.widthReady ⟨port, crc⟩ ⟨width, id⟩) s = .next (s.withDev ((d.setLink port
      { d.link port with readySeen := true }).widthSwitch port))) ∧
  (∀ (port : Fin 64) (width : Fin 8) (id : BitVec 8) (own : Bool) (s : State) (d : Dev), d = s.dev → (d.link port).width = some
      (↑width, id.toNat, own) → exec (.widthSwitch port width id) s = .next (s.withDev ((d.setLink port
      { d.link port with switchSeen := true }).widthDone port))) ∧
  (∀ (port : Fin 64) (s : State) (d : Dev), d = s.dev → d.widening port = true → exec (.widthMark port) s = .next (s.withDev
      (d.setLink port { d.link port with marks := (d.link port).marks + 1 }))) ∧
  (∀ (port : Fin 64) (k id : Nat) (own : Bool) (s : State) (d : Dev), d = s.dev → (d.link port).width = some (k, id, own) →
      d.widening port = true → 0 < (d.link port).marks → (d.link port).readySent = false → exec (.wakingLanesLocked port) s = .next
      (s.withDev ((d.setLink port { d.link port with readySent := true }).whey port 5 [3, k, id]))) ∧
  (∀ (port : Fin 64) (s : State) (d : Dev), d = s.dev → (d.link port).widthStep = 1 → exec (.widthResponseTimeout port) s = .next
      (s.withDev ((d.widthClear port).raise1 (Pg.ll_WIDTH_FAIL_EVT port)))) ∧
  (∀ (port : Fin 64) (s : State) (d : Dev), d = s.dev → d.widening port = true → ((d.link port).readySent = false ∨ (d.link
      port).readySeen = false) → exec (.widthWakeTimeout port) s = .next (s.withDev ((d.widthClear port).raise1
      (Pg.ll_WIDTH_FAIL_EVT port)))) ∧
  (∀ (port : Fin 64) (k : Nat) (s : State) (d : Dev), d = s.dev → (d.link port).widthRetry = some k → d.widthOk port k = true →
      exec (.widthRetryDelay port) s = .next (s.withDev (d.widthSend port k)))

/-- Encryption of a QFL link -/
def Obligations.LinkEncryption : Prop :=
  (∀ (port : Fin 64) (s : State) (d : Dev), d = s.dev → d.flag (Pg.ll_ENCRYPTED port) = true → exec (.keyRoll port) s = .next
      (s.withDev ((d.setLink port
      { d.link port with keyId := 1 - (d.link port).keyId, txKey := Config.hkdf (d.link port).txKey 2, keyFlits := 0 }).inc
      ScR.KEY_UPDATES))) ∧
  (∀ (port : Fin 64) (s : State) (d : Dev), d = s.dev → ((d.link port).session = 1 ∨ (d.link port).session = 2) → d.rd
      (Pg.ll_LL_STATE port) ≠ 0 → exec (.encryptionSessionTimeout port) s = .next (s.withDev (d.qflLinkDown s.time.now port))) ∧
  (∀ (port : Fin 64) (opcode : Fin 4) (authOk final : Bool) (s : State) (d : Dev), d = s.dev → (d.link port).session = 1 → d.rd
      ScR.SC_STATE = 1 → authOk = false → exec (.qflSpdmMessage port opcode authOk final) s = .next (s.withDev ((d.inc
      ScR.AUTH_FAILS).secEvent s.time.now 7))) ∧
  (∀ (port : Fin 64) (opcode : Fin 4) (authOk final : Bool) (s : State) (d : Dev) (f : Dev), d = s.dev → f = d.drawn.drawn →
      (d.link port).session = 1 → d.rd ScR.SC_STATE = 1 → authOk = true → final = true → exec (.qflSpdmMessage port opcode authOk
      final) s = .next (s.withDev (((f.setLink port
      { d.link port with session := 3, txKey := Config.hkdf (d.freeVal 20) 0, rxKey := Config.hkdf (d.drawn.freeVal 20) 0, txSalt := Config.hkdf (d.freeVal 20) 1 % 2 ^ 32, rxSalt := Config.hkdf (d.drawn.freeVal 20) 1 % 2 ^ 32, keyFlits := 0 }).raise1
      (Pg.ll_ENCRYPTED port)).pump port)))

/-- PPS and the time exchanges -/
def Obligations.TimeEvents : Prop :=
  (∀ (s : State), s.dev.mode ≠ 0 → s.time.lastEdge = none → s.dev.rd Tim.TIME_SOURCE = 0 → s.time.ppsValid = false → exec
      (.ppsEdge) s = .next ({ s with time := { s.time with capture := s.time.now, lastEdge := some s.time.now, goodEdges := 0 } })) ∧
  (∀ (s : State), s.dev.mode ≠ 0 → s.time.ppsValid = true → exec (.ppsTimeout) s = .next
      ({ s with time := { s.time with goodEdges := 0, lastEdge := none, ppsValid := false }, dev := s.dev.post s.time.now 8 0 })) ∧
  (∀ (s : State) (d : Dev), d = s.dev → d.mode ≠ 0 → d.flag Tim.PPS_OUT_EN = true → exec (.ppsOut) s = .next (s.withDev ((d.emit
      (.pin .ppsOut true)).emit (.pin .ppsOut false)))) ∧
  (∀ (p : Nat) (s : State), s.follows = true → s.time.exchange = none → s.dev.routePort (s.dev.rd Memb.PRIMARY_ADDR) = some p →
      s.dev.timeOn p = true → exec (.timeSyncPeriod) s = .next
      ({ s with time := { s.time with exchange := some { port := p, t1 := s.time.now } }, dev := s.dev.whey p 6 [] })) ∧
  (∀ (port : Fin 64) (crc : BitVec 8) (s : State) (d : Dev), d = s.dev → d.hears port = true → crc = wheyCrc 6 [] → d.timeOn port
      = true → exec (.timeReq ⟨port, crc⟩) s = .next (s.withDev ((d.whey port 7 [s.time.now % 2 ^ 48]).whey port 8 [s.time.now % 2 ^
      48]))) ∧
  (∀ (port : Fin 64) (t3 : BitVec 48) (crc : BitVec 8) (x : TimeExchange) (s : State), s.time.exchange = some x → x.port = port →
      s.dev.hears port = true → x.t2 = none → crc = wheyCrc 7 [t3.toNat] → exec (.timeRsp ⟨port, crc⟩ t3) s = .next
      ({ s with time := { s.time with exchange := some { x with t3 := some (s.time.widen t3), t4 := s.time.now } } })) ∧
  (∀ (port : Fin 64) (t2 : BitVec 48) (crc : BitVec 8) (x : TimeExchange) (k : Nat) (o : Int) (y : State) (s : State),
      s.time.exchange = some x → x.port = port → s.dev.hears port = true → x.t3 = some k → o = ((((s.time.widen t2 : Nat) : Int) -
      x.t1) - ((x.t4 : Int) - k)) / 2 → y =
      { s with time := { s.time with exchange := none, lastExchange := some s.time.now }, dev := s.dev.wr Qfab.LAST_TIME_OFFSET (BitVec.ofInt 32 o).toNat }
      → crc = wheyCrc 8 [t2.toNat] → exec (.timeT2 ⟨port, crc⟩ t2) s = .next (if y.activeSource = 2 then y.correct o else y)) ∧
  (∀ (s : State), exec (.timeSyncAbandon) s = .next ({ s with time := { s.time with exchange := none } }))

/-- The error log and the performance monitors -/
def Obligations.ErrorLogAndMonitors : Prop :=
  (∀ (h : SilekHdr) (first count : Nat) (recs : List ErrorRec) (s : State) (d : Dev) (i : CmdInfo), d = s.begun.dev → i = .of
      0x930 0 (.errorLogRead h.key first count) → s.admits h i = true → d.flaws = [] → 1 ≤ count → count ≤ 64 → recs = (logFrom
      d.errors first).take count → exec (.errorLogRead h first count) s = .next ((s.withDev d).answered h i .ok (leBytes 4
      recs.length ++ (recs.map ErrorRec.bytes).flatten))) ∧
  (∀ (h : SilekHdr) (upto : Nat) (keep : List ErrorRec) (s : State) (d : Dev) (i : CmdInfo), d = s.begun.dev → i = .of 0x931 0
      (.errorLogClear h.key upto) → s.admits h i = true → keep = d.errors.filter (fun x => upto < x.number) → exec (.errorLogClear h
      upto) s = .next ((s.withDev (({ d with errors := keep } : Dev).syncLog)).answered h i .ok (leBytes 4 (d.errors.length -
      keep.length)))) ∧
  (∀ (path : AccessPath) (number : BitVec 32) (s : State) (d : Dev), d = s.dev → d.flaws = [] → d.mode ≠ 0 → exec (.recordSelect
      path number) s = .next (s.withDev ((List.range 8).foldl (fun x w => x.wr (Elog.RECORD_WORD w) (recordWord (d.errors.find? (fun
      y => y.number = number.toNat)) w)) (d.wr Elog.RECORD_SELECT number.toNat)))) ∧
  (∀ (h : SilekHdr) (block counter event : Nat) (s : State) (d : Dev) (i : CmdInfo), d = s.begun.dev → i = .of 0x901 0
      (.monitorConfig h.key block counter event) → s.admits h i = true → 0x40 ≤ block → block ≤ 0x79 → counter ≤ 7 → event / 256 =
      monKind (block - 0x40) → event % 256 ≤ monEvents (monKind (block - 0x40)) → exec (.monitorConfig h block counter event) s =
      .next ((s.withDev (((d.mwr (Mon.EVENT (block - 0x40) counter) event).monClear (block - 0x40) counter).mwr (Mon.ENABLE (block -
      0x40)) 1)).answered h i .ok [])) ∧
  (∀ (h : SilekHdr) (block : Nat) (s : State) (d : Dev) (i : CmdInfo), d = s.begun.dev → i = .of 0x902 0 (.monitorRead h.key
      block) → s.admits h i = true → 0x40 ≤ block → block ≤ 0x79 → exec (.monitorRead h block) s = .next (s.begun.answered h i .ok
      (s.begun.dev.monBlock (block - 0x40)))) ∧
  (∀ (path : AccessPath) (mon : Fin 58) (s : State) (d : Dev), d = s.dev → d.mode ≠ 0 → exec (.clearMonitor path mon) s = .next
      (s.withDev ((((List.range 8).foldl (fun x k => x.monClear mon k) d).mwr (Mon.TIME_LO mon) 0).mwr (Mon.TIME_HI mon) 0))) ∧
  (∀ (path : AccessPath) (mon : Fin 58) (bits : BitVec 8) (s : State) (d : Dev), d = s.dev → d.mode ≠ 0 → exec (.ovfClear path mon
      bits) s = .next (s.withDev ((d.mwr (Mon.OVF mon) (Nat.land (d.mrd (Mon.OVF mon)) (255 - bits.toNat % 256))).mwr
      (Mon.SAMPLE_HELD mon) (Nat.land (d.mrd (Mon.SAMPLE_HELD mon)) (255 - Nat.land (bits.toNat % 256) (d.mrd (Mon.OVF mon)))))))

/-- The Skimmer, the sensors and the Herdbook -/
def Obligations.SkimmerAndHerdbook : Prop :=
  (∀ (h : SilekHdr) (vi base size interval : Nat) (s : State) (d : Dev) (i : CmdInfo) (f : Dev), d = s.begun.dev → i = .of 0x910 0
      (.skimmerConfig h.key vi base size interval) → s.admits h i = true → f = (((({ d with skim := { vi, base, size } } : Dev).wr
      Skim.SKIM_INSTANCE vi).wr Skim.INTERVAL interval).wr Skim.SIZE size).wr Skim.BASE_LO base → vi ≤ 63 → d.rd (Vi.STATE vi) ≠ 0 →
      base % 4096 = 0 → size % 4096 = 0 → 8192 ≤ size → size ≤ 2 ^ 30 → 1 ≤ interval → interval ≤ 65535 → d.selected ≠ [] → exec
      (.skimmerConfig h vi base size interval) s = .next ((s.withDev ((((f.wr Skim.BASE_HI (base / 2 ^ 32)).raise1 Skim.RUNNING).wr
      Skim.FAULT_CAUSE 0).wr Skim.SEQ 0)).answered h i .ok [])) ∧
  (∀ (h : SilekHdr) (s : State) (d : Dev) (i : CmdInfo), d = s.begun.dev → i = .of 0x911 0 (.skimmerStop h.key) → s.admits h i =
      true → exec (.skimmerStop h) s = .next ((s.withDev (d.wrFlag Skim.RUNNING false)).answered h i .ok [])) ∧
  (∀ (s : State) (d : Dev) (f : Dev), d = s.dev → f = d.selected.foldl (fun x m => (List.range 8).foldl (fun y k => if y.flag
      Skim.RUNNING ∧ fieldOf (y.mrd (Mon.SAMPLE_HELD m)) k 1 = 1 then y.skimSample s.time.now m k else y) x) d → d.flag Skim.RUNNING
      = true → d.buf.waiting.any (fun e => e.writes.any (fun w => w.master = masterSkimmer)) = false → ((d.hostPortOf d.skim.vi).map
      d.linkUp).getD false = true → f.flag Skim.RUNNING = true → exec (.skimmerInterval) s = .next (s.withDev ((f.skimRecord
      s.time.now 1 (f.snapshotBody s.time.now)).1))) ∧
  (∀ (temps : List Int) (x : Int) (rest : List Int) (tj : Int) (tile : Nat) (s : State) (d : Dev) (f : Dev) (g : Dev), d = s.dev →
      f = (d.wr Hbk.TJ_CURRENT (byteOfInt tj)).wr Hbk.TJ_TILE tile → g = f.wr Hbk.TJ_PEAK (byteOfInt tj) → temps = x :: rest →
      d.mode ≠ 0 → hottest rest 1 (x, 0) = (tj, tile) → intOfByte (f.rd Hbk.TJ_PEAK) < tj → tj < 100 → g.thermal.alert = false →
      exec (.temperatureScan temps) s = .next (s.withDev ((g.threshold 1 0 false).threshold 1 1 false))) ∧
  (∀ (s : State) (d : Dev), d = s.dev → d.mode ≠ 0 → exec (.histogramSample) s = .next (s.withDev
      (({ d with hbk := { d.hbk with tempBins := Tab.bump d.hbk.tempBins (tempBin (intOfByte (d.rd Hbk.TJ_CURRENT))) 1, coreBins := Tab.bump d.hbk.coreBins (coreBin (d.rd Glob.VCORE_MEASURED)) 1, powerOnS := d.hbk.powerOnS + 1 } }
      : Dev).syncNextWrite))) ∧
  (∀ (lane : Fin 256) (errors : Nat) (worst cur hours two four : Nat) (s : State) (d : Dev), d = s.dev → Tab.getD d.hbk.lanes lane
      (0, 0, 0, 0, 0) = (worst, cur, hours, two, four) → 1000 ≤ errors → errors < 10000 → exec (.laneHour lane errors) s = .next
      (s.withDev
      ({ d with hbk := { d.hbk with lanes := Tab.set d.hbk.lanes lane (max worst 4, 4, hours + 1, saturate 16 (two + 1), saturate 16 (four + 1)) } }))) ∧
  (∀ (n : Nat) (s : State) (d : Dev), d = s.dev → n = (d.hbk.nakWindow.filter (fun x => 1000 * d.rd Hbk.NAK_STORM_LIMIT <
      x.2)).length → exec (.nakStormWindow) s = .next (s.withDev
      ({ d.hbCount 1 n with hbk := { (d.hbCount 1 n).hbk with nakWindow := [] } }))) ∧
  (∀ (s : State) (d : Dev), d = s.dev → d.mode ≠ 0 → d.hbk.writing = none → exec (.herdbookPeriodicWrite) s = .next (s.withDev
      ((({ d with hbk := { d.hbk with lastWrite := d.hbk.powerOnS } } : Dev).startHerdbook 1).syncNextWrite))) ∧
  (∀ (s : State) (d : Dev), d = s.dev → d.mode ≠ 0 → d.hbk.writing = none → exec (.herdbookFlush) s = .next (s.withDev ((d.raise1
      Hbk.FLUSH).startHerdbook 3))) ∧
  (∀ (ok : Bool) (s : State) (d : Dev), d = s.dev → d.hbk.writing ≠ none → ok = false → exec (.herdbookWriteDone ok) s = .next
      (s.withDev (({ d with hbk := { d.hbk with sector := nextSector d.hbk.sector } } : Dev).raise1 Hbk.WRITE_FAIL_EVT))) ∧
  (∀ (ok : Bool) (s : State) (d : Dev), d = s.dev → d.hbk.writing ≠ none → ok = true → d.herdbookWritten.flag Hbk.FLUSH = false →
      exec (.herdbookWriteDone ok) s = .next (s.withDev d.herdbookWritten)) ∧
  (∀ (h : SilekHdr) (off len : Nat) (s : State) (d : Dev) (i : CmdInfo), d = s.begun.dev → i = .of 0x920 0 (.herdbookRead h.key
      off len) → s.admits h i = true → 1 ≤ len → len ≤ 3072 → off + len ≤ 4096 → exec (.herdbookRead h off len) s = .next
      (s.begun.answered h i .ok ((s.begun.dev.herdbookBytes.drop off).take len)))

/-- The FM API: questions -/
def Obligations.FmApiQueries : Prop :=
  (∀ (eid tag : Nat) (s : State) (h : SilekHdr) (d : Dev) (i : CmdInfo), h = fmHeader eid s.fmTag → d = s.fmStart.begun.dev → i =
      .of 0x102 0 (.deviceInfo h.key) → s.fmFresh = true → s.fmStart.admits h i = true → exec (.identify eid tag) s = .next
      (s.fmStart.begun.withDev (d.fmAnswer 0x0001 tag .ok (padBytes d.deviceInfo)))) ∧
  (∀ (eid tag : Nat) (s : State) (d : Dev), d = s.dev → 1 < d.mode → d.silek.fmBackground = none → exec
      (.backgroundOperationStatus eid tag) s = .next (s.withDev (d.fmAnswer 0x0002 tag .ok []))) ∧
  (∀ (tag : Nat) (s : State) (d : Dev), d = s.dev → 1 < d.mode → exec (.getResponseMessageLimit tag) s = .next (s.withDev
      (d.fmAnswer 0x0003 tag .ok (leBytes 1 11)))) ∧
  (∀ (tag exponent : Nat) (s : State) (d : Dev), d = s.dev → 1 < d.mode → 8 ≤ exponent → exponent ≤ 11 → exec
      (.setResponseMessageLimit tag exponent) s = .next (s.withDev (({ d with silek := { d.silek with responseLimit := exponent } }
      : Dev).fmAnswer 0x0004 tag .ok (leBytes 1 exponent)))) ∧
  (∀ (eid tag : Nat) (s : State) (h : SilekHdr) (d : Dev) (i : CmdInfo), h = fmHeader eid s.fmTag → d = s.fmStart.begun.dev → i =
      .of 0x103 0 (.identifySwitchDevice eid tag) → s.fmFresh = true → s.fmStart.admits h i = true → exec (.identifySwitchDevice eid
      tag) s = .next (s.fmStart.begun.withDev (d.fmAnswer 0x5100 tag .ok (padBytes (d.deviceInfo ++ (d.ports.map (fun p => leBytes 4
      (s.fmStart.begun.portStatus p))).flatten))))) ∧
  (∀ (eid tag : Nat) (first count : Nat) (s : State) (h : SilekHdr) (d : Dev) (i : CmdInfo), h = fmHeader eid s.fmTag → d =
      s.fmStart.begun.dev → i = .of 0x103 0 (.portStatusQuery h.key first count) → s.fmFresh = true → s.fmStart.admits h i = true →
      1 ≤ count → count ≤ 64 → first + count ≤ 64 → exec (.getPhysicalPortState eid tag first count) s = .next
      (s.fmStart.begun.withDev (d.fmAnswer 0x5101 tag .ok (padBytes (((List.range count).map (fun k => leBytes 4
      (s.fmStart.begun.portStatus (first + k)))).flatten))))) ∧
  (∀ (eid tag : Nat) (vi : Nat) (s : State) (h : SilekHdr) (d : Dev) (i : CmdInfo), h = fmHeader eid s.fmTag → d =
      s.fmStart.begun.dev → i = { CmdInfo.of 0x302 0 (.instanceQuery h.key vi) with hostMay := fun _ v => decide (v = vi) } →
      s.fmFresh = true → s.fmStart.admits h i = true → vi ≤ 63 → exec (.getVirtualCxlSwitchInfo eid tag vi) s = .next
      (s.fmStart.begun.withDev (d.fmAnswer 0x5200 tag .ok (padBytes (((List.range 4).map (fun w => leBytes 8 (d.instWord vi
      w))).flatten))))) ∧
  (∀ (eid tag : Nat) (s : State) (h : SilekHdr) (d : Dev) (i : CmdInfo), h = fmHeader eid s.fmTag → d = s.fmStart.begun.dev → i =
      .of 0x102 0 (.getDcdInfo eid tag) → s.fmFresh = true → s.fmStart.admits h i = true → exec (.getDcdInfo eid tag) s = .next
      (s.fmStart.begun.withDev (d.fmAnswer 0x5600 tag .ok (padBytes (d.deviceInfo ++ leBytes 2 d.freeWindows))))) ∧
  (∀ (eid tag : Nat) (host : Nat) (s : State) (h : SilekHdr) (d : Dev) (i : CmdInfo), h = fmHeader eid s.fmTag → d =
      s.fmStart.begun.dev → i = .of 0x211 3 (.getHostDcRegionConfiguration eid tag host) → s.fmFresh = true → s.fmStart.admits h i =
      true → host ≤ 63 → exec (.getHostDcRegionConfiguration eid tag host) s = .next (s.fmStart.begun.withDev (d.fmAnswer 0x5601 tag
      .ok (padBytes (((d.windowsOf host).map (fun x => leBytes 16 x.2.bits)).flatten))))) ∧
  (∀ (eid tag : Nat) (host start count : Nat) (s : State) (h : SilekHdr) (d : Dev) (i : CmdInfo), h = fmHeader eid s.fmTag → d =
      s.fmStart.begun.dev → i = .of 0x241 0 (.getDcRegionExtentLists eid tag host start count) → s.fmFresh = true → s.fmStart.admits
      h i = true → host ≤ 63 → count ≤ 768 → exec (.getDcRegionExtentLists eid tag host start count) s = .next
      (s.fmStart.begun.withDev (d.fmAnswer 0x5603 tag .ok (padBytes ((((d.hostExtents host).drop start).take count).map (fun b =>
      leBytes 4 b.bits) |>.flatten)))))

/-- The FM API: changes -/
def Obligations.FmApiChanges : Prop :=
  (∀ (eid tag : Nat) (port op : Nat) (e : Dev) (s : State) (h : SilekHdr) (d : Dev) (i : CmdInfo), h = fmHeader eid s.fmTag → d =
      s.fmStart.begun.dev → i = .of 0xa11 0 (.portControl h.key port op) → s.fmFresh = true → s.fmStart.admits h i = true → port ≤
      63 → op = 1 → d.present port = true → d.personality port = 3 → e = d.wrFlag (Pg.phy_PORT_DISABLE port) false → e.calm = true →
      exec (.physicalPortControl eid tag port op) s = .next (s.withDev (e.fmAnswer 0x5102 tag .ok (padBytes [])))) ∧
  (∀ (eid tag : Nat) (vi vppb port : Nat) (x : InstCfg) (a b : Nat) (t2 : List Nat) (m q : Nat) (e : Dev) (s : State) (h :
      SilekHdr) (d : Dev) (i : CmdInfo), h = fmHeader eid s.fmTag → d = s.fmStart.begun.dev → i = .of 0x301 0 (.instanceConfig h.key
      vi a b t2 m q true) → s.fmFresh = true → s.fmStart.admits h i = true → 1 ≤ vppb → vppb ≤ 7 → vi ≤ 63 → port ≤ 63 →
      s.dev.viState vi ≠ 0 → x = s.fmStart.dev.cfgOf vi → a = x.portA.getD 0xff → b = x.portB.getD 0xff → t2 = (List.range 7).map
      (fun k => if k + 1 = vppb then port else Tab.getD x.type2 (k + 1) 0xff) → m = x.msix → q = s.fmStart.dev.rd (Vi.QUEUE_ALLOC
      vi) → e = (d.instanceConfig vi a b t2 m q true).1 → (d.instanceConfig vi a b t2 m q true).2 = .final .ok [] → e.out =
      s.dev.out → e.silek = d.silek → e.calm = true → exec (.bindVppb eid tag vi vppb port) s = .next (s.withDev (e.fmAnswer 0x5201
      tag .ok (padBytes [])))) ∧
  (∀ (eid tag : Nat) (vi vppb : Nat) (x : InstCfg) (a b : Nat) (t2 : List Nat) (m q : Nat) (e : Dev) (s : State) (h : SilekHdr) (d
      : Dev) (i : CmdInfo), h = fmHeader eid s.fmTag → d = s.fmStart.begun.dev → i = .of 0x301 0 (.instanceConfig h.key vi a b t2 m
      q true) → s.fmFresh = true → s.fmStart.admits h i = true → 1 ≤ vppb → vppb ≤ 7 → vi ≤ 63 → s.dev.viState vi ≠ 0 → x =
      s.fmStart.dev.cfgOf vi → a = x.portA.getD 0xff → b = x.portB.getD 0xff → t2 = (List.range 7).map (fun k => if k + 1 = vppb
      then 0xff else Tab.getD x.type2 (k + 1) 0xff) → m = x.msix → q = s.fmStart.dev.rd (Vi.QUEUE_ALLOC vi) → e = (d.instanceConfig
      vi a b t2 m q true).1 → (d.instanceConfig vi a b t2 m q true).2 = .final .ok [] → e.out = s.dev.out → e.silek = d.silek →
      e.calm = true → exec (.unbindVppb eid tag vi vppb) s = .next (s.withDev (e.fmAnswer 0x5202 tag .ok (padBytes [])))) ∧
  (∀ (eid tag : Nat) (w host region kind base count : Nat) (enable : Bool) (e : Dev) (s : State) (h : SilekHdr) (d : Dev) (i :
      CmdInfo), h = fmHeader eid s.fmTag → d = s.fmStart.begun.dev → i = .of 0x210 0 (.windowConfig h.key w host region kind base
      count enable) → s.fmFresh = true → s.fmStart.admits h i = true → w ≤ 255 → host ≤ 63 → region ≤ 7 → kind ≤ 2 → enable = false
      → d.memberOf w = none → d.heldSlots (d.win w) = [] → e = d.setWin w {} → e.calm = true → exec (.setDcRegionConfiguration eid
      tag w host region kind base count enable) s = .next (s.withDev (e.fmAnswer 0x5602 tag .ok (padBytes [])))) ∧
  (∀ (eid tag : Nat) (host policy region : Nat) (extents : List (Nat × Nat)) (xs : List Nat) (w : Nat) (x : Window) (ks : List
      Nat) (e : Dev) (job : Work) (s : State) (h : SilekHdr) (d : Dev) (i : CmdInfo) (u : State), h = fmHeader eid s.fmTag → d =
      s.fmStart.begun.dev → i = .of 0x220 0 (.initiateDynamicCapacityAdd eid tag host policy region extents) → 1 < s.dev.mode →
      s.fmStart.admits h i = true → s.dev.fmExtents extents = some xs → s.dev.regionWindow host region = some (w, x) → policy = 2 →
      ks = d.freeSlots x xs.length → xs.length ≤ ks.length → e = (d.bindSlots s.time.now w ks (x.kind + 1) xs).1 → (d.bindSlots
      s.time.now w ks (x.kind + 1) xs).2 = .run job → s.dev.fmRuns = false → u = s.fmStart.settledFrom ((s.fmStart.withDev e).runs h
      i job) → (u.dev.out.drop s.dev.out.length).findSome? (fun o => o.replyTo s.fmTag) = none → exec (.initiateDynamicCapacityAdd
      eid tag host policy region extents) s = .next (u.withDev ((u.dev.fmStarts eid s.fmTag).fmAnswer 0x5604 tag .inProgress []))) ∧
  (∀ (eid tag : Nat) (host : Nat) (forced : Bool) (region : Nat) (extents : List (Nat × Nat)) (xs : List Nat) (w : Nat) (x :
      Window) (ks : List Nat) (e : Dev) (job : Work) (s : State) (h : SilekHdr) (d : Dev) (i : CmdInfo) (u : State), h = fmHeader
      eid s.fmTag → d = s.fmStart.begun.dev → i = .of 0x221 0 (.initiateDynamicCapacityRelease eid tag host forced region extents) →
      1 < s.dev.mode → s.fmStart.admits h i = true → s.dev.fmExtents extents = some xs → s.dev.regionWindow host region = some (w,
      x) → ks = xs.filterMap (fun y => x.slots.find? (fun k => (d.slot k).valid ∧ (d.slot k).fx = y)) → xs.length ≤ ks.length → e =
      (d.unbindSlots s.time.now w ks forced false).1 → (d.unbindSlots s.time.now w ks forced false).2 = .run job → s.dev.fmRuns =
      false → u = s.fmStart.settledFrom ((s.fmStart.withDev e).runs h i job) → (u.dev.out.drop s.dev.out.length).findSome? (fun o =>
      o.replyTo s.fmTag) = none → exec (.initiateDynamicCapacityRelease eid tag host forced region extents) s = .next (u.withDev
      ((u.dev.fmStarts eid s.fmTag).fmAnswer 0x5605 tag .inProgress [])))

/-- The Milold chain: breaks, rings and enumeration -/
def Obligations.ChainEvents : Prop :=
  (∀ (s : State) (d : Dev) (f : Dev), d = s.dev → f = d.raise1 Memb.IN_LOS → d.mode ≠ 0 → d.lineMode = false → f.lineMode = false
      → exec (.chainBreak) s = .next (s.withDev ((f.emit (.chain
      { bcast := true, reverse := false, dst := 0, src := f.chainAddr, hops := 0, epoch := f.epoch, body := .breakMark f.chainAddr })).enterLine
      f.chainAddr))) ∧
  (∀ (rx : ChainRx) (g : Dev) (s : State) (d : Dev) (f : ChainFrame), d = s.dev → f = chainFrameOf rx.line 0 rx.src rx.epoch
      (.breakMark rx.src) → d.mode ≠ 0 → rx.line.crc = f.crc rx.line.type.toNat → rx.line.type.toNat = f.body.type → rx.epoch =
      d.epoch → g = d.enterLine rx.src → g.atEnd rx.line.reverse = false → f.hops < 15 → exec (.breakFrame rx) s = .next (s.withDev
      (g.emit (.chain { f with hops := f.hops + 1 })))) ∧
  (∀ (pair : Fin 2) (s : State) (d : Dev), d = s.dev → d.mode ≠ 0 → d.lineMode = true → pair = 1 → exec (.lineEndDetect pair) s =
      .next (s.withDev (({ d with memb := { d.memb with silent := d.memb.silent.filter (fun x => x ≠ 1) ++ [1] } } : Dev).raise1
      Memb.LINE_END))) ∧
  (∀ (s : State) (d : Dev) (f : Dev), d = s.dev → f = d.enterRing → d.mode ≠ 0 → d.lineMode = true → d.flag Memb.LINE_END = true →
      f.lineMode = false → exec (.ringRestore) s = .next (s.withDev (f.emit (.chain
      { bcast := true, reverse := false, dst := 0, src := f.chainAddr, hops := 0, epoch := d.epoch, body := .ring })))) ∧
  (∀ (rx : ChainRx) (g : Dev) (s : State) (d : Dev) (f : ChainFrame), d = s.dev → f = chainFrameOf rx.line 0 rx.src rx.epoch .ring
      → d.mode ≠ 0 → rx.line.crc = f.crc rx.line.type.toNat → rx.line.type.toNat = f.body.type → rx.epoch = d.epoch → g =
      d.enterRing → rx.src ≠ g.chainAddr → g.atEnd rx.line.reverse = false → f.hops < 15 → exec (.ringFrame rx) s = .next (s.withDev
      (g.emit (.chain { f with hops := f.hops + 1 })))) ∧
  (∀ (rx : ChainRx) (s : State) (d : Dev) (f : ChainFrame) (g : Dev), d = s.dev → f = chainFrameOf rx.line 0 rx.src rx.epoch .ring
      → g = d.enterRing → d.mode ≠ 0 → rx.line.crc = f.crc rx.line.type.toNat → rx.line.type.toNat = f.body.type → rx.epoch =
      d.epoch → g.lineMode = false → rx.line.bcast = true → rx.src ≠ 0 → rx.src = g.chainAddr → exec (.ringFrame rx) s = .next
      (s.withDev g)) ∧
  (∀ (rx : ChainRx) (next turns : Nat) (own : Bool) (g : Dev) (s : State) (d : Dev) (f : ChainFrame), d = s.dev → f = chainFrameOf
      rx.line 0 rx.src rx.epoch (.enum next turns) → d.mode ≠ 0 → rx.line.crc = f.crc rx.line.type.toNat → rx.line.type.toNat =
      f.body.type → d.epoch = 0 → d.mode = 2 → d.chainAddr = 0 → d.memb.enumState = 1 → next ≤ 16 → g =
      ({ d with memb := { d.memb with enumState := 3 } } : Dev).wr Glob.CHAIN_ADDRESS next → g.atEnd rx.line.reverse = false → exec
      (.enumFrame rx next turns own) s = .next (s.settledFrom (s.withDev (g.emit (.chain
      { f with src := g.chainAddr, hops := 0, epoch := g.epoch, body := .enum (next + 1) turns }))))) ∧
  (∀ (rx : ChainRx) (next turns : Nat) (own : Bool) (g : Dev) (s : State) (d : Dev) (f : ChainFrame), d = s.dev → f = chainFrameOf
      rx.line 0 rx.src rx.epoch (.enum next turns) → d.mode ≠ 0 → rx.line.crc = f.crc rx.line.type.toNat → rx.line.type.toNat =
      f.body.type → d.epoch = 0 → d.mode = 2 → d.chainAddr = 0 → d.memb.enumState = 1 → next ≤ 16 → g =
      ({ d with memb := { d.memb with enumState := 3 } } : Dev).wr Glob.CHAIN_ADDRESS next → g.atEnd rx.line.reverse = true → exec
      (.enumFrame rx next turns own) s = .next (s.settledFrom (s.withDev (g.emit (.chain
      { f with reverse := !rx.line.reverse, src := g.chainAddr, hops := 0, epoch := g.epoch, body := .enum (next + 1) (turns + 1) }))))) ∧
  (∀ (s : State) (d : Dev) (f : Dev), d = s.dev → f = ({ d with memb := { d.memb with enumState := 2 } } : Dev).wr
      Glob.CHAIN_ADDRESS 1 → d.mode = 2 → d.memb.enumState = 1 → d.memb.peers.filter (fun x => x.2.ever) = [] → d.rst.straps.head =
      true → f.lineMode = false → exec (.enumListenEnd) s = .next (s.settledFrom (s.withDev (f.emit (.chain
      { bcast := false, reverse := false, dst := 0, src := f.chainAddr, hops := 0, epoch := f.epoch, body := .enum 2 0 }))))) ∧
  (∀ (rx : ChainRx) (count : Nat) (shape : EnumShape) (g k : Dev) (s : State) (d : Dev) (f : ChainFrame), d = s.dev → f =
      chainFrameOf rx.line 0 rx.src rx.epoch (.enumDone count shape.mode shape.overflow) → d.mode ≠ 0 → rx.line.crc = f.crc
      rx.line.type.toNat → rx.line.type.toNat = f.body.type → g = d.passFrame f → g.epoch = 0 → g.mode = 2 → k = ((g.wr
      Memb.CHAIN_COUNT count).wr Memb.CHAIN_MODE shape.mode).wrFlag Memb.OVERFLOW shape.overflow → exec (.enumDone rx count shape) s
      = .next (s.settledFrom (s.withDev (({ k with memb := { k.memb with enumState := 0 } } : Dev).toStandby s.time.now 14)))) ∧
  (∀ (s : State) (d : Dev), d = s.dev → d.mode = 2 → exec (.enumTimeout) s = .next (s.settledFrom (s.withDev
      ((({ d with memb := { d.memb with enumState := 0 } } : Dev).wr Glob.CHAIN_ADDRESS 0).toStandby s.time.now 14))))

/-- Frames of the chain: damaged, unlisted, far, turned and spent ones -/
def Obligations.ChainFrames : Prop :=
  (∀ (rx : ChainRx) (s : State) (d : Dev) (f : ChainFrame), d = s.dev → f = chainFrameOf rx.line 0 rx.src rx.epoch (.breakMark
      rx.src) → d.mode ≠ 0 → rx.line.crc ≠ f.crc rx.line.type.toNat → exec (.breakFrame rx) s = .next (s.withDev
      ({ d with memb := { d.memb with crcDrops := d.memb.crcDrops + 1 } }))) ∧
  (∀ (rx : ChainRx) (s : State) (d : Dev) (f : ChainFrame), d = s.dev → f = chainFrameOf rx.line 0 rx.src rx.epoch .ring → d.mode
      ≠ 0 → rx.line.crc ≠ f.crc rx.line.type.toNat → exec (.ringFrame rx) s = .next (s.withDev
      ({ d with memb := { d.memb with crcDrops := d.memb.crcDrops + 1 } }))) ∧
  (∀ (rx : ChainRx) (next turns : Nat) (own : Bool) (s : State) (d : Dev) (f : ChainFrame), d = s.dev → f = chainFrameOf rx.line 0
      rx.src rx.epoch (.enum next turns) → d.mode ≠ 0 → rx.line.crc ≠ f.crc rx.line.type.toNat → exec (.enumFrame rx next turns own)
      s = .next (s.settledFrom (s.withDev ({ d with memb := { d.memb with crcDrops := d.memb.crcDrops + 1 } })))) ∧
  (∀ (rx : ChainRx) (count : Nat) (shape : EnumShape) (s : State) (d : Dev) (f : ChainFrame), d = s.dev → f = chainFrameOf rx.line
      0 rx.src rx.epoch (.enumDone count shape.mode shape.overflow) → d.mode ≠ 0 → rx.line.crc = f.crc rx.line.type.toNat →
      rx.line.type.toNat ≠ f.body.type → exec (.enumDone rx count shape) s = .next (s.settledFrom (s.withDev
      ({ d with memb := { d.memb with typeDrops := d.memb.typeDrops + 1 } })))) ∧
  (∀ (via : FabricVia) (src epoch : Nat) (word : BitVec 64) (l : ChainLine) (s : State) (d : Dev) (f : ChainFrame), d = s.dev → f
      = chainFrameOf l 0 src epoch (.heartbeat word.toNat) → via = .chain l → d.mode ≠ 0 → l.crc = f.crc l.type.toNat → l.type.toNat
      ≠ f.body.type → exec (.heartbeat via src epoch word) s = .next (s.settledFrom (s.withDev
      ({ d with memb := { d.memb with typeDrops := d.memb.typeDrops + 1 } })))) ∧
  (∀ (via : FabricVia) (src dst notice : Nat) (l : ChainLine) (s : State) (d : Dev) (f : ChainFrame), d = s.dev → f = chainFrameOf
      l dst src notice (.fenced notice) → via = .chain l → d.mode ≠ 0 → l.crc = f.crc l.type.toNat → l.type.toNat = f.body.type →
      dst ≠ d.chainAddr → l.hops.val = 15 → exec (.fenced via src dst notice) s = .next (s.settledFrom (s.withDev d))) ∧
  (∀ (via : FabricVia) (src dst notice : Nat) (l : ChainLine) (s : State) (d : Dev) (f : ChainFrame), d = s.dev → f = chainFrameOf
      l dst src notice (.fenced notice) → via = .chain l → d.mode ≠ 0 → l.crc = f.crc l.type.toNat → l.type.toNat = f.body.type →
      dst ≠ d.chainAddr → d.lineMode = true → d.atEnd l.reverse = true → l.bcast = false → l.hops.val < 15 → exec (.fenced via src
      dst notice) s = .next (s.settledFrom (s.withDev (d.emit (.chain { f with reverse := !f.reverse, hops := f.hops + 1 }))))) ∧
  (∀ (rx : ChainRx) (s : State) (d : Dev) (f : ChainFrame) (g : Dev), d = s.dev → f = chainFrameOf rx.line 0 rx.src rx.epoch
      (.breakMark rx.src) → g = d.enterLine rx.src → d.mode ≠ 0 → rx.line.crc = f.crc rx.line.type.toNat → rx.line.type.toNat =
      f.body.type → rx.epoch = d.epoch → g.atEnd rx.line.reverse = true → rx.line.bcast = true → rx.line.reverse = true → exec
      (.breakFrame rx) s = .next (s.withDev g))

/-- Heartbeats and FENCED notices -/
def Obligations.Heartbeats : Prop :=
  (∀ (f g : Dev) (s : State) (d : Dev), d = s.dev → 3 ≤ d.mode → d.chainAddr ≠ 0 → f = d.sendHeartbeat s.time.now → g =
      (((List.range 16).map (· + 1)).filter (fun a => a ≠ f.chainAddr)).foldl (fun (x : Dev) a => x.countMissed s.time.now a) f →
      exec (.heartbeatPeriod) s = .next (s.settledFrom (s.withDev (((g.newlySilent f).foldl (fun (x : Dev) a => x.onSilence
      s.time.now a) g).leasePeriod)))) ∧
  (∀ (via : FabricVia) (src epoch : Nat) (word : BitVec 64) (l : ChainLine) (g : Dev) (s : State) (d : Dev) (f : ChainFrame), d =
      s.dev → f = chainFrameOf l 0 src epoch (.heartbeat word.toNat) → via = .chain l → d.mode ≠ 0 → l.crc = f.crc l.type.toNat →
      l.type.toNat = f.body.type → g = d.passFrame f → 1 ≤ src → src ≤ 16 → src ≠ g.chainAddr → g.memb.yokeWait = none → epoch =
      g.epoch → exec (.heartbeat via src epoch word) s = .next (s.settledFrom (s.withDev (g.heard s.time.now src epoch
      word.toNat)))) ∧
  (∀ (via : FabricVia) (src epoch : Nat) (word : BitVec 64) (h : QflHdr) (f : Dev) (s : State) (d : Dev), d = s.dev → via = .vc5 h
      → d.mode ≠ 0 → f = d.takeRx { vc := 5, opcode := 0x10, src := h.src, dst := h.dst, tag := h.tag, e2e := h.e2e } → 1 ≤ h.src →
      h.src ≤ 16 → h.src ≠ f.chainAddr → f.memb.yokeWait = none → f.epoch ≠ 0 → h.epoch ≠ 0 → h.epoch ≠ f.epoch → f.lateEpoch
      s.time.now h.src h.epoch = false → newerEpoch h.epoch f.epoch = false → exec (.heartbeat via src epoch word) s = .next
      (s.settledFrom (s.withDev (((f.inc Memb.STALE_DROPS).fencedNotice s.time.now h.src).mon s.time.now 0x37 0x703 0xffff h.src)))) ∧
  (∀ (via : FabricVia) (src dst notice : Nat) (l : ChainLine) (s : State) (d : Dev) (f : ChainFrame), d = s.dev → f = chainFrameOf
      l dst src notice (.fenced notice) → via = .chain l → d.mode ≠ 0 → l.crc = f.crc l.type.toNat → l.type.toNat = f.body.type →
      dst = d.chainAddr → exec (.fenced via src dst notice) s = .next (s.settledFrom (s.withDev (d.fencedNoticeIn s.time.now
      notice)))) ∧
  (∀ (via : FabricVia) (src dst notice : Nat) (l : ChainLine) (s : State) (d : Dev) (f : ChainFrame), d = s.dev → f = chainFrameOf
      l dst src notice (.fenced notice) → via = .chain l → d.mode ≠ 0 → l.crc = f.crc l.type.toNat → l.type.toNat = f.body.type →
      dst ≠ d.chainAddr → l.bcast = false → d.atEnd l.reverse = false → l.hops.val < 15 → exec (.fenced via src dst notice) s =
      .next (s.settledFrom (s.withDev (d.emit (.chain { f with hops := f.hops + 1 }))))) ∧
  (∀ (via : FabricVia) (src dst notice : Nat) (h : QflHdr) (s : State) (d : Dev), d = s.dev → via = .vc5 h → d.mode ≠ 0 → exec
      (.fenced via src dst notice) s = .next (s.settledFrom (s.withDev ((d.takeRx
      { vc := 5, opcode := 0x11, src := h.src, dst := h.dst, tag := h.tag, e2e := h.e2e }).fencedNoticeIn s.time.now notice))))

/-- The Rennet, TEST messages and the PRBS checkers -/
def Obligations.Rennet : Prop :=
  (∀ (h : SilekHdr) (cls target setting : Nat) (e : Dev) (s : State) (d : Dev) (i : CmdInfo), d = s.begun.dev → i = .of 0x810 1
      (.rennetSet h.key cls target setting) → s.admits h i = true → s.dev.mode = 11 → s.dev.partS = false → s.guard.unlocked = true
      → rennetTarget cls target = true → rennetSetting cls setting = true → s.begun.dev.rennetTargetOk cls target = true →
      s.begun.dev.rennetPut cls target setting = some e → exec (.rennetSet h cls target setting) s = .next (s.settledFrom
      (({ s.begun with dev := e.applySetting s.time.now cls target setting, guard := { s.guard with unlocked := false } } :
      State).answered h i .ok []))) ∧
  (∀ (h : SilekHdr) (s : State) (d : Dev) (i : CmdInfo), d = s.begun.dev → i = .of 0x811 1 (.rennetClear h.key) → s.admits h i =
      true → exec (.rennetClear h) s = .next ((s.withDev d.rennetClear).answered h i .ok [])) ∧
  (∀ (h : SilekHdr) (s : State) (d : Dev) (i : CmdInfo), d = s.begun.dev → i = .of 0x812 1 (.rennetQuery h.key) → s.admits h i =
      true → exec (.rennetQuery h) s = .next (s.begun.answered h i .ok (leBytes 1 (d.rd Ren.SETTINGS) ++ zeros 3 ++ ((List.range
      16).map (fun k => leBytes 1 (d.rd (Ren.CLASS k)) ++ zeros 1 ++ leBytes 2 (d.rd (Ren.TARGET k)) ++ leBytes 4 (d.rd (Ren.SETTING
      k)))).flatten))) ∧
  (∀ (stream : Fin 4) (v : Nat) (s : State) (d : Dev), d = s.dev → d.rennet 7 stream = some v → 2 ≤ streamMode v → exec
      (.exerciseInject stream) s = .next (s.settledFrom (s.withDev (d.injectStream s.time.now v)))) ∧
  (∀ (snoops : Bool) (c : Cont) (rest : List (Bool × Cont)) (s : State) (d : Dev), d = s.dev → snoops = false → d.exer.memory =
      (true, c) :: rest → exec (.responderReply snoops) s = .next (s.settledFrom (s.withDev
      (({ d with exer := { d.exer with memory := rest } } : Dev).later (.ended c {}))))) ∧
  (∀ (snoops : Bool) (c : Cont) (rest : List (Bool × Cont)) (s : State) (d : Dev), d = s.dev → snoops = false → d.exer.memory =
      (false, c) :: rest → exec (.responderReply snoops) s = .next (s.settledFrom (s.withDev
      (({ d.drawn with exer := { d.exer with memory := rest } } : Dev).later (.ended c
      { data := BitVec.ofNat 512 (d.freeVal 11) }))))) ∧
  (∀ (lane : Fin 256) (v : Nat) (s : State) (d : Dev), d = s.dev → d.rennet 6 lane = some v → v % 65536 ≠ 0 → exec
      (.laneDropExpiry lane) s = .next (s.withDev (d.setLane lane { d.laneOf lane with dropped := false }))) ∧
  (∀ (s : State) (d : Dev), d = s.dev → d.mode = 11 → exec (.testPeriod) s = .next (s.withDev ((d.ports.filter (fun p =>
      d.isQflPort p && decide (d.rd (Pg.ll_LL_STATE p) = 2))).foldl (fun (x : Dev) p => x.sendTest s.time.now p) d))) ∧
  (∀ (h : QflHdr) (p : Nat) (g : Dev) (s : State) (d : Dev) (f : Dev), d = s.dev → f = (d.receiveFiltered s.time.now 5 0x30 h).1 →
      d.arrivedOn { vc := 5, opcode := 0x30, src := h.src, dst := h.dst, tag := h.tag, e2e := h.e2e } = some p → (d.receiveFiltered
      s.time.now 5 0x30 h).2 = true → g = ({ f with fab := { f.fab with tests := f.fab.tests + 1 } } : Dev) → exec (.testMsg h) s =
      .next (s.withDev (g.queueOn s.time.now p
      { vc := 5, opcode := 0x31, src := h.dst, dst := h.src, master := h.master, tag := h.tag, epoch := g.epoch, e2e := h.e2e }))) ∧
  (∀ (h : QflHdr) (o : Outst) (s : State) (d : Dev) (f : Dev), d = s.dev → f = (d.matchResponse s.time.now 5 0x31 h).1 →
      (d.matchResponse s.time.now 5 0x31 h).2 = some o → exec (.testRsp h) s = .next (s.withDev
      ({ f with fab := { f.fab with testReplies := f.fab.testReplies + 1 } }))) ∧
  (∀ (lane : Fin 256) (received : List Bool) (bits errors : Nat) (n : Nat) (s : State) (d : Dev) (f : Dev), d = s.dev → f =
      d.raise1 (Pg.lane_CHK_SYNC lane) → d.checks lane = true → d.flag (Pg.lane_CHK_SYNC lane) = false → prbsInSync (d.rd
      (Pg.lane_CHK_PATTERN lane)) received = true → f.flag (Pg.lane_CHK_SYNC lane) = true → n = f.rd (Pg.lane_PRBS_BITS_LO lane) + 2
      ^ 32 * f.rd (Pg.lane_PRBS_BITS_HI lane) → n < 2 ^ 48 - 1 → n + bits ≤ 2 ^ 48 - 1 → exec (.checkerSync lane received ⟨bits,
      errors⟩) s = .next (s.withDev (((f.wr (Pg.lane_PRBS_BITS_LO lane) ((n + bits) % 2 ^ 32)).wr (Pg.lane_PRBS_BITS_HI lane) ((n +
      bits) / 2 ^ 32)).add (Pg.lane_PRBS_ERRORS lane) errors))) ∧
  (∀ (lane : Fin 256) (window bits errors : Nat) (s : State) (d : Dev), d = s.dev → d.flag (Pg.lane_CHK_SYNC lane) = true → 256 ≤
      window → exec (.syncLoss lane window ⟨bits, errors⟩) s = .next (s.withDev (((d.prbsCount lane bits errors).wrFlag
      (Pg.lane_CHK_SYNC lane) false).inc (Pg.lane_SYNC_LOSS lane))))

/-- For every command c and state s, step of s with c at the front of its queue is exec of c on s with the rest of the queue. The queue
  is the model's own (log entry 1). -/
def Obligations.StepRunsFront : Prop :=
  ∀ (c : Instr) (rest : List Instr) (s : State), step { s with pending := c :: rest } = exec c { s with pending := rest }

/-- What a step does on an empty queue: the model's choice (log entry 1), with the clock of R55 and R526, the sweep of R201, the held
  commands of R422 and the doorbells of R267. -/
def Obligations.IdleStep : Prop :=
  (∀ (s : State), s.pending = [] → s.dev.nextHeld = none → s.dev.ringNext = none → s.dev.doorbellFree = none → s.dev.mode = 0 →
      step s = .next s) ∧
  (∀ (s : State), s.pending = [] → s.dev.nextHeld = none → s.dev.ringNext = none → s.dev.doorbellFree = none → s.dev.mode ≠ 0 →
      s.dev.chn.sweeps = [] → step s = .next { s with time := s.time.tick (decide (s.activeSource ≠ 0)), dev := s.dev.monTick }) ∧
  (∀ (s : State) (u : TimeUnit), s.pending = [] → s.dev.nextHeld = none → s.dev.ringNext = none → s.dev.doorbellFree = none →
      s.dev.mode ≠ 0 → s.dev.chn.sweeps ≠ [] → u = s.time.tick (decide (s.activeSource ≠ 0)) → step s = .next
      { s with time := u, dev := (s.dev.monTick.sweepStep u.now).finishCommand u.now s.dev }) ∧
  (∀ (s : State) (t : State) (x : HeldCommand), s.pending = [] → s.dev.nextHeld = some x → exec x.cmd (s.release x) = .next t →
      step s = .next t.released) ∧
  (∀ (s : State) (mb : Nat), s.pending = [] → s.dev.nextHeld = none → s.dev.ringNext = some mb → step s = s.submit mb) ∧
  (∀ (s : State) (p : Nat), s.pending = [] → s.dev.nextHeld = none → s.dev.ringNext = none → s.dev.doorbellFree = some p → step s
      = .next (s.settledFrom (s.withDev (s.dev.later (.takeHeld p)))))

/-- The machine right after reset. The Reset columns of the register tables (R445) give the values; which state that is and what they
  leave open is the model's choice (log entry 4). -/
def Obligations.ResetState : Prop :=
  (State.reset.pending = [] ∧ State.reset.mem = [] ∧ State.reset.guard.unlocked = false ∧ State.reset.guard.lockedOut = false ∧
      State.reset.guard.wrongRun = 0 ∧ State.reset.time.now = 0 ∧ State.reset.dev.mode = 1 ∧ State.reset.dev.silek.running = [] ∧
      State.reset.dev.silek.cache = [] ∧ State.reset.dev.extents = [] ∧ State.reset.dev.windows = [] ∧ State.reset.dev.slots = [] ∧
      State.reset.dev.out = [] ∧ State.reset.dev.errors = [] ∧ State.reset.dev.flaws = []) ∧
  (∀ (f : Field), State.reset.dev.rd f = f.reset ∧ State.reset.dev.mrd f = f.reset) ∧
  (State.reset.dev.rd Glob.SPEED_FASTEST = 0xffff ∧ State.reset.dev.rd Glob.CURRENT_MODE = 0x1 ∧ State.reset.dev.rd
      Tim.TIME_SOURCE = 0x3 ∧ State.reset.dev.rd Tim.PPS_OUT_EN = 0x1 ∧ State.reset.dev.rd Tim.TIME_STEP_LIMIT = 0x3e8 ∧
      State.reset.dev.rd Ext.BIND_HOST_TIMEOUT = 0x32 ∧ State.reset.dev.rd Ext.RELEASE_HOST_TIMEOUT = 0x32 ∧ State.reset.dev.rd
      ChurnR.BACKOFF_BASE = 0x10 ∧ State.reset.dev.rd ChurnR.BACKOFF_MAX = 0x400 ∧ State.reset.dev.rd ChurnR.SNOOP_TIMEOUT = 0x4 ∧
      State.reset.dev.rd ChurnR.TICKET_EXPIRY = 0x14 ∧ State.reset.dev.rd Glob.DRAIN_TIMEOUT = 0x14 ∧ State.reset.dev.rd
      Glob.TARGET_TIMEOUT = 0xa ∧ State.reset.dev.rd Glob.RO_HONOUR = 0x1 ∧ State.reset.dev.rd InstR.FABRIC_TRACKER_MIN = 0x20 ∧
      State.reset.dev.rd InstR.FABRIC_TRACKER_MAX = 0x1e0 ∧ State.reset.dev.rd InstR.FABRIC_WEIGHT = 0x10 ∧ State.reset.dev.rd
      InstR.MSIX_FREE = 0x8000 ∧ State.reset.dev.rd InstR.MSIX_LARGEST_RUN = 0x8000 ∧ State.reset.dev.rd InstR.REQ_POOL_FREE =
      0x8000 ∧ State.reset.dev.rd InstR.TRACKER_MIN_SUM = 0x20 ∧ State.reset.dev.rd GateR.REPORT_LIMIT = 0x40 ∧ State.reset.dev.rd
      Memb.HB_MISS_LIMIT = 0x8 ∧ State.reset.dev.rd Memb.YOKE_TIMEOUT = 0x14 ∧ State.reset.dev.rd Memb.ENUM_TIMEOUT = 0x1e ∧
      State.reset.dev.rd Ident.PART_CODE = 0x964 ∧ State.reset.dev.rd Ident.ENTERPRISE = 0x1f3a9 ∧ State.reset.dev.rd
      Ident.SILEK_MAJOR = 0x2 ∧ State.reset.dev.rd Ident.SILEK_MINOR = 0x3 ∧ State.reset.dev.rd Ident.QFL_VERSION = 0x2 ∧
      State.reset.dev.rd Glob.SPEED_TARGET = 0x341 ∧ State.reset.dev.rd Glob.VCORE_MIN = 0x8c ∧ State.reset.dev.rd Glob.VCORE_MAX =
      0xb4 ∧ State.reset.dev.rd Glob.AVS_EN = 0x1 ∧ State.reset.dev.rd Glob.LOWER_MARGIN = 0x3 ∧ State.reset.dev.rd Glob.VCORE_SET =
      0x320 ∧ State.reset.dev.rd Glob.WDT_TIMEOUT = 0x64 ∧ State.reset.dev.rd Glob.PMBUS_ADDR = 0x40 ∧ State.reset.dev.rd
      Elog.NEXT_NUMBER = 0x1 ∧ State.reset.dev.rd Hbk.NAK_STORM_LIMIT = 0x64 ∧ State.reset.dev.rd Hbk.TJ_PEAK = 0x80) ∧
  (∀ (p : Nat), State.reset.dev.rd (Pg.CXL_MAX_RATE p) = 0x6 ∧ State.reset.dev.rd (Pg.phy_INIT_PRESET p) = 0x3 ∧
      State.reset.dev.rd (Pg.phy_EYE_MIN p) = 0x8 ∧ State.reset.dev.rd (Pg.phy_FEATURE_OFFER p) = 0x3f ∧ State.reset.dev.rd
      (Pg.phy_VERSION_LOCAL p) = 0x2 ∧ State.reset.dev.rd (Pg.ll_REPLAY_LIMIT p) = 0x4 ∧ State.reset.dev.rd (Pg.ll_ACK_INTERVAL p) =
      0x20 ∧ State.reset.dev.rd (Pg.ll_ACK_TIMER p) = 0xa ∧ State.reset.dev.rd (Pg.ll_NAK_TIMER p) = 0x32 ∧ State.reset.dev.rd
      (Pg.ll_REPLAY_TIMER p) = 0x14 ∧ State.reset.dev.rd (Pg.ll_LINK_HOLD p) = 0x32 ∧ State.reset.dev.rd (Pg.ll_RX_ACK_SEQ p) =
      0xfff ∧ State.reset.dev.rd (Pg.SLOT_SETTLE p) = 0x64 ∧ State.reset.dev.rd (Spc.ch_ILIM p) = 0xa ∧ State.reset.dev.rd
      (Spc.ch_FAULT_TIMER p) = 0xa ∧ State.reset.dev.rd (Spc.ch_PCHG_TIMEOUT p) = 0x32 ∧ State.reset.dev.rd (Spc.ch_PCHG_DELTA p) =
      0x5)

/-- The state after reset keeps the invariant -/
def Obligations.ResetInv : Prop :=
  State.reset.Inv

/-- The invariant of the model: from every state that has it, reached or not, each step leaves it in place. -/
def Obligations.InvKept : Prop :=
  ∀ (s : State) (t : State), s.Inv → step s = .next t → t.Inv

/-- A completion statement for all commands at once, and the one form that stops. -/
def Obligations.CommandsComplete : Prop :=
  (∀ (c : Instr) (s : State), c.segmentOk = true → ∃ t, exec c s = .next t ∧ t.pending = s.pending) ∧
  (∀ (c : Instr) (s : State), c.segmentOk = false → exec c s = .fault .illFormed)

/-- What the responder refuses before a command's body runs, stated over every Silek command (R407 to R425). -/
def Obligations.Refusals : Prop :=
  (∀ (c : Instr) (h : SilekHdr) (s : State), c.header = some h → s.dev.calm = true → s.dev.flag (Mbx.DOORBELL 64) = false →
      s.dev.mode ≤ 1 → exec c s = .next s) ∧
  (∀ (c : Instr) (h : SilekHdr) (s : State), c.header = some h → s.dev.calm = true → s.dev.flag (Mbx.DOORBELL 64) = false → 1 <
      s.dev.mode → h.broadcast = true → (c.opcode ≠ 0x506 ∨ h.dst ≠ 0) → exec c s = .next s) ∧
  (∀ (c : Instr) (h : SilekHdr) (s : State) (e : Nat), c.header = some h → s.dev.calm = true → s.dev.flag (Mbx.DOORBELL 64) =
      false → h.requester = .fm e → s.dev.silek.releasing = none → 1 < s.dev.mode → h.broadcast = false → h.epoch ≠ 0 → h.epoch ≠
      s.dev.epoch → exec c s = .next (s.sending (.reply (.fm e) c.opcode h.tag (min h.minor 3) 1 .fenced []) s.dev.silek.cache)) ∧
  (∀ (c : Instr) (h : SilekHdr) (s : State) (e : Nat), c.header = some h → s.dev.calm = true → s.dev.flag (Mbx.DOORBELL 64) =
      false → h.requester = .fm e → s.dev.silek.releasing = none → 1 < s.dev.mode → h.broadcast = false → (h.epoch = 0 ∨ h.epoch =
      s.dev.epoch) → c.opcode ≠ 0x101 → h.major ≠ 2 → exec c s = .next (s.sending (.reply (.fm e) c.opcode h.tag 3 1
      .versionMismatch [1, 2, 3, 0]) s.dev.silek.cache)) ∧
  (∀ (c : Instr) (h : SilekHdr) (s : State) (e : Nat), c.header = some h → s.dev.calm = true → s.dev.flag (Mbx.DOORBELL 64) =
      false → h.requester = .fm e → s.dev.silek.releasing = none → 1 < s.dev.mode → h.broadcast = false → (h.epoch = 0 ∨ h.epoch =
      s.dev.epoch) → h.major = 2 → min h.minor 3 < c.minMinor → c.opcode ≠ 0x101 → exec c s = .next (s.refuses h c .badOpcode)) ∧
  (∀ (c : Instr) (h : SilekHdr) (s : State) (e : Nat), c.header = some h → s.dev.calm = true → s.dev.flag (Mbx.DOORBELL 64) =
      false → h.requester = .fm e → s.dev.silek.releasing = none → 1 < s.dev.mode → h.broadcast = false → (h.epoch = 0 ∨ h.epoch =
      s.dev.epoch) → h.major = 2 → c.opcode ≠ 0x101 → c.minMinor ≤ min h.minor 3 → s.dev.tagFree h = true → (h.dst = 0 ∨ h.dst =
      s.dev.chainAddr) → s.dev.modeAccepts c.opcode false = false → exec c s = .next (s.refuses h c .notPermitted)) ∧
  (∀ (c : Instr) (h : SilekHdr) (s : State) (e : Nat), c.header = some h → s.dev.calm = true → s.dev.flag (Mbx.DOORBELL 64) =
      false → h.requester = .fm e → s.dev.silek.releasing = none → 1 < s.dev.mode → h.broadcast = false → (h.epoch = 0 ∨ h.epoch =
      s.dev.epoch) → h.major = 2 → c.opcode ∉ [0x101, 0x506, 0x503, 0x107] → c.minMinor ≤ min h.minor 3 → s.dev.tagFree h = true →
      (h.dst = 0 ∨ h.dst = s.dev.chainAddr) → s.dev.modeAccepts c.opcode false = true → h.padOk = false → exec c s = .next
      (s.refuses h c .badParam)) ∧
  (∀ (c : Instr) (h : SilekHdr) (s : State) (e : Nat), c.header = some h → s.dev.calm = true → s.dev.flag (Mbx.DOORBELL 64) =
      false → h.requester = .fm e → s.dev.silek.releasing = none → 1 < s.dev.mode → h.broadcast = false → (h.epoch = 0 ∨ h.epoch =
      s.dev.epoch) → h.major = 2 → c.opcode ∉ [0x101, 0x506, 0x503, 0x107] → c.minMinor ≤ min h.minor 3 → s.dev.tagFree h = true →
      (h.dst = 0 ∨ h.dst = s.dev.chainAddr) → s.dev.modeAccepts c.opcode false = true → h.padOk = true → 64 ≤
      s.dev.silek.running.length → exec c s = .next (s.refuses h c .noResource))

/-- The reply cache of R421, stated over every Silek command: a resend never runs a command twice while its reply is kept. -/
def Obligations.RepeatedTags : Prop :=
  (∀ (c : Instr) (h : SilekHdr) (s : State) (e : Nat) (r : Running), c.header = some h → s.dev.calm = true → s.dev.flag
      (Mbx.DOORBELL 64) = false → h.requester = .fm e → s.dev.silek.releasing = none → 1 < s.dev.mode → h.broadcast = false →
      (h.epoch = 0 ∨ h.epoch = s.dev.epoch) → (c.opcode = 0x101 ∨ h.major = 2) → c.minMinor ≤ (CmdInfo.of c.opcode c.minMinor
      c.keyed).minorOf h → (s.dev.runningOf h.requester).find? (fun x => x.tag = h.tag) = some r → r.cmd = c.keyed → exec c s =
      .next (s.sending (.reply (.fm e) c.opcode h.tag ((CmdInfo.of c.opcode c.minMinor c.keyed).minorOf h) 3 .inProgress [])
      s.dev.silek.cache)) ∧
  (∀ (c : Instr) (h : SilekHdr) (s : State) (e : Nat) (r : Running), c.header = some h → s.dev.calm = true → s.dev.flag
      (Mbx.DOORBELL 64) = false → h.requester = .fm e → s.dev.silek.releasing = none → 1 < s.dev.mode → h.broadcast = false →
      (h.epoch = 0 ∨ h.epoch = s.dev.epoch) → (c.opcode = 0x101 ∨ h.major = 2) → c.minMinor ≤ (CmdInfo.of c.opcode c.minMinor
      c.keyed).minorOf h → (s.dev.runningOf h.requester).find? (fun x => x.tag = h.tag) = some r → r.cmd ≠ c.keyed → exec c s =
      .next (s.sending (.reply (.fm e) c.opcode h.tag ((CmdInfo.of c.opcode c.minMinor c.keyed).minorOf h) 1 .badParam [])
      s.dev.silek.cache)) ∧
  (∀ (c : Instr) (h : SilekHdr) (s : State) (e : Nat) (r : HeldCommand), c.header = some h → s.dev.calm = true → s.dev.flag
      (Mbx.DOORBELL 64) = false → h.requester = .fm e → s.dev.silek.releasing = none → 1 < s.dev.mode → h.broadcast = false →
      (h.epoch = 0 ∨ h.epoch = s.dev.epoch) → (c.opcode = 0x101 ∨ h.major = 2) → c.minMinor ≤ (CmdInfo.of c.opcode c.minMinor
      c.keyed).minorOf h → (s.dev.runningOf h.requester).find? (fun x => x.tag = h.tag) = none → s.dev.silek.held.find? (fun x =>
      x.req = h.requester ∧ x.tag = h.tag) = some r → exec c s = .next (s.sending (.reply (.fm e) c.opcode h.tag ((CmdInfo.of
      c.opcode c.minMinor c.keyed).minorOf h) (if r.cmd = c.keyed then 3 else 1) (if r.cmd = c.keyed then .inProgress else
      .badParam) []) s.dev.silek.cache)) ∧
  (∀ (c : Instr) (h : SilekHdr) (s : State) (e : Nat) (r : CachedReply), c.header = some h → s.dev.calm = true → s.dev.flag
      (Mbx.DOORBELL 64) = false → h.requester = .fm e → s.dev.silek.releasing = none → 1 < s.dev.mode → h.broadcast = false →
      (h.epoch = 0 ∨ h.epoch = s.dev.epoch) → (c.opcode = 0x101 ∨ h.major = 2) → c.minMinor ≤ (CmdInfo.of c.opcode c.minMinor
      c.keyed).minorOf h → (s.dev.runningOf h.requester).find? (fun x => x.tag = h.tag) = none → s.dev.silek.held.find? (fun x =>
      x.req = h.requester ∧ x.tag = h.tag) = none → s.dev.silek.cache.find? (fun x => x.req = h.requester ∧ x.tag = h.tag) = some r
      → r.cmd = c.keyed → s.time.now ≤ r.time + 10000000000 → exec c s = .next (s.sending (.reply (.fm e) r.opcode h.tag r.minor 1
      r.status (padBytes r.payload)) s.dev.silek.cache)) ∧
  (∀ (h : SilekHdr) (i : CmdInfo) (st : Status) (p : List Byte) (s : State) (e : Nat), h.requester = .fm e → s.dev.silek.releasing
      = none → h.tag < 65536 → (s.answered h i st p).dev.silek.cache.find? (fun x => x.req = h.requester ∧ x.tag = h.tag) = some
      { req := h.requester, tag := h.tag, cmd := i.key, opcode := i.opcode, minor := i.minorOf h, src := h.src, status := st, payload := p, time := s.time.now }) ∧
  (∀ (h : SilekHdr) (i : CmdInfo) (st : Status) (p : List Byte) (s : State) (e : Nat), h.requester = .fm e → s.dev.silek.releasing
      = none → h.tag < 65536 → ((s.answered h i st p).dev.silek.cache.filter (fun x => x.req = h.requester ∧ x.tag < 65536)).length
      ≤ 32)

/-- The mailbox buffers, the block's addressed memory: what stores to them and where (R417). -/
def Obligations.MailboxMemory : Prop :=
  (∀ (path : AccessPath) (off : Nat) (value : BitVec 64) (mb : Nat) (o : Nat) (s : State), s.dev.pathOpen path = true → s.dev.calm
      = true → bufferAt off = some (mb, o) → off % 4 = 0 → s.dev.flag (Mbx.BUSY mb) = false → s.dev.ringFree (mailboxAt off) = false
      → ∃ t, exec (.registerWrite path off 4 value) s = .next t ∧ t.dev = s.dev ∧ Memory.readBytes t.mem (Mailbox.cell mb o) 4 =
      leBytes 4 value.toNat ∧ ∀ a, a < Mailbox.cell mb o ∨ Mailbox.cell mb o + 4 ≤ a → Memory.read t.mem a = Memory.read s.mem a) ∧
  (∀ (path : AccessPath) (off : Nat) (value : BitVec 64) (mb : Nat) (o : Nat) (s : State) (e : Dev), s.dev.pathOpen path = true →
      bufferAt off = some (mb, o) → off % 4 = 0 → s.dev.flag (Mbx.BUSY mb) = true → e = s.dev.inc (Mbx.WRITES_IGNORED mb) → e.calm =
      true → e.ringFree (mailboxAt off) = false → exec (.registerWrite path off 4 value) s = .next (s.withDev e)) ∧
  (∀ (h : SilekHdr) (i : CmdInfo) (st : Status) (p : List Byte) (s : State) (mb : Nat) (t : State) (bs : List Byte),
      h.requester.mailbox = some mb → s.dev.silek.releasing = none → t = s.answered h i st p → bs = silekMessage s.dev i.opcode
      (i.minorOf h) 1 st.code h.tag h.src s.dev.epoch p → Memory.readBytes t.mem (Mailbox.cell mb 0x100) bs.length = bs ∧ ∀ a, a <
      Mailbox.cell mb 0x100 ∨ Mailbox.cell mb 0x100 + bs.length ≤ a → Memory.read t.mem a = Memory.read s.mem a) ∧
  (∀ (h : SilekHdr) (i : CmdInfo) (st : Status) (p : List Byte) (s : State) (mb : Nat) (t : State), h.requester.mailbox = some mb
      → s.dev.silek.releasing = none → t = s.answered h i st p → s.dev.flag (Mbx.REPLY_IRQ_EN mb) = false → t.dev.flag (Mbx.BUSY mb)
      = false ∧ t.dev.flag (Mbx.REPLY_READY mb) = true ∧ (∀ f : Field, f.key ∉ [(Mbx.BUSY mb).key, (Mbx.REPLY_READY mb).key] →
      t.dev.rd f = s.dev.rd f) ∧ t.dev.out = s.dev.out ∧ t.dev.irq = s.dev.irq)

/-- What is lost and what is kept on the way into OM0 (R445, R480, R490, R497). That the model keeps FABRIC_TIME, guard and mailboxes
  cleared from the entry on, not from the exit, is log entry 4's. -/
def Obligations.EntryToOm0 : Prop :=
  (∀ (s : State), ∃ t, exec (.zeroizeN) s = .next t ∧ t.pending = s.pending ∧ t.mem = [] ∧ t.guard = {} ∧ t.time = {} ∧ t.dev.mode
      = 0 ∧ (∀ f : Field, t.dev.rd f = f.reset) ∧ (∀ f : Field, t.dev.mrd f = f.reset) ∧ t.dev.silek = {} ∧ t.dev.extents = [] ∧
      t.dev.windows = [] ∧ t.dev.slots = [] ∧ t.dev.inst = [] ∧ t.dev.chn = {} ∧ t.dev.ladles = {} ∧ t.dev.gate = {} ∧ t.dev.memb =
      {} ∧ t.dev.errors = [] ∧ t.dev.fuses = s.dev.fuses ∧ t.dev.flash = s.dev.flash ∧ t.dev.banks = s.dev.banks ∧ t.dev.hbkFlash =
      s.dev.hbkFlash ∧ t.dev.jtag = s.dev.jtag ∧ t.dev.rst.straps = s.dev.rst.straps ∧ t.dev.rst.zeroisedLast = true ∧ t.dev.sc =
      { zeroisedBy := 2 } ∧ ∃ l : List Pin, t.dev.out = s.dev.out ++ l.map (fun p => Out.pin p false) ∧ ∀ c < 16, (s.dev.flag
      (Spc.ch_GATE_ON c) = true → Pin.spcGate c ∈ l) ∧ (s.dev.flag (Spc.ch_PCHG_ON c) = true → Pin.spcPchg c ∈ l)) ∧
  (∀ (s : State), s.dev.rst.inOm0 = false → ∃ t, exec (.rstNLow) s = .next t ∧ t.pending = s.pending ∧ t.mem = [] ∧ t.guard = {} ∧
      t.time = {} ∧ t.dev.mode = 0 ∧ (∀ f : Field, t.dev.rd f = f.reset) ∧ (∀ f : Field, t.dev.mrd f = f.reset) ∧ t.dev.silek = {} ∧
      t.dev.extents = [] ∧ t.dev.windows = [] ∧ t.dev.slots = [] ∧ t.dev.inst = [] ∧ t.dev.chn = {} ∧ t.dev.ladles = {} ∧ t.dev.gate
      = {} ∧ t.dev.memb = {} ∧ t.dev.errors = [] ∧ t.dev.fuses = s.dev.fuses ∧ t.dev.flash = s.dev.flash ∧ t.dev.banks = s.dev.banks
      ∧ t.dev.hbkFlash = s.dev.hbkFlash ∧ t.dev.jtag = s.dev.jtag ∧ t.dev.rst.straps = s.dev.rst.straps ∧ t.dev.rst.cause = 1 ∧
      t.dev.rst.pinLow = true ∧ ∃ l : List Pin, t.dev.out = s.dev.out ++ l.map (fun p => Out.pin p false) ∧ ∀ c < 16, (s.dev.flag
      (Spc.ch_GATE_ON c) = true → Pin.spcGate c ∈ l) ∧ (s.dev.flag (Spc.ch_PCHG_ON c) = true → Pin.spcPchg c ∈ l)) ∧
  (∀ (rail : Fin 6) (s : State), s.dev.rst.inOm0 = false → ∃ t, exec (.supplyFault rail) s = .next t ∧ t.pending = s.pending ∧
      t.mem = [] ∧ t.guard = {} ∧ t.time = {} ∧ t.dev.mode = 0 ∧ (∀ f : Field, t.dev.rd f = f.reset) ∧ (∀ f : Field, t.dev.mrd f =
      f.reset) ∧ t.dev.silek = {} ∧ t.dev.extents = [] ∧ t.dev.windows = [] ∧ t.dev.slots = [] ∧ t.dev.inst = [] ∧ t.dev.chn = {} ∧
      t.dev.ladles = {} ∧ t.dev.gate = {} ∧ t.dev.memb = {} ∧ t.dev.errors = [] ∧ t.dev.fuses = s.dev.fuses ∧ t.dev.flash =
      s.dev.flash ∧ t.dev.banks = s.dev.banks ∧ t.dev.hbkFlash = s.dev.hbkFlash ∧ t.dev.jtag = s.dev.jtag ∧ t.dev.rst.straps =
      s.dev.rst.straps ∧ t.dev.rst.cause = 2 ∧ t.dev.rst.rail = rail.val + 1 ∧ ∃ l : List Pin, t.dev.out = s.dev.out ++ l.map (fun p
      => Out.pin p false) ∧ ∀ c < 16, (s.dev.flag (Spc.ch_GATE_ON c) = true → Pin.spcGate c ∈ l) ∧ (s.dev.flag (Spc.ch_PCHG_ON c) =
      true → Pin.spcPchg c ∈ l))

/-- The placement of lines (R192, R198) and which device is home (R193). -/
def Obligations.DirectoryPlacement : Prop :=
  (∀ (x : Nat) (y : Nat), x < 2 ^ 45 → y < 2 ^ 45 → sliceOf x = sliceOf y → setOf x = setOf y → fieldOf x 17 28 = fieldOf y 17 28
      → x = y) ∧
  (∀ (d : Dev) (x : Nat), sliceOf x < 32 ∧ setOf x < 4096 ∧ d.bucketOf x < max 1 (d.rd ChurnR.T2_UNITS * 4194304)) ∧
  (∀ (x : Nat), sliceOf x = fieldOf x 0 5 ^^^ fieldOf x 5 5 ^^^ fieldOf x 10 5 ^^^ fieldOf x 15 5 ^^^ fieldOf x 20 5 ^^^ fieldOf x
      25 5 ^^^ fieldOf x 30 5 ^^^ fieldOf x 35 5 ^^^ fieldOf x 40 5 ∧ setOf x = fieldOf x 5 12 ^^^ fieldOf x 17 12) ∧
  (lineAddr 0x410052345678 = 0x1040148d159 ∧ sliceOf 0x1040148d159 = 19 ∧ setOf 0x1040148d159 = 1582 ∧ fieldOf 0x1040148d159 17 28
      = 0x8200a4) ∧
  (∀ (d : Dev) (x : Nat), x < 2 ^ 45 → (d.homeLine x = true ↔ fieldOf x 40 5 = d.homeAddr))

/-- Encode and decode agree: the packing of messages into flits (R116 to R118), every field at every value the encoding admits. -/
def Obligations.FlitRoundTrip : Prop :=
  (∀ (enc : Bool) (ms : List QflMsg), ms ≠ [] → (∀ m ∈ ms, m.fits = true) → ((ms.map QflMsg.len).foldr (· + ·) 0 ≤ (if enc then 13
      else 15)) → flitMessages enc (unitMap 0 ms) (wordsNat (ms.map QflMsg.words).flatten) = some (ms.map QflMsg.carried)) ∧
  (∀ (m : QflMsg), m.fits = true → QflMsg.ofWords (m.words.getD 0 0) (m.words.getD 1 0) (m.words.drop 2) = m.carried) ∧
  (∀ (s : Nat) (body : Nat), body < 2 ^ 992 → (sealFlit s body).toNat / 2 ^ 992 = flitCrc s (sealFlit s body) ∧ (sealFlit s
      body).toNat % 2 ^ 992 = body)

/-- R529, with the frame of MONITOR_CONFIG. -/
def Obligations.MonitorSetup : Prop :=
  (∀ (h : SilekHdr) (block : Nat) (counter : Nat) (event : Nat) (s : State) (i : CmdInfo) (m : Nat), i = .of 0x901 0
      (.monitorConfig h.key block counter event) → s.admits h i = true → m = block - 0x40 → 0x40 ≤ block → block ≤ 0x79 → counter ≤
      7 → event / 256 = monKind m → event % 256 ≤ monEvents (monKind m) → ∃ e, exec (.monitorConfig h block counter event) s = .next
      ((s.withDev e).answered h i .ok []) ∧ e.mrd (Mon.EVENT m counter) = event ∧ e.mrd (Mon.COUNT_LO m counter) = 0 ∧ e.mrd
      (Mon.COUNT_HI m counter) = 0 ∧ fieldOf (e.mrd (Mon.OVF m)) counter 1 = 0 ∧ e.mrd (Mon.ENABLE m) = 1 ∧ (∀ j < 8, j ≠ counter →
      fieldOf (e.mrd (Mon.OVF m)) j 1 = fieldOf (s.begun.dev.mrd (Mon.OVF m)) j 1) ∧ (∀ f : Field, f.key ∉ [(Mon.EVENT m
      counter).key, (Mon.COUNT_LO m counter).key, (Mon.COUNT_HI m counter).key, (Mon.OVF m).key, (Mon.SAMPLE_HELD m).key,
      (Mon.ENABLE m).key] → e.mrd f = s.begun.dev.mrd f) ∧ ∃ r p c, e = { s.dev with monRegs := r, monPending := p, freeCtr := c }) ∧
  (∀ (h : SilekHdr) (block : Nat) (s : State) (i : CmdInfo) (p : List Byte) (t : Nat) (d : Dev), i = .of 0x902 0 (.monitorRead
      h.key block) → s.admits h i = true → 0x40 ≤ block → block ≤ 0x79 → d = s.begun.dev → p = d.monBlock (block - 0x40) → exec
      (.monitorRead h block) s = .next (s.begun.answered h i .ok p) ∧ p.length = 80 ∧ ∃ n, d.snapshotBody t = (d.snapshotBody
      t).take 24 ++ ((d.selected.map d.monBlock).flatten ++ zeros n))

/-- R295, with the frame of enabling. -/
def Obligations.PairEnable : Prop :=
  ∀ (h : SilekHdr) (pair : Nat) (log2 : Nat) (sq : Nat) (cq : Nat) (vector : Nat) (q : Nat) (s : State) (i : CmdInfo), i =
      { CmdInfo.of 0x341 0 (.queueSetup h.key pair log2 sq cq vector true) with hostMay := fun _ _ => true } → s.admits h i = true →
      s.begun.dev.namedPair h.requester pair = some q → sq % 4096 = 0 → cq % 4096 = 0 → 4 ≤ log2 → log2 ≤ 12 → ((s.dev.pair q).fm =
      true ∨ vector < s.dev.rd (Vi.MSIX_COUNT (s.dev.pair q).inst)) → (s.dev.pair q).state = 1 → (s.dev.pair q).disabling = false →
      ∃ e, exec (.queueSetup h pair log2 sq cq vector true) s = .next (s.settledFrom ((s.withDev e).answered h i .ok [])) ∧ (e.pair
      q).sqHead = 0 ∧ (e.pair q).sqTail = 0 ∧ (e.pair q).cqHead = 0 ∧ (e.pair q).cqTail = 0 ∧ (e.pair q).phase = true ∧ (e.pair
      q).state = 2 ∧ (e.pair q).log2Size = log2 ∧ (e.pair q).sqBase = sq ∧ (e.pair q).cqBase = cq ∧ (e.pair q).vector = vector ∧
      (e.pair q).inst = (s.dev.pair q).inst ∧ (e.pair q).ladle = (s.dev.pair q).ladle ∧ (∀ r, r ≠ q → e.pair r = s.dev.pair r) ∧ ∀ f
      : Field, e.rd f = s.dev.rd f

/-- R254 to R256, R194, R201, R524: what the read or the operation that meets a hardware error does. Which errors are present is state
  that no command brings about (log entry 148). -/
def Obligations.HardwareErrors : Prop :=
  (∀ (port : Fin 64) (tag hpa keep : Nat) (s : State) (d : Dev) (f : Dev), d = s.dev → f =
      ({ d with edge := { d.edge with credits := Tab.put d.edge.credits port (Tab.getD d.edge.credits port 0 - 1) 0 } } : Dev) →
      d.isHostPort port = true → d.linkUp port = true → d.rd (Pg.IDE_STATE port) ≠ 3 → d.flaws.contains (.credit port) = true → exec
      (.memrd port tag hpa keep) s = .next (s.settledFrom (s.withDev ((({ f with flaws := f.flaws.erase (.credit port) } :
      Dev).residueError s.time.now (Pg.RESIDUE_PORT port) (0x20 + port.val / 4) 0 0xffff 0 4).later (.remove port))))) ∧
  (∀ (port : Fin 64) (vc : Fin 8) (count : BitVec 16) (crc : BitVec 8) (s : State) (d : Dev), d = s.dev → d.hears port = true →
      crc = wheyCrc 3 [vc, count.toNat] → (vc : Nat) ≤ 5 → d.flaws.contains (.credit port) = true → exec (.credit ⟨port, crc⟩ vc
      count) s = .next (s.withDev ((({ d with flaws := d.flaws.erase (.credit port) } : Dev).residueError s.time.now
      (Pg.RESIDUE_PORT port) (0x20 + port.val / 4) 0 0xffff 0 3).qflLinkDown s.time.now port))) ∧
  (∀ (t : Nat) (a : Access) (r : Answer) (d : Dev) (p : Nat), p = (d.backing a.fa).1 → r.ending = .done → r.poison = false →
      d.flaws.contains (.portAlu p) = true → d.directAtomic t a r = ((({ d with flaws := d.flaws.erase (.portAlu p) } :
      Dev).residueError t (Pg.RESIDUE_PORT p) (0x20 + p / 4) 9 a.master a.fa 1).unlock p a.id).later (.answer a
      { poison := true, ending := .residue })) ∧
  (∀ (t : Nat) (tr : Tracker) (x : Line) (poison : Bool) (d : Dev), tr.acc.kind = .atomic → tr.data = some (x, poison) →
      d.flaws.contains (.homeAlu tr.slice) = true → d.homeMemory t tr = (({ d with flaws := d.flaws.erase (.homeAlu tr.slice) } :
      Dev).residueError t ChurnR.RESIDUE_HOME 5 9 tr.acc.master tr.acc.fa 1).settleTracker t
      { tr with answer := { poison := true, ending := .residue } }) ∧
  (∀ (t vi access master hpa : Nat) (d : Dev) (x : Nat × Nat) (e : Dev), e = d.mon t 54 0x601 master hpa → e.decode vi hpa = some
      x → e.flaws.contains .adder = true → d.stage2 t vi access master hpa true = ((({ e with flaws := e.flaws.erase .adder } :
      Dev).residueError t Ext.RESIDUE_DECODE 4 access master hpa 2).mon t 54 0x603 master hpa, none)) ∧
  (∀ (t slice : Nat) (la i : Nat) (d : Dev), slice = sliceOf la → d.flaws.findSome? (Flaw.inRead 1 slice (fun k => k / 16 = setOf
      la)) = some (i, 3) → d.flaws.findSome? (Flaw.inRead 1 slice (fun k => k = i)) = some (i, 3) → ∃ e, e =
      ({ d with flaws := d.flaws.erase (.word 1 slice i 3) } : Dev).hbCount 4 1 ∧
    d.readWays t la =
      ({ e with chn := { e.chn with tier1 := Tab.erase e.chn.tier1 (wayKey slice (i / 16) (i % 16)) } } : Dev).directoryLost t 3 0
      ((d.extents.filter (fun x => x.2.state = 4)).map (·.1))) ∧
  (∀ (t code unit source i b : Nat) (hit : Nat → Bool) (d : Dev), code ≠ 1 → d.flaws.findSome? (Flaw.inRead code unit hit) = some
      (i, b) → (b ≤ 1 → d.readArray t code unit source hit = (({ d with flaws := d.flaws.erase (.word code unit i b) } :
      Dev).logCorrected t (code + 16 * unit) source i (code + 256 * b), false)) ∧
    (1 < b → (d.readArray t code unit source
      hit).2 = true ∧ (d.readArray t code unit source hit).1 =
      (({ d with flaws := d.flaws.erase (.word code unit i b) } :
      Dev).hbCount 4 1).logErr t
      { cls := 2, severity := if code = 9 ∨ code = 10 then 2 else 1, source, addr := i, detail := code })) ∧
  (∀ (t : Nat) (r x : ErrorRec) (d : Dev) (b : Nat), d.flaws.findSome? (Flaw.inRead 11 0 (fun k => k = r.number)) = some
      (r.number, b) → 1 < b → (d.readArray t 11 0 0xd (fun k => k = r.number)).1.errors.find? (fun y => y.number = r.number) = some
      x → ((d.readLogEntry t r).errors.find? (fun y => y.number = r.number)).map (fun y => (y.number, y.cls, y.addr, y.detail)) =
      some (r.number, 0xff, 0, 0))

/-- What R77 to R81 say of the symbols of a lane; the table of data codes and which of them the alternate D.x.7 serves are taken from
  the usual code (PRESUMED, log entry 160). -/
def Obligations.SymbolCodes : Prop :=
  (∀ (l : List Symbol) (rd : Bool) (x y : LaneScan), (∀ s ∈ l, s ∈ tableSymbols) → x.lane.disparity = some rd → y = (encodeSymbols
      rd l).foldl LaneScan.step x → y.violations = x.violations ∧ y.wrong = x.wrong ∧ y.lane.errors = x.lane.errors ∧ y.lost =
      x.lost ∧ y.last = (l.getLast?.map some).getD x.last ∧ y.lane.symbols = x.lane.symbols + l.length) ∧
  (∀ (s : Symbol) (rd : Bool) (x : LaneScan), s ∈ tableSymbols → x.lane.disparity = some (!rd) → s.code rd ≠ s.code (!rd) →
      (x.step (s.code rd)).wrong = x.wrong + 1 ∧ (x.step (s.code rd)).violations = x.violations) ∧
  (∀ (c : BitVec 10) (rd : Bool) (x : LaneScan), ((c ∈ ([0b0011111001, 0b0011110010, 0b0011111000, 0b1110101000, 0b1011101000,
      0b0111101000] : List (BitVec 10))) ∨ ~~~c ∈ ([0b0011111001, 0b0011110010, 0b0011111000, 0b1110101000, 0b1011101000,
      0b0111101000] : List (BitVec 10))) → x.lane.disparity = some rd → (x.step c).violations = x.violations + 1 ∧ (x.step c).wrong
      = x.wrong) ∧
  (∀ (c : BitVec 10) (x : LaneScan), x.lane.disparity = none → (∀ rd : Bool, c = Symbol.com.code rd → (x.step c).lane.disparity =
      some (!rd) ∧ (x.step c).last = some .com) ∧ ((∀ rd : Bool, c ≠ Symbol.com.code rd) → (x.step c).lane.disparity = none ∧
      (x.step c).last = x.last) ∧ (x.step c).violations = x.violations ∧ (x.step c).wrong = x.wrong) ∧
  (∀ (w : Nat) (bs : List Byte) (i : Nat), 0 < w → i < bs.length → (stripe w (i % w) bs)[i / w]? = (bs[i]?).map (fun b =>
      Symbol.data b.toNat))

/-- What R254 and R255 say of the predictions. That a failing unit has one wrong bit is DESIGN CHOICE (log entry 176). -/
def Obligations.Residues : Prop :=
  (∀ (k : Nat), residue (2 ^ k) = if k % 2 = 0 then 1 else 2) ∧
  (∀ (n a b : Nat), a < 2 ^ n → b < 2 ^ n → addResidue n a b = residue ((a + b) % 2 ^ n) ∧ (addResidue n a b : Int) = ((residue a
      : Int) + residue b - (if 2 ^ n ≤ a + b then 1 else 0) * residue (2 ^ n)) % 3) ∧
  (∀ (n a b : Nat), a < 2 ^ n → b < 2 ^ n → subResidue n a b = residue ((a + (2 ^ n - b)) % 2 ^ n) ∧ (subResidue n a b : Int) =
      ((residue a : Int) - residue b + (if a < b then 1 else 0) * residue (2 ^ n)) % 3) ∧
  (∀ (f : Flaw) (predicted right : Nat) (d : Dev), predicted = residue right → (d.unitWrong f predicted right).2 = (d.residueFails
      f).2)
end

