-- ==== Sys2Proof/Laws/Tab.lean ====
section
/-! SUPPORT. Reading after writing, for sparse tables, register fields, monitor fields and the mailbox memory, and the canonical form of
the mailbox memory. -/
namespace Sys2Proof.Machine
open Sys2Proof

/-! ### Sparse tables -/

@[simp] theorem Tab.get_set_same {α : Type} (t : List (Nat × α)) (k : Nat) (v : α) : Tab.get (Tab.set t k v) k = some v := by
  induction t with
  | nil => simp [Tab.set, Tab.get]
  | cons c t ih =>
    obtain ⟨j, w⟩ := c
    by_cases h1 : k < j
    · simp [Tab.set, Tab.get, h1]
    · by_cases h2 : k = j
      · simp [Tab.set, Tab.get, h2]
      · have h3 : ¬ j = k := fun h => h2 h.symm
        simp [Tab.set, Tab.get, h1, h2, h3, ih]

theorem Tab.get_set_other {α : Type} (t : List (Nat × α)) {k j : Nat} (v : α) (hn : j ≠ k) :
    Tab.get (Tab.set t k v) j = Tab.get t j := by
  have hk : ¬ k = j := fun h => hn h.symm
  induction t with
  | nil => simp [Tab.set, Tab.get, hk]
  | cons c t ih =>
    obtain ⟨i, w⟩ := c
    by_cases h1 : k < i
    · simp [Tab.set, Tab.get, h1, hk]
    · by_cases h2 : k = i
      · subst h2; simp [Tab.set, Tab.get, hk]
      · by_cases h3 : i = j
        · subst h3; simp [Tab.set, Tab.get, h1, h2]
        · simp [Tab.set, Tab.get, h1, h2, h3, ih]

@[simp] theorem Tab.get_erase_same {α : Type} (t : List (Nat × α)) (k : Nat) : Tab.get (Tab.erase t k) k = none := by
  induction t with
  | nil => rfl
  | cons c t ih =>
    obtain ⟨j, w⟩ := c
    by_cases h : k = j
    · simp [Tab.erase, h]; subst h; exact ih
    · have h3 : ¬ j = k := fun e => h e.symm
      simp [Tab.erase, Tab.get, h, h3, ih]

theorem Tab.get_erase_other {α : Type} (t : List (Nat × α)) {k j : Nat} (hn : j ≠ k) : Tab.get (Tab.erase t k) j = Tab.get t j := by
  have hk : ¬ k = j := fun h => hn h.symm
  induction t with
  | nil => rfl
  | cons c t ih =>
    obtain ⟨i, w⟩ := c
    by_cases h : k = i
    · subst h; simp [Tab.erase, Tab.get, hk, ih]
    · by_cases h3 : i = j
      · subst h3; simp [Tab.erase, Tab.get, h]
      · simp [Tab.erase, Tab.get, h, h3, ih]

@[simp] theorem Tab.getD_put_same {α : Type} [DecidableEq α] (t : List (Nat × α)) (k : Nat) (v d : α) :
    Tab.getD (Tab.put t k v d) k d = v := by
  by_cases h : v = d
  · simp [Tab.getD, Tab.put, h]
  · simp [Tab.getD, Tab.put, h]

theorem Tab.getD_put_other {α : Type} [DecidableEq α] (t : List (Nat × α)) {k j : Nat} (v d e : α) (hn : j ≠ k) :
    Tab.getD (Tab.put t k v d) j e = Tab.getD t j e := by
  by_cases h : v = d
  · simp [Tab.getD, Tab.put, h, Tab.get_erase_other t hn]
  · simp [Tab.getD, Tab.put, h, Tab.get_set_other t v hn]

/-! ### Register fields -/

/-- A field written reads as the value, cut to its width. -/
@[simp] theorem Dev.rd_wr (d : Dev) (f : Field) (v : Nat) : (d.wr f v).rd f = v % 2 ^ f.width := by
  simp [Dev.rd, Dev.wr]

/-- Another field keeps its value. -/
theorem Dev.rd_wr_other (d : Dev) {f g : Field} (v : Nat) (h : g.key ≠ f.key) : (d.wr f v).rd g = d.rd g := by
  simp [Dev.rd, Dev.wr, Tab.getD_put_other _ _ _ _ h]

@[simp] theorem Dev.mrd_mwr (d : Dev) (f : Field) (v : Nat) : (d.mwr f v).mrd f = v % 2 ^ f.width := by
  simp [Dev.mrd, Dev.mwr]

theorem Dev.mrd_mwr_other (d : Dev) {f g : Field} (v : Nat) (h : g.key ≠ f.key) : (d.mwr f v).mrd g = d.mrd g := by
  simp [Dev.mrd, Dev.mwr, Tab.getD_put_other _ _ _ _ h]

@[simp] theorem Dev.rd_emit (d : Dev) (o : Out) (f : Field) : (d.emit o).rd f = d.rd f := rfl
@[simp] theorem Dev.rd_drawn (d : Dev) (f : Field) : d.drawn.rd f = d.rd f := rfl
@[simp] theorem Dev.rd_mwr (d : Dev) (g : Field) (v : Nat) (f : Field) : (d.mwr g v).rd f = d.rd f := rfl
@[simp] theorem Dev.rd_setPort (d : Dev) (p : Nat) (x : CxlPort) (f : Field) : (d.setPort p x).rd f = d.rd f := rfl
@[simp] theorem Dev.rd_setBank (d : Dev) (p : Nat) (x : Bank) (f : Field) : (d.setBank p x).rd f = d.rd f := rfl
@[simp] theorem Dev.rd_setChannel (d : Dev) (p : Nat) (x : PowerChannel) (f : Field) : (d.setChannel p x).rd f = d.rd f := rfl
@[simp] theorem Dev.rd_setQphy (d : Dev) (p : Nat) (x : QflPhy) (f : Field) : (d.setQphy p x).rd f = d.rd f := rfl
@[simp] theorem Dev.rd_setLane (d : Dev) (p : Nat) (x : LaneState) (f : Field) : (d.setLane p x).rd f = d.rd f := rfl
@[simp] theorem Dev.rd_setInst (d : Dev) (p : Nat) (x : Inst) (f : Field) : (d.setInst p x).rd f = d.rd f := rfl

/-- A write of one field changes no other. -/
theorem Dev.wr_sameRegs (d : Dev) (f : Field) (v : Nat) : d.sameRegs (d.wr f v) [f.key] := by
  intro g hg
  exact Dev.rd_wr_other d v (by simpa using hg)

/-- What is unchanged outside two lists in turn is unchanged outside both. -/
theorem Dev.sameRegs_trans {d e f : Dev} {k l : List Nat} (h1 : d.sameRegs e k) (h2 : e.sameRegs f l) : d.sameRegs f (k ++ l) := by
  intro g hg
  simp only [List.mem_append, not_or] at hg
  rw [h2 g hg.2, h1 g hg.1]

/-! ### The mailbox memory -/

/-- A byte written reads back. -/
@[simp] theorem Memory.read_write (m : Memory) (a : Nat) (b : Byte) : Memory.read (Memory.write m a b) a = b := by
  simp [Memory.read, Memory.write]

/-- A write leaves every other byte alone. -/
theorem Memory.read_write_other (m : Memory) {a c : Nat} (b : Byte) (h : c ≠ a) : Memory.read (Memory.write m a b) c = Memory.read m c := by
  simp [Memory.read, Memory.write, Tab.getD_put_other _ _ _ _ h]

/-- Bytes written leave every byte outside them alone. -/
theorem Memory.read_writeBytes_other (m : Memory) {a c : Nat} (bs : List Byte) (h : c < a ∨ a + bs.length ≤ c) :
    Memory.read (Memory.writeBytes m a bs) c = Memory.read m c := by
  induction bs generalizing m a with
  | nil => rfl
  | cons b t ih =>
    simp only [Memory.writeBytes]
    simp only [List.length_cons] at h
    rw [ih _ (by omega), Memory.read_write_other _ _ (by omega)]

/-- Bytes written read back in their order. -/
theorem Memory.readBytes_writeBytes (m : Memory) (a : Nat) (bs : List Byte) :
    Memory.readBytes (Memory.writeBytes m a bs) a bs.length = bs := by
  induction bs generalizing m a with
  | nil => rfl
  | cons b t ih =>
    simp only [Memory.writeBytes, List.length_cons, Memory.readBytes]
    rw [Memory.read_writeBytes_other _ _ (Or.inl (Nat.lt_succ_self a)), Memory.read_write, ih]

theorem Tab.risesFrom_le {α : Type} {lo hi : Nat} (t : List (Nat × α)) (h : Tab.risesFrom hi t = true) (hl : lo ≤ hi) :
    Tab.risesFrom lo t = true := by
  cases t with
  | nil => rfl
  | cons c t =>
    simp only [Tab.risesFrom, Bool.and_eq_true, decide_eq_true_eq] at h ⊢
    exact ⟨by omega, h.2⟩

theorem Tab.risesFrom_set {α : Type} (t : List (Nat × α)) (lo k : Nat) (v : α) (h : Tab.risesFrom lo t = true) (hk : lo ≤ k) :
    Tab.risesFrom lo (Tab.set t k v) = true := by
  induction t generalizing lo with
  | nil => simp [Tab.set, Tab.risesFrom, hk]
  | cons c t ih =>
    obtain ⟨j, w⟩ := c
    simp only [Tab.risesFrom, Bool.and_eq_true, decide_eq_true_eq] at h
    by_cases h1 : k < j
    · simp only [Tab.set, h1, if_true, Tab.risesFrom, Bool.and_eq_true, decide_eq_true_eq]
      exact ⟨hk, by omega, h.2⟩
    · by_cases h2 : k = j
      · subst h2
        simp only [Tab.set, Nat.lt_irrefl, if_false, if_true, Tab.risesFrom, Bool.and_eq_true, decide_eq_true_eq]
        exact ⟨hk, h.2⟩
      · simp only [Tab.set, h1, h2, if_false, Tab.risesFrom, Bool.and_eq_true, decide_eq_true_eq]
        exact ⟨h.1, ih _ h.2 (by omega)⟩

theorem Tab.risesFrom_erase {α : Type} (t : List (Nat × α)) (lo k : Nat) (h : Tab.risesFrom lo t = true) :
    Tab.risesFrom lo (Tab.erase t k) = true := by
  induction t generalizing lo with
  | nil => rfl
  | cons c t ih =>
    obtain ⟨j, w⟩ := c
    simp only [Tab.risesFrom, Bool.and_eq_true, decide_eq_true_eq] at h
    by_cases h2 : k = j
    · subst h2
      simp only [Tab.erase, if_true]
      exact Tab.risesFrom_le _ (ih _ h.2) (by omega)
    · simp only [Tab.erase, h2, if_false, Tab.risesFrom, Bool.and_eq_true, decide_eq_true_eq]
      exact ⟨h.1, ih _ h.2⟩

theorem Tab.mem_set {α : Type} (t : List (Nat × α)) (k : Nat) (v : α) {c : Nat × α} (h : c ∈ Tab.set t k v) : c = (k, v) ∨ c ∈ t := by
  induction t with
  | nil => simpa [Tab.set] using h
  | cons e t ih =>
    obtain ⟨j, w⟩ := e
    by_cases h1 : k < j
    · simpa [Tab.set, h1] using h
    · by_cases h2 : k = j
      · simp only [Tab.set, h1, h2, if_true, if_false, List.mem_cons, Nat.lt_irrefl] at h
        rcases h with h | h
        · exact Or.inl (by rw [h, h2])
        · exact Or.inr (List.mem_cons_of_mem _ h)
      · simp only [Tab.set, h1, h2, if_false, List.mem_cons] at h
        rcases h with h | h
        · exact Or.inr (by simp [h])
        · rcases ih h with h | h
          · exact Or.inl h
          · exact Or.inr (List.mem_cons_of_mem _ h)

theorem Tab.mem_erase {α : Type} (t : List (Nat × α)) (k : Nat) {c : Nat × α} (h : c ∈ Tab.erase t k) : c ∈ t := by
  induction t with
  | nil => simpa [Tab.erase] using h
  | cons e t ih =>
    obtain ⟨j, w⟩ := e
    by_cases h2 : k = j
    · simp only [Tab.erase, h2, if_true] at h
      subst h2
      exact List.mem_cons_of_mem _ (ih h)
    · simp only [Tab.erase, h2, if_false, List.mem_cons] at h
      rcases h with h | h
      · simp [h]
      · exact List.mem_cons_of_mem _ (ih h)

/-- One byte written keeps the canonical form. -/
theorem Memory.wf_write {m : Memory} (h : Memory.wf m = true) (a : Nat) (b : Byte) : Memory.wf (Memory.write m a b) = true := by
  simp only [Memory.wf, Bool.and_eq_true, List.all_eq_true, decide_eq_true_eq] at h ⊢
  by_cases hb : b = 0
  · simp only [Memory.write, Tab.put, hb, if_true]
    exact ⟨Tab.risesFrom_erase _ _ _ h.1, fun c hc => h.2 c (Tab.mem_erase _ _ hc)⟩
  · simp only [Memory.write, Tab.put, hb, if_false]
    refine ⟨Tab.risesFrom_set _ _ _ _ h.1 (Nat.zero_le _), fun c hc => ?_⟩
    rcases Tab.mem_set _ _ _ hc with rfl | hc
    · exact hb
    · exact h.2 c hc

/-- Bytes written keep the canonical form. -/
theorem Memory.wf_writeBytes {m : Memory} (h : Memory.wf m = true) (a : Nat) (bs : List Byte) :
    Memory.wf (Memory.writeBytes m a bs) = true := by
  induction bs generalizing m a with
  | nil => exact h
  | cons b t ih => exact ih (Memory.wf_write h a b) (a + 1)

/-- The memory after reset is in canonical form. -/
theorem Memory.wf_reset : Memory.wf State.reset.mem = true := rfl

end Sys2Proof.Machine
end

