-- ==== Sys2Proof/Laws/Chain.lean ====
section
/-! SUPPORT. What a frame of the Milold chain meets on arrival and on its way on. -/
namespace Sys2Proof.Machine
open Sys2Proof

/-- An intact frame of a listed type is handed to its row. -/
theorem Dev.chainIn_intact {d : Dev} {l : ChainLine} {f : ChainFrame} (k : Dev → Dev) (h0 : d.mode ≠ 0) (hc : l.crc = f.crc l.type.toNat)
    (ht : l.type.toNat = f.body.type) : d.chainIn l f k = k d :=
  (if_neg h0).trans ((if_neg ((· hc))).trans (if_neg ((· ht))))

/-- A frame whose CRC fails is dropped and counted. -/
theorem Dev.chainIn_damaged {d : Dev} {l : ChainLine} {f : ChainFrame} (k : Dev → Dev) (h0 : d.mode ≠ 0) (hc : l.crc ≠ f.crc l.type.toNat) :
    d.chainIn l f k = { d with memb := { d.memb with crcDrops := d.memb.crcDrops + 1 } } :=
  (if_neg h0).trans (if_pos hc)

/-- A frame of a TYPE that R370 does not list is dropped and counted. -/
theorem Dev.chainIn_unlisted {d : Dev} {l : ChainLine} {f : ChainFrame} (k : Dev → Dev) (h0 : d.mode ≠ 0) (hc : l.crc = f.crc l.type.toNat)
    (ht : l.type.toNat ≠ f.body.type) : d.chainIn l f k = { d with memb := { d.memb with typeDrops := d.memb.typeDrops + 1 } } :=
  (if_neg h0).trans ((if_neg ((· hc))).trans (if_pos ht))

/-- A frame of the device's own epoch, or between devices without one, acts. -/
theorem Dev.chainEpoch_own {d : Dev} {t src epoch : Nat} (h : epoch = d.epoch ∨ epoch = 0 ∨ d.epoch = 0) :
    d.chainEpoch t src epoch = (d, true) := by
  unfold Dev.chainEpoch
  exact if_pos (by rcases h with h | h | h <;> simp [h])

/-- In ring mode a frame of the device's own leaves on MCH_OUT. -/
theorem Dev.chainSend_ring {d : Dev} (h : d.lineMode = false) (bcast : Bool) (dst epoch : Nat) (body : ChainBody) :
    d.chainSend bcast dst epoch body =
      d.emit (.chain { bcast, reverse := false, dst, src := d.chainAddr, hops := 0, epoch, body }) := by
  simp [Dev.chainSend, Dev.atEnd, h]

/-- A frame away from its originator and from a line end leaves with HOPS incremented. -/
theorem Dev.passFrame_on {d : Dev} {f : ChainFrame} (ho : d.lineMode = true ∨ f.bcast = false ∨ f.src = 0 ∨ f.src ≠ d.chainAddr)
    (he : d.atEnd f.reverse = false) (hh : f.hops < 15) : d.passFrame f = d.emit (.chain { f with hops := f.hops + 1 }) := by
  simp only [Dev.passFrame, Dev.hop]
  rw [if_neg (by rintro ⟨a, b, c, e⟩; rcases ho with h | h | h | h <;> simp_all), if_neg (by simp [he]), if_neg (by omega)]

/-- In ring mode its originator removes a broadcast. -/
theorem Dev.passFrame_own {d : Dev} {f : ChainFrame} (hm : d.lineMode = false) (hb : f.bcast = true) (h0 : f.src ≠ 0)
    (hs : f.src = d.chainAddr) : d.passFrame f = d :=
  if_pos ⟨by simp [hm], hb, h0, hs⟩

/-- A line end turns a frame round. -/
theorem Dev.passFrame_turn {d : Dev} {f : ChainFrame} (hm : d.lineMode = true) (he : d.atEnd f.reverse = true)
    (hb : f.bcast = false ∨ f.reverse = false) (hh : f.hops < 15) :
    d.passFrame f = d.emit (.chain { f with reverse := !f.reverse, hops := f.hops + 1 }) := by
  simp only [Dev.passFrame, Dev.hop]
  rw [if_neg (by simp [hm]), if_pos he, if_neg (by rcases hb with h | h <;> simp [h]), if_neg (by simp; omega)]

/-- At the second line end a broadcast is dropped. -/
theorem Dev.passFrame_spent {d : Dev} {f : ChainFrame} (hm : d.lineMode = true) (he : d.atEnd f.reverse = true) (hb : f.bcast = true)
    (hr : f.reverse = true) : d.passFrame f = d := by
  simp only [Dev.passFrame]
  rw [if_neg (by simp [hm]), if_pos he, if_pos ⟨hb, hr⟩]

/-- A frame that would leave with HOPS 16 is dropped. -/
theorem Dev.passFrame_far {d : Dev} {f : ChainFrame} (hh : 15 ≤ f.hops) : d.passFrame f = d := by
  unfold Dev.passFrame Dev.hop
  repeat' split
  all_goals first | rfl | omega

/-- On a BREAK the device is in line mode. -/
@[simp] theorem Dev.enterLine_lineMode (d : Dev) (a : Nat) : (d.enterLine a).lineMode = true := by
  simp [Dev.lineMode, Dev.enterLine, Memb.CHAIN_MODE]

end Sys2Proof.Machine
end

