-- ==== Sys2Proof/Laws/Flaws.lean ====
section
/-! SUPPORT. A device that holds no hardware error meets none. -/
namespace Sys2Proof.Machine
open Sys2Proof

/-- A sound unit computes right. -/
theorem Dev.residueFails_of_sound {d : Dev} (h : d.flaws = []) (f : Flaw) : d.residueFails f = (d, false) := by
  simp [Dev.residueFails, h]

/-! ### The predictions of R255 are right -/

theorem residue_lt (n : Nat) : residue n < 3 := Nat.mod_lt _ (by decide)
/-- A 64-bit addition: its prediction is the residue of the wrapped sum. -/
theorem addResidue_right64 {a b : Nat} (ha : a < 2 ^ 64) (hb : b < 2 ^ 64) : addResidue 64 a b = residue ((a + b) % 2 ^ 64) := by
  simp only [addResidue, residue, powResidue, Nat.reduceMod, if_true]
  split <;> omega
/-- An 18-bit addition. -/
theorem addResidue_right18 {a b : Nat} (ha : a < 2 ^ 18) (hb : b < 2 ^ 18) : addResidue 18 a b = residue ((a + b) % 2 ^ 18) := by
  simp only [addResidue, residue, powResidue, Nat.reduceMod, if_true]
  split <;> omega
/-- A 16-bit subtraction. -/
theorem subResidue_right16 {a b : Nat} (ha : a < 2 ^ 16) (hb : b < 2 ^ 16) : subResidue 16 a b = residue ((a + 2 ^ 16 - b) % 2 ^ 16) := by
  simp only [subResidue, residue, powResidue, Nat.reduceMod, if_true]
  split <;> omega
/-- A subtraction without borrow. -/
theorem subResidue_exact (n : Nat) {a b : Nat} (h : b ≤ a) : subResidue n a b = residue (a - b) := by
  simp only [subResidue, residue]
  rw [if_neg (by omega)]
  omega
/-- The fields of a fabric address put together. -/
theorem joinResidue_fa (c e o : Nat) : joinResidue [(c, 46), (e, 28), (o, 0)] = residue (faOf c e o) := by
  simp only [joinResidue, residue, powResidue, faOf, List.map, List.foldl, Nat.reduceMod, if_true]
  omega
/-- One wrong bit changes the residue. -/
theorem residue_wrong (n : Nat) : residue n ≠ residue (Nat.xor n 1) := by
  have h : Nat.xor n 1 = if n % 2 = 0 then n + 1 else n - 1 := by
    have e : (Nat.xor n 1) % 2 = 1 ↔ ¬ (n % 2 = 1 ↔ 1 % 2 = 1) := Nat.xor_mod_two_eq_one
    have d : (Nat.xor n 1) / 2 = n / 2 ^^^ 1 / 2 := Nat.xor_div_two
    simp only [Nat.reduceMod, iff_true] at e
    simp only [Nat.reduceDiv, Nat.xor_zero] at d
    split <;> omega
  rw [h]
  simp only [residue]
  split <;> omega

/-- A sound unit whose prediction is right passes its check. -/
theorem Dev.unitWrong_right {d : Dev} (h : d.flaws = []) (f : Flaw) {p r : Nat} (hp : p = residue r) : d.unitWrong f p r = (d, false) := by
  simp [Dev.unitWrong, Dev.residueFails_of_sound h, hp]
/-- A failing unit whose prediction is right is found. -/
theorem Dev.unitWrong_found {d : Dev} {f : Flaw} (h : d.flaws.contains f = true) {p r : Nat} (hp : p = residue r) :
    d.unitWrong f p r = ({ d with flaws := d.flaws.erase f }, true) := by
  have e : d.residueFails f = ({ d with flaws := d.flaws.erase f }, true) := if_pos h
  simp only [Dev.unitWrong, e, hp, if_true, decide_eq_true (residue_wrong r)]

/-- The ALU of an atomic predicts right. -/
theorem AtomArgs.aluPredicted_right (a : AtomArgs) (old : Nat) : a.aluPredicted old = residue (a.aluResult old) := by
  unfold AtomArgs.aluPredicted AtomArgs.aluResult AtomArgs.compute
  split
  · refine (addResidue_right64 (Nat.mod_lt _ (by decide)) (Nat.mod_lt _ (by decide))).trans (congrArg residue ?_)
    exact (Nat.add_mod _ _ _).symm
  · split
    · rfl
    · split <;> rfl
/-- A failing ALU is found by its residue. -/
theorem Dev.aluWrong_found {d : Dev} {f : Flaw} (h : d.flaws.contains f = true) (a : Access) (x : Line) :
    d.aluWrong f a x = ({ d with flaws := d.flaws.erase f }, true) := by
  unfold Dev.aluWrong
  cases a.atom with
  | none => exact Dev.unitWrong_found h rfl
  | some g => exact Dev.unitWrong_found h (g.aluPredicted_right _)
/-- A sound ALU passes. -/
theorem Dev.aluWrong_of_sound {d : Dev} (h : d.flaws = []) (f : Flaw) (a : Access) (x : Line) : d.aluWrong f a x = (d, false) := by
  unfold Dev.aluWrong
  cases a.atom with
  | none => exact Dev.unitWrong_right h f rfl
  | some g => exact Dev.unitWrong_right h f (g.aluPredicted_right _)
/-- The steps of a decode's adders are predicted right. -/
theorem Dev.adderSteps_right (d : Dev) (vi hpa : Nat) : ∀ x ∈ d.adderSteps vi hpa, x.1 = residue x.2 := by
  unfold Dev.adderSteps
  split
  · intro x hx; cases hx
  · rename_i w hw
    have hb := List.find?_some hw
    simp only [Bool.and_eq_true, decide_eq_true_eq] at hb
    intro x hx
    simp only [List.mem_cons, List.mem_nil_iff, or_false] at hx
    rcases hx with rfl | rfl | rfl
    · exact subResidue_exact 52 hb.1.2
    · refine (addResidue_right18 (Nat.mod_lt _ (by decide)) (Nat.mod_lt _ (by decide))).trans (congrArg residue ?_)
      exact (Nat.add_mod _ _ _).symm
    · exact joinResidue_fa _ _ _
/-- A failing adder is found at the first step of a decode. -/
theorem Dev.addersWrong_found {d : Dev} (h : d.flaws.contains .adder = true) {vi hpa : Nat} {x : Nat × Nat} (hx : d.decode vi hpa = some x) :
    d.addersWrong vi hpa = ({ d with flaws := d.flaws.erase .adder }, true) := by
  have r := d.adderSteps_right vi hpa
  have ne : d.adderSteps vi hpa ≠ [] := by
    unfold Dev.adderSteps
    unfold Dev.decode at hx
    split at hx
    · cases hx
    · rename_i hw; simp only [hw]; simp
  unfold Dev.addersWrong
  cases hs : d.adderSteps vi hpa with
  | nil => exact absurd hs ne
  | cons x l =>
    rw [hs] at r
    simp only [Dev.unitWrong_found h (r x (List.mem_cons_self ..)), Bool.true_or]

/-- Sound adders pass every check. -/
theorem Dev.addersWrong_of_sound {d : Dev} (h : d.flaws = []) (vi hpa : Nat) : d.addersWrong vi hpa = (d, false) := by
  have r := d.adderSteps_right vi hpa
  unfold Dev.addersWrong
  cases hs : d.adderSteps vi hpa with
  | nil => rfl
  | cons x l =>
    rw [hs] at r
    simp only [Dev.unitWrong_right h .adder (r x (List.mem_cons_self ..)), Bool.false_or]
    refine congrArg (Prod.mk d) (List.any_eq_false.mpr (fun y hy => ?_))
    simp [r y (List.mem_cons_of_mem _ hy)]
/-- The credit counters of a sound port. -/
theorem Dev.creditRight {d : Dev} (h : d.flaws = []) (p : Nat) {count used : Nat} (hc : count < 65536) :
    d.unitWrong (.credit p) (subResidue 16 count (used % 65536)) ((count + 65536 - used % 65536) % 65536) = (d, false) :=
  Dev.unitWrong_right h _ (subResidue_right16 hc (Nat.mod_lt _ (by decide)))

/-- A sound array reads as written. -/
theorem Dev.readArray_of_sound {d : Dev} (h : d.flaws = []) (t c u s : Nat) (hit : Nat → Bool) :
    d.readArray t c u s hit = (d, false) := by
  simp [Dev.readArray, h]

/-- A sound tier 1 reads as written. -/
theorem Dev.readWays_of_sound {d : Dev} (h : d.flaws = []) (t la : Nat) : d.readWays t la = d := by
  simp [Dev.readWays, h]

/-- A sound error log reads as written. -/
theorem Dev.readLogEntry_of_sound {d : Dev} (h : d.flaws = []) (t : Nat) (r : ErrorRec) : d.readLogEntry t r = d := by
  simp [Dev.readLogEntry, Dev.readArray_of_sound h]

/-- Reading entries of a sound error log changes nothing. -/
theorem Dev.readLogEntries_of_sound {d : Dev} (h : d.flaws = []) (t : Nat) (rs : List ErrorRec) :
    rs.foldl (fun (x : Dev) r => x.readLogEntry t r) d = d := by
  induction rs with
  | nil => rfl
  | cons r rs ih => simp only [List.foldl_cons, Dev.readLogEntry_of_sound h, ih]

/-- A sound replay buffer replays what it holds. -/
theorem Dev.resendFlits_of_sound {d : Dev} (h : d.flaws = []) (t p : Nat) (fs : List SentFlit) :
    d.resendFlits t p fs = (d.replayFlits t p fs, true) := by
  have e (g : Dev × List Nat → SentFlit → Dev × List Nat) (hg : ∀ f, g (d, []) f = (d, [])) : fs.foldl g (d, []) = (d, []) := by
    induction fs with
    | nil => rfl
    | cons f fs ih => simp only [List.foldl_cons, hg, ih]
  unfold Dev.resendFlits
  rw [e _ (fun f => by simp [Dev.readArray_of_sound h])]
  rfl

/-- A request passes a sound packet buffer. -/
theorem Dev.admitRequest_of_sound {d : Dev} (h : d.flaws = []) (t p vi : Nat) (c : Instr) :
    d.admitRequest t p vi c = d.hostRequest t p vi c := by
  simp [Dev.admitRequest, Dev.readArray_of_sound h]

/-- A record is latched from a sound error log. -/
theorem Dev.selectRecord_of_sound {d : Dev} (h : d.flaws = []) (t n : Nat) :
    d.selectRecord t n = (List.range 8).foldl (fun x w => x.wr (Elog.RECORD_WORD w)
      (recordWord (d.errors.find? (fun y => y.number = n)) w)) (d.wr Elog.RECORD_SELECT n) := by
  unfold Dev.selectRecord
  cases hr : d.errors.find? (fun x => x.number = n) with
  | none => simp [hr]
  | some r => simp [Dev.readLogEntry_of_sound h, hr]

end Sys2Proof.Machine
end

