-- ==== Sys2Proof/Laws/Silek.lean ====
section
/-! SUPPORT. What the responder does with a command that it takes up, said once. -/
namespace Sys2Proof.Machine
open Sys2Proof

/-- An admitted command's body starts. -/
theorem runSilek_admits {s : State} {h : SilekHdr} {i : CmdInfo} {body : State → State × Result} (ha : s.admits h i = true) :
    runSilek h i body s = .next (s.start h i (i.minorOf h) body) := by
  simp only [State.admits, Bool.and_eq_true, Bool.or_eq_true, decide_eq_true_eq, Bool.not_eq_true', Bool.not_eq_false',
    Bool.and_eq_false_iff, Bool.or_eq_false_iff, decide_eq_false_iff_not] at ha
  obtain ⟨⟨⟨⟨⟨⟨⟨⟨⟨⟨⟨⟨h1, h2⟩, h3⟩, h4⟩, h5⟩, h6⟩, h7⟩, h8⟩, h9⟩, h10⟩, h11⟩, h12⟩, h13⟩ := ha
  have e1 : ¬ s.dev.mode ≤ 1 := by omega
  have e2 : ¬ (h.broadcast = true ∧ (i.opcode ≠ 0x506 ∨ h.dst ≠ 0)) := by
    rintro ⟨hb, hc⟩
    rcases h2 with h2 | ⟨ha, hb'⟩
    · simp [hb] at h2
    · rcases hc with hc | hc <;> contradiction
  have e4 : ¬ (i.opcode ≠ 0x101 ∧ h.major ≠ 2) := by rintro ⟨a, b⟩; rcases h4 with h4 | h4 <;> contradiction
  have e7 : decide (h.dst ≠ 0 ∧ h.dst ≠ s.dev.chainAddr) = false :=
    decide_eq_false (by rintro ⟨a, b⟩; rcases h7 with h7 | h7 <;> contradiction)
  have e5 : ¬ (if i.opcode = 0x101 then 3 else min h.minor 3) < i.minMinor := Nat.not_lt.mpr h5
  have e13 : ¬ (s.dev.silek.releasing.isNone = true ∧
      ((h.ordered = true ∧ s.dev.runningOf h.requester ≠ []) ∨ s.dev.silek.held.any (fun x => decide (x.req = h.requester)) = true)) := by
    rintro ⟨a, b⟩
    rcases h13 with h13 | h13
    · cases hr : s.dev.silek.releasing <;> simp_all
    · obtain ⟨c1, c2⟩ := h13
      rcases b with ⟨b1, b2⟩ | b
      · rcases c1 with c1 | c1
        · rw [b1] at c1; cases c1
        · exact c1 b2
      · rw [c2] at b; cases b
  have e11 : ¬ (64 ≤ s.dev.silek.running.length ∨ s.dev.mailboxFull h.requester = true) := by
    rintro (a | a)
    · omega
    · simp [a] at h12
  unfold runSilek
  simp only [e1, e2, h3, e4, e5, h6, e7, h8, h9, h10, e11, e13, if_false, if_true, Bool.not_true, Bool.and_false, Bool.false_and,
    Bool.false_eq_true, CmdInfo.minorOf]

/-- A body that ends at once. -/
theorem start_final {s u : State} {h : SilekHdr} {i : CmdInfo} {m : Nat} {body : State → State × Result} {st : Status} {p : List Byte}
    (hb : body s.begun = (u, .final st p)) : s.start h i m body = u.finalReply h i m st p := by
  unfold State.start
  unfold State.begun at hb
  simp [hb]

/-- A body that leaves work. -/
theorem start_run {s u : State} {h : SilekHdr} {i : CmdInfo} {body : State → State × Result} {w : Work}
    (hb : body s.begun = (u, .run w)) : s.start h i (i.minorOf h) body = u.runs h i w := by
  unfold State.start
  unfold State.begun at hb
  simp [hb, State.runs]

/-- An admitted command that only asks. -/
theorem runSilek_query {s : State} {h : SilekHdr} {i : CmdInfo} {f : State → Result} {st : Status} {p : List Byte}
    (ha : s.admits h i = true) (hf : f s.begun = .final st p) : runSilek h i (queryBody f) s = .next (s.begun.answered h i st p) := by
  rw [runSilek_admits ha, start_final (u := s.begun) (st := st) (p := p) (by simp [queryBody, hf])]
  rfl

/-- An admitted command on the device that ends at once. -/
theorem runSilek_dev {s : State} {h : SilekHdr} {i : CmdInfo} {f : Nat → Dev → Dev × Result} {e : Dev} {st : Status} {p : List Byte}
    (ha : s.admits h i = true) (hf : f s.time.now s.begun.dev = (e, .final st p)) :
    runSilek h i (devBody f) s = .next ((s.withDev e).answered h i st p) := by
  rw [runSilek_admits ha, start_final (u := s.withDev e) (st := st) (p := p) (by simp only [devBody]; rw [show s.begun.time.now = s.time.now from rfl, hf]; rfl)]
  rfl

/-- An admitted command on the device that goes on. -/
theorem runSilek_devRun {s : State} {h : SilekHdr} {i : CmdInfo} {f : Nat → Dev → Dev × Result} {e : Dev} {w : Work}
    (ha : s.admits h i = true) (hf : f s.time.now s.begun.dev = (e, .run w)) :
    runSilek h i (devBody f) s = .next ((s.withDev e).runs h i w) := by
  rw [runSilek_admits ha, start_run (u := s.withDev e) (w := w) (by simp only [devBody]; rw [show s.begun.time.now = s.time.now from rfl, hf]; rfl)]

/-- An admitted command on the device that ends at once, with the work it hands on. -/
theorem runSettled_dev {s : State} {h : SilekHdr} {i : CmdInfo} {f : Nat → Dev → Dev × Result} {e : Dev} {st : Status} {p : List Byte}
    (ha : s.admits h i = true) (hf : f s.time.now s.begun.dev = (e, .final st p)) :
    runSettled h i (devBody f) s = .next (s.settledFrom ((s.withDev e).answered h i st p)) := by
  unfold runSettled
  rw [runSilek_dev ha hf]
  rfl

/-- An admitted command on the device that goes on, with the work it hands on. -/
theorem runSettled_devRun {s : State} {h : SilekHdr} {i : CmdInfo} {f : Nat → Dev → Dev × Result} {e : Dev} {w : Work}
    (ha : s.admits h i = true) (hf : f s.time.now s.begun.dev = (e, .run w)) :
    runSettled h i (devBody f) s = .next (s.settledFrom ((s.withDev e).runs h i w)) := by
  unfold runSettled
  rw [runSilek_devRun ha hf]
  rfl

/-- An admitted command whose body answers nothing. -/
theorem runSilek_silent {s u : State} {h : SilekHdr} {i : CmdInfo} {body : State → State × Result} (ha : s.admits h i = true)
    (hf : body s.begun = (u, .silent)) : runSilek h i body s = .next u := by
  rw [runSilek_admits ha]
  unfold State.start
  unfold State.begun at hf
  simp [hf]

/-- An admitted command whose body acts on the whole state and ends at once. -/
theorem runSilek_state {s u : State} {h : SilekHdr} {i : CmdInfo} {body : State → State × Result} {st : Status} {p : List Byte}
    (ha : s.admits h i = true) (hf : body s.begun = (u, .final st p)) : runSilek h i body s = .next (u.answered h i st p) := by
  rw [runSilek_admits ha, start_final hf]
  rfl

/-- An admitted command's header bits are legal. -/
theorem State.padOk_of_admits {s : State} {h : SilekHdr} {i : CmdInfo} (ha : s.admits h i = true) : h.padOk = true := by
  simp only [State.admits, Bool.and_eq_true] at ha
  exact ha.1.1.1.2

/-- An admitted command whose body acts on the whole state and ends at once, with the work it hands on. -/
theorem runSettled_state {s u : State} {h : SilekHdr} {i : CmdInfo} {body : State → State × Result} {st : Status} {p : List Byte}
    (ha : s.admits h i = true) (hf : body s.begun = (u, .final st p)) :
    runSettled h i body s = .next (s.settledFrom (u.answered h i st p)) := by
  unfold runSettled
  rw [runSilek_state ha hf]
  rfl

end Sys2Proof.Machine
end

