-- ==== Sys2Proof/Laws/State.lean ====
section
/-! SUPPORT. What each update of the state leaves alone: one lemma per field and update, and the device within the state. -/
namespace Sys2Proof.Machine
open Sys2Proof

/-! ### `Dev.wr` -/

@[simp] theorem Dev.wr_upsetA (d : Dev) (f : Field) (v : Nat) : (d.wr f v).upsetA = d.upsetA := rfl
@[simp] theorem Dev.wr_upsetB (d : Dev) (f : Field) (v : Nat) : (d.wr f v).upsetB = d.upsetB := rfl
@[simp] theorem Dev.wr_upsetC (d : Dev) (f : Field) (v : Nat) : (d.wr f v).upsetC = d.upsetC := rfl
@[simp] theorem Dev.wr_latchBar0 (d : Dev) (f : Field) (v : Nat) : (d.wr f v).latchBar0 = d.latchBar0 := rfl
@[simp] theorem Dev.wr_latchReg (d : Dev) (f : Field) (v : Nat) : (d.wr f v).latchReg = d.latchReg := rfl
@[simp] theorem Dev.wr_latchCp (d : Dev) (f : Field) (v : Nat) : (d.wr f v).latchCp = d.latchCp := rfl
@[simp] theorem Dev.wr_latchJtag (d : Dev) (f : Field) (v : Nat) : (d.wr f v).latchJtag = d.latchJtag := rfl
@[simp] theorem Dev.wr_silek (d : Dev) (f : Field) (v : Nat) : (d.wr f v).silek = d.silek := rfl
@[simp] theorem Dev.wr_events (d : Dev) (f : Field) (v : Nat) : (d.wr f v).events = d.events := rfl
@[simp] theorem Dev.wr_errors (d : Dev) (f : Field) (v : Nat) : (d.wr f v).errors = d.errors := rfl
@[simp] theorem Dev.wr_lastCorrected (d : Dev) (f : Field) (v : Nat) : (d.wr f v).lastCorrected = d.lastCorrected := rfl
@[simp] theorem Dev.wr_portCounts (d : Dev) (f : Field) (v : Nat) : (d.wr f v).portCounts = d.portCounts := rfl
@[simp] theorem Dev.wr_flaws (d : Dev) (f : Field) (v : Nat) : (d.wr f v).flaws = d.flaws := rfl
@[simp] theorem Dev.wr_cxl (d : Dev) (f : Field) (v : Nat) : (d.wr f v).cxl = d.cxl := rfl
@[simp] theorem Dev.wr_banks (d : Dev) (f : Field) (v : Nat) : (d.wr f v).banks = d.banks := rfl
@[simp] theorem Dev.wr_fuses (d : Dev) (f : Field) (v : Nat) : (d.wr f v).fuses = d.fuses := rfl
@[simp] theorem Dev.wr_flash (d : Dev) (f : Field) (v : Nat) : (d.wr f v).flash = d.flash := rfl
@[simp] theorem Dev.wr_sc (d : Dev) (f : Field) (v : Nat) : (d.wr f v).sc = d.sc := rfl
@[simp] theorem Dev.wr_power (d : Dev) (f : Field) (v : Nat) : (d.wr f v).power = d.power := rfl
@[simp] theorem Dev.wr_rst (d : Dev) (f : Field) (v : Nat) : (d.wr f v).rst = d.rst := rfl
@[simp] theorem Dev.wr_hbk (d : Dev) (f : Field) (v : Nat) : (d.wr f v).hbk = d.hbk := rfl
@[simp] theorem Dev.wr_hbkFlash (d : Dev) (f : Field) (v : Nat) : (d.wr f v).hbkFlash = d.hbkFlash := rfl
@[simp] theorem Dev.wr_flashNext (d : Dev) (f : Field) (v : Nat) : (d.wr f v).flashNext = d.flashNext := rfl
@[simp] theorem Dev.wr_skim (d : Dev) (f : Field) (v : Nat) : (d.wr f v).skim = d.skim := rfl
@[simp] theorem Dev.wr_jtag (d : Dev) (f : Field) (v : Nat) : (d.wr f v).jtag = d.jtag := rfl
@[simp] theorem Dev.wr_thermal (d : Dev) (f : Field) (v : Nat) : (d.wr f v).thermal = d.thermal := rfl
@[simp] theorem Dev.wr_buf (d : Dev) (f : Field) (v : Nat) : (d.wr f v).buf = d.buf := rfl
@[simp] theorem Dev.wr_irq (d : Dev) (f : Field) (v : Nat) : (d.wr f v).irq = d.irq := rfl
@[simp] theorem Dev.wr_phy (d : Dev) (f : Field) (v : Nat) : (d.wr f v).phy = d.phy := rfl
@[simp] theorem Dev.wr_lanes (d : Dev) (f : Field) (v : Nat) : (d.wr f v).lanes = d.lanes := rfl
@[simp] theorem Dev.wr_freeCtr (d : Dev) (f : Field) (v : Nat) : (d.wr f v).freeCtr = d.freeCtr := rfl
@[simp] theorem Dev.wr_out (d : Dev) (f : Field) (v : Nat) : (d.wr f v).out = d.out := rfl
@[simp] theorem Dev.wr_monRegs (d : Dev) (f : Field) (v : Nat) : (d.wr f v).monRegs = d.monRegs := rfl
@[simp] theorem Dev.wr_monPending (d : Dev) (f : Field) (v : Nat) : (d.wr f v).monPending = d.monPending := rfl
@[simp] theorem Dev.wr_inst (d : Dev) (f : Field) (v : Nat) : (d.wr f v).inst = d.inst := rfl
@[simp] theorem Dev.wr_memb (d : Dev) (f : Field) (v : Nat) : (d.wr f v).memb = d.memb := rfl
@[simp] theorem Dev.wr_agents (d : Dev) (f : Field) (v : Nat) : (d.wr f v).agents = d.agents := rfl
@[simp] theorem Dev.wr_extents (d : Dev) (f : Field) (v : Nat) : (d.wr f v).extents = d.extents := rfl
@[simp] theorem Dev.wr_windows (d : Dev) (f : Field) (v : Nat) : (d.wr f v).windows = d.windows := rfl
@[simp] theorem Dev.wr_slots (d : Dev) (f : Field) (v : Nat) : (d.wr f v).slots = d.slots := rfl
@[simp] theorem Dev.wr_binder (d : Dev) (f : Field) (v : Nat) : (d.wr f v).binder = d.binder := rfl
@[simp] theorem Dev.wr_gate (d : Dev) (f : Field) (v : Nat) : (d.wr f v).gate = d.gate := rfl
@[simp] theorem Dev.wr_chn (d : Dev) (f : Field) (v : Nat) : (d.wr f v).chn = d.chn := rfl
@[simp] theorem Dev.wr_edge (d : Dev) (f : Field) (v : Nat) : (d.wr f v).edge = d.edge := rfl
@[simp] theorem Dev.wr_fab (d : Dev) (f : Field) (v : Nat) : (d.wr f v).fab = d.fab := rfl
@[simp] theorem Dev.wr_exer (d : Dev) (f : Field) (v : Nat) : (d.wr f v).exer = d.exer := rfl
@[simp] theorem Dev.wr_ladles (d : Dev) (f : Field) (v : Nat) : (d.wr f v).ladles = d.ladles := rfl
@[simp] theorem Dev.wr_work (d : Dev) (f : Field) (v : Nat) : (d.wr f v).work = d.work := rfl

/-! ### `Dev.mwr` -/

@[simp] theorem Dev.mwr_regs (d : Dev) (f : Field) (v : Nat) : (d.mwr f v).regs = d.regs := rfl
@[simp] theorem Dev.mwr_upsetA (d : Dev) (f : Field) (v : Nat) : (d.mwr f v).upsetA = d.upsetA := rfl
@[simp] theorem Dev.mwr_upsetB (d : Dev) (f : Field) (v : Nat) : (d.mwr f v).upsetB = d.upsetB := rfl
@[simp] theorem Dev.mwr_upsetC (d : Dev) (f : Field) (v : Nat) : (d.mwr f v).upsetC = d.upsetC := rfl
@[simp] theorem Dev.mwr_latchBar0 (d : Dev) (f : Field) (v : Nat) : (d.mwr f v).latchBar0 = d.latchBar0 := rfl
@[simp] theorem Dev.mwr_latchReg (d : Dev) (f : Field) (v : Nat) : (d.mwr f v).latchReg = d.latchReg := rfl
@[simp] theorem Dev.mwr_latchCp (d : Dev) (f : Field) (v : Nat) : (d.mwr f v).latchCp = d.latchCp := rfl
@[simp] theorem Dev.mwr_latchJtag (d : Dev) (f : Field) (v : Nat) : (d.mwr f v).latchJtag = d.latchJtag := rfl
@[simp] theorem Dev.mwr_silek (d : Dev) (f : Field) (v : Nat) : (d.mwr f v).silek = d.silek := rfl
@[simp] theorem Dev.mwr_events (d : Dev) (f : Field) (v : Nat) : (d.mwr f v).events = d.events := rfl
@[simp] theorem Dev.mwr_errors (d : Dev) (f : Field) (v : Nat) : (d.mwr f v).errors = d.errors := rfl
@[simp] theorem Dev.mwr_lastCorrected (d : Dev) (f : Field) (v : Nat) : (d.mwr f v).lastCorrected = d.lastCorrected := rfl
@[simp] theorem Dev.mwr_portCounts (d : Dev) (f : Field) (v : Nat) : (d.mwr f v).portCounts = d.portCounts := rfl
@[simp] theorem Dev.mwr_flaws (d : Dev) (f : Field) (v : Nat) : (d.mwr f v).flaws = d.flaws := rfl
@[simp] theorem Dev.mwr_cxl (d : Dev) (f : Field) (v : Nat) : (d.mwr f v).cxl = d.cxl := rfl
@[simp] theorem Dev.mwr_banks (d : Dev) (f : Field) (v : Nat) : (d.mwr f v).banks = d.banks := rfl
@[simp] theorem Dev.mwr_fuses (d : Dev) (f : Field) (v : Nat) : (d.mwr f v).fuses = d.fuses := rfl
@[simp] theorem Dev.mwr_flash (d : Dev) (f : Field) (v : Nat) : (d.mwr f v).flash = d.flash := rfl
@[simp] theorem Dev.mwr_sc (d : Dev) (f : Field) (v : Nat) : (d.mwr f v).sc = d.sc := rfl
@[simp] theorem Dev.mwr_power (d : Dev) (f : Field) (v : Nat) : (d.mwr f v).power = d.power := rfl
@[simp] theorem Dev.mwr_rst (d : Dev) (f : Field) (v : Nat) : (d.mwr f v).rst = d.rst := rfl
@[simp] theorem Dev.mwr_hbk (d : Dev) (f : Field) (v : Nat) : (d.mwr f v).hbk = d.hbk := rfl
@[simp] theorem Dev.mwr_hbkFlash (d : Dev) (f : Field) (v : Nat) : (d.mwr f v).hbkFlash = d.hbkFlash := rfl
@[simp] theorem Dev.mwr_flashNext (d : Dev) (f : Field) (v : Nat) : (d.mwr f v).flashNext = d.flashNext := rfl
@[simp] theorem Dev.mwr_skim (d : Dev) (f : Field) (v : Nat) : (d.mwr f v).skim = d.skim := rfl
@[simp] theorem Dev.mwr_jtag (d : Dev) (f : Field) (v : Nat) : (d.mwr f v).jtag = d.jtag := rfl
@[simp] theorem Dev.mwr_thermal (d : Dev) (f : Field) (v : Nat) : (d.mwr f v).thermal = d.thermal := rfl
@[simp] theorem Dev.mwr_buf (d : Dev) (f : Field) (v : Nat) : (d.mwr f v).buf = d.buf := rfl
@[simp] theorem Dev.mwr_irq (d : Dev) (f : Field) (v : Nat) : (d.mwr f v).irq = d.irq := rfl
@[simp] theorem Dev.mwr_phy (d : Dev) (f : Field) (v : Nat) : (d.mwr f v).phy = d.phy := rfl
@[simp] theorem Dev.mwr_lanes (d : Dev) (f : Field) (v : Nat) : (d.mwr f v).lanes = d.lanes := rfl
@[simp] theorem Dev.mwr_freeCtr (d : Dev) (f : Field) (v : Nat) : (d.mwr f v).freeCtr = d.freeCtr := rfl
@[simp] theorem Dev.mwr_out (d : Dev) (f : Field) (v : Nat) : (d.mwr f v).out = d.out := rfl
@[simp] theorem Dev.mwr_monPending (d : Dev) (f : Field) (v : Nat) : (d.mwr f v).monPending = d.monPending := rfl
@[simp] theorem Dev.mwr_inst (d : Dev) (f : Field) (v : Nat) : (d.mwr f v).inst = d.inst := rfl
@[simp] theorem Dev.mwr_memb (d : Dev) (f : Field) (v : Nat) : (d.mwr f v).memb = d.memb := rfl
@[simp] theorem Dev.mwr_agents (d : Dev) (f : Field) (v : Nat) : (d.mwr f v).agents = d.agents := rfl
@[simp] theorem Dev.mwr_extents (d : Dev) (f : Field) (v : Nat) : (d.mwr f v).extents = d.extents := rfl
@[simp] theorem Dev.mwr_windows (d : Dev) (f : Field) (v : Nat) : (d.mwr f v).windows = d.windows := rfl
@[simp] theorem Dev.mwr_slots (d : Dev) (f : Field) (v : Nat) : (d.mwr f v).slots = d.slots := rfl
@[simp] theorem Dev.mwr_binder (d : Dev) (f : Field) (v : Nat) : (d.mwr f v).binder = d.binder := rfl
@[simp] theorem Dev.mwr_gate (d : Dev) (f : Field) (v : Nat) : (d.mwr f v).gate = d.gate := rfl
@[simp] theorem Dev.mwr_chn (d : Dev) (f : Field) (v : Nat) : (d.mwr f v).chn = d.chn := rfl
@[simp] theorem Dev.mwr_edge (d : Dev) (f : Field) (v : Nat) : (d.mwr f v).edge = d.edge := rfl
@[simp] theorem Dev.mwr_fab (d : Dev) (f : Field) (v : Nat) : (d.mwr f v).fab = d.fab := rfl
@[simp] theorem Dev.mwr_exer (d : Dev) (f : Field) (v : Nat) : (d.mwr f v).exer = d.exer := rfl
@[simp] theorem Dev.mwr_ladles (d : Dev) (f : Field) (v : Nat) : (d.mwr f v).ladles = d.ladles := rfl
@[simp] theorem Dev.mwr_work (d : Dev) (f : Field) (v : Nat) : (d.mwr f v).work = d.work := rfl

/-! ### `Dev.emit` -/

@[simp] theorem Dev.emit_regs (d : Dev) (o : Out) : (d.emit o).regs = d.regs := rfl
@[simp] theorem Dev.emit_upsetA (d : Dev) (o : Out) : (d.emit o).upsetA = d.upsetA := rfl
@[simp] theorem Dev.emit_upsetB (d : Dev) (o : Out) : (d.emit o).upsetB = d.upsetB := rfl
@[simp] theorem Dev.emit_upsetC (d : Dev) (o : Out) : (d.emit o).upsetC = d.upsetC := rfl
@[simp] theorem Dev.emit_latchBar0 (d : Dev) (o : Out) : (d.emit o).latchBar0 = d.latchBar0 := rfl
@[simp] theorem Dev.emit_latchReg (d : Dev) (o : Out) : (d.emit o).latchReg = d.latchReg := rfl
@[simp] theorem Dev.emit_latchCp (d : Dev) (o : Out) : (d.emit o).latchCp = d.latchCp := rfl
@[simp] theorem Dev.emit_latchJtag (d : Dev) (o : Out) : (d.emit o).latchJtag = d.latchJtag := rfl
@[simp] theorem Dev.emit_silek (d : Dev) (o : Out) : (d.emit o).silek = d.silek := rfl
@[simp] theorem Dev.emit_events (d : Dev) (o : Out) : (d.emit o).events = d.events := rfl
@[simp] theorem Dev.emit_errors (d : Dev) (o : Out) : (d.emit o).errors = d.errors := rfl
@[simp] theorem Dev.emit_lastCorrected (d : Dev) (o : Out) : (d.emit o).lastCorrected = d.lastCorrected := rfl
@[simp] theorem Dev.emit_portCounts (d : Dev) (o : Out) : (d.emit o).portCounts = d.portCounts := rfl
@[simp] theorem Dev.emit_flaws (d : Dev) (o : Out) : (d.emit o).flaws = d.flaws := rfl
@[simp] theorem Dev.emit_cxl (d : Dev) (o : Out) : (d.emit o).cxl = d.cxl := rfl
@[simp] theorem Dev.emit_banks (d : Dev) (o : Out) : (d.emit o).banks = d.banks := rfl
@[simp] theorem Dev.emit_fuses (d : Dev) (o : Out) : (d.emit o).fuses = d.fuses := rfl
@[simp] theorem Dev.emit_flash (d : Dev) (o : Out) : (d.emit o).flash = d.flash := rfl
@[simp] theorem Dev.emit_sc (d : Dev) (o : Out) : (d.emit o).sc = d.sc := rfl
@[simp] theorem Dev.emit_power (d : Dev) (o : Out) : (d.emit o).power = d.power := rfl
@[simp] theorem Dev.emit_rst (d : Dev) (o : Out) : (d.emit o).rst = d.rst := rfl
@[simp] theorem Dev.emit_hbk (d : Dev) (o : Out) : (d.emit o).hbk = d.hbk := rfl
@[simp] theorem Dev.emit_hbkFlash (d : Dev) (o : Out) : (d.emit o).hbkFlash = d.hbkFlash := rfl
@[simp] theorem Dev.emit_flashNext (d : Dev) (o : Out) : (d.emit o).flashNext = d.flashNext := rfl
@[simp] theorem Dev.emit_skim (d : Dev) (o : Out) : (d.emit o).skim = d.skim := rfl
@[simp] theorem Dev.emit_jtag (d : Dev) (o : Out) : (d.emit o).jtag = d.jtag := rfl
@[simp] theorem Dev.emit_thermal (d : Dev) (o : Out) : (d.emit o).thermal = d.thermal := rfl
@[simp] theorem Dev.emit_buf (d : Dev) (o : Out) : (d.emit o).buf = d.buf := rfl
@[simp] theorem Dev.emit_irq (d : Dev) (o : Out) : (d.emit o).irq = d.irq := rfl
@[simp] theorem Dev.emit_phy (d : Dev) (o : Out) : (d.emit o).phy = d.phy := rfl
@[simp] theorem Dev.emit_lanes (d : Dev) (o : Out) : (d.emit o).lanes = d.lanes := rfl
@[simp] theorem Dev.emit_freeCtr (d : Dev) (o : Out) : (d.emit o).freeCtr = d.freeCtr := rfl
@[simp] theorem Dev.emit_monRegs (d : Dev) (o : Out) : (d.emit o).monRegs = d.monRegs := rfl
@[simp] theorem Dev.emit_monPending (d : Dev) (o : Out) : (d.emit o).monPending = d.monPending := rfl
@[simp] theorem Dev.emit_inst (d : Dev) (o : Out) : (d.emit o).inst = d.inst := rfl
@[simp] theorem Dev.emit_memb (d : Dev) (o : Out) : (d.emit o).memb = d.memb := rfl
@[simp] theorem Dev.emit_agents (d : Dev) (o : Out) : (d.emit o).agents = d.agents := rfl
@[simp] theorem Dev.emit_extents (d : Dev) (o : Out) : (d.emit o).extents = d.extents := rfl
@[simp] theorem Dev.emit_windows (d : Dev) (o : Out) : (d.emit o).windows = d.windows := rfl
@[simp] theorem Dev.emit_slots (d : Dev) (o : Out) : (d.emit o).slots = d.slots := rfl
@[simp] theorem Dev.emit_binder (d : Dev) (o : Out) : (d.emit o).binder = d.binder := rfl
@[simp] theorem Dev.emit_gate (d : Dev) (o : Out) : (d.emit o).gate = d.gate := rfl
@[simp] theorem Dev.emit_chn (d : Dev) (o : Out) : (d.emit o).chn = d.chn := rfl
@[simp] theorem Dev.emit_edge (d : Dev) (o : Out) : (d.emit o).edge = d.edge := rfl
@[simp] theorem Dev.emit_fab (d : Dev) (o : Out) : (d.emit o).fab = d.fab := rfl
@[simp] theorem Dev.emit_exer (d : Dev) (o : Out) : (d.emit o).exer = d.exer := rfl
@[simp] theorem Dev.emit_ladles (d : Dev) (o : Out) : (d.emit o).ladles = d.ladles := rfl
@[simp] theorem Dev.emit_work (d : Dev) (o : Out) : (d.emit o).work = d.work := rfl

/-! ### `Dev.drawn` -/

@[simp] theorem Dev.drawn_regs (d : Dev) : (d.drawn).regs = d.regs := rfl
@[simp] theorem Dev.drawn_upsetA (d : Dev) : (d.drawn).upsetA = d.upsetA := rfl
@[simp] theorem Dev.drawn_upsetB (d : Dev) : (d.drawn).upsetB = d.upsetB := rfl
@[simp] theorem Dev.drawn_upsetC (d : Dev) : (d.drawn).upsetC = d.upsetC := rfl
@[simp] theorem Dev.drawn_latchBar0 (d : Dev) : (d.drawn).latchBar0 = d.latchBar0 := rfl
@[simp] theorem Dev.drawn_latchReg (d : Dev) : (d.drawn).latchReg = d.latchReg := rfl
@[simp] theorem Dev.drawn_latchCp (d : Dev) : (d.drawn).latchCp = d.latchCp := rfl
@[simp] theorem Dev.drawn_latchJtag (d : Dev) : (d.drawn).latchJtag = d.latchJtag := rfl
@[simp] theorem Dev.drawn_silek (d : Dev) : (d.drawn).silek = d.silek := rfl
@[simp] theorem Dev.drawn_events (d : Dev) : (d.drawn).events = d.events := rfl
@[simp] theorem Dev.drawn_errors (d : Dev) : (d.drawn).errors = d.errors := rfl
@[simp] theorem Dev.drawn_lastCorrected (d : Dev) : (d.drawn).lastCorrected = d.lastCorrected := rfl
@[simp] theorem Dev.drawn_portCounts (d : Dev) : (d.drawn).portCounts = d.portCounts := rfl
@[simp] theorem Dev.drawn_flaws (d : Dev) : (d.drawn).flaws = d.flaws := rfl
@[simp] theorem Dev.drawn_cxl (d : Dev) : (d.drawn).cxl = d.cxl := rfl
@[simp] theorem Dev.drawn_banks (d : Dev) : (d.drawn).banks = d.banks := rfl
@[simp] theorem Dev.drawn_fuses (d : Dev) : (d.drawn).fuses = d.fuses := rfl
@[simp] theorem Dev.drawn_flash (d : Dev) : (d.drawn).flash = d.flash := rfl
@[simp] theorem Dev.drawn_sc (d : Dev) : (d.drawn).sc = d.sc := rfl
@[simp] theorem Dev.drawn_power (d : Dev) : (d.drawn).power = d.power := rfl
@[simp] theorem Dev.drawn_rst (d : Dev) : (d.drawn).rst = d.rst := rfl
@[simp] theorem Dev.drawn_hbk (d : Dev) : (d.drawn).hbk = d.hbk := rfl
@[simp] theorem Dev.drawn_hbkFlash (d : Dev) : (d.drawn).hbkFlash = d.hbkFlash := rfl
@[simp] theorem Dev.drawn_flashNext (d : Dev) : (d.drawn).flashNext = d.flashNext := rfl
@[simp] theorem Dev.drawn_skim (d : Dev) : (d.drawn).skim = d.skim := rfl
@[simp] theorem Dev.drawn_jtag (d : Dev) : (d.drawn).jtag = d.jtag := rfl
@[simp] theorem Dev.drawn_thermal (d : Dev) : (d.drawn).thermal = d.thermal := rfl
@[simp] theorem Dev.drawn_buf (d : Dev) : (d.drawn).buf = d.buf := rfl
@[simp] theorem Dev.drawn_irq (d : Dev) : (d.drawn).irq = d.irq := rfl
@[simp] theorem Dev.drawn_phy (d : Dev) : (d.drawn).phy = d.phy := rfl
@[simp] theorem Dev.drawn_lanes (d : Dev) : (d.drawn).lanes = d.lanes := rfl
@[simp] theorem Dev.drawn_out (d : Dev) : (d.drawn).out = d.out := rfl
@[simp] theorem Dev.drawn_monRegs (d : Dev) : (d.drawn).monRegs = d.monRegs := rfl
@[simp] theorem Dev.drawn_monPending (d : Dev) : (d.drawn).monPending = d.monPending := rfl
@[simp] theorem Dev.drawn_inst (d : Dev) : (d.drawn).inst = d.inst := rfl
@[simp] theorem Dev.drawn_memb (d : Dev) : (d.drawn).memb = d.memb := rfl
@[simp] theorem Dev.drawn_agents (d : Dev) : (d.drawn).agents = d.agents := rfl
@[simp] theorem Dev.drawn_extents (d : Dev) : (d.drawn).extents = d.extents := rfl
@[simp] theorem Dev.drawn_windows (d : Dev) : (d.drawn).windows = d.windows := rfl
@[simp] theorem Dev.drawn_slots (d : Dev) : (d.drawn).slots = d.slots := rfl
@[simp] theorem Dev.drawn_binder (d : Dev) : (d.drawn).binder = d.binder := rfl
@[simp] theorem Dev.drawn_gate (d : Dev) : (d.drawn).gate = d.gate := rfl
@[simp] theorem Dev.drawn_chn (d : Dev) : (d.drawn).chn = d.chn := rfl
@[simp] theorem Dev.drawn_edge (d : Dev) : (d.drawn).edge = d.edge := rfl
@[simp] theorem Dev.drawn_fab (d : Dev) : (d.drawn).fab = d.fab := rfl
@[simp] theorem Dev.drawn_exer (d : Dev) : (d.drawn).exer = d.exer := rfl
@[simp] theorem Dev.drawn_ladles (d : Dev) : (d.drawn).ladles = d.ladles := rfl
@[simp] theorem Dev.drawn_work (d : Dev) : (d.drawn).work = d.work := rfl

/-! ### `Dev.setPort` -/

@[simp] theorem Dev.setPort_regs (d : Dev) (p : Nat) (x : CxlPort) : (d.setPort p x).regs = d.regs := rfl
@[simp] theorem Dev.setPort_upsetA (d : Dev) (p : Nat) (x : CxlPort) : (d.setPort p x).upsetA = d.upsetA := rfl
@[simp] theorem Dev.setPort_upsetB (d : Dev) (p : Nat) (x : CxlPort) : (d.setPort p x).upsetB = d.upsetB := rfl
@[simp] theorem Dev.setPort_upsetC (d : Dev) (p : Nat) (x : CxlPort) : (d.setPort p x).upsetC = d.upsetC := rfl
@[simp] theorem Dev.setPort_latchBar0 (d : Dev) (p : Nat) (x : CxlPort) : (d.setPort p x).latchBar0 = d.latchBar0 := rfl
@[simp] theorem Dev.setPort_latchReg (d : Dev) (p : Nat) (x : CxlPort) : (d.setPort p x).latchReg = d.latchReg := rfl
@[simp] theorem Dev.setPort_latchCp (d : Dev) (p : Nat) (x : CxlPort) : (d.setPort p x).latchCp = d.latchCp := rfl
@[simp] theorem Dev.setPort_latchJtag (d : Dev) (p : Nat) (x : CxlPort) : (d.setPort p x).latchJtag = d.latchJtag := rfl
@[simp] theorem Dev.setPort_silek (d : Dev) (p : Nat) (x : CxlPort) : (d.setPort p x).silek = d.silek := rfl
@[simp] theorem Dev.setPort_events (d : Dev) (p : Nat) (x : CxlPort) : (d.setPort p x).events = d.events := rfl
@[simp] theorem Dev.setPort_errors (d : Dev) (p : Nat) (x : CxlPort) : (d.setPort p x).errors = d.errors := rfl
@[simp] theorem Dev.setPort_lastCorrected (d : Dev) (p : Nat) (x : CxlPort) : (d.setPort p x).lastCorrected = d.lastCorrected := rfl
@[simp] theorem Dev.setPort_portCounts (d : Dev) (p : Nat) (x : CxlPort) : (d.setPort p x).portCounts = d.portCounts := rfl
@[simp] theorem Dev.setPort_flaws (d : Dev) (p : Nat) (x : CxlPort) : (d.setPort p x).flaws = d.flaws := rfl
@[simp] theorem Dev.setPort_banks (d : Dev) (p : Nat) (x : CxlPort) : (d.setPort p x).banks = d.banks := rfl
@[simp] theorem Dev.setPort_fuses (d : Dev) (p : Nat) (x : CxlPort) : (d.setPort p x).fuses = d.fuses := rfl
@[simp] theorem Dev.setPort_flash (d : Dev) (p : Nat) (x : CxlPort) : (d.setPort p x).flash = d.flash := rfl
@[simp] theorem Dev.setPort_sc (d : Dev) (p : Nat) (x : CxlPort) : (d.setPort p x).sc = d.sc := rfl
@[simp] theorem Dev.setPort_power (d : Dev) (p : Nat) (x : CxlPort) : (d.setPort p x).power = d.power := rfl
@[simp] theorem Dev.setPort_rst (d : Dev) (p : Nat) (x : CxlPort) : (d.setPort p x).rst = d.rst := rfl
@[simp] theorem Dev.setPort_hbk (d : Dev) (p : Nat) (x : CxlPort) : (d.setPort p x).hbk = d.hbk := rfl
@[simp] theorem Dev.setPort_hbkFlash (d : Dev) (p : Nat) (x : CxlPort) : (d.setPort p x).hbkFlash = d.hbkFlash := rfl
@[simp] theorem Dev.setPort_flashNext (d : Dev) (p : Nat) (x : CxlPort) : (d.setPort p x).flashNext = d.flashNext := rfl
@[simp] theorem Dev.setPort_skim (d : Dev) (p : Nat) (x : CxlPort) : (d.setPort p x).skim = d.skim := rfl
@[simp] theorem Dev.setPort_jtag (d : Dev) (p : Nat) (x : CxlPort) : (d.setPort p x).jtag = d.jtag := rfl
@[simp] theorem Dev.setPort_thermal (d : Dev) (p : Nat) (x : CxlPort) : (d.setPort p x).thermal = d.thermal := rfl
@[simp] theorem Dev.setPort_buf (d : Dev) (p : Nat) (x : CxlPort) : (d.setPort p x).buf = d.buf := rfl
@[simp] theorem Dev.setPort_irq (d : Dev) (p : Nat) (x : CxlPort) : (d.setPort p x).irq = d.irq := rfl
@[simp] theorem Dev.setPort_phy (d : Dev) (p : Nat) (x : CxlPort) : (d.setPort p x).phy = d.phy := rfl
@[simp] theorem Dev.setPort_lanes (d : Dev) (p : Nat) (x : CxlPort) : (d.setPort p x).lanes = d.lanes := rfl
@[simp] theorem Dev.setPort_freeCtr (d : Dev) (p : Nat) (x : CxlPort) : (d.setPort p x).freeCtr = d.freeCtr := rfl
@[simp] theorem Dev.setPort_out (d : Dev) (p : Nat) (x : CxlPort) : (d.setPort p x).out = d.out := rfl
@[simp] theorem Dev.setPort_monRegs (d : Dev) (p : Nat) (x : CxlPort) : (d.setPort p x).monRegs = d.monRegs := rfl
@[simp] theorem Dev.setPort_monPending (d : Dev) (p : Nat) (x : CxlPort) : (d.setPort p x).monPending = d.monPending := rfl
@[simp] theorem Dev.setPort_inst (d : Dev) (p : Nat) (x : CxlPort) : (d.setPort p x).inst = d.inst := rfl
@[simp] theorem Dev.setPort_memb (d : Dev) (p : Nat) (x : CxlPort) : (d.setPort p x).memb = d.memb := rfl
@[simp] theorem Dev.setPort_agents (d : Dev) (p : Nat) (x : CxlPort) : (d.setPort p x).agents = d.agents := rfl
@[simp] theorem Dev.setPort_extents (d : Dev) (p : Nat) (x : CxlPort) : (d.setPort p x).extents = d.extents := rfl
@[simp] theorem Dev.setPort_windows (d : Dev) (p : Nat) (x : CxlPort) : (d.setPort p x).windows = d.windows := rfl
@[simp] theorem Dev.setPort_slots (d : Dev) (p : Nat) (x : CxlPort) : (d.setPort p x).slots = d.slots := rfl
@[simp] theorem Dev.setPort_binder (d : Dev) (p : Nat) (x : CxlPort) : (d.setPort p x).binder = d.binder := rfl
@[simp] theorem Dev.setPort_gate (d : Dev) (p : Nat) (x : CxlPort) : (d.setPort p x).gate = d.gate := rfl
@[simp] theorem Dev.setPort_chn (d : Dev) (p : Nat) (x : CxlPort) : (d.setPort p x).chn = d.chn := rfl
@[simp] theorem Dev.setPort_edge (d : Dev) (p : Nat) (x : CxlPort) : (d.setPort p x).edge = d.edge := rfl
@[simp] theorem Dev.setPort_fab (d : Dev) (p : Nat) (x : CxlPort) : (d.setPort p x).fab = d.fab := rfl
@[simp] theorem Dev.setPort_exer (d : Dev) (p : Nat) (x : CxlPort) : (d.setPort p x).exer = d.exer := rfl
@[simp] theorem Dev.setPort_ladles (d : Dev) (p : Nat) (x : CxlPort) : (d.setPort p x).ladles = d.ladles := rfl
@[simp] theorem Dev.setPort_work (d : Dev) (p : Nat) (x : CxlPort) : (d.setPort p x).work = d.work := rfl

/-! ### `Dev.setBank` -/

@[simp] theorem Dev.setBank_regs (d : Dev) (b : Nat) (x : Bank) : (d.setBank b x).regs = d.regs := rfl
@[simp] theorem Dev.setBank_upsetA (d : Dev) (b : Nat) (x : Bank) : (d.setBank b x).upsetA = d.upsetA := rfl
@[simp] theorem Dev.setBank_upsetB (d : Dev) (b : Nat) (x : Bank) : (d.setBank b x).upsetB = d.upsetB := rfl
@[simp] theorem Dev.setBank_upsetC (d : Dev) (b : Nat) (x : Bank) : (d.setBank b x).upsetC = d.upsetC := rfl
@[simp] theorem Dev.setBank_latchBar0 (d : Dev) (b : Nat) (x : Bank) : (d.setBank b x).latchBar0 = d.latchBar0 := rfl
@[simp] theorem Dev.setBank_latchReg (d : Dev) (b : Nat) (x : Bank) : (d.setBank b x).latchReg = d.latchReg := rfl
@[simp] theorem Dev.setBank_latchCp (d : Dev) (b : Nat) (x : Bank) : (d.setBank b x).latchCp = d.latchCp := rfl
@[simp] theorem Dev.setBank_latchJtag (d : Dev) (b : Nat) (x : Bank) : (d.setBank b x).latchJtag = d.latchJtag := rfl
@[simp] theorem Dev.setBank_silek (d : Dev) (b : Nat) (x : Bank) : (d.setBank b x).silek = d.silek := rfl
@[simp] theorem Dev.setBank_events (d : Dev) (b : Nat) (x : Bank) : (d.setBank b x).events = d.events := rfl
@[simp] theorem Dev.setBank_errors (d : Dev) (b : Nat) (x : Bank) : (d.setBank b x).errors = d.errors := rfl
@[simp] theorem Dev.setBank_lastCorrected (d : Dev) (b : Nat) (x : Bank) : (d.setBank b x).lastCorrected = d.lastCorrected := rfl
@[simp] theorem Dev.setBank_portCounts (d : Dev) (b : Nat) (x : Bank) : (d.setBank b x).portCounts = d.portCounts := rfl
@[simp] theorem Dev.setBank_flaws (d : Dev) (b : Nat) (x : Bank) : (d.setBank b x).flaws = d.flaws := rfl
@[simp] theorem Dev.setBank_cxl (d : Dev) (b : Nat) (x : Bank) : (d.setBank b x).cxl = d.cxl := rfl
@[simp] theorem Dev.setBank_fuses (d : Dev) (b : Nat) (x : Bank) : (d.setBank b x).fuses = d.fuses := rfl
@[simp] theorem Dev.setBank_flash (d : Dev) (b : Nat) (x : Bank) : (d.setBank b x).flash = d.flash := rfl
@[simp] theorem Dev.setBank_sc (d : Dev) (b : Nat) (x : Bank) : (d.setBank b x).sc = d.sc := rfl
@[simp] theorem Dev.setBank_power (d : Dev) (b : Nat) (x : Bank) : (d.setBank b x).power = d.power := rfl
@[simp] theorem Dev.setBank_rst (d : Dev) (b : Nat) (x : Bank) : (d.setBank b x).rst = d.rst := rfl
@[simp] theorem Dev.setBank_hbk (d : Dev) (b : Nat) (x : Bank) : (d.setBank b x).hbk = d.hbk := rfl
@[simp] theorem Dev.setBank_hbkFlash (d : Dev) (b : Nat) (x : Bank) : (d.setBank b x).hbkFlash = d.hbkFlash := rfl
@[simp] theorem Dev.setBank_flashNext (d : Dev) (b : Nat) (x : Bank) : (d.setBank b x).flashNext = d.flashNext := rfl
@[simp] theorem Dev.setBank_skim (d : Dev) (b : Nat) (x : Bank) : (d.setBank b x).skim = d.skim := rfl
@[simp] theorem Dev.setBank_jtag (d : Dev) (b : Nat) (x : Bank) : (d.setBank b x).jtag = d.jtag := rfl
@[simp] theorem Dev.setBank_thermal (d : Dev) (b : Nat) (x : Bank) : (d.setBank b x).thermal = d.thermal := rfl
@[simp] theorem Dev.setBank_buf (d : Dev) (b : Nat) (x : Bank) : (d.setBank b x).buf = d.buf := rfl
@[simp] theorem Dev.setBank_irq (d : Dev) (b : Nat) (x : Bank) : (d.setBank b x).irq = d.irq := rfl
@[simp] theorem Dev.setBank_phy (d : Dev) (b : Nat) (x : Bank) : (d.setBank b x).phy = d.phy := rfl
@[simp] theorem Dev.setBank_lanes (d : Dev) (b : Nat) (x : Bank) : (d.setBank b x).lanes = d.lanes := rfl
@[simp] theorem Dev.setBank_freeCtr (d : Dev) (b : Nat) (x : Bank) : (d.setBank b x).freeCtr = d.freeCtr := rfl
@[simp] theorem Dev.setBank_out (d : Dev) (b : Nat) (x : Bank) : (d.setBank b x).out = d.out := rfl
@[simp] theorem Dev.setBank_monRegs (d : Dev) (b : Nat) (x : Bank) : (d.setBank b x).monRegs = d.monRegs := rfl
@[simp] theorem Dev.setBank_monPending (d : Dev) (b : Nat) (x : Bank) : (d.setBank b x).monPending = d.monPending := rfl
@[simp] theorem Dev.setBank_inst (d : Dev) (b : Nat) (x : Bank) : (d.setBank b x).inst = d.inst := rfl
@[simp] theorem Dev.setBank_memb (d : Dev) (b : Nat) (x : Bank) : (d.setBank b x).memb = d.memb := rfl
@[simp] theorem Dev.setBank_agents (d : Dev) (b : Nat) (x : Bank) : (d.setBank b x).agents = d.agents := rfl
@[simp] theorem Dev.setBank_extents (d : Dev) (b : Nat) (x : Bank) : (d.setBank b x).extents = d.extents := rfl
@[simp] theorem Dev.setBank_windows (d : Dev) (b : Nat) (x : Bank) : (d.setBank b x).windows = d.windows := rfl
@[simp] theorem Dev.setBank_slots (d : Dev) (b : Nat) (x : Bank) : (d.setBank b x).slots = d.slots := rfl
@[simp] theorem Dev.setBank_binder (d : Dev) (b : Nat) (x : Bank) : (d.setBank b x).binder = d.binder := rfl
@[simp] theorem Dev.setBank_gate (d : Dev) (b : Nat) (x : Bank) : (d.setBank b x).gate = d.gate := rfl
@[simp] theorem Dev.setBank_chn (d : Dev) (b : Nat) (x : Bank) : (d.setBank b x).chn = d.chn := rfl
@[simp] theorem Dev.setBank_edge (d : Dev) (b : Nat) (x : Bank) : (d.setBank b x).edge = d.edge := rfl
@[simp] theorem Dev.setBank_fab (d : Dev) (b : Nat) (x : Bank) : (d.setBank b x).fab = d.fab := rfl
@[simp] theorem Dev.setBank_exer (d : Dev) (b : Nat) (x : Bank) : (d.setBank b x).exer = d.exer := rfl
@[simp] theorem Dev.setBank_ladles (d : Dev) (b : Nat) (x : Bank) : (d.setBank b x).ladles = d.ladles := rfl
@[simp] theorem Dev.setBank_work (d : Dev) (b : Nat) (x : Bank) : (d.setBank b x).work = d.work := rfl

/-! ### `Dev.setChannel` -/

@[simp] theorem Dev.setChannel_regs (d : Dev) (c : Nat) (x : PowerChannel) : (d.setChannel c x).regs = d.regs := rfl
@[simp] theorem Dev.setChannel_upsetA (d : Dev) (c : Nat) (x : PowerChannel) : (d.setChannel c x).upsetA = d.upsetA := rfl
@[simp] theorem Dev.setChannel_upsetB (d : Dev) (c : Nat) (x : PowerChannel) : (d.setChannel c x).upsetB = d.upsetB := rfl
@[simp] theorem Dev.setChannel_upsetC (d : Dev) (c : Nat) (x : PowerChannel) : (d.setChannel c x).upsetC = d.upsetC := rfl
@[simp] theorem Dev.setChannel_latchBar0 (d : Dev) (c : Nat) (x : PowerChannel) : (d.setChannel c x).latchBar0 = d.latchBar0 := rfl
@[simp] theorem Dev.setChannel_latchReg (d : Dev) (c : Nat) (x : PowerChannel) : (d.setChannel c x).latchReg = d.latchReg := rfl
@[simp] theorem Dev.setChannel_latchCp (d : Dev) (c : Nat) (x : PowerChannel) : (d.setChannel c x).latchCp = d.latchCp := rfl
@[simp] theorem Dev.setChannel_latchJtag (d : Dev) (c : Nat) (x : PowerChannel) : (d.setChannel c x).latchJtag = d.latchJtag := rfl
@[simp] theorem Dev.setChannel_silek (d : Dev) (c : Nat) (x : PowerChannel) : (d.setChannel c x).silek = d.silek := rfl
@[simp] theorem Dev.setChannel_events (d : Dev) (c : Nat) (x : PowerChannel) : (d.setChannel c x).events = d.events := rfl
@[simp] theorem Dev.setChannel_errors (d : Dev) (c : Nat) (x : PowerChannel) : (d.setChannel c x).errors = d.errors := rfl
@[simp] theorem Dev.setChannel_lastCorrected (d : Dev) (c : Nat) (x : PowerChannel) : (d.setChannel c x).lastCorrected = d.lastCorrected := rfl
@[simp] theorem Dev.setChannel_portCounts (d : Dev) (c : Nat) (x : PowerChannel) : (d.setChannel c x).portCounts = d.portCounts := rfl
@[simp] theorem Dev.setChannel_flaws (d : Dev) (c : Nat) (x : PowerChannel) : (d.setChannel c x).flaws = d.flaws := rfl
@[simp] theorem Dev.setChannel_cxl (d : Dev) (c : Nat) (x : PowerChannel) : (d.setChannel c x).cxl = d.cxl := rfl
@[simp] theorem Dev.setChannel_banks (d : Dev) (c : Nat) (x : PowerChannel) : (d.setChannel c x).banks = d.banks := rfl
@[simp] theorem Dev.setChannel_fuses (d : Dev) (c : Nat) (x : PowerChannel) : (d.setChannel c x).fuses = d.fuses := rfl
@[simp] theorem Dev.setChannel_flash (d : Dev) (c : Nat) (x : PowerChannel) : (d.setChannel c x).flash = d.flash := rfl
@[simp] theorem Dev.setChannel_sc (d : Dev) (c : Nat) (x : PowerChannel) : (d.setChannel c x).sc = d.sc := rfl
@[simp] theorem Dev.setChannel_rst (d : Dev) (c : Nat) (x : PowerChannel) : (d.setChannel c x).rst = d.rst := rfl
@[simp] theorem Dev.setChannel_hbk (d : Dev) (c : Nat) (x : PowerChannel) : (d.setChannel c x).hbk = d.hbk := rfl
@[simp] theorem Dev.setChannel_hbkFlash (d : Dev) (c : Nat) (x : PowerChannel) : (d.setChannel c x).hbkFlash = d.hbkFlash := rfl
@[simp] theorem Dev.setChannel_flashNext (d : Dev) (c : Nat) (x : PowerChannel) : (d.setChannel c x).flashNext = d.flashNext := rfl
@[simp] theorem Dev.setChannel_skim (d : Dev) (c : Nat) (x : PowerChannel) : (d.setChannel c x).skim = d.skim := rfl
@[simp] theorem Dev.setChannel_jtag (d : Dev) (c : Nat) (x : PowerChannel) : (d.setChannel c x).jtag = d.jtag := rfl
@[simp] theorem Dev.setChannel_thermal (d : Dev) (c : Nat) (x : PowerChannel) : (d.setChannel c x).thermal = d.thermal := rfl
@[simp] theorem Dev.setChannel_buf (d : Dev) (c : Nat) (x : PowerChannel) : (d.setChannel c x).buf = d.buf := rfl
@[simp] theorem Dev.setChannel_irq (d : Dev) (c : Nat) (x : PowerChannel) : (d.setChannel c x).irq = d.irq := rfl
@[simp] theorem Dev.setChannel_phy (d : Dev) (c : Nat) (x : PowerChannel) : (d.setChannel c x).phy = d.phy := rfl
@[simp] theorem Dev.setChannel_lanes (d : Dev) (c : Nat) (x : PowerChannel) : (d.setChannel c x).lanes = d.lanes := rfl
@[simp] theorem Dev.setChannel_freeCtr (d : Dev) (c : Nat) (x : PowerChannel) : (d.setChannel c x).freeCtr = d.freeCtr := rfl
@[simp] theorem Dev.setChannel_out (d : Dev) (c : Nat) (x : PowerChannel) : (d.setChannel c x).out = d.out := rfl
@[simp] theorem Dev.setChannel_monRegs (d : Dev) (c : Nat) (x : PowerChannel) : (d.setChannel c x).monRegs = d.monRegs := rfl
@[simp] theorem Dev.setChannel_monPending (d : Dev) (c : Nat) (x : PowerChannel) : (d.setChannel c x).monPending = d.monPending := rfl
@[simp] theorem Dev.setChannel_inst (d : Dev) (c : Nat) (x : PowerChannel) : (d.setChannel c x).inst = d.inst := rfl
@[simp] theorem Dev.setChannel_memb (d : Dev) (c : Nat) (x : PowerChannel) : (d.setChannel c x).memb = d.memb := rfl
@[simp] theorem Dev.setChannel_agents (d : Dev) (c : Nat) (x : PowerChannel) : (d.setChannel c x).agents = d.agents := rfl
@[simp] theorem Dev.setChannel_extents (d : Dev) (c : Nat) (x : PowerChannel) : (d.setChannel c x).extents = d.extents := rfl
@[simp] theorem Dev.setChannel_windows (d : Dev) (c : Nat) (x : PowerChannel) : (d.setChannel c x).windows = d.windows := rfl
@[simp] theorem Dev.setChannel_slots (d : Dev) (c : Nat) (x : PowerChannel) : (d.setChannel c x).slots = d.slots := rfl
@[simp] theorem Dev.setChannel_binder (d : Dev) (c : Nat) (x : PowerChannel) : (d.setChannel c x).binder = d.binder := rfl
@[simp] theorem Dev.setChannel_gate (d : Dev) (c : Nat) (x : PowerChannel) : (d.setChannel c x).gate = d.gate := rfl
@[simp] theorem Dev.setChannel_chn (d : Dev) (c : Nat) (x : PowerChannel) : (d.setChannel c x).chn = d.chn := rfl
@[simp] theorem Dev.setChannel_edge (d : Dev) (c : Nat) (x : PowerChannel) : (d.setChannel c x).edge = d.edge := rfl
@[simp] theorem Dev.setChannel_fab (d : Dev) (c : Nat) (x : PowerChannel) : (d.setChannel c x).fab = d.fab := rfl
@[simp] theorem Dev.setChannel_exer (d : Dev) (c : Nat) (x : PowerChannel) : (d.setChannel c x).exer = d.exer := rfl
@[simp] theorem Dev.setChannel_ladles (d : Dev) (c : Nat) (x : PowerChannel) : (d.setChannel c x).ladles = d.ladles := rfl
@[simp] theorem Dev.setChannel_work (d : Dev) (c : Nat) (x : PowerChannel) : (d.setChannel c x).work = d.work := rfl

/-! ### `Dev.setQphy` -/

@[simp] theorem Dev.setQphy_regs (d : Dev) (p : Nat) (x : QflPhy) : (d.setQphy p x).regs = d.regs := rfl
@[simp] theorem Dev.setQphy_upsetA (d : Dev) (p : Nat) (x : QflPhy) : (d.setQphy p x).upsetA = d.upsetA := rfl
@[simp] theorem Dev.setQphy_upsetB (d : Dev) (p : Nat) (x : QflPhy) : (d.setQphy p x).upsetB = d.upsetB := rfl
@[simp] theorem Dev.setQphy_upsetC (d : Dev) (p : Nat) (x : QflPhy) : (d.setQphy p x).upsetC = d.upsetC := rfl
@[simp] theorem Dev.setQphy_latchBar0 (d : Dev) (p : Nat) (x : QflPhy) : (d.setQphy p x).latchBar0 = d.latchBar0 := rfl
@[simp] theorem Dev.setQphy_latchReg (d : Dev) (p : Nat) (x : QflPhy) : (d.setQphy p x).latchReg = d.latchReg := rfl
@[simp] theorem Dev.setQphy_latchCp (d : Dev) (p : Nat) (x : QflPhy) : (d.setQphy p x).latchCp = d.latchCp := rfl
@[simp] theorem Dev.setQphy_latchJtag (d : Dev) (p : Nat) (x : QflPhy) : (d.setQphy p x).latchJtag = d.latchJtag := rfl
@[simp] theorem Dev.setQphy_silek (d : Dev) (p : Nat) (x : QflPhy) : (d.setQphy p x).silek = d.silek := rfl
@[simp] theorem Dev.setQphy_events (d : Dev) (p : Nat) (x : QflPhy) : (d.setQphy p x).events = d.events := rfl
@[simp] theorem Dev.setQphy_errors (d : Dev) (p : Nat) (x : QflPhy) : (d.setQphy p x).errors = d.errors := rfl
@[simp] theorem Dev.setQphy_lastCorrected (d : Dev) (p : Nat) (x : QflPhy) : (d.setQphy p x).lastCorrected = d.lastCorrected := rfl
@[simp] theorem Dev.setQphy_portCounts (d : Dev) (p : Nat) (x : QflPhy) : (d.setQphy p x).portCounts = d.portCounts := rfl
@[simp] theorem Dev.setQphy_flaws (d : Dev) (p : Nat) (x : QflPhy) : (d.setQphy p x).flaws = d.flaws := rfl
@[simp] theorem Dev.setQphy_cxl (d : Dev) (p : Nat) (x : QflPhy) : (d.setQphy p x).cxl = d.cxl := rfl
@[simp] theorem Dev.setQphy_banks (d : Dev) (p : Nat) (x : QflPhy) : (d.setQphy p x).banks = d.banks := rfl
@[simp] theorem Dev.setQphy_fuses (d : Dev) (p : Nat) (x : QflPhy) : (d.setQphy p x).fuses = d.fuses := rfl
@[simp] theorem Dev.setQphy_flash (d : Dev) (p : Nat) (x : QflPhy) : (d.setQphy p x).flash = d.flash := rfl
@[simp] theorem Dev.setQphy_sc (d : Dev) (p : Nat) (x : QflPhy) : (d.setQphy p x).sc = d.sc := rfl
@[simp] theorem Dev.setQphy_power (d : Dev) (p : Nat) (x : QflPhy) : (d.setQphy p x).power = d.power := rfl
@[simp] theorem Dev.setQphy_rst (d : Dev) (p : Nat) (x : QflPhy) : (d.setQphy p x).rst = d.rst := rfl
@[simp] theorem Dev.setQphy_hbk (d : Dev) (p : Nat) (x : QflPhy) : (d.setQphy p x).hbk = d.hbk := rfl
@[simp] theorem Dev.setQphy_hbkFlash (d : Dev) (p : Nat) (x : QflPhy) : (d.setQphy p x).hbkFlash = d.hbkFlash := rfl
@[simp] theorem Dev.setQphy_flashNext (d : Dev) (p : Nat) (x : QflPhy) : (d.setQphy p x).flashNext = d.flashNext := rfl
@[simp] theorem Dev.setQphy_skim (d : Dev) (p : Nat) (x : QflPhy) : (d.setQphy p x).skim = d.skim := rfl
@[simp] theorem Dev.setQphy_jtag (d : Dev) (p : Nat) (x : QflPhy) : (d.setQphy p x).jtag = d.jtag := rfl
@[simp] theorem Dev.setQphy_thermal (d : Dev) (p : Nat) (x : QflPhy) : (d.setQphy p x).thermal = d.thermal := rfl
@[simp] theorem Dev.setQphy_buf (d : Dev) (p : Nat) (x : QflPhy) : (d.setQphy p x).buf = d.buf := rfl
@[simp] theorem Dev.setQphy_irq (d : Dev) (p : Nat) (x : QflPhy) : (d.setQphy p x).irq = d.irq := rfl
@[simp] theorem Dev.setQphy_lanes (d : Dev) (p : Nat) (x : QflPhy) : (d.setQphy p x).lanes = d.lanes := rfl
@[simp] theorem Dev.setQphy_freeCtr (d : Dev) (p : Nat) (x : QflPhy) : (d.setQphy p x).freeCtr = d.freeCtr := rfl
@[simp] theorem Dev.setQphy_out (d : Dev) (p : Nat) (x : QflPhy) : (d.setQphy p x).out = d.out := rfl
@[simp] theorem Dev.setQphy_monRegs (d : Dev) (p : Nat) (x : QflPhy) : (d.setQphy p x).monRegs = d.monRegs := rfl
@[simp] theorem Dev.setQphy_monPending (d : Dev) (p : Nat) (x : QflPhy) : (d.setQphy p x).monPending = d.monPending := rfl
@[simp] theorem Dev.setQphy_inst (d : Dev) (p : Nat) (x : QflPhy) : (d.setQphy p x).inst = d.inst := rfl
@[simp] theorem Dev.setQphy_memb (d : Dev) (p : Nat) (x : QflPhy) : (d.setQphy p x).memb = d.memb := rfl
@[simp] theorem Dev.setQphy_agents (d : Dev) (p : Nat) (x : QflPhy) : (d.setQphy p x).agents = d.agents := rfl
@[simp] theorem Dev.setQphy_extents (d : Dev) (p : Nat) (x : QflPhy) : (d.setQphy p x).extents = d.extents := rfl
@[simp] theorem Dev.setQphy_windows (d : Dev) (p : Nat) (x : QflPhy) : (d.setQphy p x).windows = d.windows := rfl
@[simp] theorem Dev.setQphy_slots (d : Dev) (p : Nat) (x : QflPhy) : (d.setQphy p x).slots = d.slots := rfl
@[simp] theorem Dev.setQphy_binder (d : Dev) (p : Nat) (x : QflPhy) : (d.setQphy p x).binder = d.binder := rfl
@[simp] theorem Dev.setQphy_gate (d : Dev) (p : Nat) (x : QflPhy) : (d.setQphy p x).gate = d.gate := rfl
@[simp] theorem Dev.setQphy_chn (d : Dev) (p : Nat) (x : QflPhy) : (d.setQphy p x).chn = d.chn := rfl
@[simp] theorem Dev.setQphy_edge (d : Dev) (p : Nat) (x : QflPhy) : (d.setQphy p x).edge = d.edge := rfl
@[simp] theorem Dev.setQphy_fab (d : Dev) (p : Nat) (x : QflPhy) : (d.setQphy p x).fab = d.fab := rfl
@[simp] theorem Dev.setQphy_exer (d : Dev) (p : Nat) (x : QflPhy) : (d.setQphy p x).exer = d.exer := rfl
@[simp] theorem Dev.setQphy_ladles (d : Dev) (p : Nat) (x : QflPhy) : (d.setQphy p x).ladles = d.ladles := rfl
@[simp] theorem Dev.setQphy_work (d : Dev) (p : Nat) (x : QflPhy) : (d.setQphy p x).work = d.work := rfl

/-! ### `Dev.setLane` -/

@[simp] theorem Dev.setLane_regs (d : Dev) (l : Nat) (x : LaneState) : (d.setLane l x).regs = d.regs := rfl
@[simp] theorem Dev.setLane_upsetA (d : Dev) (l : Nat) (x : LaneState) : (d.setLane l x).upsetA = d.upsetA := rfl
@[simp] theorem Dev.setLane_upsetB (d : Dev) (l : Nat) (x : LaneState) : (d.setLane l x).upsetB = d.upsetB := rfl
@[simp] theorem Dev.setLane_upsetC (d : Dev) (l : Nat) (x : LaneState) : (d.setLane l x).upsetC = d.upsetC := rfl
@[simp] theorem Dev.setLane_latchBar0 (d : Dev) (l : Nat) (x : LaneState) : (d.setLane l x).latchBar0 = d.latchBar0 := rfl
@[simp] theorem Dev.setLane_latchReg (d : Dev) (l : Nat) (x : LaneState) : (d.setLane l x).latchReg = d.latchReg := rfl
@[simp] theorem Dev.setLane_latchCp (d : Dev) (l : Nat) (x : LaneState) : (d.setLane l x).latchCp = d.latchCp := rfl
@[simp] theorem Dev.setLane_latchJtag (d : Dev) (l : Nat) (x : LaneState) : (d.setLane l x).latchJtag = d.latchJtag := rfl
@[simp] theorem Dev.setLane_silek (d : Dev) (l : Nat) (x : LaneState) : (d.setLane l x).silek = d.silek := rfl
@[simp] theorem Dev.setLane_events (d : Dev) (l : Nat) (x : LaneState) : (d.setLane l x).events = d.events := rfl
@[simp] theorem Dev.setLane_errors (d : Dev) (l : Nat) (x : LaneState) : (d.setLane l x).errors = d.errors := rfl
@[simp] theorem Dev.setLane_lastCorrected (d : Dev) (l : Nat) (x : LaneState) : (d.setLane l x).lastCorrected = d.lastCorrected := rfl
@[simp] theorem Dev.setLane_portCounts (d : Dev) (l : Nat) (x : LaneState) : (d.setLane l x).portCounts = d.portCounts := rfl
@[simp] theorem Dev.setLane_flaws (d : Dev) (l : Nat) (x : LaneState) : (d.setLane l x).flaws = d.flaws := rfl
@[simp] theorem Dev.setLane_cxl (d : Dev) (l : Nat) (x : LaneState) : (d.setLane l x).cxl = d.cxl := rfl
@[simp] theorem Dev.setLane_banks (d : Dev) (l : Nat) (x : LaneState) : (d.setLane l x).banks = d.banks := rfl
@[simp] theorem Dev.setLane_fuses (d : Dev) (l : Nat) (x : LaneState) : (d.setLane l x).fuses = d.fuses := rfl
@[simp] theorem Dev.setLane_flash (d : Dev) (l : Nat) (x : LaneState) : (d.setLane l x).flash = d.flash := rfl
@[simp] theorem Dev.setLane_sc (d : Dev) (l : Nat) (x : LaneState) : (d.setLane l x).sc = d.sc := rfl
@[simp] theorem Dev.setLane_power (d : Dev) (l : Nat) (x : LaneState) : (d.setLane l x).power = d.power := rfl
@[simp] theorem Dev.setLane_rst (d : Dev) (l : Nat) (x : LaneState) : (d.setLane l x).rst = d.rst := rfl
@[simp] theorem Dev.setLane_hbk (d : Dev) (l : Nat) (x : LaneState) : (d.setLane l x).hbk = d.hbk := rfl
@[simp] theorem Dev.setLane_hbkFlash (d : Dev) (l : Nat) (x : LaneState) : (d.setLane l x).hbkFlash = d.hbkFlash := rfl
@[simp] theorem Dev.setLane_flashNext (d : Dev) (l : Nat) (x : LaneState) : (d.setLane l x).flashNext = d.flashNext := rfl
@[simp] theorem Dev.setLane_skim (d : Dev) (l : Nat) (x : LaneState) : (d.setLane l x).skim = d.skim := rfl
@[simp] theorem Dev.setLane_jtag (d : Dev) (l : Nat) (x : LaneState) : (d.setLane l x).jtag = d.jtag := rfl
@[simp] theorem Dev.setLane_thermal (d : Dev) (l : Nat) (x : LaneState) : (d.setLane l x).thermal = d.thermal := rfl
@[simp] theorem Dev.setLane_buf (d : Dev) (l : Nat) (x : LaneState) : (d.setLane l x).buf = d.buf := rfl
@[simp] theorem Dev.setLane_irq (d : Dev) (l : Nat) (x : LaneState) : (d.setLane l x).irq = d.irq := rfl
@[simp] theorem Dev.setLane_phy (d : Dev) (l : Nat) (x : LaneState) : (d.setLane l x).phy = d.phy := rfl
@[simp] theorem Dev.setLane_freeCtr (d : Dev) (l : Nat) (x : LaneState) : (d.setLane l x).freeCtr = d.freeCtr := rfl
@[simp] theorem Dev.setLane_out (d : Dev) (l : Nat) (x : LaneState) : (d.setLane l x).out = d.out := rfl
@[simp] theorem Dev.setLane_monRegs (d : Dev) (l : Nat) (x : LaneState) : (d.setLane l x).monRegs = d.monRegs := rfl
@[simp] theorem Dev.setLane_monPending (d : Dev) (l : Nat) (x : LaneState) : (d.setLane l x).monPending = d.monPending := rfl
@[simp] theorem Dev.setLane_inst (d : Dev) (l : Nat) (x : LaneState) : (d.setLane l x).inst = d.inst := rfl
@[simp] theorem Dev.setLane_memb (d : Dev) (l : Nat) (x : LaneState) : (d.setLane l x).memb = d.memb := rfl
@[simp] theorem Dev.setLane_agents (d : Dev) (l : Nat) (x : LaneState) : (d.setLane l x).agents = d.agents := rfl
@[simp] theorem Dev.setLane_extents (d : Dev) (l : Nat) (x : LaneState) : (d.setLane l x).extents = d.extents := rfl
@[simp] theorem Dev.setLane_windows (d : Dev) (l : Nat) (x : LaneState) : (d.setLane l x).windows = d.windows := rfl
@[simp] theorem Dev.setLane_slots (d : Dev) (l : Nat) (x : LaneState) : (d.setLane l x).slots = d.slots := rfl
@[simp] theorem Dev.setLane_binder (d : Dev) (l : Nat) (x : LaneState) : (d.setLane l x).binder = d.binder := rfl
@[simp] theorem Dev.setLane_gate (d : Dev) (l : Nat) (x : LaneState) : (d.setLane l x).gate = d.gate := rfl
@[simp] theorem Dev.setLane_chn (d : Dev) (l : Nat) (x : LaneState) : (d.setLane l x).chn = d.chn := rfl
@[simp] theorem Dev.setLane_edge (d : Dev) (l : Nat) (x : LaneState) : (d.setLane l x).edge = d.edge := rfl
@[simp] theorem Dev.setLane_fab (d : Dev) (l : Nat) (x : LaneState) : (d.setLane l x).fab = d.fab := rfl
@[simp] theorem Dev.setLane_exer (d : Dev) (l : Nat) (x : LaneState) : (d.setLane l x).exer = d.exer := rfl
@[simp] theorem Dev.setLane_ladles (d : Dev) (l : Nat) (x : LaneState) : (d.setLane l x).ladles = d.ladles := rfl
@[simp] theorem Dev.setLane_work (d : Dev) (l : Nat) (x : LaneState) : (d.setLane l x).work = d.work := rfl

/-! ### `Dev.setInst` -/

@[simp] theorem Dev.setInst_regs (d : Dev) (n : Nat) (x : Inst) : (d.setInst n x).regs = d.regs := rfl
@[simp] theorem Dev.setInst_upsetA (d : Dev) (n : Nat) (x : Inst) : (d.setInst n x).upsetA = d.upsetA := rfl
@[simp] theorem Dev.setInst_upsetB (d : Dev) (n : Nat) (x : Inst) : (d.setInst n x).upsetB = d.upsetB := rfl
@[simp] theorem Dev.setInst_upsetC (d : Dev) (n : Nat) (x : Inst) : (d.setInst n x).upsetC = d.upsetC := rfl
@[simp] theorem Dev.setInst_latchBar0 (d : Dev) (n : Nat) (x : Inst) : (d.setInst n x).latchBar0 = d.latchBar0 := rfl
@[simp] theorem Dev.setInst_latchReg (d : Dev) (n : Nat) (x : Inst) : (d.setInst n x).latchReg = d.latchReg := rfl
@[simp] theorem Dev.setInst_latchCp (d : Dev) (n : Nat) (x : Inst) : (d.setInst n x).latchCp = d.latchCp := rfl
@[simp] theorem Dev.setInst_latchJtag (d : Dev) (n : Nat) (x : Inst) : (d.setInst n x).latchJtag = d.latchJtag := rfl
@[simp] theorem Dev.setInst_silek (d : Dev) (n : Nat) (x : Inst) : (d.setInst n x).silek = d.silek := rfl
@[simp] theorem Dev.setInst_events (d : Dev) (n : Nat) (x : Inst) : (d.setInst n x).events = d.events := rfl
@[simp] theorem Dev.setInst_errors (d : Dev) (n : Nat) (x : Inst) : (d.setInst n x).errors = d.errors := rfl
@[simp] theorem Dev.setInst_lastCorrected (d : Dev) (n : Nat) (x : Inst) : (d.setInst n x).lastCorrected = d.lastCorrected := rfl
@[simp] theorem Dev.setInst_portCounts (d : Dev) (n : Nat) (x : Inst) : (d.setInst n x).portCounts = d.portCounts := rfl
@[simp] theorem Dev.setInst_flaws (d : Dev) (n : Nat) (x : Inst) : (d.setInst n x).flaws = d.flaws := rfl
@[simp] theorem Dev.setInst_cxl (d : Dev) (n : Nat) (x : Inst) : (d.setInst n x).cxl = d.cxl := rfl
@[simp] theorem Dev.setInst_banks (d : Dev) (n : Nat) (x : Inst) : (d.setInst n x).banks = d.banks := rfl
@[simp] theorem Dev.setInst_fuses (d : Dev) (n : Nat) (x : Inst) : (d.setInst n x).fuses = d.fuses := rfl
@[simp] theorem Dev.setInst_flash (d : Dev) (n : Nat) (x : Inst) : (d.setInst n x).flash = d.flash := rfl
@[simp] theorem Dev.setInst_sc (d : Dev) (n : Nat) (x : Inst) : (d.setInst n x).sc = d.sc := rfl
@[simp] theorem Dev.setInst_power (d : Dev) (n : Nat) (x : Inst) : (d.setInst n x).power = d.power := rfl
@[simp] theorem Dev.setInst_rst (d : Dev) (n : Nat) (x : Inst) : (d.setInst n x).rst = d.rst := rfl
@[simp] theorem Dev.setInst_hbk (d : Dev) (n : Nat) (x : Inst) : (d.setInst n x).hbk = d.hbk := rfl
@[simp] theorem Dev.setInst_hbkFlash (d : Dev) (n : Nat) (x : Inst) : (d.setInst n x).hbkFlash = d.hbkFlash := rfl
@[simp] theorem Dev.setInst_flashNext (d : Dev) (n : Nat) (x : Inst) : (d.setInst n x).flashNext = d.flashNext := rfl
@[simp] theorem Dev.setInst_skim (d : Dev) (n : Nat) (x : Inst) : (d.setInst n x).skim = d.skim := rfl
@[simp] theorem Dev.setInst_jtag (d : Dev) (n : Nat) (x : Inst) : (d.setInst n x).jtag = d.jtag := rfl
@[simp] theorem Dev.setInst_thermal (d : Dev) (n : Nat) (x : Inst) : (d.setInst n x).thermal = d.thermal := rfl
@[simp] theorem Dev.setInst_buf (d : Dev) (n : Nat) (x : Inst) : (d.setInst n x).buf = d.buf := rfl
@[simp] theorem Dev.setInst_irq (d : Dev) (n : Nat) (x : Inst) : (d.setInst n x).irq = d.irq := rfl
@[simp] theorem Dev.setInst_phy (d : Dev) (n : Nat) (x : Inst) : (d.setInst n x).phy = d.phy := rfl
@[simp] theorem Dev.setInst_lanes (d : Dev) (n : Nat) (x : Inst) : (d.setInst n x).lanes = d.lanes := rfl
@[simp] theorem Dev.setInst_freeCtr (d : Dev) (n : Nat) (x : Inst) : (d.setInst n x).freeCtr = d.freeCtr := rfl
@[simp] theorem Dev.setInst_out (d : Dev) (n : Nat) (x : Inst) : (d.setInst n x).out = d.out := rfl
@[simp] theorem Dev.setInst_monRegs (d : Dev) (n : Nat) (x : Inst) : (d.setInst n x).monRegs = d.monRegs := rfl
@[simp] theorem Dev.setInst_monPending (d : Dev) (n : Nat) (x : Inst) : (d.setInst n x).monPending = d.monPending := rfl
@[simp] theorem Dev.setInst_memb (d : Dev) (n : Nat) (x : Inst) : (d.setInst n x).memb = d.memb := rfl
@[simp] theorem Dev.setInst_agents (d : Dev) (n : Nat) (x : Inst) : (d.setInst n x).agents = d.agents := rfl
@[simp] theorem Dev.setInst_extents (d : Dev) (n : Nat) (x : Inst) : (d.setInst n x).extents = d.extents := rfl
@[simp] theorem Dev.setInst_windows (d : Dev) (n : Nat) (x : Inst) : (d.setInst n x).windows = d.windows := rfl
@[simp] theorem Dev.setInst_slots (d : Dev) (n : Nat) (x : Inst) : (d.setInst n x).slots = d.slots := rfl
@[simp] theorem Dev.setInst_binder (d : Dev) (n : Nat) (x : Inst) : (d.setInst n x).binder = d.binder := rfl
@[simp] theorem Dev.setInst_gate (d : Dev) (n : Nat) (x : Inst) : (d.setInst n x).gate = d.gate := rfl
@[simp] theorem Dev.setInst_chn (d : Dev) (n : Nat) (x : Inst) : (d.setInst n x).chn = d.chn := rfl
@[simp] theorem Dev.setInst_edge (d : Dev) (n : Nat) (x : Inst) : (d.setInst n x).edge = d.edge := rfl
@[simp] theorem Dev.setInst_fab (d : Dev) (n : Nat) (x : Inst) : (d.setInst n x).fab = d.fab := rfl
@[simp] theorem Dev.setInst_exer (d : Dev) (n : Nat) (x : Inst) : (d.setInst n x).exer = d.exer := rfl
@[simp] theorem Dev.setInst_ladles (d : Dev) (n : Nat) (x : Inst) : (d.setInst n x).ladles = d.ladles := rfl
@[simp] theorem Dev.setInst_work (d : Dev) (n : Nat) (x : Inst) : (d.setInst n x).work = d.work := rfl

/-! ### The state -/

@[simp] theorem State.withDev_dev (s : State) (d : Dev) : (s.withDev d).dev = d := rfl
@[simp] theorem State.withDev_pending (s : State) (d : Dev) : (s.withDev d).pending = s.pending := rfl
@[simp] theorem State.withDev_mem (s : State) (d : Dev) : (s.withDev d).mem = s.mem := rfl
@[simp] theorem State.withDev_time (s : State) (d : Dev) : (s.withDev d).time = s.time := rfl
@[simp] theorem State.withDev_guard (s : State) (d : Dev) : (s.withDev d).guard = s.guard := rfl
/-- Mailboxes that take their replies change nothing but the buffers and the device. -/
theorem State.mail_others (l : List (Nat × List Byte)) (s : State) :
    (l.foldl (fun (s : State) x => s.mailReply x.1 x.2) s).pending = s.pending ∧
      (l.foldl (fun (s : State) x => s.mailReply x.1 x.2) s).time = s.time ∧
      (l.foldl (fun (s : State) x => s.mailReply x.1 x.2) s).guard = s.guard := by
  induction l generalizing s with
  | nil => exact ⟨rfl, rfl, rfl⟩
  | cons x l ih => exact ih _
@[simp] theorem State.settledFrom_pending (x s : State) : (x.settledFrom s).pending = s.pending := (State.mail_others _ _).1
@[simp] theorem State.settledFrom_time (x s : State) : (x.settledFrom s).time = s.time := (State.mail_others _ _).2.1
@[simp] theorem State.settledFrom_guard (x s : State) : (x.settledFrom s).guard = s.guard := (State.mail_others _ _).2.2
@[simp] theorem State.begun_pending (s : State) : s.begun.pending = s.pending := rfl
@[simp] theorem State.begun_mem (s : State) : s.begun.mem = s.mem := rfl
@[simp] theorem State.begun_time (s : State) : s.begun.time = s.time := rfl
@[simp] theorem State.begun_guard (s : State) : s.begun.guard = s.guard := rfl

end Sys2Proof.Machine
end

