-- ==== Sys2Proof/Laws/Steps.lean ====
section
/-! SUPPORT. What counting an event, starting a command and settling leave alone. -/
namespace Sys2Proof.Machine
open Sys2Proof

/-! ### The monitors -/

@[simp] theorem Dev.mon_regs (d : Dev) (t m c a x : Nat) : (d.mon t m c a x).regs = d.regs := by unfold Dev.mon; split <;> rfl
@[simp] theorem Dev.mon_upsetA (d : Dev) (t m c a x : Nat) : (d.mon t m c a x).upsetA = d.upsetA := by unfold Dev.mon; split <;> rfl
@[simp] theorem Dev.mon_upsetB (d : Dev) (t m c a x : Nat) : (d.mon t m c a x).upsetB = d.upsetB := by unfold Dev.mon; split <;> rfl
@[simp] theorem Dev.mon_upsetC (d : Dev) (t m c a x : Nat) : (d.mon t m c a x).upsetC = d.upsetC := by unfold Dev.mon; split <;> rfl
@[simp] theorem Dev.mon_latchBar0 (d : Dev) (t m c a x : Nat) : (d.mon t m c a x).latchBar0 = d.latchBar0 := by unfold Dev.mon; split <;> rfl
@[simp] theorem Dev.mon_latchReg (d : Dev) (t m c a x : Nat) : (d.mon t m c a x).latchReg = d.latchReg := by unfold Dev.mon; split <;> rfl
@[simp] theorem Dev.mon_latchCp (d : Dev) (t m c a x : Nat) : (d.mon t m c a x).latchCp = d.latchCp := by unfold Dev.mon; split <;> rfl
@[simp] theorem Dev.mon_latchJtag (d : Dev) (t m c a x : Nat) : (d.mon t m c a x).latchJtag = d.latchJtag := by unfold Dev.mon; split <;> rfl
@[simp] theorem Dev.mon_silek (d : Dev) (t m c a x : Nat) : (d.mon t m c a x).silek = d.silek := by unfold Dev.mon; split <;> rfl
@[simp] theorem Dev.mon_events (d : Dev) (t m c a x : Nat) : (d.mon t m c a x).events = d.events := by unfold Dev.mon; split <;> rfl
@[simp] theorem Dev.mon_errors (d : Dev) (t m c a x : Nat) : (d.mon t m c a x).errors = d.errors := by unfold Dev.mon; split <;> rfl
@[simp] theorem Dev.mon_lastCorrected (d : Dev) (t m c a x : Nat) : (d.mon t m c a x).lastCorrected = d.lastCorrected := by unfold Dev.mon; split <;> rfl
@[simp] theorem Dev.mon_portCounts (d : Dev) (t m c a x : Nat) : (d.mon t m c a x).portCounts = d.portCounts := by unfold Dev.mon; split <;> rfl
@[simp] theorem Dev.mon_flaws (d : Dev) (t m c a x : Nat) : (d.mon t m c a x).flaws = d.flaws := by unfold Dev.mon; split <;> rfl
@[simp] theorem Dev.mon_cxl (d : Dev) (t m c a x : Nat) : (d.mon t m c a x).cxl = d.cxl := by unfold Dev.mon; split <;> rfl
@[simp] theorem Dev.mon_banks (d : Dev) (t m c a x : Nat) : (d.mon t m c a x).banks = d.banks := by unfold Dev.mon; split <;> rfl
@[simp] theorem Dev.mon_fuses (d : Dev) (t m c a x : Nat) : (d.mon t m c a x).fuses = d.fuses := by unfold Dev.mon; split <;> rfl
@[simp] theorem Dev.mon_flash (d : Dev) (t m c a x : Nat) : (d.mon t m c a x).flash = d.flash := by unfold Dev.mon; split <;> rfl
@[simp] theorem Dev.mon_sc (d : Dev) (t m c a x : Nat) : (d.mon t m c a x).sc = d.sc := by unfold Dev.mon; split <;> rfl
@[simp] theorem Dev.mon_power (d : Dev) (t m c a x : Nat) : (d.mon t m c a x).power = d.power := by unfold Dev.mon; split <;> rfl
@[simp] theorem Dev.mon_rst (d : Dev) (t m c a x : Nat) : (d.mon t m c a x).rst = d.rst := by unfold Dev.mon; split <;> rfl
@[simp] theorem Dev.mon_hbk (d : Dev) (t m c a x : Nat) : (d.mon t m c a x).hbk = d.hbk := by unfold Dev.mon; split <;> rfl
@[simp] theorem Dev.mon_hbkFlash (d : Dev) (t m c a x : Nat) : (d.mon t m c a x).hbkFlash = d.hbkFlash := by unfold Dev.mon; split <;> rfl
@[simp] theorem Dev.mon_flashNext (d : Dev) (t m c a x : Nat) : (d.mon t m c a x).flashNext = d.flashNext := by unfold Dev.mon; split <;> rfl
@[simp] theorem Dev.mon_skim (d : Dev) (t m c a x : Nat) : (d.mon t m c a x).skim = d.skim := by unfold Dev.mon; split <;> rfl
@[simp] theorem Dev.mon_jtag (d : Dev) (t m c a x : Nat) : (d.mon t m c a x).jtag = d.jtag := by unfold Dev.mon; split <;> rfl
@[simp] theorem Dev.mon_thermal (d : Dev) (t m c a x : Nat) : (d.mon t m c a x).thermal = d.thermal := by unfold Dev.mon; split <;> rfl
@[simp] theorem Dev.mon_buf (d : Dev) (t m c a x : Nat) : (d.mon t m c a x).buf = d.buf := by unfold Dev.mon; split <;> rfl
@[simp] theorem Dev.mon_irq (d : Dev) (t m c a x : Nat) : (d.mon t m c a x).irq = d.irq := by unfold Dev.mon; split <;> rfl
@[simp] theorem Dev.mon_phy (d : Dev) (t m c a x : Nat) : (d.mon t m c a x).phy = d.phy := by unfold Dev.mon; split <;> rfl
@[simp] theorem Dev.mon_lanes (d : Dev) (t m c a x : Nat) : (d.mon t m c a x).lanes = d.lanes := by unfold Dev.mon; split <;> rfl
@[simp] theorem Dev.mon_out (d : Dev) (t m c a x : Nat) : (d.mon t m c a x).out = d.out := by unfold Dev.mon; split <;> rfl
@[simp] theorem Dev.mon_inst (d : Dev) (t m c a x : Nat) : (d.mon t m c a x).inst = d.inst := by unfold Dev.mon; split <;> rfl
@[simp] theorem Dev.mon_memb (d : Dev) (t m c a x : Nat) : (d.mon t m c a x).memb = d.memb := by unfold Dev.mon; split <;> rfl
@[simp] theorem Dev.mon_agents (d : Dev) (t m c a x : Nat) : (d.mon t m c a x).agents = d.agents := by unfold Dev.mon; split <;> rfl
@[simp] theorem Dev.mon_extents (d : Dev) (t m c a x : Nat) : (d.mon t m c a x).extents = d.extents := by unfold Dev.mon; split <;> rfl
@[simp] theorem Dev.mon_windows (d : Dev) (t m c a x : Nat) : (d.mon t m c a x).windows = d.windows := by unfold Dev.mon; split <;> rfl
@[simp] theorem Dev.mon_slots (d : Dev) (t m c a x : Nat) : (d.mon t m c a x).slots = d.slots := by unfold Dev.mon; split <;> rfl
@[simp] theorem Dev.mon_binder (d : Dev) (t m c a x : Nat) : (d.mon t m c a x).binder = d.binder := by unfold Dev.mon; split <;> rfl
@[simp] theorem Dev.mon_gate (d : Dev) (t m c a x : Nat) : (d.mon t m c a x).gate = d.gate := by unfold Dev.mon; split <;> rfl
@[simp] theorem Dev.mon_chn (d : Dev) (t m c a x : Nat) : (d.mon t m c a x).chn = d.chn := by unfold Dev.mon; split <;> rfl
@[simp] theorem Dev.mon_edge (d : Dev) (t m c a x : Nat) : (d.mon t m c a x).edge = d.edge := by unfold Dev.mon; split <;> rfl
@[simp] theorem Dev.mon_fab (d : Dev) (t m c a x : Nat) : (d.mon t m c a x).fab = d.fab := by unfold Dev.mon; split <;> rfl
@[simp] theorem Dev.mon_exer (d : Dev) (t m c a x : Nat) : (d.mon t m c a x).exer = d.exer := by unfold Dev.mon; split <;> rfl
@[simp] theorem Dev.mon_ladles (d : Dev) (t m c a x : Nat) : (d.mon t m c a x).ladles = d.ladles := by unfold Dev.mon; split <;> rfl
@[simp] theorem Dev.mon_work (d : Dev) (t m c a x : Nat) : (d.mon t m c a x).work = d.work := by unfold Dev.mon; split <;> rfl

@[simp] theorem Dev.rd_mon (d : Dev) (t m c a x : Nat) (f : Field) : (d.mon t m c a x).rd f = d.rd f := by simp [Dev.rd]
@[simp] theorem Dev.flag_mon (d : Dev) (t m c a x : Nat) (f : Field) : (d.mon t m c a x).flag f = d.flag f := by simp [Dev.flag]


/-- A fold of steps that change the monitor pages alone. -/
theorem Dev.foldl_monRegs (f : Dev → Nat → Dev) (h : ∀ (d : Dev) (m : Nat), ∃ a, f d m = { d with monRegs := a }) (l : List Nat)
    (d : Dev) : ∃ a, l.foldl f d = { d with monRegs := a } := by
  induction l generalizing d with
  | nil => exact ⟨d.monRegs, rfl⟩
  | cons m l ih =>
    obtain ⟨a, ha⟩ := h d m
    obtain ⟨b, hb⟩ := ih (f d m)
    exact ⟨b, by rw [List.foldl_cons, hb, ha]⟩

/-- A nanosecond changes the monitor pages alone. -/
theorem Dev.monTick_monRegs (d : Dev) : d.monTick = { d with monRegs := d.monTick.monRegs } := by
  have h : ∃ a, d.monTick = { d with monRegs := a } := by
    refine Dev.foldl_monRegs _ (fun d m => ?_) _ _
    split
    · exact ⟨d.monRegs, rfl⟩
    · exact ⟨_, rfl⟩
  obtain ⟨a, ha⟩ := h
  rw [ha]
@[simp] theorem Dev.monTick_chn (d : Dev) : d.monTick.chn = d.chn := by rw [Dev.monTick_monRegs]
/-! ### A command that has started -/

theorem State.begun_dev (s : State) : s.begun.dev = s.dev.mon s.time.now 0x39 0x901 0xffff 0 := rfl
theorem State.begun_rd (s : State) (f : Field) : s.begun.dev.rd f = s.dev.rd f := by simp [State.begun_dev]
theorem State.begun_flag (s : State) (f : Field) : s.begun.dev.flag f = s.dev.flag f := by simp [State.begun_dev]
theorem State.begun_mode (s : State) : s.begun.dev.mode = s.dev.mode := by simp [State.begun_dev, Dev.mode]
/-- An admitted command runs above OM1. -/
theorem State.admits_mode {s : State} {h : SilekHdr} {i : CmdInfo} (ha : s.admits h i = true) : 1 < s.dev.mode := by
  simp only [State.admits, Bool.and_eq_true, decide_eq_true_eq] at ha
  omega

/-! ### Settling -/

/-- Nothing waits: settling changes nothing. -/
theorem Dev.settle_none (n t : Nat) {d : Dev} (h : d.work = []) : d.settle n t = d := by
  cases n <;> simp [Dev.settle, h]

/-- A fold over steps that each change nothing. -/
theorem foldl_fixed {α β : Type} (f : β → α → β) (b : β) (l : List α) (h : ∀ x ∈ l, f b x = b) : l.foldl f b = b := by
  induction l with
  | nil => rfl
  | cons x l ih =>
    rw [List.foldl_cons, h x (List.mem_cons_self ..)]
    exact ih (fun y hy => h y (List.mem_cons_of_mem _ hy))

/-- All credits are out: none is returned. -/
theorem Dev.returnCredits_out {vi : Nat} {d : Dev} (h : d.creditsOut vi = true) : d.returnCredits vi = d := by
  simp only [Dev.creditsOut, Bool.and_eq_true, Bool.or_eq_true, Bool.not_eq_true', decide_eq_true_eq, List.all_eq_true] at h
  obtain ⟨h1, h2⟩ := h
  have e : (if d.limitPending vi = true then d
      else { d with edge := { d.edge with limitPending := d.edge.limitPending.filter (fun x => x ≠ vi) } }) = d := by
    split
    · rfl
    · have : d.edge.limitPending.filter (fun x => x ≠ vi) = d.edge.limitPending := by
        rw [List.filter_eq_self]
        intro x hx
        have hc : d.edge.limitPending.contains vi = false := h1.resolve_left (by assumption)
        simp only [List.contains_eq_mem, decide_eq_false_iff_not] at hc
        simp only [ne_eq, decide_not, Bool.not_eq_true', decide_eq_false_iff_not]
        rintro rfl
        exact hc hx
      rw [this]
  simp only [Dev.returnCredits, e]
  split
  · rfl
  · rename_i hn
    refine foldl_fixed _ _ _ (fun x hx => ?_)
    rcases h2 with h2 | h2
    · exact absurd h2 hn
    · exact if_pos (h2 x hx)

/-- No port is owed a credit: settling the credits changes nothing. -/
theorem Dev.settleCredits_settled {d : Dev} (h : d.creditsSettled = true) : d.settleCredits = d := by
  simp only [Dev.creditsSettled, Bool.and_eq_true, List.all_eq_true] at h
  obtain ⟨h1, h2⟩ := h
  have e : d.edge.credits.filter (fun x => d.linkUp x.1) = d.edge.credits := List.filter_eq_self.mpr h1
  simp only [Dev.settleCredits, e]
  exact foldl_fixed _ _ _ (fun x hx => Dev.returnCredits_out (h2 x hx))

/-- Nothing waits and no mirror is fed: the end of a command changes nothing. -/
theorem Dev.finishCommand_calm (t : Nat) {d x : Dev} (h : d.calm = true) : d.finishCommand t x = d := by
  simp only [Dev.calm, Bool.and_eq_true, decide_eq_true_eq, Bool.not_eq_true'] at h
  simp [Dev.finishCommand, Dev.settle_none _ _ h.1.1.1, Dev.settleCredits_settled h.2, h.1.1.2]

/-- No mailbox waits for a reply. -/
theorem State.takeMail_calm {s : State} (h : s.dev.calm = true) : s.takeMail = s := by
  simp only [Dev.calm, Bool.and_eq_true, decide_eq_true_eq] at h
  unfold State.takeMail
  rw [h.1.2, List.foldl_nil, ← h.1.2]

/-- A calm device is settled. -/
theorem State.settledFrom_calm {x s : State} (h : s.dev.calm = true) : x.settledFrom s = s := by
  simp [State.settledFrom, Dev.finishCommand_calm _ h, State.takeMail_calm h]

/-- A command on the device that leaves nothing to do. -/
theorem onSettled_calm {s : State} {f : Nat → Dev → Dev} (h : (f s.time.now s.dev).calm = true) :
    onSettled f s = .next (s.withDev (f s.time.now s.dev)) := by
  have hm : (s.withDev (f s.time.now s.dev)).takeMail = s.withDev (f s.time.now s.dev) := State.takeMail_calm h
  simpa [onSettled, settled, onDev, Dev.finishCommand_calm _ h, State.withDev] using hm

/-- A command on the device alone. -/
theorem onDev_eq (s : State) (f : Nat → Dev → Dev) : onDev f s = .next (s.withDev (f s.time.now s.dev)) := rfl

/-- A command on the device, with the work it hands on. -/
theorem onSettled_eq (s : State) (f : Nat → Dev → Dev) : onSettled f s = .next (s.settledFrom (s.withDev (f s.time.now s.dev))) := rfl

/-- A snoop response that nothing stands before passes at once. -/
theorem Dev.answerSnoop_free {t : Nat} {x : HostSnoop} {k : Option Nat} {d : Dev} (ha : d.edge.answers = [])
    (hf : ({ d with edge := { d.edge with answers := [d.heldAnswer x k] } } : Dev).answerFree (d.heldAnswer x k) = true) :
    d.answerSnoop t x k = d.takeAnswer t (d.heldAnswer x k) := by
  have er : ({ d with edge := { d.edge with answers := [] } } : Dev) = d := by rw [← ha]
  simp only [Dev.answerSnoop, ha, List.nil_append, Dev.passFree, List.foldl_cons, List.foldl_nil]
  rw [if_pos ⟨by simp, hf⟩]
  simp only [List.erase_cons_head, er]

end Sys2Proof.Machine
end

