-- ==== Sys2Proof/Laws/FmApi.lean ====
section
/-! SUPPORT. How a command of the FM API ends, said once. -/
namespace Sys2Proof.Machine
open Sys2Proof

/-- A reply that is answered directly, to an endpoint over MCTP. -/
theorem State.answered_fm {u : State} {eid inner : Nat} {i : CmdInfo} {st : Status} {p : List Byte}
    (hr : u.dev.silek.releasing = none) (ht : 65536 ≤ inner) :
    u.answered (fmHeader eid inner) i st p = u.withDev { u.dev with
      out := u.dev.out ++ [.reply (.fm eid) i.opcode inner (i.minorOf (fmHeader eid inner)) 1 st (padBytes p)]
      silek := { u.dev.silek with cache := u.dev.silek.cache ++ [{
        req := .fm eid, tag := inner, cmd := i.key, opcode := i.opcode, minor := i.minorOf (fmHeader eid inner), src := 0, status := st
        payload := p, time := u.time.now }] } } := by
  simp [State.answered, State.finalReply, hr, State.directReply, State.answer, fmHeader, Requester.mailbox, Dev.sendReply, Dev.emit,
    cacheInsert, ht, State.withDev]

/-- An FM API command whose Silek command ends at once: the state it leaves, with the answer in the FM API's form. -/
theorem fmRun_ends {s u : State} {eid op tag : Nat} {k : SilekHdr → State → Host.Outcome State Fault Refusal} {i : CmdInfo}
    {st : Status} {p : List Byte} {more : List Out} (hm : 1 < s.dev.mode) (hr : u.dev.silek.releasing = none)
    (hk : k (fmHeader eid s.fmTag) s.fmStart = .next (u.answered (fmHeader eid s.fmTag) i st p))
    (ho : u.dev.out = s.dev.out ++ more) (hn : u.dev.out.all (fun o => (o.replyTo s.fmTag).isNone) = true)
    (hc : u.dev.silek.cache.all (fun c => decide (c.tag ≠ s.fmTag)) = true) :
    s.fmRun eid op tag k = .next (u.withDev (u.dev.fmAnswer op tag st (padBytes p))) := by
  have ht : 65536 ≤ s.fmTag := Nat.le_add_right _ _
  have e1 : u.dev.out.filter (fun o => (o.replyTo s.fmTag).isNone) = u.dev.out := List.filter_eq_self.mpr (by simpa using hn)
  have e2 : u.dev.silek.cache.filter (fun c => decide (c.tag ≠ s.fmTag)) = u.dev.silek.cache :=
    List.filter_eq_self.mpr (by simpa using hc)
  have e3 : more.findSome? (fun o => o.replyTo s.fmTag) = none := by
    rw [ho] at hn
    simp only [List.all_append, Bool.and_eq_true, List.all_eq_true, Option.isNone_iff_eq_none] at hn
    exact List.findSome?_eq_none_iff.mpr hn.2
  unfold State.fmRun
  rw [if_neg (by omega)]
  simp only [hk]
  rw [State.answered_fm hr ht]
  simp only [State.withDev]
  rw [show (u.dev.out ++ [Out.reply (.fm eid) i.opcode s.fmTag (i.minorOf (fmHeader eid s.fmTag)) 1 st (padBytes p)]).drop
      s.dev.out.length = more ++ [Out.reply (.fm eid) i.opcode s.fmTag (i.minorOf (fmHeader eid s.fmTag)) 1 st (padBytes p)] by
    rw [ho, List.append_assoc, List.drop_left]]
  have e4 : Out.replyTo s.fmTag (.reply (.fm eid) i.opcode s.fmTag (i.minorOf (fmHeader eid s.fmTag)) 1 st (padBytes p)) =
      some (st, padBytes p) := by simp [Out.replyTo]
  simp only [List.findSome?_append, e3, List.findSome?_cons, e4, Option.none_or, List.filter_append, e1, e2]
  simp [e4]

/-- An FM API command whose Silek command goes on becomes the background command. -/
theorem fmRun_starts {s u : State} {eid op tag : Nat} {k : SilekHdr → State → Host.Outcome State Fault Refusal} (hm : 1 < s.dev.mode)
    (hk : k (fmHeader eid s.fmTag) s.fmStart = .next u) (hb : s.dev.fmRuns = false)
    (ho : (u.dev.out.drop s.dev.out.length).findSome? (fun o => o.replyTo s.fmTag) = none) :
    s.fmRun eid op tag k = .next (u.withDev ((u.dev.fmStarts eid s.fmTag).fmAnswer op tag .inProgress [])) := by
  unfold State.fmRun
  rw [if_neg (by omega)]
  simp only [hk, ho, hb]
  rfl

/-- Work that waits is not what the answer changes. -/
theorem State.answered_settled {s u : State} {eid inner : Nat} {i : CmdInfo} {st : Status} {p : List Byte}
    (hr : u.dev.silek.releasing = none) (ht : 65536 ≤ inner) (hc : u.dev.calm = true) :
    s.settledFrom (u.answered (fmHeader eid inner) i st p) = u.answered (fmHeader eid inner) i st p := by
  refine State.settledFrom_calm ?_
  rw [State.answered_fm hr ht]
  exact hc

/-- What a fresh inner tag says. -/
theorem State.fmFresh_iff {s : State} : s.fmFresh = true ↔ 1 < s.dev.mode ∧ s.dev.silek.releasing = none ∧
    s.dev.out.all (fun o => (o.replyTo s.fmTag).isNone) = true ∧ s.dev.silek.cache.all (fun c => decide (c.tag ≠ s.fmTag)) = true := by
  simp [State.fmFresh, and_assoc]

/-- An FM API command whose Silek command only asks. -/
theorem fmRun_query {s : State} {eid op tag : Nat} {k : SilekHdr → State → Host.Outcome State Fault Refusal} {i : CmdInfo} {st : Status}
    {p : List Byte} (hf : s.fmFresh = true)
    (hk : k (fmHeader eid s.fmTag) s.fmStart = .next (s.fmStart.begun.answered (fmHeader eid s.fmTag) i st p)) :
    s.fmRun eid op tag k = .next (s.fmStart.begun.withDev (s.fmStart.begun.dev.fmAnswer op tag st (padBytes p))) := by
  obtain ⟨h1, h2, h3, h4⟩ := State.fmFresh_iff.mp hf
  exact fmRun_ends (more := []) h1 (by simpa [State.begun_dev, State.fmStart] using h2) hk (by simp [State.begun_dev, State.fmStart])
    (by simpa [State.begun_dev, State.fmStart] using h3) (by simpa [State.begun_dev, State.fmStart] using h4)

/-- An FM API command whose Silek command acts on the device and ends at once. -/
theorem fmRun_dev {s : State} {eid op tag : Nat} {k : SilekHdr → State → Host.Outcome State Fault Refusal} {i : CmdInfo} {e : Dev}
    {st : Status} {p : List Byte} (hf : s.fmFresh = true) (ho : e.out = s.dev.out) (he : e.silek = s.fmStart.begun.dev.silek)
    (hk : k (fmHeader eid s.fmTag) s.fmStart = .next ((s.fmStart.withDev e).answered (fmHeader eid s.fmTag) i st p)) :
    s.fmRun eid op tag k = .next (s.withDev (e.fmAnswer op tag st (padBytes p))) := by
  obtain ⟨h1, h2, h3, h4⟩ := State.fmFresh_iff.mp hf
  have e1 : e.silek = { s.dev.silek with nextId := s.dev.silek.nextId + 1 } := by
    simpa [State.begun_dev, State.fmStart] using he
  rw [fmRun_ends (u := s.fmStart.withDev e) (more := []) h1 (by simp [State.withDev, e1, h2]) hk (by simp [State.withDev, ho])
    (by simpa [State.withDev, ho] using h3) (by simpa [State.withDev, e1] using h4)]
  rfl

/-- The same with the work it hands on: none waits. -/
theorem fmRun_settled {s : State} {eid op tag : Nat} {k : SilekHdr → State → Host.Outcome State Fault Refusal} {i : CmdInfo} {e : Dev}
    {st : Status} {p : List Byte} (hf : s.fmFresh = true) (ho : e.out = s.dev.out) (he : e.silek = s.fmStart.begun.dev.silek)
    (hc : e.calm = true)
    (hk : k (fmHeader eid s.fmTag) s.fmStart =
      .next (s.fmStart.settledFrom ((s.fmStart.withDev e).answered (fmHeader eid s.fmTag) i st p))) :
    s.fmRun eid op tag k = .next (s.withDev (e.fmAnswer op tag st (padBytes p))) := by
  have e1 : e.silek = { s.dev.silek with nextId := s.dev.silek.nextId + 1 } := by
    simpa [State.begun_dev, State.fmStart] using he
  refine fmRun_dev hf ho he (hk.trans (congrArg Host.Outcome.next (State.answered_settled ?_ (Nat.le_add_right _ _) hc)))
  simp [State.withDev, e1, (State.fmFresh_iff.mp hf).2.1]

end Sys2Proof.Machine
end

