-- ==== Sys2Proof/Laws/Keeps.lean ====
section
/-! SUPPORT. What every operation keeps: the queue of commands, the mailbox memory's canonical form and the order of the key guard. -/
namespace Sys2Proof.Machine
open Sys2Proof

/-- The queue is kept, and the invariant with it. -/
def State.Keeps (s t : State) : Prop := t.pending = s.pending ∧ (s.Inv → t.Inv)

theorem State.Keeps.refl (s : State) : s.Keeps s := ⟨rfl, id⟩
theorem State.Keeps.trans {s t u : State} (h : s.Keeps t) (k : t.Keeps u) : s.Keeps u := ⟨k.1.trans h.1, fun x => k.2 (h.2 x)⟩
/-- A change of the device alone. -/
theorem State.keeps_dev (s : State) (d : Dev) : s.Keeps { s with dev := d } := ⟨rfl, id⟩
/-- A change of the time unit and the device. -/
theorem State.keeps_time (s : State) (t : TimeUnit) (d : Dev) : s.Keeps { s with time := t, dev := d } := ⟨rfl, id⟩
/-- Keeping from s is keeping from the state with another device. -/
theorem State.Keeps.of_dev {s t : State} {d : Dev} (h : State.Keeps { s with dev := d } t) : s.Keeps t := ⟨h.1, h.2⟩
/-- The memory changes and keeps its form. -/
theorem State.keeps_mem {s : State} {m : Memory} (d : Dev) (h : Memory.wf s.mem = true → Memory.wf m = true) :
    s.Keeps { s with mem := m, dev := d } := ⟨rfl, fun x => ⟨h x.1, x.2⟩⟩
/-- The guard changes and keeps its order. -/
theorem State.keeps_guard {s : State} {g : KeyGuard} (d : Dev) (h : s.GuardOk → State.GuardOk { s with guard := g }) :
    s.Keeps { s with guard := g, dev := d } := ⟨rfl, fun x => ⟨x.1, h x.2⟩⟩

/-- Keeping along a fold. -/
theorem State.keeps_foldl {α : Type} (f : State → α → State) (h : ∀ (s : State) (x : α), s.Keeps (f s x)) (l : List α) (s : State) :
    s.Keeps (l.foldl f s) := by
  induction l generalizing s with
  | nil => exact .refl s
  | cons x l ih => exact (h s x).trans (ih _)

/-- Both branches keep. -/
theorem State.keeps_ite {c : Prop} [Decidable c] {s a b : State} (ha : s.Keeps a) (hb : s.Keeps b) : s.Keeps (if c then a else b) := by
  split
  · exact ha
  · exact hb

/-! ### Answers -/

theorem State.keeps_mailReply (mb : Nat) (bs : List Byte) (s : State) : s.Keeps (s.mailReply mb bs) :=
  State.keeps_mem _ (fun h => Memory.wf_writeBytes h _ _)

theorem State.keeps_takeMail (s : State) : s.Keeps s.takeMail := by
  unfold State.takeMail
  exact (s.keeps_dev _).trans (State.keeps_foldl _ (fun s x => s.keeps_mailReply _ _) _ _)

theorem State.keeps_answer (r : Requester) (op tag minor src flags : Nat) (st : Status) (p : List Byte) (s : State) :
    s.Keeps (s.answer r op tag minor src flags st p) := by
  unfold State.answer
  split
  · exact s.keeps_mailReply _ _
  · exact s.keeps_dev _

theorem State.keeps_finalReply (h : SilekHdr) (i : CmdInfo) (m : Nat) (st : Status) (p : List Byte) (s : State) :
    s.Keeps (s.finalReply h i m st p) := by
  unfold State.finalReply
  split
  · exact s.keeps_dev _
  · exact (s.keeps_answer _ _ _ _ _ _ _ _).trans (State.keeps_dev _ _)

theorem State.keeps_relay (h : SilekHdr) (i : CmdInfo) (m : Nat) (s : State) : s.Keeps (s.relay h i m) := by
  unfold State.relay
  dsimp only
  repeat' split
  · exact s.keeps_finalReply _ _ _ _ _
  · exact s.keeps_finalReply _ _ _ _ _
  · exact s.keeps_dev _

/-! ### Outcomes -/

/-- The command answers a next state that keeps the queue and the invariant. -/
def State.Completes (s : State) (o : Host.Outcome State Fault Refusal) : Prop := ∃ t, o = .next t ∧ s.Keeps t

theorem State.Keeps.completes {s t : State} (h : s.Keeps t) : s.Completes (.next t) := ⟨t, rfl, h⟩
/-- Both branches complete. -/
theorem completes_ite {c : Prop} [Decidable c] {s : State} {a b : Host.Outcome State Fault Refusal} (ha : s.Completes a)
    (hb : s.Completes b) : s.Completes (if c then a else b) := by
  split
  · exact ha
  · exact hb
theorem onDev_completes (f : Nat → Dev → Dev) (s : State) : s.Completes (onDev f s) := ⟨_, rfl, s.keeps_dev _⟩
theorem settled_completes {s x : State} {o : Host.Outcome State Fault Refusal} (h : s.Completes o) : s.Completes (settled x o) := by
  obtain ⟨t, rfl, h⟩ := h
  exact ⟨_, rfl, h.trans ((t.keeps_dev _).trans (State.keeps_takeMail _))⟩
theorem onSettled_completes (f : Nat → Dev → Dev) (s : State) : s.Completes (onSettled f s) := settled_completes (onDev_completes f s)

/-- A body that keeps the queue and the invariant. -/
def BodyKeeps (body : State → State × Result) : Prop := ∀ s : State, s.Keeps (body s).1

theorem devBody_keeps (f : Nat → Dev → Dev × Result) : BodyKeeps (devBody f) := fun s => State.keeps_dev s _
theorem queryBody_keeps (f : State → Result) : BodyKeeps (queryBody f) := fun s => State.Keeps.refl s

theorem start_keeps {body : State → State × Result} (hb : BodyKeeps body) (h : SilekHdr) (i : CmdInfo) (m : Nat) (s : State) :
    s.Keeps (s.start h i m body) := by
  unfold State.start
  have hk := hb { s with dev := s.dev.mon s.time.now 0x39 0x901 0xffff 0 }
  dsimp only
  split <;> rename_i he <;> rw [he] at hk
  · exact hk.of_dev.trans (State.keeps_finalReply _ _ _ _ _ _)
  · exact hk.of_dev
  · exact hk.of_dev.trans (State.keeps_dev _ _)

/-- Whatever the responder decides on a Silek command, it answers a next state. -/
theorem runSilek_completes {body : State → State × Result} (hb : BodyKeeps body) (h : SilekHdr) (i : CmdInfo) (s : State) :
    s.Completes (runSilek h i body s) := by
  unfold runSilek
  have hn : s.Completes (.next s) := ⟨_, rfl, .refl s⟩
  have ha : ∀ r o g m c f st p, s.Completes (.next (s.answer r o g m c f st p)) := fun r o g m c f st p =>
    ⟨_, rfl, s.keeps_answer r o g m c f st p⟩
  have hf : ∀ m st p, s.Completes (.next (s.finalReply h i m st p)) := fun m st p => ⟨_, rfl, s.keeps_finalReply h i m st p⟩
  have hd : ∀ d, s.Completes (.next { s with dev := d }) := fun d => ⟨_, rfl, s.keeps_dev d⟩
  refine completes_ite hn (completes_ite hn ?_)
  cases s.dev.checkEpoch s.time.now h i.opcode with
  | silent => exact hn
  | stale =>
    cases h.requester with
    | member a => exact hd _
    | _ => exact hn
  | newer => exact hd _
  | fenced => exact ha _ _ _ _ _ _ _ _
  | accept =>
    refine completes_ite (ha _ _ _ _ _ _ _ _) (completes_ite (hf _ _ _) ?_)
    cases s.dev.lookupTag s.time.now h i with
    | repeatRunning => exact ha _ _ _ _ _ _ _ _
    | clash => exact ha _ _ _ _ _ _ _ _
    | cached c => exact ha _ _ _ _ _ _ _ _
    | none =>
      refine completes_ite (hf _ _ _) (completes_ite (hf _ _ _) (completes_ite (hf _ _ _) (completes_ite (hf _ _ _) ?_)))
      refine completes_ite (hf _ _ _) (completes_ite (hd _) (completes_ite ⟨_, rfl, s.keeps_relay _ _ _⟩ ?_))
      exact ⟨_, rfl, start_keeps hb _ _ _ s⟩

theorem runSettled_completes {body : State → State × Result} (hb : BodyKeeps body) (h : SilekHdr) (i : CmdInfo) (s : State) :
    s.Completes (runSettled h i body s) := settled_completes (runSilek_completes hb h i s)

/-! ### Register accesses -/

theorem State.keeps_clearOnRead (a : Nat) (l : Slot) (s : State) : s.Keeps (s.clearOnRead a l) := by
  unfold State.clearOnRead
  repeat' split
  · exact ⟨rfl, id⟩
  · exact s.keeps_dev _
  · exact s.keeps_dev _

theorem State.keeps_readCtl (path : AccessPath) (a m : Nat) (s : State) : s.Keeps (s.readCtl path a m).2 := by
  unfold State.readCtl
  refine State.Keeps.trans ?_ (State.keeps_dev _ _)
  refine State.Keeps.trans (t := match highOf (canonical a) with
    | some h => { s with dev := s.dev.setLatch path { s.dev.latch path with
        high := Tab.put (s.dev.latch path).high h (s.plainWord h) 0 } }
    | none => s) ?_ (State.keeps_foldl _ ?_ _ _)
  · split
    · exact s.keeps_dev _
    · exact .refl s
  · intro s x
    exact State.keeps_ite (s.keeps_clearOnRead _ _) (.refl s)

theorem State.keeps_readArray (path : AccessPath) (a : Nat) (s : State) : s.Keeps (s.readArray path a).2 := by
  unfold State.readArray
  repeat' split
  all_goals first | exact .refl s | exact s.keeps_dev _ | skip
  all_goals (dsimp only; repeat' split)
  all_goals first | exact .refl s | exact s.keeps_dev _

theorem State.keeps_readWord (path : AccessPath) (a m : Nat) (s : State) : s.Keeps (s.readWord path a m).2 := by
  unfold State.readWord
  repeat' split
  all_goals first | exact .refl s | exact s.keeps_readCtl _ _ _ | exact s.keeps_readArray _ _

theorem State.keeps_readAccess (path : AccessPath) (off size : Nat) (s : State) : s.Keeps (s.readAccess path off size).2 := by
  unfold State.readAccess
  split
  · exact s.keeps_dev _
  split
  · exact .refl s
  split
  · have h1 := s.keeps_readWord path off 15
    revert h1
    generalize s.readWord path off 15 = r
    obtain ⟨x, u⟩ := r
    intro h1
    have h2 := u.keeps_readWord path (off + 4) 15
    show s.Keeps (some (x + 2 ^ 32 * (u.readWord path (off + 4) 15).1), (u.readWord path (off + 4) 15).2).2
    exact h1.trans h2
  · exact s.keeps_readWord _ _ _

theorem State.keeps_keyWrite (v : Nat) (s : State) : s.Keeps (s.keyWrite v) := by
  unfold State.keyWrite
  dsimp only
  split
  · exact .refl s
  · rename_i hl
    split
    · exact State.keeps_guard s.dev (fun _ => ⟨fun x => absurd x hl, fun _ => by simp⟩)
    · refine State.keeps_guard _ (fun x => ?_)
      have h8 := x.2 (by simpa using hl)
      constructor
      · intro y
        simp only [decide_eq_true_eq] at y
        exact ⟨rfl, by show min 8 (s.guard.wrongRun + 1) = 8; omega⟩
      · intro y
        simp only [decide_eq_false_iff_not] at y
        show min 8 (s.guard.wrongRun + 1) < 8
        omega

theorem State.keeps_passGuard (path : AccessPath) (s : State) : s.Keeps (s.passGuard path).2 := by
  unfold State.passGuard
  repeat' split
  · exact .refl s
  · exact State.keeps_guard s.dev (fun x => ⟨fun y => ⟨rfl, (x.1 y).2⟩, x.2⟩)
  · exact s.keeps_dev _

theorem State.keeps_putField (a m v : Nat) (l : Slot) (s : State) : s.Keeps (s.putField a m v l) := by
  unfold State.putField
  dsimp only
  split <;> exact s.keeps_dev _

theorem State.keeps_clearBits (a b : Nat) (l : Slot) (s : State) : s.Keeps (s.clearBits a b l) := by
  unfold State.clearBits
  repeat' split
  · exact .refl s
  · exact ⟨rfl, id⟩
  · exact ⟨rfl, id⟩
  · exact s.keeps_dev _
  · exact s.keeps_dev _

theorem State.keeps_writeBuffer (mb o m v : Nat) (s : State) : s.Keeps (s.writeBuffer mb o m v) := by
  unfold State.writeBuffer
  split
  · exact s.keeps_dev _
  · refine State.keeps_mem s.dev (fun h => ?_)
    generalize List.range 4 = l
    revert h
    generalize s.mem = x
    intro h
    induction l generalizing x with
    | nil => exact h
    | cons y l ih =>
      refine ih _ ?_
      dsimp only
      split
      · exact Memory.wf_write h _ _
      · exact h

/-- A submission that keeps the queue and the invariant. -/
def RingKeeps (ring : Nat → State → State) : Prop := ∀ (n : Nat) (s : State), s.Keeps (ring n s)

theorem State.keeps_writeCtl {ring : Nat → State → State} (hr : RingKeeps ring) (path : AccessPath) (a m v : Nat) (s : State) :
    s.Keeps (s.writeCtl ring path a m v) := by
  unfold State.writeCtl
  refine State.keeps_ite (State.keeps_ite (s.keeps_keyWrite _) (.refl s)) ?_
  refine State.keeps_ite (State.keeps_ite ((s.keeps_passGuard _).trans (State.keeps_dev _ _)) (.refl s)) ?_
  refine State.keeps_ite (.refl s) ?_
  have hg : s.Keeps (if (wordSlots (canonical a)).any Slot.keyed = true then s.passGuard path else (true, s)).2 := by
    split
    · exact s.keeps_passGuard _
    · exact .refl s
  revert hg
  generalize (if (wordSlots (canonical a)).any Slot.keyed = true then s.passGuard path else (true, s)) = r
  obtain ⟨ok, u⟩ := r
  intro hg
  refine hg.trans (State.keeps_ite (.refl u) ?_)
  refine State.Keeps.trans ?_ (State.keeps_foldl _ ?_ _ _)
  · refine State.Keeps.trans ?_ (State.keeps_dev _ _)
    refine State.Keeps.trans ?_ (State.keeps_foldl _ (fun s l => s.keeps_clearBits _ _ l) _ _)
    exact State.Keeps.trans (State.keeps_foldl _ (fun s l => s.keeps_putField _ _ _ l) _ _)
      (State.keeps_ite (State.keeps_dev _ _) (.refl _))
  · intro s l
    refine State.keeps_ite (hr _ s) ?_
    split
    · exact hr _ s
    · exact s.keeps_dev _

theorem State.keeps_writeWord {ring : Nat → State → State} (hr : RingKeeps ring) (path : AccessPath) (a m v : Nat) (s : State) :
    s.Keeps (s.writeWord ring path a m v) := by
  unfold State.writeWord
  repeat' split
  all_goals first
    | exact .refl s | exact s.keeps_dev _ | exact s.keeps_writeBuffer _ _ _ _ | exact s.keeps_writeCtl hr _ _ _ _

theorem State.keeps_aliasPgConfig (path : AccessPath) (a b : Nat) (s : State) : s.Keeps (s.aliasPgConfig path a b) := by
  unfold State.aliasPgConfig
  refine State.Keeps.trans ?_ (State.keeps_dev _ _)
  split
  · exact State.keeps_ite (s.keeps_passGuard _) (.refl s)
  · exact .refl s

theorem State.keeps_aliasWrite {ring : Nat → State → State} (hr : RingKeeps ring) (path : AccessPath) (a b bit : Nat) (s : State) :
    s.Keeps (s.aliasWrite ring path a b bit) := by
  unfold State.aliasWrite
  refine State.keeps_ite (State.keeps_ite (s.keeps_aliasPgConfig _ _ _) (.refl s)) ?_
  split
  · exact .refl s
  rename_i l _
  refine State.keeps_ite (.refl s) ?_
  refine State.keeps_ite (.refl s) (State.keeps_ite ?_ ?_)
  · have hg : s.Keeps (if l.keyed = true then s.passGuard path else (true, s)).2 := by
      split
      · exact s.keeps_passGuard _
      · exact .refl s
    revert hg
    generalize (if l.keyed = true then s.passGuard path else (true, s)) = r
    obtain ⟨ok, u⟩ := r
    intro hg
    refine hg.trans (State.keeps_ite (.refl u) (State.keeps_ite (.refl u) (State.keeps_ite (State.keeps_ite (u.keeps_dev _) (.refl u)) ?_)))
    exact (u.keeps_putField _ _ _ _).trans (State.keeps_dev _ _)
  · refine State.keeps_ite (State.keeps_ite (s.keeps_clearBits _ _ _) (.refl s)) ?_
    exact State.keeps_ite (State.keeps_ite (hr _ s) (s.keeps_dev _)) (.refl s)

theorem State.keeps_writeAccess {ring : Nat → State → State} (hr : RingKeeps ring) (path : AccessPath) (off size v : Nat) (s : State) :
    s.Keeps (s.writeAccess ring path off size v) := by
  unfold State.writeAccess
  refine State.keeps_ite (s.keeps_dev _) (State.keeps_ite (s.keeps_aliasWrite hr _ _ _ _) (State.keeps_ite ?_ ?_))
  · exact (s.keeps_writeWord hr _ _ _ _).trans (State.keeps_writeWord hr _ _ _ _ _)
  · exact s.keeps_writeWord hr _ _ _ _

theorem readCmd_completes (path : AccessPath) (off size : Nat) (s : State) : s.Completes (readCmd path off size s) := by
  refine settled_completes (State.Keeps.completes ?_)
  unfold readRow
  have h := s.keeps_readAccess path off size
  split
  · exact .refl s
  · split <;> rename_i he <;> rw [he] at h <;> exact h.trans (State.keeps_dev _ _)

theorem writeCmd_completes (path : AccessPath) (off size v : Nat) (s : State) : s.Completes (writeCmd path off size v s) := by
  refine settled_completes (State.Keeps.completes ?_)
  unfold writeRow
  split
  · exact .refl s
  · exact s.keeps_writeAccess (fun _ s => .refl s) _ _ _ _

theorem State.keeps_ringMark : RingKeeps State.ringMark := by
  intro mb s
  unfold State.ringMark
  repeat' split
  · exact .refl s
  · exact s.keeps_dev _
  · exact s.keeps_dev _

end Sys2Proof.Machine
end

