-- ==== Sys2Proof/Laws/Forms.lean ====
section
/-! SUPPORT. Every Silek command is one run of the responder: its opcode, its minor version, its key and a body. -/
namespace Sys2Proof.Machine
open Sys2Proof

/-- The ways a command ends once the responder has run it. -/
def State.Ends (s : State) (o p : Host.Outcome State Fault Refusal) : Prop :=
  p = o ∨ p = settled s o ∨ p = thenRing 64 (settled s o)

/-- A Silek command is a run of the responder. -/
theorem exec_silek {c : Instr} {h : SilekHdr} (hc : c.header = some h) (s : State) :
    ∃ (may : Dev → Nat → Bool) (body : State → State × Result),
      s.Ends (runSilek h { CmdInfo.of c.opcode c.minMinor c.keyed with hostMay := may } body s) (exec c s) := by
  cases c with
  | silekVersion =>
    cases hc
    exact ⟨_, _, .inl rfl⟩
  | deviceInfo =>
    cases hc
    exact ⟨_, _, .inl rfl⟩
  | portStatusQuery =>
    cases hc
    exact ⟨_, _, .inl rfl⟩
  | commandSupport =>
    cases hc
    exact ⟨_, _, .inl rfl⟩
  | eventRead =>
    cases hc
    exact ⟨_, _, .inl rfl⟩
  | eventSubscribe =>
    cases hc
    exact ⟨_, _, .inl rfl⟩
  | eventNotify =>
    cases hc
    exact ⟨_, _, .inl rfl⟩
  | capacityAdd =>
    cases hc
    exact ⟨_, _, .inr (.inl rfl)⟩
  | capacityRemove =>
    cases hc
    exact ⟨_, _, .inr (.inl rfl)⟩
  | deviceCapacityQuery =>
    cases hc
    exact ⟨_, _, .inl rfl⟩
  | windowConfig =>
    cases hc
    exact ⟨_, _, .inr (.inl rfl)⟩
  | windowQuery =>
    cases hc
    exact ⟨_, _, .inl rfl⟩
  | extentBind =>
    cases hc
    exact ⟨_, _, .inr (.inl rfl)⟩
  | extentUnbind =>
    cases hc
    exact ⟨_, _, .inr (.inl rfl)⟩
  | extentMigrate =>
    cases hc
    exact ⟨_, _, .inr (.inl rfl)⟩
  | extentMigrateAbort =>
    cases hc
    exact ⟨_, _, .inr (.inl rfl)⟩
  | extentZero =>
    cases hc
    exact ⟨_, _, .inr (.inl rfl)⟩
  | extentQuery =>
    cases hc
    exact ⟨_, _, .inl rfl⟩
  | slotQuery =>
    cases hc
    exact ⟨_, _, .inl rfl⟩
  | instanceConfig =>
    cases hc
    exact ⟨_, _, .inr (.inl rfl)⟩
  | instanceQuery =>
    cases hc
    exact ⟨_, _, .inl rfl⟩
  | instanceQuiesce =>
    cases hc
    exact ⟨_, _, .inr (.inl rfl)⟩
  | instanceResume =>
    cases hc
    exact ⟨_, _, .inr (.inl rfl)⟩
  | instanceReset =>
    cases hc
    exact ⟨_, _, .inr (.inl rfl)⟩
  | qosSet =>
    cases hc
    exact ⟨_, _, .inr (.inl rfl)⟩
  | qosQuery =>
    cases hc
    exact ⟨_, _, .inl rfl⟩
  | queueAssign =>
    cases hc
    exact ⟨_, _, .inr (.inl rfl)⟩
  | queueSetup =>
    cases hc
    exact ⟨_, _, .inr (.inl rfl)⟩
  | queueDisable =>
    cases hc
    exact ⟨_, _, .inr (.inl rfl)⟩
  | queueReset =>
    cases hc
    exact ⟨_, _, .inr (.inl rfl)⟩
  | queueQuery =>
    cases hc
    exact ⟨_, _, .inl rfl⟩
  | ladleSubmit =>
    cases hc
    exact ⟨_, _, .inr (.inl rfl)⟩
  | gateWrite =>
    cases hc
    exact ⟨_, _, .inr (.inl rfl)⟩
  | gateCommit =>
    cases hc
    exact ⟨_, _, .inr (.inl rfl)⟩
  | gateRead =>
    cases hc
    exact ⟨_, _, .inl rfl⟩
  | gateDiscard =>
    cases hc
    exact ⟨_, _, .inr (.inl rfl)⟩
  | sharerSlotSet =>
    cases hc
    exact ⟨_, _, .inr (.inl rfl)⟩
  | sharerSlotQuery =>
    cases hc
    exact ⟨_, _, .inl rfl⟩
  | membershipSet =>
    cases hc
    exact ⟨_, _, .inr (.inl rfl)⟩
  | membershipQuery =>
    cases hc
    exact ⟨_, _, .inl rfl⟩
  | memberJoin =>
    cases hc
    exact ⟨_, _, .inr (.inl rfl)⟩
  | memberRejoin =>
    cases hc
    exact ⟨_, _, .inr (.inl rfl)⟩
  | memberDeclareDead =>
    cases hc
    exact ⟨_, _, .inr (.inl rfl)⟩
  | epochAdvance =>
    cases hc
    exact ⟨_, _, .inr (.inl rfl)⟩
  | pairHeadSet =>
    cases hc
    exact ⟨_, _, .inr (.inl rfl)⟩
  | mirrorResync =>
    cases hc
    exact ⟨_, _, .inr (.inl rfl)⟩
  | replicaSet =>
    cases hc
    exact ⟨_, _, .inr (.inl rfl)⟩
  | slotPowerOn =>
    cases hc
    exact ⟨_, _, .inl rfl⟩
  | slotPowerOff =>
    cases hc
    exact ⟨_, _, .inr (.inl rfl)⟩
  | slotPowerConfig =>
    cases hc
    exact ⟨_, _, .inl rfl⟩
  | slotPowerQuery =>
    cases hc
    exact ⟨_, _, .inl rfl⟩
  | fwUpdateStart =>
    cases hc
    exact ⟨_, _, .inl rfl⟩
  | fwUpdateData =>
    cases hc
    exact ⟨_, _, .inl rfl⟩
  | fwUpdateVerify =>
    cases hc
    exact ⟨_, _, .inl rfl⟩
  | fwActivate =>
    cases hc
    exact ⟨_, _, .inl rfl⟩
  | fwQuery =>
    cases hc
    exact ⟨_, _, .inl rfl⟩
  | selfTest =>
    cases hc
    exact ⟨_, _, .inl rfl⟩
  | zeroize =>
    cases hc
    exact ⟨_, _, .inl rfl⟩
  | securityStatus =>
    cases hc
    exact ⟨_, _, .inl rfl⟩
  | regRead =>
    cases hc
    exact ⟨_, _, .inr (.inl rfl)⟩
  | regWrite =>
    cases hc
    exact ⟨_, _, .inr (.inr rfl)⟩
  | rennetSet =>
    cases hc
    exact ⟨_, _, .inr (.inl rfl)⟩
  | rennetClear =>
    cases hc
    exact ⟨_, _, .inl rfl⟩
  | rennetQuery =>
    cases hc
    exact ⟨_, _, .inl rfl⟩
  | dirRead =>
    cases hc
    exact ⟨_, _, .inl rfl⟩
  | monitorConfig =>
    cases hc
    exact ⟨_, _, .inl rfl⟩
  | monitorRead =>
    cases hc
    exact ⟨_, _, .inl rfl⟩
  | skimmerConfig =>
    cases hc
    exact ⟨_, _, .inl rfl⟩
  | skimmerStop =>
    cases hc
    exact ⟨_, _, .inl rfl⟩
  | herdbookRead =>
    cases hc
    exact ⟨_, _, .inl rfl⟩
  | errorLogRead =>
    cases hc
    exact ⟨_, _, .inl rfl⟩
  | errorLogClear =>
    cases hc
    exact ⟨_, _, .inl rfl⟩
  | modeSet =>
    cases hc
    exact ⟨_, _, .inr (.inl rfl)⟩
  | modeQuery =>
    cases hc
    exact ⟨_, _, .inl rfl⟩
  | portConfig =>
    cases hc
    exact ⟨_, _, .inr (.inl rfl)⟩
  | portControl =>
    cases hc
    exact ⟨_, _, .inr (.inl rfl)⟩
  | barrierCmd =>
    cases hc
    exact ⟨_, _, .inl rfl⟩
  | warmReset =>
    cases hc
    exact ⟨_, _, .inl rfl⟩
  | configSave =>
    cases hc
    exact ⟨_, _, .inl rfl⟩
  | _ => cases hc

/-- A command whose run leaves a calm device and no doorbell ends as its run does. -/
theorem State.Ends.next {s t : State} {o p : Host.Outcome State Fault Refusal} (h : s.Ends o p) (ho : o = .next t)
    (hc : t.dev.calm = true) (hd : t.dev.flag (Mbx.DOORBELL 64) = false) : p = .next t := by
  have hs : settled s o = .next t := by
    rw [ho]
    exact congrArg Host.Outcome.next (State.settledFrom_calm (x := s) hc)
  rcases h with rfl | rfl | rfl
  · exact ho
  · exact hs
  · rw [hs]
    have hf : t.dev.ringFree 64 = false := by simp [Dev.ringFree, hd]
    simp [thenRing, hf]

end Sys2Proof.Machine
end

