-- ==== Sys2Proof/Laws/Runs.lean ====
section
/-! SUPPORT. Every way to start a Silek command from bytes or from the FM API ends in a next state that keeps the queue and the
invariant. -/
namespace Sys2Proof.Machine
open Sys2Proof

/-! ### Meanings whose bodies act on more than the device -/

theorem pairBody_keeps (h : SilekHdr) (pair : Nat) (f : Nat → Nat → Dev → Dev × Result) : BodyKeeps (pairBody h pair f) := by
  intro s
  unfold pairBody
  exact s.keeps_dev _

theorem execQueueSetup_completes (h : SilekHdr) (a b c d e : Nat) (f : Bool) (s : State) : s.Completes (execQueueSetup h a b c d e f s) :=
  runSettled_completes (pairBody_keeps _ _ _) _ _ _
theorem execQueueDisable_completes (h : SilekHdr) (a : Nat) (s : State) : s.Completes (execQueueDisable h a s) :=
  runSettled_completes (pairBody_keeps _ _ _) _ _ _
theorem execQueueReset_completes (h : SilekHdr) (a : Nat) (s : State) : s.Completes (execQueueReset h a s) :=
  runSettled_completes (pairBody_keeps _ _ _) _ _ _
theorem execQueueQuery_completes (h : SilekHdr) (a : Nat) (s : State) : s.Completes (execQueueQuery h a s) :=
  runSilek_completes (pairBody_keeps _ _ _) _ _ _

theorem regWrite_completes (h : SilekHdr) (off value : Nat) (s : State) : s.Completes (regWrite h off value s) := by
  refine runSettled_completes (fun s => ?_) _ _ _
  split
  · exact .refl s
  · exact s.keeps_writeAccess State.keeps_ringMark _ _ _ _

theorem State.keeps_regWords (n off : Nat) (s : State) : s.Keeps (State.regWords n off s).2 := by
  induction n generalizing off s with
  | zero => exact .refl s
  | succ n ih => exact (s.keeps_readAccess _ _ _).trans (ih _ _)

theorem execRegRead_completes (h : SilekHdr) (off count : Nat) (s : State) : s.Completes (execRegRead h off count s) := by
  refine runSettled_completes (fun s => ?_) _ _ _
  dsimp only
  split
  · exact .refl s
  · exact s.keeps_regWords _ _

/-- The guard locks again. -/
theorem State.keeps_locked (s : State) (d : Dev) : s.Keeps { s with dev := d, guard := { s.guard with unlocked := false } } :=
  State.keeps_guard d (fun x => ⟨fun y => ⟨rfl, (x.1 y).2⟩, x.2⟩)

theorem execRennetSet_completes (h : SilekHdr) (a b c : Nat) (s : State) : s.Completes (execRennetSet h a b c s) := by
  refine runSettled_completes (fun s => ?_) _ _ _
  dsimp only
  repeat' split
  · exact .refl s
  · exact .refl s
  · exact .refl s
  · exact s.keeps_locked _

/-- OM0 holds the reset values of the guard and the mailboxes. -/
theorem State.keeps_om0 (s : State) (d : Dev) : s.Keeps { pending := s.pending, dev := d } := ⟨rfl, fun _ => ⟨rfl, by simp [State.GuardOk]⟩⟩

theorem State.keeps_zeroise (n : Nat) (s : State) : s.Keeps (s.zeroise n) := s.keeps_om0 _

theorem execZeroize_completes (h : SilekHdr) (word : Nat) (s : State) : s.Completes (execZeroize h word s) := by
  refine runSilek_completes (fun s => ?_) _ _ _
  dsimp only
  repeat' split
  · exact s.keeps_dev _
  · exact .refl s
  · exact (s.keeps_answer _ _ _ _ _ _ _ _).trans (State.keeps_zeroise _ _)
  · exact s.keeps_zeroise _

/-! ### Opcodes -/

/-- Every meaning of a fixed size completes. -/
def ByArgs.Completes (k : ByArgs) : Prop := ∀ (h : SilekHdr) (a : Nat → Nat) (s : State), s.Completes (k h a s)

theorem fixedLow_completes {op : Nat} {ks : List Nat} {k : ByArgs} (h : fixedLow op = some (ks, k)) : k.Completes := by
  unfold fixedLow at h
  split at h
  · cases h; intro h a s; unfold plainArgs execSilekVersion; exact runSilek_completes (queryBody_keeps _) _ _ _
  · cases h; intro h a s; unfold plainArgs execDeviceInfo; exact runSilek_completes (queryBody_keeps _) _ _ _
  · cases h; intro h a s; dsimp only; unfold execPortStatusQuery; exact runSilek_completes (queryBody_keeps _) _ _ _
  · cases h; intro h a s; dsimp only; unfold execCommandSupport; exact runSilek_completes (queryBody_keeps _) _ _ _
  · cases h; intro h a s; dsimp only; unfold execEventRead; exact runSilek_completes (devBody_keeps _) _ _ _
  · cases h; intro h a s; dsimp only; unfold execEventSubscribe; exact runSilek_completes (devBody_keeps _) _ _ _
  · cases h; intro h a s; dsimp only; unfold execCapacityAdd; exact runSettled_completes (devBody_keeps _) _ _ _
  · cases h; intro h a s; dsimp only; unfold execCapacityRemove; exact runSettled_completes (devBody_keeps _) _ _ _
  · cases h; intro h a s; dsimp only; unfold execDeviceCapacityQuery; exact runSilek_completes (queryBody_keeps _) _ _ _
  · cases h; intro h a s; dsimp only; unfold execWindowConfig; exact runSettled_completes (devBody_keeps _) _ _ _
  · cases h; intro h a s; dsimp only; unfold execWindowQuery; exact runSilek_completes (queryBody_keeps _) _ _ _
  · cases h; intro h a s; dsimp only; unfold execExtentUnbind; exact runSettled_completes (devBody_keeps _) _ _ _
  · cases h; intro h a s; dsimp only; unfold execExtentMigrate; exact runSettled_completes (devBody_keeps _) _ _ _
  · cases h; intro h a s; dsimp only; unfold execExtentMigrateAbort; exact runSettled_completes (devBody_keeps _) _ _ _
  · cases h; intro h a s; dsimp only; unfold execExtentZero; exact runSettled_completes (devBody_keeps _) _ _ _
  · cases h; intro h a s; dsimp only; unfold execExtentQuery; exact runSilek_completes (queryBody_keeps _) _ _ _
  · cases h; intro h a s; dsimp only; unfold execSlotQuery; exact runSilek_completes (queryBody_keeps _) _ _ _
  · cases h; intro h a s; dsimp only; unfold execInstanceConfig; exact runSettled_completes (devBody_keeps _) _ _ _
  · cases h; intro h a s; dsimp only; unfold execInstanceQuery; exact runSilek_completes (queryBody_keeps _) _ _ _
  · cases h; intro h a s; dsimp only; unfold execInstanceQuiesce; exact runSettled_completes (devBody_keeps _) _ _ _
  · cases h; intro h a s; dsimp only; unfold execInstanceResume; exact runSettled_completes (devBody_keeps _) _ _ _
  · cases h; intro h a s; dsimp only; unfold execInstanceReset; exact runSettled_completes (devBody_keeps _) _ _ _
  · cases h; intro h a s; dsimp only; unfold execQosSet; exact runSettled_completes (devBody_keeps _) _ _ _
  · cases h; intro h a s; dsimp only; unfold execQosQuery; exact runSilek_completes (queryBody_keeps _) _ _ _
  · cases h; intro h a s; dsimp only; unfold execQueueAssign; exact runSettled_completes (devBody_keeps _) _ _ _
  · cases h; intro h a s; exact execQueueSetup_completes _ _ _ _ _ _ _ _
  · cases h; intro h a s; exact execQueueDisable_completes _ _ _
  · cases h; intro h a s; exact execQueueReset_completes _ _ _
  · cases h; intro h a s; exact execQueueQuery_completes _ _ _
  · cases h; intro h a s; dsimp only; unfold execGateCommit; exact runSettled_completes (devBody_keeps _) _ _ _
  · cases h; intro h a s; dsimp only; unfold execGateRead; exact runSilek_completes (queryBody_keeps _) _ _ _
  · cases h; intro h a s; dsimp only; unfold execGateDiscard; exact runSettled_completes (devBody_keeps _) _ _ _
  · cases h; intro h a s; dsimp only; unfold execMembershipSet; exact runSettled_completes (devBody_keeps _) _ _ _
  · cases h; intro h a s; unfold plainArgs execMembershipQuery; exact runSilek_completes (queryBody_keeps _) _ _ _
  · cases h; intro h a s; dsimp only; unfold execMemberJoin; exact runSettled_completes (devBody_keeps _) _ _ _
  · cases h; intro h a s; dsimp only; unfold execMemberRejoin; exact runSettled_completes (devBody_keeps _) _ _ _
  · cases h; intro h a s; dsimp only; unfold execMemberDeclareDead; exact runSettled_completes (devBody_keeps _) _ _ _
  · cases h; intro h a s; dsimp only; unfold execEpochAdvance; exact runSettled_completes (devBody_keeps _) _ _ _
  · cases h; intro h a s; dsimp only; unfold execPairHeadSet; exact runSettled_completes (devBody_keeps _) _ _ _
  · cases h; intro h a s; unfold plainArgs execMirrorResync; exact runSettled_completes (devBody_keeps _) _ _ _
  · cases h; intro h a s; dsimp only; unfold execReplicaSet; exact runSettled_completes (devBody_keeps _) _ _ _
  · cases h; intro h a s; dsimp only; unfold execSharerSlotSet; exact runSettled_completes (devBody_keeps _) _ _ _
  · cases h; intro h a s; unfold plainArgs execSharerSlotQuery; exact runSilek_completes (queryBody_keeps _) _ _ _
  · cases h

theorem fixedHigh_completes {op : Nat} {ks : List Nat} {k : ByArgs} (h : fixedHigh op = some (ks, k)) : k.Completes := by
  unfold fixedHigh at h
  split at h
  · cases h; intro h a s; dsimp only; unfold execSlotPowerOn; exact runSilek_completes (devBody_keeps _) _ _ _
  · cases h; intro h a s; dsimp only; unfold execSlotPowerOff; exact runSettled_completes (devBody_keeps _) _ _ _
  · cases h; intro h a s; dsimp only; unfold execSlotPowerConfig; exact runSilek_completes (devBody_keeps _) _ _ _
  · cases h; intro h a s; dsimp only; unfold execSlotPowerQuery; exact runSilek_completes (devBody_keeps _) _ _ _
  · cases h; intro h a s; dsimp only; unfold execFwUpdateStart; exact runSilek_completes (devBody_keeps _) _ _ _
  · cases h; intro h a s; dsimp only; unfold execFwUpdateVerify; exact runSilek_completes (devBody_keeps _) _ _ _
  · cases h; intro h a s; dsimp only; unfold execFwActivate; exact runSilek_completes (devBody_keeps _) _ _ _
  · cases h; intro h a s; unfold plainArgs execFwQuery; exact runSilek_completes (queryBody_keeps _) _ _ _
  · cases h; intro h a s; unfold plainArgs execSelfTest; exact runSilek_completes (devBody_keeps _) _ _ _
  · cases h; intro h a s; exact execZeroize_completes _ _ _
  · cases h; intro h a s; unfold plainArgs execSecurityStatus; exact runSilek_completes (queryBody_keeps _) _ _ _
  · cases h; intro h a s; exact execRegRead_completes _ _ _ _
  · cases h; intro h a s; exact regWrite_completes _ _ _ _
  · cases h; intro h a s; exact execRennetSet_completes _ _ _ _ _
  · cases h; intro h a s; unfold plainArgs execRennetClear; exact runSilek_completes (devBody_keeps _) _ _ _
  · cases h; intro h a s; unfold plainArgs execRennetQuery; exact runSilek_completes (queryBody_keeps _) _ _ _
  · cases h; intro h a s; dsimp only; unfold execDirRead; exact runSilek_completes (queryBody_keeps _) _ _ _
  · cases h; intro h a s; dsimp only; unfold execMonitorConfig; exact runSilek_completes (devBody_keeps _) _ _ _
  · cases h; intro h a s; dsimp only; unfold execMonitorRead; exact runSilek_completes (queryBody_keeps _) _ _ _
  · cases h; intro h a s; dsimp only; unfold execSkimmerConfig; exact runSilek_completes (devBody_keeps _) _ _ _
  · cases h; intro h a s; unfold plainArgs execSkimmerStop; exact runSilek_completes (devBody_keeps _) _ _ _
  · cases h; intro h a s; dsimp only; unfold execHerdbookRead; exact runSilek_completes (queryBody_keeps _) _ _ _
  · cases h; intro h a s; dsimp only; unfold execErrorLogRead; exact runSilek_completes (devBody_keeps _) _ _ _
  · cases h; intro h a s; dsimp only; unfold execErrorLogClear; exact runSilek_completes (devBody_keeps _) _ _ _
  · cases h; intro h a s; dsimp only; unfold execModeSet; exact runSettled_completes (devBody_keeps _) _ _ _
  · cases h; intro h a s; unfold plainArgs execModeQuery; exact runSilek_completes (queryBody_keeps _) _ _ _
  · cases h; intro h a s; dsimp only; unfold execPortControl; exact runSettled_completes (devBody_keeps _) _ _ _
  · cases h; intro h a s; dsimp only; unfold execBarrierCmd; exact runSilek_completes (devBody_keeps _) _ _ _
  · cases h; intro h a s; dsimp only; unfold execWarmReset; exact runSilek_completes (devBody_keeps _) _ _ _
  · cases h; intro h a s; dsimp only; unfold execConfigSave; exact runSilek_completes (devBody_keeps _) _ _ _
  · cases h

theorem runSized_completes {h : SilekHdr} {op : Nat} {s : State} {o : Host.Outcome State Fault Refusal}
    (ho : runSized h op s = some o) : s.Completes o := by
  unfold runSized at ho
  dsimp only at ho
  split at ho
  · cases ho; unfold execEventNotify; exact runSilek_completes (devBody_keeps _) _ _ _
  · cases ho; unfold execExtentBind; exact runSettled_completes (devBody_keeps _) _ _ _
  · cases ho; unfold execLadleSubmit; exact runSettled_completes (devBody_keeps _) _ _ _
  · cases ho; unfold execGateWrite; exact runSettled_completes (devBody_keeps _) _ _ _
  · cases ho; unfold execFwUpdateData; exact runSilek_completes (devBody_keeps _) _ _ _
  · cases ho; unfold execPortConfig; exact runSettled_completes (devBody_keeps _) _ _ _
  · cases ho

theorem runOpcode_completes (h : SilekHdr) (op : Nat) (s : State) : s.Completes (runOpcode h op s) := by
  unfold runOpcode
  split
  · exact runSized_completes (by assumption)
  split
  · rename_i ks k he
    unfold runFixed
    dsimp only
    rcases hl : fixedLow op with _ | x
    · rw [hl] at he
      exact fixedHigh_completes he _ _ s
    · rw [hl] at he
      cases he
      exact fixedLow_completes hl _ _ s
  · exact runSilek_completes (queryBody_keeps _) _ _ _

/-! ### Mailboxes and messages -/

theorem State.submit_completes (mb : Nat) (s : State) : s.Completes (s.submit mb) := by
  unfold State.submit
  dsimp only
  obtain ⟨t, ht, hk⟩ := runOpcode_completes _ _ { s with dev := (s.dev.wrFlag (Mbx.DOORBELL mb) false).raise1 (Mbx.BUSY mb) }
  exact ⟨t, ht, hk.of_dev⟩

theorem thenRing_completes {s : State} {o : Host.Outcome State Fault Refusal} (mb : Nat) (h : s.Completes o) :
    s.Completes (thenRing mb o) := by
  obtain ⟨t, rfl, h⟩ := h
  unfold thenRing
  dsimp only
  refine completes_ite ?_ ⟨_, rfl, h⟩
  obtain ⟨u, hu, hk⟩ := t.submit_completes mb
  exact ⟨u, hu, h.trans hk⟩

theorem State.writePath_completes (path : AccessPath) (off size v : Nat) (s : State) : s.Completes (s.writePath path off size v) := by
  unfold State.writePath
  exact completes_ite ⟨_, rfl, .refl s⟩
    (thenRing_completes _ (settled_completes (s.keeps_writeAccess State.keeps_ringMark _ _ _ _).completes))

theorem execInterimReply_completes (r : Requester) (tag : Nat) (s : State) : s.Completes (execInterimReply r tag s) := by
  unfold execInterimReply
  dsimp only
  have hn : s.Completes (.next s) := ⟨_, rfl, .refl s⟩
  have ha : ∀ d r o g m c f st p, s.Completes (.next (State.answer r o g m c f st p { s with dev := d })) :=
    fun d r o g m c f st p => ⟨_, rfl, (s.keeps_dev d).trans (State.keeps_answer r o g m c f st p _)⟩
  repeat' split
  all_goals first | exact hn | exact ha _ _ _ _ _ _ _ _ _ | exact ⟨_, rfl, s.keeps_takeMail⟩

theorem State.keeps_relayReply (r : Relay) (interim : Bool) (st : Status) (p : List Byte) (s : State) :
    s.Keeps (s.relayReply r interim st p) := by
  unfold State.relayReply
  split
  · obtain ⟨t, ht, hk⟩ := execInterimReply_completes r.req r.tag s
    rw [ht]
    exact hk
  · exact s.keeps_dev _

theorem State.keeps_replyIn (src : Nat) (bs : List Byte) (s : State) : s.Keeps (s.replyIn src bs) := by
  unfold State.replyIn
  dsimp only
  generalize (if 256 ≤ src then (s.dev, true) else s.dev.replyEpoch s.time.now src (byteField bs 12 4)) = r
  obtain ⟨d, ok⟩ := r
  dsimp only
  refine State.keeps_ite (s.keeps_dev _) ?_
  repeat' split
  · exact s.keeps_dev _
  · exact (State.keeps_relayReply _ _ _ _ { s with dev := d }).of_dev
  · exact s.keeps_dev _

theorem State.message_completes (r : Requester) (src : Nat) (secured broadcast : Bool) (bs : List Byte) (s : State) :
    s.Completes (s.message r src secured broadcast bs) := by
  unfold State.message
  exact completes_ite ⟨_, rfl, .refl s⟩ (completes_ite (settled_completes (s.keeps_replyIn _ _).completes)
    (thenRing_completes _ (runOpcode_completes _ _ s)))

/-- From a state that was kept. -/
theorem State.Keeps.completesFrom {s t : State} {o : Host.Outcome State Fault Refusal} (h : s.Keeps t) (k : t.Completes o) :
    s.Completes o := by
  obtain ⟨u, hu, hk⟩ := k
  exact ⟨u, hu, h.trans hk⟩

/-- From another device. -/
theorem State.Completes.of_dev {s : State} {d : Dev} {o : Host.Outcome State Fault Refusal} (h : State.Completes { s with dev := d } o) :
    s.Completes o := by
  obtain ⟨t, ht, hk⟩ := h
  exact ⟨t, ht, hk.of_dev⟩

theorem State.segment_completes (src tag index last : Nat) (reply vc5 broadcast full : Bool) (bs : List Byte) (s : State) :
    s.Completes (s.segment src tag index last reply vc5 broadcast full bs) := by
  unfold State.segment
  generalize takeSegment s.dev.silek.partials src tag reply vc5 index last full bs = r
  obtain ⟨ps, n, m⟩ := r
  dsimp only
  split
  · exact ⟨_, rfl, s.keeps_dev _⟩
  · exact (State.message_completes _ _ _ _ _ _).of_dev

/-- A segment that fits its carrier. -/
theorem execSilekSegment_completes {via : SegPath} {index last : Nat} {bs : List Byte} (tag : Nat) (reply : Bool) (s : State)
    (hf : segmentFits via index last bs = true) : s.Completes (execSilekSegment via tag index last reply bs s) := by
  have hn : s.Completes (.next s) := ⟨_, rfl, .refl s⟩
  unfold execSilekSegment
  rw [if_neg (by simp [hf])]
  refine completes_ite hn ?_
  split
  · unfold State.chainFrame
    dsimp only
    exact completes_ite (State.segment_completes _ _ _ _ _ _ _ _ _ _).of_dev ⟨_, rfl, s.keeps_dev _⟩
  · unfold State.vc5Frame
    dsimp only
    refine completes_ite ⟨_, rfl, s.keeps_dev _⟩ ?_
    generalize (if reply = true then _ else _ : Dev × Bool) = r
    obtain ⟨d, ok⟩ := r
    dsimp only
    exact completes_ite ⟨_, rfl, s.keeps_dev _⟩ (State.segment_completes _ _ _ _ _ _ _ _ _ _).of_dev
  · unfold State.mctpBody
    exact completes_ite hn (s.message_completes _ _ _ _ _)

/-! ### The FM API -/

theorem fmRun_completes (eid op tag : Nat) {k : SilekHdr → State → Host.Outcome State Fault Refusal}
    (hk : ∀ (h : SilekHdr) (s : State), s.Completes (k h s)) (s : State) : s.Completes (s.fmRun eid op tag k) := by
  unfold State.fmRun
  refine completes_ite ⟨_, rfl, .refl s⟩ ?_
  obtain ⟨t, ht, h⟩ := hk (fmHeader eid s.fmTag) s.fmStart
  dsimp only
  rw [ht]
  dsimp only
  have h1 : s.Keeps t := h.of_dev
  split
  · exact ⟨_, rfl, h1.trans (State.keeps_dev _ _)⟩
  · exact completes_ite ⟨_, rfl, s.keeps_dev _⟩ ⟨_, rfl, h1.trans (State.keeps_dev _ _)⟩

theorem fmInvalid_completes (op tag : Nat) (s : State) : s.Completes (s.fmInvalid op tag) := by
  unfold State.fmInvalid
  split
  · exact ⟨_, rfl, .refl s⟩
  · exact ⟨_, rfl, s.keeps_dev _⟩

end Sys2Proof.Machine
end

