-- ==== Sys2Proof/Tests/Slice0.lean ====
section
/-! SUPPORT. The model's own tests: terms that well-formedness refuses, worked examples of the spec, and for every statement with
hypotheses a state and operands that meet them. -/
namespace Sys2Proof.Tests
open Sys2Proof Sys2Proof.Machine
set_option maxRecDepth 20000

/-- A header of a fabric manager on MCTP. -/
def hw : SilekHdr := { requester := .fm 1 }
/-- The state after reset with another device. -/
def wd (d : Dev) : State := State.reset.withDev d
/-- The device after reset, in a mode. -/
def dm (m : Nat) : Dev := ({} : Dev).wr Glob.CURRENT_MODE m
/-- The state after reset, in OM4. -/
def w4 : State := wd (dm 4)
/-- A header of the acting primary. -/
def hp : SilekHdr := { requester := .member 1, epoch := 0 }
/-- An acting primary in OM8 at address 1. -/
def w8 : State := wd ((((dm 8).wr Glob.CHAIN_ADDRESS 1).wr Memb.PRIMARY_ADDR 1).wr Memb.ALIVE 1)
/-- A chain broadcast as it arrives intact; one with a wrong CRC; one of a TYPE that no row lists. -/
def rxOf (src epoch : Nat) (b : ChainBody) : ChainRx :=
  let l : ChainLine := { type := BitVec.ofNat 8 b.type, bcast := true, crc := 0 }
  { line := { l with crc := (chainFrameOf l 0 src epoch b).crc b.type }, src, epoch }
def rxBad (src : Nat) (b : ChainBody) : ChainRx :=
  let x := rxOf src 0 b
  { x with line := { x.line with crc := x.line.crc ^^^ 1 } }
def rxOdd (src : Nat) (b : ChainBody) : ChainRx :=
  let l : ChainLine := { type := 9, bcast := true, crc := 0 }
  { line := { l with crc := (chainFrameOf l 0 src 0 b).crc 9 }, src, epoch := 0 }
/-- A CRC with its last bit turned over is another. -/
theorem flip_ne (x : BitVec 32) : x ^^^ 1 ≠ x := fun h => absurd (congrArg (fun y => BitVec.getLsbD y 0) h) (by simp)
/-- A FENCED frame and a SILEK segment to one address. -/
def fencedTo (dst src epoch : Nat) : ChainLine :=
  let l : ChainLine := { type := 6, crc := 0 }
  { l with crc := (chainFrameOf l dst src epoch (.fenced epoch)).crc 6 }
def segLine (src dst index last : Nat) (bytes : List Byte) : ChainLine :=
  let l : ChainLine := { type := 5, crc := 0 }
  { l with crc := (chainFrameOf l dst src 0 (.silek (chainSegment index last 1 false bytes))).crc 5 }
/-- A device with an MCTP subscriber and one record. -/
def wEv : State := wd { dm 4 with events := { cls := 1, eid := 9, queue := [{ code := 1, source := 0, seq := 1, time := 0, epoch := 0, data := 0 }] } }
/-- A device in OM4 with a device port 4 whose link is up, one logical device of four units. -/
def dDev : Dev := ((((dm 4).wr (Pg.PERSONALITY 1) 2).wr (Pg.BIFURCATION 1) 0).wr (Pg.DL_UP 4) 1).setPort 4 { capacity := [4] }
def wDev : State := wd dDev
/-- Instance 0 at host port 0, whose link is up, CXL 3.x, ACTIVE, with window 255 of 64 slots from slot 7. -/
def dWin : Dev :=
  ((((((dDev.wr (Pg.PERSONALITY 0) 1).wr (Pg.BIFURCATION 0) 0).wr (Pg.DL_UP 0) 1).wr (Pg.CXL_GEN 0) 3).wr (Vi.STATE 0) 1).setInst 0 { portA := some 0 }).setWin
    255 { enabled := true, slotBase := 7, slotCount := 64 }
def wWin : State := wd (dWin.wr Glob.CHAIN_ADDRESS 1)
/-- Extent 0 is free. -/
def wBind : State := wd ((dWin.wr Glob.CHAIN_ADDRESS 1).setExt 0 { state := 1, port := 4 })
/-- Extent 0 is bound at slot 7. -/
def wBound : State := wd (((dWin.wr Glob.CHAIN_ADDRESS 1).setExt 0 { state := 3, port := 4, bindCount := 1 }).setSlot 7 { valid := true, chain := 1 })
/-- Extent 0 is bound, extent 1 free, extent 262143 unclean; pair 8191 is an ENABLED fabric-manager pair. -/
def dMig : Dev :=
  (((dDev.setExt 0 { state := 3, port := 4, bindCount := 1 }).setExt 262143 { state := 2, port := 4, dpaUnit := 1 })).setPair 8191 { state := 2, fm := true }
def wMig : State := wd dMig
/-- Extent 0 migrates to extent 1 as migration 3. -/
def wMigrating : State := wd { dMig with binder := { migrations := [(3, { source := 0, dest := 1 })] } }
/-- Host port 0 in OM4. -/
def wHost : State := wd (((dm 4).wr (Pg.PERSONALITY 0) 1).wr (Pg.BIFURCATION 0) 0)
/-- Instance 63 in a state. -/
def dVi (n : Nat) (x : Inst) : Dev := ((dm 4).wr (Vi.STATE 63) n).setInst 63 x
def wActive : State := wd (dVi 1 { trackerMax := 480 })
def wQuiesced : State := wd (dVi 3 {})
def wQuiescing : State := wd { dVi 2 {} with buf := { barriers := [{ scope := 4, id := 63, left := [], covered := 0 }] } }
def wResetting : State := wd (dVi 4 { resetKind := 1 })
def wType2 : State := wd (dDev.setInst 63 { type2 := [(7, 4)] })
def wTimer : State := wd { dm 4 with irq := { timers := [vecKey 63 2047] } }
def wHotPlug : State := wd { dm 4 with binder := { hotPlug := [(63, [], [], false)] } }
/-- Instance 63 may hold a pair, has four vectors, and pair 8191 is in a state. -/
def dPair (x : Pair) : Dev := (((dm 4).wr (Vi.QUEUE_ALLOC 63) 1).wr (Vi.MSIX_COUNT 63) 4).setPair 8191 x
def wAlloc : State := wd ((dm 4).wr (Vi.QUEUE_ALLOC 63) 1)
def wPair1 : State := wd (dPair { state := 1, inst := 63 })
def wPair2 : State := wd (dPair { state := 2, inst := 63, log2Size := 4 })
def wPair4 : State := wd (dPair { state := 4, inst := 63, log2Size := 4, ready := [(0, { status := 0 }, false)] })
def wRing : State := wd (dPair { state := 2, inst := 63, localIndex := 5, log2Size := 4, cqUsed := 2 })
def wFetch : State := wd ((dPair { state := 2, inst := 63, ladle := 31, log2Size := 4, sqTail := 1 }).setInst 63 { ladleWeight := 16 })
/-- A descriptor of opcode op at the head of pair 8191. -/
def wHead (op : Nat) (fm : Bool) : State :=
  wd ((((dPair { state := 2, inst := 63, fm, log2Size := 4, fetched := [(0, (match op with
    | 5 => { opcode := 5, length := 8, atomicOp := 1 }
    | 6 => { opcode := 6, length := 0x10000000, dstSpace := 2 }
    | 7 => { opcode := 7, length := 0x10000000, srcSpace := 2, dstSpace := 2 }
    | n => { opcode := n, length := 64 }), if op = 7 then 1 else 0)] })).setExt 0 { state := 7 }).setInst 63 { ladleWeight := 16 })
/-- Run 7 of pair 8191 with one piece over, and one read still out or none. -/
def rw1 : Run := { id := 7, pair := 8191, ladle := 0, desc := { opcode := 1, length := 128 }, order := 0, next := 128, issued := 2, pieces := [{ index := 0, offset := 0, len := 64, turned := true }, { index := 1, offset := 64, len := 64, reads := 1 }] }
def rw2 : Run := { id := 7, pair := 8191, ladle := 0, desc := { opcode := 1, length := 64 }, order := 0, next := 64, issued := 1, pieces := [{ index := 0, offset := 0, len := 64, turned := true }] }
def wPiece : State := wd { dPair { state := 2, inst := 63 } with ladles := { runs := [rw1] } }
def wPiece2 : State := wd { dPair { state := 2, inst := 63 } with ladles := { runs := [rw2] } }
/-- A header of a member of the current epoch. -/
def hm (a : Nat) : SilekHdr := { requester := .member a, epoch := 5 }
/-- A device of epoch 5 at address 2 whose primary is 1; address 1 and 2 alive. -/
def dMem (m : Nat) : Dev := ((((dm m).wr Glob.CHAIN_ADDRESS 2).wr Memb.PRIMARY_ADDR 1).wr Memb.EPOCH 5).wr Memb.ALIVE 3
def w7 : State := wd (dMem 7)
def w7d : State := wd ((((dMem 7).wr (Pg.PERSONALITY 1) 2).wr (Pg.BIFURCATION 1) 0).setPort 4 { capacity := [4] })
def w9 : State := wd { dMem 9 with memb := { discarding := true } }
/-- An acting primary of epoch 5 at address 1. -/
def dPri (m : Nat) : Dev := ((((dm m).wr Glob.CHAIN_ADDRESS 1).wr Memb.PRIMARY_ADDR 1).wr Memb.EPOCH 5).wr Memb.ALIVE 1
def w8j : State := wd ((dPri 8).wr Memb.CONFIGURED 3)
def w8r : State := wd (((dPri 8).wr Memb.CONFIGURED 3).wr (Memb.peer_MODE_SEEN 1) 9)
def w8m : State := wd ((dPri 8).wr Memb.ALIVE 7)
def w8n : State := wd ((dPri 8).wr Memb.ALIVE 5)
def w5m : State := wd (((dPri 5).wr Memb.MIRROR_ADDR 2).wr (Memb.peer_MODE_SEEN 1) 6)

/-- The management mailbox holds a SILEK_VERSION command. -/
def wBell : State := { w4 with mem := [(Mailbox.cell 64 0x100, 2), (Mailbox.cell 64 0x101, 3), (Mailbox.cell 64 0x102, 1), (Mailbox.cell 64 0x103, 1)] }
/-- A request to member 1 of epoch 5 is out, and its response. -/
def oAck : Outst := { dst := 1, tag := 9, e2e := 4, vc := 5, opcode := 1, time := 0, cont := .none }
def qAck : QflHdr := { src := 1, dst := 2, master := 0, tag := 9, epoch := 5, e2e := 4 }
def wAck : State := wd { dMem 7 with fab := { outstanding := [oAck] } }

/-- As wWin, with an atomic window at 0. -/
def wWin1 : State := wd (dWin.wr (Vi.ATOMIC_EN 0) 1)
/-- Window 255 is committed at 0 and slot 7 holds extent 0 of chain address 1. -/
def wMap : State :=
  wd (((dWin.wr Glob.CHAIN_ADDRESS 1).setWin 255 { enabled := true, slotBase := 7, slotCount := 64, committed := true, size := 64 }).setSlot 7
    { valid := true, chain := 1 })
/-- A read of a host, and a tracker that has snooped slot 7 under tag 5 of port 0. -/
def aRd : Access := { id := 1, kind := .rdNc, origin := .mem 0 0, master := 0 }
def trS : Tracker := { slice := 0, id := 0, acc := aRd, la := 0, snooped := [7] }
def xS : HostSnoop := { port := 0, tag := 5, slice := 0, tracker := 0, slot := 7 }
def wSnoop : State := wd { dWin with edge := { snoops := [xS] }, chn := { trackers := [trS] } }
def wT2 : State := wd (((dWin.wr (Pg.CXL_GEN 0) 3).setInst 0 { portA := some 0, type2 := [(7, 4)] }).setPort 4 { capacity := [4], type2 := true })
/-- A read of port 4 is out. -/
def rq : AgentReq := { id := 9, port := 4, ld := 0, dpa := 0, write := false, acc := aRd, cont := .direct aRd }
def wReads : State := wd { dDev with agents := { reads := [rq] } }
def eSent : EgressEntry := { port := 4, ld := 0, body := .line 0 0 0 0 false, incarnation := 0, writes := [{ id := 3, master := 0, time := 0, ruleEpoch := 0 }], sent := true }
def wSent : State := wd { dDev with buf := { entries := [eSent] } }
/-- A request of the Churn waits at port 4. -/
def rc : AgentReq := { id := 9, port := 4, ld := 0, dpa := 0, write := false, acc := { aRd with master := 0x3000 }, cont := .direct aRd }
def wGrant : State := wd { dDev with agents := { queue := [rc] } }

/-- A ticket whose holder waits; trackers in phases EVICT and TIER2. -/
def tk : Ticket := { slice := 0, number := 5, la := 0, master := 0, cause := 1, waiting := some aRd }
def trW : Tracker := { slice := 0, id := 0, acc := { aRd with origin := .churn 0 }, la := 0, phase := .evict }
def trT : Tracker := { slice := 0, id := 0, acc := aRd, la := 0, phase := .tier2 }

/-- A state 500 µs after reset. -/
def later500 (s : State) : State := { s with time := { s.time with now := 500000 } }
/-- A fresh request of member 1 to member 2, for the first line of extent 0 of member 2. -/
def qReq : QflHdr := { src := 1, dst := 2, master := 0, tag := 3, epoch := 5, e2e := 8 }
def wReq : ReqWord := { addr := faOf 2 0 0 }
def wPeer : State := wd (dMem 7)
def wMirror : State := wd (dMem 6)
/-- A private access is out to member 1. -/
def oDirect : Outst := { oAck with cont := .direct aRd }
/-- Group 1 is a x16 QFL port 4 in OM4; its physical layer is in a state. -/
def dQ (st : Nat) : Dev := ((((dm 4).wr (Pg.PERSONALITY 1) 3).wr (Pg.BIFURCATION 1) 0).wr (Pg.POWERED 1) 1).wr (Pg.phy_STATE 4) st
def dQp (st : Nat) (q : QflPhy) : Dev := (dQ st).setQphy 4 q
/-- Port 4 is ACTIVE and its link layer in a state. -/
def dL (st : Nat) (x : QflLink) : Dev := ((dQ 5).wr (Pg.ll_LL_STATE 4) st).setLink 4 x
def set1 : Ts1Set := { widthCfg := 4, locked := false, lanes := [{ lane := 15, number := 15 }] }
def set2 : Ts2Set := { version := 2, features := 0, nonce := 1, chain := 2, port := 4, laneMap := 0xffff, widthSel := 0, seen := false }
/-- An UP link that may narrow to x4 of its trained x16. -/
def dW : Dev := (((dL 2 {}).wr (Pg.phy_FEATURES_ENABLED 4) 2).wr (Pg.ll_TRAINED_WIDTH 4) 4).wr (Pg.phy_WIDTH_ACTIVE 4) 4
def wWidth : State := wd dW
def wWidth2 : State := wd (dW.setLink 4 { widthRetry := some 2 })
def wSpdm : State := wd ((dL 2 { session := 1 }).wr ScR.SC_STATE 1)
/-- An empty NEW flit under sequence 5. -/
def wFlit : BitVec 1024 := sealFlit 5 1
/-- A device on Fabric time whose route toward the primary leaves port 4. -/
def wFollow : State := wd (((((dL 2 {}).wr Tim.TIME_SOURCE 2).wr Glob.CURRENT_MODE 7).wr (Qfab.VALID 0) 1).wr (Qfab.PORT 0) 4 |>.wr Memb.PRIMARY_ADDR 1 |>.wr (Pg.phy_FEATURES_ENABLED 4) 16)
def wExch : State := { wd (dL 2 {}) with time := { exchange := some { port := 4, t1 := 0 } } }
def wExch3 : State := { wd (dL 2 {}) with time := { exchange := some { port := 4, t1 := 0, t3 := some 90 } } }
/-- The Skimmer runs on instance 0, whose host link is up; monitor 0 is selected. -/
def wSkim : State := wd ({ (dWin.wr Skim.RUNNING 1).wr Skim.SELECT_LO 1 with skim := { vi := 0, base := 4096, size := 8192 } })
/-- Instance 0 at host port 0, quiesced, with vectors. -/
def wVppb : State := wd (((dWin.wr (Vi.MSIX_COUNT 0) 16).wr (Vi.STATE 0) 3).setPort 4 { type2 := true })
/-- Extent 0 of this device is free, region 0 of instance 0 has free slots, or holds it at slot 7. -/
def wFmAdd : State := wd ((dWin.wr Glob.CHAIN_ADDRESS 1).setExt 0 { state := 1, port := 4 })
def qOld : QflHdr := { src := 1, dst := 2, master := 0, tag := 3, epoch := 7, e2e := 8 }
def oTest : Outst := { dst := 1, tag := 9, e2e := 4, vc := 5, opcode := 0x30, time := 0, cont := .test }
/-- A Rennet in OM11 whose guard is unlocked. -/
def wKeyed : State := { wd (dm 11) with guard := { unlocked := true } }
/-- Stream 3 of the exerciser repeats. -/
def wExercise : State := wd ((((dm 11).wr (Ren.CLASS 0) 7).wr (Ren.TARGET 0) 3).wr (Ren.SETTING 0) 0x80000000)
/-- A TEST of chain address 1 lies in the receive buffer of port 4. -/
def wTest : State := wd ((((dL 2 { rx := [{ vc := 5, opcode := 0x30, src := 1, dst := 2, tag := 3, e2e := 8 }] }).wr Glob.CURRENT_MODE 11).wr
  Glob.CHAIN_ADDRESS 2).wr Memb.EPOCH 5)
/-- A held command that may start, in OM4, and the state once it has. -/
def xHeld : HeldCommand := { req := .fm 1, tag := 0, ordered := true, opcode := 0x102, minor := 0, src := 0, cmd := .deviceInfo hw }
def wHeld : State := wd { dm 4 with silek := { held := [xHeld] } }
/-- 64 commands run, in OM4. -/
def wBusy : State := wd { dm 4 with silek := { running := (List.range 64).map (fun n => { req := .mgmt, tag := n, minor := 3, opcode := 0x711, cmd := .deviceInfo hw, src := 0, work := .relay n }) } }
/-- DEVICE_INFO of tag 0 runs, or its reply is kept, in OM4. -/
def rDev : Running := { req := .fm 1, tag := 0, minor := 3, opcode := 0x102, cmd := .deviceInfo hw, src := 0, work := .relay 0 }
def wRuns : State := wd { dm 4 with silek := { running := [rDev] } }
def kDev : CachedReply := { req := .fm 1, tag := 0, cmd := .deviceInfo hw, opcode := 0x102, minor := 3, src := 0, status := .ok, payload := [1], time := 0 }
def wKept : State := wd { dm 4 with silek := { cache := [kDev] } }

/-! ### Terms that well-formedness refuses -/

theorem test_wf_header : hw.wf = true := by decide
theorem test_wf_major : ({ hw with major := 256 } : SilekHdr).wf = false := by decide
theorem test_wf_minor : ({ hw with minor := 256 } : SilekHdr).wf = false := by decide
theorem test_wf_tag : (Instr.deviceInfo { hw with tag := 65536 }).wf = false := by decide
theorem test_wf_dst : ({ hw with dst := 256 } : SilekHdr).wf = false := by decide
theorem test_wf_src : ({ hw with src := 256 } : SilekHdr).wf = false := by decide
theorem test_wf_epoch_payload : ({ hw with epoch := 0x100000000 } : SilekHdr).wf = false ∧
    ({ hw with payload := List.replicate 3073 0 } : SilekHdr).wf = false ∧
    (Instr.silekSegment (.mctp 1 false) 0 0 0 false (List.replicate 3104 0)).wf = true := by decide +kernel
theorem test_wf_endpoint : ({ hw with requester := .fm 256 } : SilekHdr).wf = false := by decide
theorem test_wf_member_zero : ({ hw with requester := .member 0 } : SilekHdr).wf = false := by decide
theorem test_wf_member_high : ({ hw with requester := .member 17 } : SilekHdr).wf = false := by decide
theorem test_wf_instance : ({ hw with requester := .host 64 } : SilekHdr).wf = false := by decide
/-- The four segments of the chain, the 33 of VC5, the body of MCTP (R414 to R416). -/
theorem test_wf_segment_index : (Instr.silekSegment (.chain { type := 5, crc := 0 } 1 2 0) 0 4 3 false []).wf = false := by decide
theorem test_wf_segment_last : (Instr.silekSegment (.vc5 { src := 1, dst := 2, master := 0, tag := 9, epoch := 5, e2e := 4 }) 0 0 33 false []).wf = false := by decide
theorem test_wf_segment_length : (Instr.silekSegment (.vc5 { src := 1, dst := 2, master := 0, tag := 9, epoch := 5, e2e := 4 }) 0 0 32 false (List.replicate 97 0)).wf = false := by decide

/-! ### Worked examples of the spec -/

/-- The table gives no row any bits: no word spells a command. -/
theorem test_no_word : decodeTableWord 32 0x102 = none := rfl
/-- The master IDs of the worked example after R40. -/
theorem test_masters : masterHost 8 3 = 0x203 ∧ masterLadle 12 5 = 0x2305 ∧ masterPeer 3 7 = 0x50c7 ∧ masterFabric 3 0 = 0x58c0 := by decide
/-- Abel's read: chain address 1, extent 4,101 (the chapter of R156; R193). -/
theorem test_fabric_address : faOf 1 4101 0x2345678 = 0x410052345678 ∧ lineAddr 0x410052345678 = 0x1040148d159 := ⟨rfl, rfl⟩
/-- The bucket of its line with a tier 2 of 1 GiB (the example after R198). -/
theorem test_bucket : ((dm 4).wr ChurnR.T2_UNITS 4).bucketOf 0x1040148d159 = 4755545 := rfl
/-- The four grants of the worked example for R340, twice. -/
def grantWeight (c : Nat) : Nat := if c = 3 then 40 else 20
def grantsOf : Nat → Tab Int → List Nat
  | 0, _ => []
  | n + 1, c => match grantCredits c [3, 5, 7] grantWeight with
    | some (w, c) => w :: grantsOf n c
    | none => []
theorem test_grants : grantsOf 8 [] = [3, 5, 7, 3, 3, 5, 7, 3] := by decide
/-- The tracker partitions of the same example: VI3 can hold up to 64 + 192 trackers of a slice. -/
def wTrackers : Dev :=
  ((((dm 4).wr InstR.FABRIC_TRACKER_MIN 96).setInst 3 { trackerMin := 64, trackerMax := 256 }).setInst 5 { trackerMin := 32, trackerMax := 128 }).setInst 7
    { trackerMin := 32, trackerMax := 128 }
theorem test_trackers : wTrackers.minSum = 224 ∧ wTrackers.trackerRoom 0 3 = 256 := ⟨rfl, rfl⟩
/-- FETCH_ADD wraps (R247 and the worked example of its chapter). -/
theorem test_fetch_add : ({ op := 1, a := 5, b := 0 } : AtomArgs).compute 0xfffffffffffffffe = some 3 := by decide
/-- BARRIER's parameters are 3 bytes, padded to 4 (R410). -/
theorem test_padding : (padBytes [1, 2, 3]).length = 4 := by decide
/-- The limits of a count. -/
theorem test_saturates : saturate 8 255 = 255 ∧ saturate 8 256 = 255 := by decide
/-- Epochs compare on a circle (R390). -/
theorem test_epochs : newerEpoch 0 0xffffffff = true ∧ newerEpoch 5 5 = false ∧ newerEpoch 0x80000005 5 = false := by decide
/-- The first step from reset is one nanosecond (log entry 1). -/
theorem test_first_step : (match step State.reset with
    | .next t => t.time.now
    | _ => 0) = 1 := rfl

/-! ### Witnesses -/

theorem wit_GeneralCommands_1 : ∃ (h : SilekHdr) (s : State) (d : Dev) (i : CmdInfo), d = s.begun.dev ∧ i = .of 0x101 0 (.silekVersion h.key) ∧ s.admits h i =
      true :=
    ⟨hw, w4, _, _, rfl, rfl, by decide⟩

theorem wit_GeneralCommands_2 : ∃ (h : SilekHdr) (s : State) (d : Dev) (i : CmdInfo), d = s.begun.dev ∧ i = .of 0x102 0 (.deviceInfo h.key) ∧ s.admits h i =
      true :=
    ⟨hw, w4, _, _, rfl, rfl, by decide⟩

theorem wit_GeneralCommands_3 : ∃ (h : SilekHdr) (first count : Nat) (s : State) (d : Dev) (i : CmdInfo), d = s.begun.dev ∧ i = .of 0x103 0 (.portStatusQuery
      h.key first count) ∧ s.admits h i = true ∧ 1 ≤ count ∧ count ≤ 64 ∧ first + count ≤ 64 :=
    ⟨hw, 63, 1, w4, _, _, rfl, rfl, by decide⟩

theorem wit_GeneralCommands_4 : ∃ (h : SilekHdr) (group : Nat) (s : State) (d : Dev) (i : CmdInfo), d = s.begun.dev ∧ i = .of 0x104 0 (.commandSupport h.key
      group) ∧ s.admits h i = true ∧ 1 ≤ group ∧ group ≤ 10 :=
    ⟨hw, 10, w4, _, _, rfl, rfl, by decide⟩

theorem wit_GeneralCommands_5 : ∃ (h : SilekHdr) (first count ack : Nat) (s : State) (d : Dev) (i : CmdInfo), d = s.begun.dev ∧ i = .of 0x105 0 (.eventRead
      h.key first count ack) ∧ s.admits h i = true ∧ count ≤ 64 ∧ ack = 0 :=
    ⟨hw, 0, 64, 0, w4, _, _, rfl, rfl, by decide⟩

theorem wit_GeneralCommands_6 : ∃ (h : SilekHdr) (cls eid : Nat) (s : State) (d : Dev) (i : CmdInfo), d = s.begun.dev ∧ i = .of 0x106 1 (.eventSubscribe h.key
      cls eid) ∧ s.admits h i = true ∧ d.mode ≠ 6 ∧ d.mode ≠ 7 ∧ cls ≤ 2 :=
    ⟨hw, 2, 9, w4, _, _, rfl, rfl, by decide⟩

theorem wit_GeneralCommands_7 : ∃ (h : SilekHdr) (count : Nat) (records : List (BitVec 256)) (s : State) (d : Dev) (i : CmdInfo), d = s.begun.dev ∧ i = .of
      0x107 1 (.eventNotify h.key count records) ∧ s.admits h i = true ∧ 1 ≤ count ∧ count ≤ 16 ∧ records.length = count :=
    ⟨hp, 1, [0], w8, _, _, rfl, rfl, by decide⟩

theorem wit_GeneralCommands_8 : ∃ (s : State) (d : Dev), d = s.dev ∧ 2 ≤ d.mode ∧ d.mode ≠ 6 ∧ d.mode ≠ 7 ∧ d.events.cls = 1 ∧ d.events.queue ≠ [] :=
    ⟨wEv, _, rfl, by decide⟩

theorem wit_CapacityAndWindows_1 : ∃ (h : SilekHdr) (port ld unit count first : Nat) (s : State) (d : Dev) (i : CmdInfo), d = s.begun.dev ∧ i = .of 0x201 0
      (.capacityAdd h.key port ld unit count first) ∧ s.admits h i = true ∧ d.pairForeign = false ∧ d.isDevicePort port = true ∧
      d.linkUp port = true ∧ 0 < count ∧ ld < (d.port port).capacity.length ∧ unit + count ≤ (d.port port).capacity.getD ld 0 ∧
      (List.range count).any (fun k => d.registered port ld (unit + k)) = false ∧ first + count ≤ 262144 ∧ d.extents.any (fun x =>
      decide (x.2.state ≠ 0 ∧ first ≤ x.1 ∧ x.1 < first + count)) = false :=
    ⟨hw, 4, 0, 0, 4, 262140, wDev, _, _, rfl, rfl, by decide⟩

theorem wit_CapacityAndWindows_2 : ∃ (h : SilekHdr) (first count : Nat) (s : State) (d : Dev) (i : CmdInfo), d = s.begun.dev ∧ i = .of 0x202 0 (.capacityRemove
      h.key first count) ∧ s.admits h i = true ∧ 0 < count ∧ first + count ≤ 262144 ∧ (d.extents.filter (fun x => decide (first ≤
      x.1 ∧ x.1 < first + count))).any (fun x => decide (x.2.migrating = true ∨ x.2.state = 7 ∨ 0 < x.2.bindCount)) = false :=
    ⟨hw, 262143, 1, w4, _, _, rfl, rfl, by decide⟩

theorem wit_CapacityAndWindows_3 : ∃ (h : SilekHdr) (port : Nat) (s : State) (d : Dev) (i : CmdInfo), d = s.begun.dev ∧ i = .of 0x203 0 (.deviceCapacityQuery h.key
      port) ∧ s.admits h i = true ∧ d.isDevicePort port = true ∧ d.linkUp port = true :=
    ⟨hw, 4, wDev, _, _, rfl, rfl, by decide⟩

theorem wit_CapacityAndWindows_4 : ∃ (h : SilekHdr) (w vi region kind base count : Nat) (enable : Bool) (s : State) (d : Dev) (i : CmdInfo), d = s.begun.dev ∧ i =
      .of 0x210 0 (.windowConfig h.key w vi region kind base count enable) ∧ s.admits h i = true ∧ w ≤ 255 ∧ vi ≤ 63 ∧ region ≤ 7 ∧
      kind ≤ 2 ∧ enable = false ∧ d.memberOf w = none ∧ d.heldSlots (d.win w) = [] :=
    ⟨hw, 255, 63, 7, 2, 0, 0, false, w4, _, _, rfl, rfl, by decide⟩

theorem wit_CapacityAndWindows_5 : ∃ (h : SilekHdr) (w vi region kind base count : Nat) (enable : Bool) (s : State) (d : Dev) (i : CmdInfo), d = s.begun.dev ∧ i =
      .of 0x210 0 (.windowConfig h.key w vi region kind base count enable) ∧ s.admits h i = true ∧ w ≤ 255 ∧ vi ≤ 63 ∧ region ≤ 7 ∧
      kind ≤ 2 ∧ enable = true ∧ d.memberOf w = none ∧ (d.win w).enabled = false ∧ ((d.windowsOf vi).filter (fun x => decide (x.1 ≠
      w))).length < 8 ∧ ((d.windowsOf vi).filter (fun x => decide (x.1 ≠ w))).any (fun x => decide (x.2.region = region)) = false ∧
      base + count ≤ 262144 ∧ d.windows.any (fun x => decide (x.1 ≠ w) && x.2.enabled && decide (x.2.slotBase < base + count) &&
      decide (base < x.2.slotBase + x.2.slotCount)) = false ∧ 0 < count ∧ count ≤ 32768 ∧ (kind = 1 → d.hostGen vi ≠ 1 ∧ d.hostGen
      vi ≠ 2) :=
    ⟨hw, 255, 63, 7, 2, 229376, 32768, true, w4, _, _, rfl, rfl, by decide⟩

theorem wit_CapacityAndWindows_6 : ∃ (h : SilekHdr) (first count : Nat) (s : State) (d : Dev) (i : CmdInfo), d = s.begun.dev ∧ i = .of 0x211 3 (.windowQuery h.key
      first count) ∧ s.admits h i = true ∧ 1 ≤ count ∧ count ≤ 64 ∧ first + count ≤ 256 :=
    ⟨hw, 255, 1, w4, _, _, rfl, rfl, by decide⟩

theorem wit_CapacityAndWindows_7 : ∃ (h : SilekHdr) (first count : Nat) (s : State) (d : Dev) (i : CmdInfo), d = s.begun.dev ∧ i = .of 0x240 0 (.extentQuery h.key
      first count) ∧ s.admits h i = true ∧ 1 ≤ count ∧ count ≤ 384 ∧ first + count ≤ 262144 :=
    ⟨hw, 262143, 1, w4, _, _, rfl, rfl, by decide⟩

theorem wit_CapacityAndWindows_8 : ∃ (h : SilekHdr) (first count : Nat) (s : State) (d : Dev) (i : CmdInfo), d = s.begun.dev ∧ i =
      { CmdInfo.of 0x241 0 (.slotQuery h.key first count) with hostMay := fun d v => d.slotsOwn v first count } ∧ s.admits h i =
      true ∧ 1 ≤ count ∧ count ≤ 768 ∧ first + count ≤ 262144 :=
    ⟨hw, 262143, 1, w4, _, _, rfl, rfl, by decide⟩

theorem wit_CapacityAndWindows_9 : ∃ (port : Fin 64) (w : Fin 256) (base size ways dpa : Nat) (commit : Bool) (s : State) (d : Dev), d = s.dev ∧ d.linkUp port =
      true ∧ (d.win w).enabled = true ∧ d.viOfPort port = some (d.win w).vi ∧ commit = true ∧ base % 2 ^ 28 = 0 ∧ size % 2 ^ 28 = 0
      ∧ size ≤ (d.win w).slotCount * 2 ^ 28 ∧ ways = 1 ∧ dpa = (d.win w).region * 2 ^ 43 :=
    ⟨0, 255, 2 ^ 28, 2 ^ 28, 1, 0, true, wWin, _, rfl, by decide⟩

theorem wit_BindAndMigrate_1 : ∃ (h : SilekHdr) (w off n kind : Nat) (list : List Nat) (s : State) (d : Dev) (i : CmdInfo) (l : List Nat) (f : Dev) (g : Dev),
      d = s.begun.dev ∧ i = .of 0x220 0 (.extentBind h.key w off n kind list) ∧ s.admits h i = true ∧ l = (List.range n).map (fun k
      => (d.win w).slotBase + off + k) ∧ f = list.foldl (fun (e : Dev) y => e.takeExtent kind d.chainAddr (d.win w).vi y) d ∧ g =
      (l.zip list).foldl (fun (e : Dev) y => e.setSlot y.1 { pending := true, chain := fxChain y.2, extent := fxExtent y.2 })
      { f with binder := { f.binder with nextId := f.binder.nextId + 1 } } ∧ w ≤ 255 ∧ 1 ≤ n ∧ n ≤ 64 ∧ list.length = n ∧ list.any
      (fun y => decide (2 ^ 23 ≤ y)) = false ∧ d.memberOf w = none ∧ (d.win w).enabled = true ∧ (d.win w).kind + 1 = kind ∧ off + n
      ≤ (d.win w).slotCount ∧ kind ≠ 2 ∧ d.hostGen (d.win w).vi = 3 ∧ d.rd (Vi.STATE (d.win w).vi) < 2 ∧ l.any (fun k => (d.slot
      k).valid || (d.slot k).pending || d.binder.bindings.any (fun b => decide (b.member = 0) && b.slots.contains k)) = false ∧
      d.bindRefusal kind list = none ∧ d.bindCounts kind list = none ∧ (f.acting = true → f.otherOwners list = []) ∧ f.hostGen
      (f.win w).vi = 3 ∧ d.memb.rejoining = false :=
    ⟨hw, 255, 0, 1, 1, [262144], wBind, _, _, _, _, _, rfl, rfl, by decide, rfl, rfl, rfl, by decide⟩

theorem wit_BindAndMigrate_2 : ∃ (h : SilekHdr) (w off n : Nat) (force zero : Bool) (s : State) (d : Dev) (i : CmdInfo) (l : List Nat), d = s.begun.dev ∧ i =
      .of 0x221 0 (.extentUnbind h.key w off n force zero) ∧ s.admits h i = true ∧ l = (List.range n).map (fun k => (d.win
      w).slotBase + off + k) ∧ w ≤ 255 ∧ 1 ≤ n ∧ n ≤ 64 ∧ d.memberOf w = none ∧ (d.win w).enabled = true ∧ off + n ≤ (d.win
      w).slotCount ∧ force = false ∧ l.any (fun k => decide ¬ ((d.slot k).valid = true)) = false ∧ l.any (fun k => d.ownExtent
      (d.slot k).fx && (d.ext (d.slot k).extent).migrating) = false ∧ l.any (fun k => d.ownExtent (d.slot k).fx && decide ((d.ext
      (d.slot k).extent).state = 6)) = false ∧ d.hostGen (d.win w).vi = 3 ∧ d.rd (Vi.STATE (d.win w).vi) < 2 ∧
      d.binder.unbindings.any (fun u => decide (u.waiting.any (fun k => l.contains k) = true ∨ (u.member = 0 ∧ u.stage < 2 ∧
      u.slots.any (fun k => l.contains k) = true))) = false ∧ (d.acting = true → (d.otherOwners (l.map (fun k => (d.slot
      k).fx))).filter (fun c => d.alive c) = []) :=
    ⟨hw, 255, 0, 1, false, true, wBound, _, _, _, rfl, rfl, by decide, rfl, by decide⟩

theorem wit_BindAndMigrate_3 : ∃ (h : SilekHdr) (src dst q : Nat) (zero : Bool) (s : State) (d : Dev) (i : CmdInfo) (f : Dev), d = s.begun.dev ∧ i = .of 0x230
      2 (.extentMigrate h.key src dst q zero) ∧ s.admits h i = true ∧ f =
      (({ d.wakeChurn with binder := { d.binder with migrations := Tab.set d.binder.migrations 0 { source := src, dest := dst, zero := zero, queue := q } } }
      : Dev).modExt src (fun e => { e with migrating := true, migIndex := 0 })).modExt dst (fun e =>
      { e with migrating := true, migIndex := 0 }) ∧ src < 2 ^ 18 ∧ dst < 2 ^ 18 ∧ 3 ≤ (d.ext src).state ∧ (d.ext src).state ≤ 5 ∧
      (d.ext src).unbinding = false ∧ (d.ext src).migrating = false ∧ ((d.ext dst).state = 1 ∨ (d.ext dst).state = 2) ∧ (d.ext
      dst).migrating = false ∧ d.linkUp (d.ext dst).port = true ∧ ((d.ext src).port ≠ (d.ext dst).port ∨ (d.ext src).ld ≠ (d.ext
      dst).ld ∨ (d.ext src).dpaUnit ≠ (d.ext dst).dpaUnit) ∧ ((d.ext src).state = 4 → (d.ext dst).poisonCapable = true ∨ d.flag
      ChurnR.TIER2_ACTIVE = true) ∧ Tab.get d.binder.migrations 0 = none ∧ d.queueRefusal q 1 = none :=
    ⟨hw, 0, 262143, 8191, true, wMig, _, _, _, rfl, rfl, by decide, rfl, by decide⟩

theorem wit_BindAndMigrate_4 : ∃ (h : SilekHdr) (src : Nat) (index : Nat) (m : Migration) (s : State) (d : Dev) (i : CmdInfo), d = s.begun.dev ∧ i = .of 0x231
      2 (.extentMigrateAbort h.key src) ∧ s.admits h i = true ∧ d.ownerOf src = none ∧ d.binder.migrations.find? (fun x => decide
      (x.2.source = fxExtent src)) = some (index, m) ∧ m.phase = 1 :=
    ⟨hw, 0, 3, { source := 0, dest := 1 }, wMigrating, _, _, rfl, rfl, by decide⟩

theorem wit_BindAndMigrate_5 : ∃ (h : SilekHdr) (e q : Nat) (s : State) (d : Dev) (i : CmdInfo), d = s.begun.dev ∧ i = .of 0x232 0 (.extentZero h.key e q) ∧
      s.admits h i = true ∧ d.ownerOf e = none ∧ (d.ext (fxExtent e)).state = 2 ∧ d.queueRefusal q 0 = none :=
    ⟨hw, 262143, 8191, wMig, _, _, rfl, rfl, by decide⟩

theorem wit_InstanceCommands_1 : ∃ (h : SilekHdr) (vi a b : Nat) (t2 : List Nat) (msix queues : Nat) (enable : Bool) (base : Nat) (s : State) (d : Dev) (i :
      CmdInfo) (x : Inst) (f : Dev), d = s.begun.dev ∧ i = .of 0x301 0 (.instanceConfig h.key vi a b t2 msix queues enable) ∧
      s.admits h i = true ∧ x =
      { d.instOf vi with msixBase := base, next := some { portA := some a, portB := none, type2 := [], msix := msix }, trackerMin := 0, trackerMax := 480, accessWeight := 16, ladleWeight := 16, enabledBefore := true }
      ∧ f = (d.setInst vi x).wr (Vi.QUEUE_ALLOC vi) queues ∧ vi ≤ 63 ∧ enable = true ∧ d.viState vi = 0 ∧ 1 ≤ msix ∧ msix ≤ 2048 ∧
      queues ≤ 1024 ∧ t2 = [255, 255, 255, 255, 255, 255, 255] ∧ d.hostPortOk vi (some a) = true ∧ b = 255 ∧ d.pairsOf vi ≤ queues ∧
      (d.cfgOf vi).msix ≠ msix ∧ lowestRun (d.runsOf ((List.range 64).filter (fun v => decide (v ≠ vi)))) msix = some base ∧
      (((List.range 64).filter (fun v => decide (v ≠ vi))).map (fun v => d.rd (Vi.QUEUE_ALLOC v))).foldl (· + ·) 0 + queues +
      d.fmPairs ≤ 8192 ∧ (((List.range 64).filter (fun v => decide (v ≠ vi))).map (fun v => (d.cfgOf v).type2.length)).foldl (· + ·)
      0 ≤ 32 ∧ 256 ≤ d.queueFree ∧ (d.instOf vi).enabledBefore = false :=
    ⟨hw, 63, 0, 255, [255, 255, 255, 255, 255, 255, 255], 2048, 1024, true, 0, wHost, _, _, _, _, rfl, rfl, by decide, rfl, rfl, by
      decide⟩

theorem wit_InstanceCommands_2 : ∃ (h : SilekHdr) (vi a b : Nat) (t2 : List Nat) (msix queues : Nat) (enable : Bool) (s : State) (d : Dev) (i : CmdInfo), d =
      s.begun.dev ∧ i = .of 0x301 0 (.instanceConfig h.key vi a b t2 msix queues enable) ∧ s.admits h i = true ∧ vi ≤ 63 ∧ enable =
      false ∧ d.viState vi = 3 ∧ d.windowsOf vi = [] ∧ d.pairsOf vi = 0 :=
    ⟨hw, 63, 0, 255, [], 0, 0, false, wQuiesced, _, _, rfl, rfl, by decide⟩

theorem wit_InstanceCommands_3 : ∃ (h : SilekHdr) (vi : Nat) (s : State) (d : Dev) (i : CmdInfo), d = s.begun.dev ∧ i =
      { CmdInfo.of 0x302 0 (.instanceQuery h.key vi) with hostMay := fun _ v => decide (v = vi) } ∧ s.admits h i = true ∧ vi ≤ 63 :=
    ⟨hw, 63, w4, _, _, rfl, rfl, by decide⟩

theorem wit_InstanceCommands_4 : ∃ (h : SilekHdr) (vi : Nat) (force : Bool) (timeout : Nat) (s : State) (d : Dev) (i : CmdInfo), d = s.begun.dev ∧ i = .of 0x310
      0 (.instanceQuiesce h.key vi force timeout) ∧ s.admits h i = true ∧ vi ≤ 63 ∧ timeout ≤ 65535 ∧ d.viState vi = 1 ∧ force =
      false :=
    ⟨hw, 63, false, 0, wActive, _, _, rfl, rfl, by decide⟩

theorem wit_InstanceCommands_5 : ∃ (h : SilekHdr) (vi : Nat) (force : Bool) (timeout : Nat) (s : State) (d : Dev) (i : CmdInfo), d = s.begun.dev ∧ i = .of 0x310
      0 (.instanceQuiesce h.key vi force timeout) ∧ s.admits h i = true ∧ vi ≤ 63 ∧ timeout ≤ 65535 ∧ d.viState vi = 1 ∧ force =
      true :=
    ⟨hw, 63, true, 0, wActive, _, _, rfl, rfl, by decide⟩

theorem wit_InstanceCommands_6 : ∃ (h : SilekHdr) (vi : Nat) (s : State) (d : Dev) (i : CmdInfo) (f : Dev) (g : Dev), d = s.begun.dev ∧ i = .of 0x311 0
      (.instanceResume h.key vi) ∧ s.admits h i = true ∧ f = d.finish s.time.now (fun w => decide (w = .quiesce vi)) .aborted [] ∧ g
      =
      ((({ f with buf := { f.buf with barriers := f.buf.barriers.filter (fun (x : Barrier) => decide ¬ (x.scope = 4 ∧ x.id = vi)) } }
      : Dev).setInst vi { d.instOf vi with managed := false }).wr (Vi.STATE vi) 1) ∧ vi ≤ 63 ∧ d.viState vi = 3 :=
    ⟨hw, 63, wQuiesced, _, _, _, _, rfl, rfl, by decide, rfl, rfl, by decide⟩

theorem wit_InstanceCommands_7 : ∃ (h : SilekHdr) (vi : Nat) (s : State) (d : Dev) (i : CmdInfo), d = s.begun.dev ∧ i = .of 0x312 0 (.instanceReset h.key vi) ∧
      s.admits h i = true ∧ vi ≤ 63 ∧ d.viState vi = 3 :=
    ⟨hw, 63, wQuiesced, _, _, rfl, rfl, by decide⟩

theorem wit_InstanceCommands_8 : ∃ (h : SilekHdr) (vi mask limit tmin tmax aw lw : Nat) (s : State) (d : Dev) (i : CmdInfo), d = s.begun.dev ∧ i = .of 0x320 2
      (.qosSet h.key vi mask limit tmin tmax aw lw) ∧ s.admits h i = true ∧ vi ≤ 63 ∧ mask = 8 ∧ aw ≤ 255 ∧ (d.instOf vi).trackerMin
      ≤ (d.instOf vi).trackerMax ∧ (d.setInst vi { d.instOf vi with accessWeight := aw }).minSum ≤ 480 ∧ d.chn.stalled = [] :=
    ⟨hw, 63, 8, 0, 0, 0, 255, 0, wActive, _, _, rfl, rfl, by decide⟩

theorem wit_InstanceCommands_9 : ∃ (h : SilekHdr) (vi : Nat) (s : State) (d : Dev) (i : CmdInfo), d = s.begun.dev ∧ i =
      { CmdInfo.of 0x321 2 (.qosQuery h.key vi) with hostMay := fun _ v => decide (v = vi) } ∧ s.admits h i = true ∧ vi ≤ 63 :=
    ⟨hw, 63, w4, _, _, rfl, rfl, by decide⟩

theorem wit_InstanceEvents_1 : ∃ (vi : Fin 64) (b : Barrier) (s : State) (d : Dev) (f : Dev), d = s.dev ∧ f =
      { d with buf := { d.buf with barriers := d.buf.barriers.filter (fun (x : Barrier) => decide ¬ (x.scope = 4 ∧ x.id = vi)) } } ∧
      d.viState vi = 2 ∧ d.quiesceReady vi = true ∧ d.quiesceBarrier vi = some b ∧ (d.instOf vi).resetKind = 0 :=
    ⟨63, { scope := 4, id := 63, left := [], covered := 0 }, wQuiescing, _, _, rfl, rfl, by decide⟩

theorem wit_InstanceEvents_2 : ∃ (vi : Fin 64) (s : State) (d : Dev), d = s.dev ∧ (d.instOf vi).timed = false :=
    ⟨63, w4, _, rfl, by decide⟩

theorem wit_InstanceEvents_3 : ∃ (vi : Fin 64) (s : State) (d : Dev), d = s.dev ∧ (d.instOf vi).timed = true :=
    ⟨63, (wd (dVi 2 { timed := true })), _, rfl, by decide⟩

theorem wit_InstanceEvents_4 : ∃ (vi : Fin 64) (s : State) (d : Dev), d = s.dev ∧ d.viState vi = 3 :=
    ⟨63, wQuiesced, _, rfl, by decide⟩

theorem wit_InstanceEvents_5 : ∃ (vi : Fin 64) (upstream : Bool) (s : State) (d : Dev), d = s.dev ∧ d.viState vi = 3 ∧ upstream = true :=
    ⟨63, true, wQuiesced, _, rfl, by decide⟩

theorem wit_InstanceEvents_6 : ∃ (vi : Fin 64) (vport : Fin 8) (p : Nat) (s : State) (d : Dev), d = s.dev ∧ Tab.get (d.instOf vi).type2 vport = some p ∧
      d.linkUp p = true :=
    ⟨63, 7, 4, wType2, _, rfl, by decide⟩

theorem wit_InstanceEvents_7 : ∃ (vi : Fin 65) (vector : Fin 2048) (s : State) (d : Dev), d = s.dev :=
    ⟨64, 2047, w4, _, rfl⟩

theorem wit_InstanceEvents_8 : ∃ (vi : Fin 64) (vector : Fin 2048) (s : State) (d : Dev), d = s.dev ∧ d.irq.timers.contains (vecKey vi vector) = true :=
    ⟨63, 2047, wTimer, _, rfl, by decide⟩

theorem wit_InstanceEvents_9 : ∃ (vi : Fin 64) (x : Nat × List Nat × List Nat × Bool) (s : State) (d : Dev), d = s.dev ∧ d.binder.hotPlug.filter (fun h =>
      decide (h.1 = (vi : Nat))) = [x] :=
    ⟨63, (63, [], [], false), wHotPlug, _, rfl, by decide⟩

theorem wit_InstanceEvents_10 : ∃ (vi : Fin 64) (s : State) (d : Dev) (f : Dev) (g : Dev) (k : Dev), d = s.dev ∧ f = d.clearRegs (0x4000000 + 0x100000 * (vi :
      Nat) + 0x1000) (0x4000000 + 0x100000 * (vi : Nat) + 0x2000) ∧ g =
      { f with silek := { f.silek with mail := f.silek.mail.filter (fun x => decide (x.1 ≠ (vi : Nat))) } } ∧ k = ((((g.raise1
      (Vi.RESET_EVT vi)).wr (Vi.LAST_RESET vi) 1).inc InstR.INSTANCE_RESETS).setInst vi
      { d.instOf vi with resetKind := 0, managed := false, aborted := [] }).wr (Vi.STATE vi) 1 ∧ d.viState vi = 4 ∧ d.mailboxRuns vi
      = false ∧ d.binder.unbindings = [] ∧ d.quiesceReady vi = true ∧ (d.instOf vi).resetKind = 1 ∧ (d.instOf vi).portA = none ∧
      (d.instOf vi).portB = none :=
    ⟨63, wResetting, _, _, _, _, rfl, rfl, rfl, rfl, by decide⟩

theorem wit_QueueCommands_1 : ∃ (h : SilekHdr) (q owner index ladle : Nat) (s : State) (d : Dev) (i : CmdInfo) (mine : List (Nat × Pair)), d = s.begun.dev ∧ i
      = .of 0x340 0 (.queueAssign h.key q owner index ladle) ∧ s.admits h i = true ∧ mine = (d.ladles.pairs.filter (fun y => decide
      (y.1 ≠ q ∧ y.2.state ≠ 0))).filter (fun y => decide (¬ y.2.fm ∧ y.2.inst = owner)) ∧ q ≤ 8191 ∧ owner ≤ 63 ∧ index ≤ 1023 ∧
      ladle ≤ 31 ∧ (d.pair q).state < 2 ∧ (d.pair q).disabling = false ∧ mine.any (fun y => decide (y.2.localIndex = index)) = false
      ∧ mine.length < d.rd (Vi.QUEUE_ALLOC owner) :=
    ⟨hw, 8191, 63, 1023, 31, wAlloc, _, _, _, rfl, rfl, by decide, rfl, by decide⟩

theorem wit_QueueCommands_2 : ∃ (h : SilekHdr) (pair log2 sq cq vector : Nat) (enable : Bool) (q : Nat) (s : State) (d : Dev) (i : CmdInfo), d = s.begun.dev ∧
      i = { CmdInfo.of 0x341 0 (.queueSetup h.key pair log2 sq cq vector enable) with hostMay := fun _ _ => true } ∧ s.admits h i =
      true ∧ d.namedPair h.requester pair = some q ∧ sq % 4096 = 0 ∧ cq % 4096 = 0 ∧ 4 ≤ log2 ∧ log2 ≤ 12 ∧ vector < d.rd
      (Vi.MSIX_COUNT (d.pair q).inst) ∧ (d.pair q).state = 1 ∧ (d.pair q).disabling = false ∧ enable = true :=
    ⟨hw, 8191, 12, 4096, 8192, 3, true, 8191, wPair1, _, _, rfl, rfl, by decide⟩

theorem wit_QueueCommands_3 : ∃ (h : SilekHdr) (pair : Nat) (q : Nat) (s : State) (d : Dev) (i : CmdInfo), d = s.begun.dev ∧ i =
      { CmdInfo.of 0x342 0 (.queueDisable h.key pair) with hostMay := fun _ _ => true } ∧ s.admits h i = true ∧ d.namedPair
      h.requester pair = some q ∧ (d.pair q).state = 1 :=
    ⟨hw, 8191, 8191, wPair1, _, _, rfl, rfl, by decide⟩

theorem wit_QueueCommands_4 : ∃ (h : SilekHdr) (pair : Nat) (q : Nat) (s : State) (d : Dev) (i : CmdInfo) (f : Dev), d = s.begun.dev ∧ i =
      { CmdInfo.of 0x342 0 (.queueDisable h.key pair) with hostMay := fun _ _ => true } ∧ s.admits h i = true ∧ f = d.setPair q
      { d.pair q with disabling := true, doorbells := [] } ∧ d.namedPair h.requester pair = some q ∧ (d.pair q).state = 2 ∧ (d.pair
      q).disabling = false ∧ ((f.pairIdle s.time.now q).pair q).disabling = false :=
    ⟨hw, 8191, 8191, wPair2, _, _, _, rfl, rfl, by decide, rfl, by decide⟩

theorem wit_QueueCommands_5 : ∃ (h : SilekHdr) (pair : Nat) (q : Nat) (s : State) (d : Dev) (i : CmdInfo) (f : Dev), d = s.begun.dev ∧ i =
      { CmdInfo.of 0x343 0 (.queueReset h.key pair) with hostMay := fun _ _ => true } ∧ s.admits h i = true ∧ f = d.setPair q
      { d.pair q with disabling := true, doorbells := [] } ∧ d.namedPair h.requester pair = some q ∧ (d.pair q).state = 4 ∧ (d.pair
      q).disabling = false ∧ ((f.pairIdle s.time.now q).pair q).disabling = true :=
    ⟨hw, 8191, 8191, wPair4, _, _, _, rfl, rfl, by decide, rfl, by decide⟩

theorem wit_QueueCommands_6 : ∃ (h : SilekHdr) (pair : Nat) (q : Nat) (s : State) (d : Dev) (i : CmdInfo), d = s.begun.dev ∧ i =
      { CmdInfo.of 0x344 0 (.queueQuery h.key pair) with hostMay := fun _ _ => true } ∧ s.admits h i = true ∧ d.namedPair
      h.requester pair = some q :=
    ⟨hw, 8191, 8191, wPair1, _, _, rfl, rfl, by decide⟩

theorem wit_QueueCommands_7 : ∃ (h : SilekHdr) (q : Nat) (ds : List (BitVec 512)) (s : State) (d : Dev) (i : CmdInfo) (f : Dev), d = s.begun.dev ∧ i = .of
      0x345 2 (.ladleSubmit h.key q ds) ∧ s.admits h i = true ∧ f = d.setPair q ((d.pair q).take (ds.map Desc.ofBits) 0) ∧ q ≤ 8191
      ∧ 1 ≤ ds.length ∧ ds.length ≤ 16 ∧ d.fmPair q = true ∧ d.ringUsed q + d.ringKept q + ds.length ≤ 64 :=
    ⟨hw, 8191, [0], wMig, _, _, _, rfl, rfl, by decide, rfl, by decide⟩

theorem wit_Descriptors_1 : ∃ (q : Fin 8192) (order purpose : Nat) (y : Desc) (rest : List (Nat × Desc × Nat)) (credit : Tab Int) (g : Dev) (s : State) (d :
      Dev) (f : Dev), d = s.dev ∧ f = (g.setPair q { d.pair q with fetched := rest, granted := false }).mon s.time.now (48 + (d.pair
      q).ladle / 8) 0x301 (d.pair q).master 0 ∧ (((d.pair q).granted = true ∧ g = d) ∨ ((d.pair q).granted = false ∧ d.ladleTurn
      (d.pair q).ladle = some ((q : Nat), credit) ∧ g = d.takeTurn q credit)) ∧ d.ladlesRun = true ∧ (d.pair q).fetched = (order, y,
      purpose) :: rest ∧ y.opcode = 1 ∧ d.mayStart q = true ∧ y.fence = false ∧ y.check (d.pair q).fm (decide (purpose ≠ 0)) = none :=
    ⟨8191, 0, 0, { opcode := 1, length := 64 }, [], ((((wHead 1 false).dev.ladleTurn 0).map (·.2)).getD []), _, (wHead 1 false), _,
      _, rfl, rfl, .inr ⟨by decide, by decide, rfl⟩, by decide⟩

theorem wit_Descriptors_2 : ∃ (q : Fin 8192) (order purpose : Nat) (y : Desc) (rest : List (Nat × Desc × Nat)) (credit : Tab Int) (g : Dev) (s : State) (d :
      Dev) (f : Dev), d = s.dev ∧ f = (g.setPair q { d.pair q with fetched := rest, granted := false }).mon s.time.now (48 + (d.pair
      q).ladle / 8) 0x301 (d.pair q).master 0 ∧ (((d.pair q).granted = true ∧ g = d) ∨ ((d.pair q).granted = false ∧ d.ladleTurn
      (d.pair q).ladle = some ((q : Nat), credit) ∧ g = d.takeTurn q credit)) ∧ d.ladlesRun = true ∧ (d.pair q).fetched = (order, y,
      purpose) :: rest ∧ y.opcode = 2 ∧ d.mayStart q = true ∧ y.fence = false ∧ y.check (d.pair q).fm (decide (purpose ≠ 0)) = none :=
    ⟨8191, 0, 0, { opcode := 2, length := 64 }, [], ((((wHead 2 false).dev.ladleTurn 0).map (·.2)).getD []), _, (wHead 2 false), _,
      _, rfl, rfl, .inr ⟨by decide, by decide, rfl⟩, by decide⟩

theorem wit_Descriptors_3 : ∃ (q : Fin 8192) (order purpose : Nat) (y : Desc) (rest : List (Nat × Desc × Nat)) (credit : Tab Int) (g : Dev) (s : State) (d :
      Dev) (f : Dev), d = s.dev ∧ f = (g.setPair q { d.pair q with fetched := rest, granted := false }).mon s.time.now (48 + (d.pair
      q).ladle / 8) 0x301 (d.pair q).master 0 ∧ (((d.pair q).granted = true ∧ g = d) ∨ ((d.pair q).granted = false ∧ d.ladleTurn
      (d.pair q).ladle = some ((q : Nat), credit) ∧ g = d.takeTurn q credit)) ∧ d.ladlesRun = true ∧ (d.pair q).fetched = (order, y,
      purpose) :: rest ∧ y.opcode = 3 ∧ d.mayStart q = true ∧ y.fence = false ∧ y.check (d.pair q).fm (decide (purpose ≠ 0)) = none :=
    ⟨8191, 0, 0, { opcode := 3, length := 64 }, [], ((((wHead 3 false).dev.ladleTurn 0).map (·.2)).getD []), _, (wHead 3 false), _,
      _, rfl, rfl, .inr ⟨by decide, by decide, rfl⟩, by decide⟩

theorem wit_Descriptors_4 : ∃ (q : Fin 8192) (order purpose : Nat) (y : Desc) (rest : List (Nat × Desc × Nat)) (credit : Tab Int) (g : Dev) (s : State) (d :
      Dev) (f : Dev), d = s.dev ∧ f = (g.setPair q { d.pair q with fetched := rest, granted := false }).mon s.time.now (48 + (d.pair
      q).ladle / 8) 0x301 (d.pair q).master 0 ∧ (((d.pair q).granted = true ∧ g = d) ∨ ((d.pair q).granted = false ∧ d.ladleTurn
      (d.pair q).ladle = some ((q : Nat), credit) ∧ g = d.takeTurn q credit)) ∧ d.ladlesRun = true ∧ (d.pair q).fetched = (order, y,
      purpose) :: rest ∧ y.opcode = 4 ∧ d.mayStart q = true ∧ y.fence = false ∧ y.check (d.pair q).fm (decide (purpose ≠ 0)) = none :=
    ⟨8191, 0, 0, { opcode := 4, length := 64 }, [], ((((wHead 4 false).dev.ladleTurn 0).map (·.2)).getD []), _, (wHead 4 false), _,
      _, rfl, rfl, .inr ⟨by decide, by decide, rfl⟩, by decide⟩

theorem wit_Descriptors_5 : ∃ (q : Fin 8192) (order purpose : Nat) (y : Desc) (rest : List (Nat × Desc × Nat)) (credit : Tab Int) (g : Dev) (s : State) (d :
      Dev) (f : Dev), d = s.dev ∧ f = (g.setPair q { d.pair q with fetched := rest, granted := false }).mon s.time.now (48 + (d.pair
      q).ladle / 8) 0x301 (d.pair q).master 0 ∧ (((d.pair q).granted = true ∧ g = d) ∨ ((d.pair q).granted = false ∧ d.ladleTurn
      (d.pair q).ladle = some ((q : Nat), credit) ∧ g = d.takeTurn q credit)) ∧ d.ladlesRun = true ∧ (d.pair q).fetched = (order, y,
      purpose) :: rest ∧ y.opcode = 5 ∧ d.mayStart q = true ∧ y.fence = false ∧ y.check (d.pair q).fm (decide (purpose ≠ 0)) = none :=
    ⟨8191, 0, 0, { opcode := 5, length := 8, atomicOp := 1 }, [], ((((wHead 5 false).dev.ladleTurn 0).map (·.2)).getD []), _, (wHead
      5 false), _, _, rfl, rfl, .inr ⟨by decide, by decide, rfl⟩, by decide⟩

theorem wit_Descriptors_6 : ∃ (q : Fin 8192) (order purpose : Nat) (y : Desc) (rest : List (Nat × Desc × Nat)) (credit : Tab Int) (g : Dev) (s : State) (d :
      Dev) (f : Dev), d = s.dev ∧ f = (g.setPair q { d.pair q with fetched := rest, granted := false }).mon s.time.now (48 + (d.pair
      q).ladle / 8) 0x301 (d.pair q).master 0 ∧ (((d.pair q).granted = true ∧ g = d) ∨ ((d.pair q).granted = false ∧ d.ladleTurn
      (d.pair q).ladle = some ((q : Nat), credit) ∧ g = d.takeTurn q credit)) ∧ d.ladlesRun = true ∧ (d.pair q).fetched = (order, y,
      purpose) :: rest ∧ y.opcode = 6 ∧ d.mayStart q = true ∧ y.fence = false ∧ y.check (d.pair q).fm (decide (purpose ≠ 0)) = none
      ∧ (f.ext (faExtent y.dst)).state = 7 ∧ f.isHome y.dst = true :=
    ⟨8191, 0, 0, { opcode := 6, length := 0x10000000, dstSpace := 2 }, [], [], _, (wHead 6 true), _, _, rfl, rfl, .inr ⟨by decide,
      by decide, rfl⟩, by decide⟩

theorem wit_Descriptors_7 : ∃ (q : Fin 8192) (order purpose : Nat) (y : Desc) (rest : List (Nat × Desc × Nat)) (credit : Tab Int) (g : Dev) (s : State) (d :
      Dev) (f : Dev), d = s.dev ∧ f = (g.setPair q { d.pair q with fetched := rest, granted := false }).mon s.time.now (48 + (d.pair
      q).ladle / 8) 0x301 (d.pair q).master 0 ∧ (((d.pair q).granted = true ∧ g = d) ∨ ((d.pair q).granted = false ∧ d.ladleTurn
      (d.pair q).ladle = some ((q : Nat), credit) ∧ g = d.takeTurn q credit)) ∧ d.ladlesRun = true ∧ (d.pair q).fetched = (order, y,
      purpose) :: rest ∧ y.opcode = 7 ∧ d.mayStart q = true ∧ y.fence = false ∧ y.check (d.pair q).fm (decide (purpose ≠ 0)) = none :=
    ⟨8191, 0, 1, { opcode := 7, length := 0x10000000, srcSpace := 2, dstSpace := 2 }, [], [], _, (wHead 7 true), _, _, rfl, rfl,
      .inr ⟨by decide, by decide, rfl⟩, by decide⟩

theorem wit_LadleEvents_1 : ∃ (vi : Fin 64) (queue value : Nat) (k : Nat) (s : State) (d : Dev), d = s.dev ∧ d.doorbellPort vi = none ∧ d.flag (Mbx.DOORBELL
      vi) = false ∧ d.localPair vi queue = some k ∧ (d.pair k).state = 2 ∧ d.ladlesRun = true ∧ value < (d.pair k).size ∧ ((d.pair
      k).sqTail + (d.pair k).size - (d.pair k).sqHead) % (d.pair k).size + (value + (d.pair k).size - (d.pair k).sqTail) % (d.pair
      k).size ≤ (d.pair k).size - 1 :=
    ⟨63, 5, 15, 8191, wRing, _, rfl, by decide⟩

theorem wit_LadleEvents_2 : ∃ (vi : Fin 64) (queue value : Nat) (k : Nat) (s : State) (d : Dev), d = s.dev ∧ d.doorbellPort vi = none ∧ d.flag (Mbx.DOORBELL
      vi) = false ∧ d.localPair vi queue = some k ∧ (d.pair k).state = 2 ∧ d.ladlesRun = true ∧ value < (d.pair k).size ∧ (value +
      (d.pair k).size - (d.pair k).cqHead) % (d.pair k).size ≤ (d.pair k).cqUsed :=
    ⟨63, 5, 2, 8191, wRing, _, rfl, by decide⟩

theorem wit_LadleEvents_3 : ∃ (ladle : Fin 32) (vi q : Nat) (credit : Tab Int) (s : State) (d : Dev) (ready : List (Nat × Pair)), d = s.dev ∧ ready =
      d.ladles.pairs.filter (fun x => decide (x.2.ladle = (ladle : Nat)) && (d.mayStart x.1 || d.mayFetch x.1)) ∧ d.ladlesRun = true
      ∧ d.flag (LadleR.GATED ladle) = false ∧ d.stopped = false ∧ d.placesUsed ladle < 8 ∧ ready.filter (fun x => x.2.fm) = [] ∧
      grantCredits (Tab.getD d.ladles.credit ladle []) ((List.range 64).filter (fun vi => ready.any (fun x => decide (x.2.inst =
      vi)))) d.ladleWeight = some (vi, credit) ∧ nextPair (Tab.getD d.ladles.lastPair (128 * ladle + vi) 8192) ((ready.filter (fun x
      => decide (x.2.inst = vi))).map (·.1)) = some q ∧ d.mayFetch q = true :=
    ⟨31, 63, 8191, (match grantCredits [] [63] (fun _ => 16) with | some c => c.2 | none => []), wFetch, _, _, rfl, rfl, by decide⟩

theorem wit_LadleEvents_4 : ∃ (run piece : Nat) (r z : Run) (p : Piece) (s : State) (d : Dev) (f : Dev), d = s.dev ∧ f = d.retirePiece s.time.now r p ∧
      d.run run = some r ∧ r.pieces.find? (fun p => decide (p.index = piece)) = some p ∧ p.over = true ∧ r.desc.opcode ≠ 7 ∧ f.run
      run = some z ∧ z.pieces ≠ [] :=
    ⟨7, 0, rw1, { rw1 with pieces := [{ index := 1, offset := 64, len := 64, reads := 1 }] },
      { index := 0, offset := 0, len := 64, turned := true }, wPiece, _, _, rfl, rfl, by decide⟩

theorem wit_LadleEvents_5 : ∃ (run piece : Nat) (r z : Run) (p : Piece) (s : State) (d : Dev) (f : Dev), d = s.dev ∧ f = d.retirePiece s.time.now r p ∧
      d.run run = some r ∧ r.pieces.find? (fun p => decide (p.index = piece)) = some p ∧ p.over = true ∧ r.desc.opcode ≠ 7 ∧ f.run
      run = some z ∧ z.pieces = [] ∧ z.exhausted = true ∧ z.silent = false ∧ z.desc.opcode ≠ 7 :=
    ⟨7, 0, rw2, { rw2 with pieces := [] }, { index := 0, offset := 0, len := 64, turned := true }, wPiece2, _, _, rfl, rfl, by
      decide⟩

theorem wit_LadleEvents_6 : ∃ (ladle : Fin 32) (s : State) (d : Dev), d = s.dev ∧ d.ladles.runs.any (fun r => decide (r.ladle = (ladle : Nat))) = false ∧
      d.ladles.pairs = [] :=
    ⟨31, w4, _, rfl, by decide⟩

theorem wit_LadleEvents_7 : ∃ (block : Fin 33) (s : State) (d : Dev), d = s.dev ∧ (block : Nat) < 32 :=
    ⟨31, w4, _, rfl, by decide⟩

theorem wit_LadleEvents_8 : ∃ (block : Fin 33) (s : State) (d : Dev), d = s.dev ∧ (block : Nat) = 32 :=
    ⟨32, w4, _, rfl, by decide⟩

theorem wit_GateCommands_1 : ∃ (h : SilekHdr) (addr first : Nat) (rules : List (BitVec 256)) (s : State) (d : Dev) (i : CmdInfo), d = s.begun.dev ∧ i = .of
      0x401 0 (.gateWrite h.key addr first rules) ∧ s.admits h i = true ∧ 1 ≤ rules.length ∧ rules.length ≤ 64 ∧ first +
      rules.length ≤ 4096 ∧ rules.any ruleBad = false ∧ addr = 0 :=
    ⟨hw, 0, 4095, [0], w4, _, _, rfl, rfl, by decide⟩

theorem wit_GateCommands_2 : ∃ (h : SilekHdr) (expected : Nat) (s : State) (d : Dev) (i : CmdInfo), d = s.begun.dev ∧ i = .of 0x402 0 (.gateCommit h.key
      expected) ∧ s.admits h i = true ∧ d.memb.rejoining = false ∧ d.flag GateR.COMMIT_BUSY = false ∧ d.silek.running.any (fun r =>
      decide (r.work = .commit)) = false ∧ expected = d.rd GateR.RULE_EPOCH :=
    ⟨hw, 0, w4, _, _, rfl, rfl, by decide⟩

theorem wit_GateCommands_3 : ∃ (s : State) (d : Dev), d = s.dev ∧ d.flag GateR.COMMIT_BUSY = true ∧ d.inFlightOld = 0 :=
    ⟨(wd ((dm 4).wr GateR.COMMIT_BUSY 1)), _, rfl, by decide⟩

theorem wit_GateCommands_4 : ∃ (h : SilekHdr) (addr sel first count : Nat) (s : State) (d : Dev) (i : CmdInfo), d = s.begun.dev ∧ i = .of 0x403 0 (.gateRead
      h.key addr sel first count) ∧ s.admits h i = true ∧ sel ≤ 1 ∧ 1 ≤ count ∧ count ≤ 64 ∧ first + count ≤ 4096 ∧ addr = 0 :=
    ⟨hw, 0, 1, 4095, 1, w4, _, _, rfl, rfl, by decide⟩

theorem wit_GateCommands_5 : ∃ (h : SilekHdr) (addr : Nat) (s : State) (d : Dev) (i : CmdInfo), d = s.begun.dev ∧ i = .of 0x404 0 (.gateDiscard h.key addr) ∧
      s.admits h i = true ∧ addr = 0 :=
    ⟨hw, 0, w4, _, _, rfl, rfl, by decide⟩

theorem wit_GateCommands_6 : ∃ (staging : Bool) (index : Fin 4096) (fixed : Nat) (s : State) (d : Dev) (f : Dev), d = s.dev ∧ f = ((d.hbCount 4 1).logErr
      s.time.now { cls := 2, severity := 1, source := 8, addr := 32 * (index : Nat), detail := 7 }).raise1 GateR.RULE_ECC_EVT ∧
      d.mode ≠ 0 ∧ 2 ≤ fixed ∧ staging = false :=
    ⟨false, 4095, 2, w4, _, _, rfl, rfl, by decide⟩

theorem wit_MembershipCommands_1 : ∃ (h : SilekHdr) (bitmap : Nat) (s : State) (d : Dev) (i : CmdInfo) (f : Dev), d = s.begun.dev ∧ i = .of 0x501 0 (.membershipSet
      h.key bitmap) ∧ s.admits h i = true ∧ f = d.advance s.time.now { d.epochArgs with configured := bitmap } ∧ d.acting = true ∧
      bitmap < 2 ^ 16 ∧ hasAddr bitmap d.epochArgs.primary = true ∧ d.epochArgs.mirror = 0 ∧ f.memb.advancing = none :=
    ⟨hw, 0x8001, w8, _, _, _, rfl, rfl, by decide, rfl, by decide⟩

theorem wit_MembershipCommands_2 : ∃ (h : SilekHdr) (s : State) (d : Dev) (i : CmdInfo), d = s.begun.dev ∧ i = .of 0x502 0 (.membershipQuery h.key) ∧ s.admits h i
      = true ∧ d.acting = true :=
    ⟨hw, w8, _, _, rfl, rfl, by decide⟩

theorem wit_MembershipCommands_3 : ∃ (h : SilekHdr) (role : Nat) (a : Nat) (s : State) (d : Dev) (i : CmdInfo), d = s.begun.dev ∧ i = .of 0x503 0 (.memberJoin
      h.key role) ∧ s.admits h i = true ∧ h.requester = .member a ∧ role = 3 ∧ d.acting = true ∧ d.mayJoin a 7 = true ∧
      d.memb.joining = none :=
    ⟨(hm 2), 3, 2, w8j, _, _, rfl, rfl, by decide⟩

theorem wit_MembershipCommands_4 : ∃ (s : State) (d : Dev), d = s.dev ∧ d.memb.rejoining = true ∧ d.mode = 3 :=
    ⟨(wd { dm 3 with memb := { rejoining := true } }), _, rfl, by decide⟩

theorem wit_MembershipCommands_5 : ∃ (h : SilekHdr) (addr role mode : Nat) (a : Nat) (s : State) (d : Dev) (i : CmdInfo), d = s.begun.dev ∧ i = .of 0x504 0
      (.memberRejoin h.key addr role mode) ∧ s.admits h i = true ∧ h.requester = .member a ∧ d.mode = 9 ∧ addr = d.chainAddr ∧
      d.memb.discarding = true :=
    ⟨(hm 1), 2, 3, 7, 1, w9, _, _, rfl, rfl, by decide⟩

theorem wit_MembershipCommands_6 : ∃ (h : SilekHdr) (addr role mode : Nat) (a : Nat) (s : State) (d : Dev) (i : CmdInfo), d = s.begun.dev ∧ i = .of 0x504 0
      (.memberRejoin h.key addr role mode) ∧ s.admits h i = true ∧ h.requester = .fm a ∧ d.acting = true ∧ 1 ≤ addr ∧ addr ≤ 16 ∧
      role = 3 ∧ mode = 7 ∧ d.mayJoin addr 7 = true ∧ d.silentAt addr = false ∧ d.rd (Memb.peer_MODE_SEEN (addr - 1)) = 9 ∧
      d.memb.joining = none :=
    ⟨hw, 2, 3, 7, 1, w8r, _, _, rfl, rfl, by decide⟩

theorem wit_MembershipCommands_7 : ∃ (h : SilekHdr) (a : Nat) (s : State) (d : Dev) (i : CmdInfo) (f : Dev), d = s.begun.dev ∧ i = .of 0x505 0 (.memberDeclareDead
      h.key a) ∧ s.admits h i = true ∧ f = d.declareDead s.time.now [a] ∧ d.acting = true ∧ a ≠ d.chainAddr ∧ 1 ≤ a ∧ a ≤ 16 ∧
      d.alive a = true ∧ f.deathOver a = false :=
    ⟨hw, 3, w8m, _, _, _, rfl, rfl, by decide, rfl, by decide⟩

theorem wit_MembershipCommands_8 : ∃ (h : SilekHdr) (a : Nat) (s : State) (d : Dev) (i : CmdInfo) (f : Dev), d = s.begun.dev ∧ i = .of 0x505 0 (.memberDeclareDead
      h.key a) ∧ s.admits h i = true ∧ f = d.declareDead s.time.now [a] ∧ d.acting = true ∧ a ≠ d.chainAddr ∧ 1 ≤ a ∧ a ≤ 16 ∧
      d.alive a = true ∧ f.deathOver a = true :=
    ⟨hw, 3, w8n, _, _, _, rfl, rfl, by decide, rfl, by decide⟩

theorem wit_MembershipCommands_9 : ∃ (h : SilekHdr) (a : Nat) (s : State) (d : Dev) (i : CmdInfo), d = s.begun.dev ∧ i = .of 0x505 0 (.memberDeclareDead h.key a) ∧
      s.admits h i = true ∧ d.acting = true ∧ a ≠ d.chainAddr ∧ 1 ≤ a ∧ a ≤ 16 ∧ d.alive a = false :=
    ⟨hw, 16, w8m, _, _, rfl, rfl, by decide⟩

theorem wit_MembershipCommands_10 : ∃ (h : SilekHdr) (epoch prev configured alive primary mirror pair : Nat) (failover kept : Bool) (a : Nat) (s : State) (d : Dev)
      (i : CmdInfo), d = s.begun.dev ∧ i = .of 0x506 0 (.epochAdvance h.key epoch prev configured alive primary mirror pair failover
      kept) ∧ s.admits h i = true ∧ h.requester = .member a ∧ d.memb.rejoining = false ∧ a = d.rd Memb.PRIMARY_ADDR ∧ a ≠ 0 ∧ prev =
      d.epoch ∧ d.epoch ≠ 0 ∧ 5 ≤ d.mode ∧ failover = false :=
    ⟨(hm 1), 6, 5, 3, 3, 1, 0, 0, false, false, 1, w7, _, _, rfl, rfl, by decide⟩

theorem wit_MembershipCommands_11 : ∃ (l : List Nat) (s : State) (d : Dev), d = s.dev ∧ d.memb.advancing = some l :=
    ⟨[3], (wd { dm 8 with memb := { advancing := some [3] } }), _, rfl, by decide⟩

theorem wit_MembershipCommands_12 : ∃ (h : SilekHdr) (n a port ld : Nat) (s : State) (d : Dev) (i : CmdInfo), d = s.begun.dev ∧ i = .of 0x507 3 (.pairHeadSet h.key
      n a port ld) ∧ s.admits h i = true ∧ d.acting = true ∧ n ≤ 31 ∧ 1 ≤ a ∧ a ≤ 16 ∧ port ≤ 63 ∧ ld ≤ 15 ∧ a ≠ d.chainAddr :=
    ⟨hw, 31, 16, 63, 15, w8, _, _, rfl, rfl, by decide⟩

theorem wit_MembershipCommands_13 : ∃ (h : SilekHdr) (s : State) (d : Dev) (i : CmdInfo), d = s.begun.dev ∧ i = .of 0x508 3 (.mirrorResync h.key) ∧ s.admits h i =
      true ∧ d.acting = true ∧ d.rd Memb.MIRROR_ADDR ≠ 0 ∧ d.rd (Memb.peer_MODE_SEEN (d.rd Memb.MIRROR_ADDR - 1)) = 6 :=
    ⟨hw, w5m, _, _, rfl, rfl, by decide⟩

theorem wit_MembershipCommands_14 : ∃ (h : SilekHdr) (a port ld unit : Nat) (m : Nat) (s : State) (d : Dev) (i : CmdInfo), d = s.begun.dev ∧ i = .of 0x509 3
      (.replicaSet h.key a port ld unit) ∧ s.admits h i = true ∧ h.requester = .member m ∧ d.isDevicePort port = true ∧ ld ≤ 15 ∧
      unit + (1 + d.rd ChurnR.T2_UNITS) ≤ (d.port port).capacity.getD ld 0 ∧ d.extents.any (fun x => decide (x.2.state ≠ 0) &&
      decide (x.2.port = port) && decide (x.2.ld = ld) && decide (unit ≤ x.2.dpaUnit) && decide (x.2.dpaUnit < unit + (1 + d.rd
      ChurnR.T2_UNITS))) = false :=
    ⟨(hm 1), 2, 4, 0, 3, 1, w7d, _, _, rfl, rfl, by decide⟩

theorem wit_MembershipCommands_15 : ∃ (h : SilekHdr) (k : Nat) (valid : Bool) (kind port chain : Nat) (s : State) (d : Dev) (i : CmdInfo), d = s.begun.dev ∧ i = .of
      0x510 0 (.sharerSlotSet h.key k valid kind port chain) ∧ s.admits h i = true ∧ k ≤ 63 ∧ valid = true ∧ kind = 0 ∧ d.isHostPort
      port = true ∧ d.chn.slots.any (fun y => decide (y.1 ≠ k ∧ y.2.valid ∧ y.2.kind = 0 ∧ y.2.port = port ∧ y.2.chain = 0)) = false
      ∧ d.refs k = 0 ∧ d.sharer k = {} :=
    ⟨hw, 63, true, 0, 0, 0, wHost, _, _, rfl, rfl, by decide⟩

theorem wit_MembershipCommands_16 : ∃ (h : SilekHdr) (s : State) (d : Dev) (i : CmdInfo), d = s.begun.dev ∧ i = .of 0x511 3 (.sharerSlotQuery h.key) ∧ s.admits h i
      = true :=
    ⟨hw, w4, _, _, rfl, rfl, by decide⟩

theorem wit_ModeCommands_1 : ∃ (h : SilekHdr) (expected target role : Nat) (s : State) (d : Dev) (i : CmdInfo), d = s.begun.dev ∧ i = .of 0xa01 0 (.modeSet
      h.key expected target role) ∧ s.admits h i = true ∧ d.mode = 3 ∧ expected = 3 ∧ target = 4 ∧ role = 0 ∧ d.flag
      Glob.TRANSITION_BUSY = false :=
    ⟨hw, 3, 4, 0, (wd (dm 3)), _, _, rfl, rfl, by decide⟩

theorem wit_ModeCommands_2 : ∃ (h : SilekHdr) (expected target role : Nat) (s : State) (d : Dev) (i : CmdInfo), d = s.begun.dev ∧ i = .of 0xa01 0 (.modeSet
      h.key expected target role) ∧ s.admits h i = true ∧ d.mode = 3 ∧ expected = 3 ∧ target = 7 ∧ role = 3 ∧ d.flag
      Glob.TRANSITION_BUSY = false ∧ d.chainAddr ≠ 0 :=
    ⟨hw, 3, 7, 3, (wd ((dm 3).wr Glob.CHAIN_ADDRESS 2)), _, _, rfl, rfl, by decide⟩

theorem wit_ModeCommands_3 : ∃ (h : SilekHdr) (expected target role : Nat) (s : State) (d : Dev) (i : CmdInfo), d = s.begun.dev ∧ i = .of 0xa01 0 (.modeSet
      h.key expected target role) ∧ s.admits h i = true ∧ d.mode = 10 ∧ expected = 10 ∧ target = 3 ∧ role ≤ 3 ∧ d.flag
      Glob.TRANSITION_BUSY = false ∧ d.sc.update = none ∧ d.sc.pldmStep = 0 :=
    ⟨hw, 10, 3, 0, (wd (dm 10)), _, _, rfl, rfl, by decide⟩

theorem wit_ModeCommands_4 : ∃ (h : SilekHdr) (s : State) (d : Dev) (i : CmdInfo), d = s.begun.dev ∧ i = .of 0xa02 0 (.modeQuery h.key) ∧ s.admits h i = true :=
    ⟨hw, w4, _, _, rfl, rfl, by decide⟩

theorem wit_ModeCommands_5 : ∃ (h : SilekHdr) (bitmap : Nat) (cfgs : List GroupConfig) (c : GroupConfig) (s : State) (d : Dev) (i : CmdInfo), d = s.begun.dev
      ∧ i = .of 0xa10 0 (.portConfig h.key bitmap cfgs) ∧ s.admits h i = true ∧ d.mode = 3 ∧ bitmap = 1 ∧ cfgs = [c] ∧ c.bifurcation
      ≤ 4 ∧ c.personality ≤ 3 ∧ c.maxRate ≤ 15 ∧ c.sris ≤ 1 ∧ gangsOk (d.groupsAfter [(0, c)]) = true ∧ (List.range 4).any (fun k =>
      d.portInUse (4 * 0 + k)) = false ∧ limitsOk (d.groupsAfter [(0, c)]) = true ∧ c.personality ≠ 0 :=
    ⟨hw, 1, [{ bifurcation := 0, personality := 1, maxRate := 6, sris := 0 }],
      { bifurcation := 0, personality := 1, maxRate := 6, sris := 0 }, (wd (dm 3)), _, _, rfl, rfl, by decide⟩

theorem wit_ModeCommands_6 : ∃ (group : Fin 16) (s : State) (d : Dev), d = s.dev ∧ 2 ≤ d.mode ∧ d.rd (Pg.PERSONALITY group) ≠ 0 :=
    ⟨15, (wd ((dm 3).wr (Pg.PERSONALITY 15) 1)), _, rfl, by decide⟩

theorem wit_ModeCommands_7 : ∃ (h : SilekHdr) (port action : Nat) (s : State) (d : Dev) (i : CmdInfo) (f : Dev) (g : Dev), d = s.begun.dev ∧ i = .of 0xa11 0
      (.portControl h.key port action) ∧ s.admits h i = true ∧ f = d.removePort s.time.now port ∧ g = f.setPort port
      { f.port port with disabled := true } ∧ port ≤ 63 ∧ action = 0 ∧ d.present port = true ∧ d.personality port ≠ 3 ∧ g.flag
      (Pg.RECLAIM_BUSY port) = false :=
    ⟨hw, 0, 0, wHost, _, _, _, _, rfl, rfl, by decide, rfl, rfl, by decide⟩

theorem wit_ModeCommands_8 : ∃ (h : SilekHdr) (port action : Nat) (s : State) (d : Dev) (i : CmdInfo) (f : Dev) (g : Dev), d = s.begun.dev ∧ i = .of 0xa11 0
      (.portControl h.key port action) ∧ s.admits h i = true ∧ f = d.removePort s.time.now port ∧ g = f.setPort port
      { f.port port with disabled := true } ∧ port ≤ 63 ∧ action = 0 ∧ d.present port = true ∧ d.personality port ≠ 3 ∧ g.flag
      (Pg.RECLAIM_BUSY port) = true :=
    ⟨hw, 0, 0, (wd ((((dm 4).wr (Pg.PERSONALITY 0) 1).wr (Pg.BIFURCATION 0) 0).wr (Pg.RECLAIM_BUSY 0) 1)), _, _, _, _, rfl, rfl, by
      decide, rfl, rfl, by decide⟩

theorem wit_ModeCommands_9 : ∃ (h : SilekHdr) (port action : Nat) (s : State) (d : Dev) (i : CmdInfo), d = s.begun.dev ∧ i = .of 0xa11 0 (.portControl h.key
      port action) ∧ s.admits h i = true ∧ port ≤ 63 ∧ action ≤ 3 ∧ d.present port = true ∧ d.personality port = 3 :=
    ⟨hw, 0, 3, (wd (((dm 4).wr (Pg.PERSONALITY 0) 3).wr (Pg.BIFURCATION 0) 0)), _, _, rfl, rfl, by decide⟩

theorem wit_ModeCommands_10 : ∃ (h : SilekHdr) (mode : Nat) (s : State) (d : Dev) (i : CmdInfo), d = s.begun.dev ∧ i = .of 0xa31 0 (.configSave h.key mode) ∧
      s.admits h i = true ∧ mode = 255 ∧ d.sc.update = none ∧ d.sc.pldmStep = 0 :=
    ⟨hw, 255, w4, _, _, rfl, rfl, by decide⟩

theorem wit_ModeCommands_11 : ∃ (x : FlashConfig) (s : State) (d : Dev), d = s.dev ∧ d.flashNext = some x :=
    ⟨{}, (wd { dm 4 with flashNext := some {} }), _, rfl, by decide⟩

theorem wit_ModeCommands_12 : ∃ (h : SilekHdr) (scope id : Nat) (s : State) (d : Dev) (i : CmdInfo), d = s.begun.dev ∧ i =
      { CmdInfo.of 0xa20 0 (.barrierCmd h.key scope id) with hostMay := fun d vi => (decide (scope = 0) && decide (id = vi)) || (decide (scope = 1) && (let q := Tab.getD d.ladles.pairs id {}; decide (q.state ≠ 0) && !q.fm && decide (q.inst = vi))) }
      ∧ s.admits h i = true ∧ scope = 3 ∧ id = 0 ∧ d.buf.barriers = [] ∧ d.covered 3 0 = [] :=
    ⟨hw, 3, 0, w4, _, _, rfl, rfl, by decide⟩

theorem wit_ResetEvents_1 : ∃ (h : SilekHdr) (delay : Nat) (s : State) (d : Dev) (i : CmdInfo), d = s.begun.dev ∧ i = .of 0xa30 0 (.warmReset h.key delay) ∧
      s.admits h i = true ∧ delay ≤ 1000 ∧ d.flag Glob.TRANSITION_BUSY = false :=
    ⟨hw, 1000, w4, _, _, rfl, rfl, by decide⟩

theorem wit_ResetEvents_2 : ∃ (c : Nat) (s : State) (d : Dev), d = s.dev ∧ d.rst.warmDelay = some c ∧ 2 ≤ d.mode ∧ d.rst.draining = none :=
    ⟨3, (wd { dm 4 with rst := { warmDelay := some 3 } }), _, rfl, by decide⟩

theorem wit_ResetEvents_3 : ∃ (s : State) (d : Dev), d = s.dev ∧ d.flaws = [] ∧ 2 ≤ d.mode ∧ ((d.raise1 Glob.WDT_EXPIRED_EVT).hbCount 10 1).rst.draining =
      none :=
    ⟨w4, _, rfl, by decide⟩

theorem wit_ResetEvents_4 : ∃ (e : EgressEntry) (s : State) (d : Dev) (g : Dev), d = s.dev ∧ g = (d.logErr s.time.now
      { cls := 9, severity := 1, source := 0x20 + e.port / 4, access := 8, addr := e.addr, detail := 1 }).dropWrites ∧
      d.rst.draining.isSome = true ∧ d.rst.powerFall = false ∧ d.buf.entries = [e] ∧ d.buf.remote = [] ∧ e.writes.length = 1 :=
    ⟨{ port := 0, ld := 0, body := .msix 0 0, incarnation := 0, writes := [{ id := 0, master := 0, time := 0, ruleEpoch := 0 }] },
      (wd
      { dm 4 with rst := { draining := some 3 }, buf := { entries := [{ port := 0, ld := 0, body := .msix 0 0, incarnation := 0, writes := [{ id := 0, master := 0, time := 0, ruleEpoch := 0 }] }] } }),
      _, _, rfl, rfl, by decide⟩

theorem wit_ResetEvents_5 : ∃ (s : State) (c : Nat), s.dev.rst.draining = some c ∧ s.dev.drainOver = true :=
    ⟨(wd { dm 4 with rst := { draining := some 3 } }), 3, by decide⟩

theorem wit_ResetEvents_6 : ∃ (s : State) (d : Dev), d = s.dev ∧ d.mode ≠ 0 :=
    ⟨w4, _, rfl, by decide⟩

theorem wit_ResetEvents_7 : ∃ (s : State) (d : Dev), d = s.dev ∧ d.rst.powerFall = true ∧ d.buf.entries = [] ∧ d.buf.remote = [] :=
    ⟨(wd { dm 4 with rst := { powerFall := true } }), _, rfl, by decide⟩

theorem wit_ResetEvents_8 : ∃ (straps : Straps) (inRange zeroizeHigh : Bool) (s : State) (d : Dev) (f : Dev), d = s.dev ∧ f =
      ((({ d with rst := { d.rst with inOm0 := false, pinLow := false, straps := straps, scanHold := false, booting := true, exitTime := s.time.now } }
      : Dev).wr Glob.CAUSE d.rst.cause).wr Glob.RAIL (if d.rst.cause = 2 then d.rst.rail else 0)) ∧ d.rst.inOm0 = true ∧
      d.rst.pinLow = true ∧ inRange = true ∧ zeroizeHigh = true ∧ d.jtag.instruction = 1 :=
    ⟨{}, true, true, (wd { ({} : Dev) with rst := { inOm0 := true, pinLow := true }, jtag := { instruction := 1 } }), _, _, rfl,
      rfl, by decide⟩

theorem wit_ResetEvents_9 : ∃ (s : State), s.dev.rst.inOm0 = false :=
    ⟨w4, by decide⟩

theorem wit_ResetEvents_10 : ∃ (s : State) (rail : Fin 6), s.dev.rst.inOm0 = false :=
    ⟨w4, 5, by decide⟩

theorem wit_ResetEvents_11 : ∃ (h : SilekHdr) (word a : Nat) (s : State) (i : CmdInfo), i = .of 0x711 0 (.zeroize h.key word) ∧ s.admits h i = true ∧
      h.requester = .fm a ∧ s.begun.dev.unsecured h.secured = false ∧ word = 0x5a45524f :=
    ⟨hw, 0x5a45524f, 1, w4, _, rfl, by decide⟩

theorem wit_ResetEvents_12 : ∃ (kat : Nat) (linear16 : Bool) (s : State) (d : Dev), d = s.dev ∧ d.mode = 1 ∧ d.rst.booting = true ∧ kat ≠ 0 :=
    ⟨3, true, (wd { dm 1 with rst := { booting := true } }), _, rfl, by decide⟩

theorem wit_ResetEvents_13 : ∃ (code : Fin 256) (s : State) (d : Dev), d = s.dev ∧ code = 1 :=
    ⟨1, w4, _, rfl, by decide⟩

theorem wit_ResetEvents_14 : ∃ (s : State) (d : Dev), d = s.dev ∧ d.rst.scanHold = false :=
    ⟨w4, _, rfl, by decide⟩

theorem wit_SlotPower_1 : ∃ (h : SilekHdr) (ch : Nat) (s : State) (d : Dev) (i : CmdInfo), d = s.begun.dev ∧ i = .of 0x601 0 (.slotPowerOn h.key ch) ∧
      s.admits h i = true ∧ ch ≤ 15 ∧ d.rd (Spc.ch_RSENSE ch) ≠ 0 ∧ d.rd (Spc.ch_STATE ch) = 0 ∧ d.flag (Spc.ch_COOLDOWN ch) = false :=
    ⟨hw, 15, (wd (((dm 4).wr (Spc.ch_RSENSE 15) 20).wr (Spc.ch_STATE 15) 0)), _, _, rfl, rfl, by decide⟩

theorem wit_SlotPower_2 : ∃ (h : SilekHdr) (ch force : Nat) (s : State) (d : Dev) (i : CmdInfo) (f : Dev), d = s.begun.dev ∧ i = .of 0x602 0
      (.slotPowerOff h.key ch force) ∧ s.admits h i = true ∧ f = (((d.powerGoodFalls s.time.now ch).wrFlag (Spc.ch_TIMER_RUN ch)
      false).wrFlag (Spc.ch_IN_LIMIT ch) false).wr (Spc.ch_STATE ch) 5 ∧ ch ≤ 15 ∧ d.rd (Spc.ch_RSENSE ch) ≠ 0 ∧ d.rd (Spc.ch_STATE
      ch) = 4 ∧ force = 1 :=
    ⟨hw, 15, 1, (wd (((dm 4).wr (Spc.ch_RSENSE 15) 20).wr (Spc.ch_STATE 15) 4)), _, _, _, rfl, rfl, by decide, rfl, by decide⟩

theorem wit_SlotPower_3 : ∃ (h : SilekHdr) (ch ilim timer : Nat) (f : Dev) (s : State) (d : Dev) (i : CmdInfo), d = s.begun.dev ∧ i = .of 0x603 0
      (.slotPowerConfig h.key ch ilim timer) ∧ s.admits h i = true ∧ ch ≤ 15 ∧ d.rd (Spc.ch_RSENSE ch) ≠ 0 ∧ 10 ≤ ilim ∧ ilim ≤ 120
      ∧ 1 ≤ timer ∧ timer ≤ 255 ∧ ilim * d.rd (Spc.ch_RSENSE ch) ≤ 2500 ∧ f = (d.wr (Spc.ch_ILIM ch) ilim).wr (Spc.ch_FAULT_TIMER
      ch) timer :=
    ⟨hw, 15, 120, 255, _, (wd (((dm 4).wr (Spc.ch_RSENSE 15) 20).wr (Spc.ch_STATE 15) 0)), _, _, rfl, rfl, by decide, by decide, by
      decide, by decide, by decide, by decide, by decide, by decide, rfl⟩

theorem wit_SlotPower_4 : ∃ (h : SilekHdr) (ch : Nat) (s : State) (d : Dev) (i : CmdInfo), d = s.begun.dev ∧ i = .of 0x604 0 (.slotPowerQuery h.key ch) ∧
      s.admits h i = true ∧ ch ≤ 15 ∧ d.rd (Spc.ch_RSENSE ch) ≠ 0 :=
    ⟨hw, 15, (wd (((dm 4).wr (Spc.ch_RSENSE 15) 20).wr (Spc.ch_STATE 15) 0)), _, _, rfl, rfl, by decide⟩

theorem wit_SlotPower_5 : ∃ (samples : List AdcSample) (x : AdcSample) (s : State) (d : Dev) (f : Dev), d = s.dev ∧ f = d.scanChannel s.time.now 0 x ∧
      samples = [x] :=
    ⟨[{ current := 100, vout := 12000, vin := 12000 }], { current := 100, vout := 12000, vin := 12000 }, (wd (((dm 4).wr
      (Spc.ch_RSENSE 15) 20).wr (Spc.ch_STATE 15) 4)), _, _, rfl, rfl, by decide⟩

theorem wit_SlotPower_6 : ∃ (ch : Fin 16) (s : State) (d : Dev), d = s.dev ∧ d.rd (Spc.ch_STATE ch) = 1 :=
    ⟨15, (wd (((dm 4).wr (Spc.ch_RSENSE 15) 20).wr (Spc.ch_STATE 15) 1)), _, rfl, by decide⟩

theorem wit_SlotPower_7 : ∃ (ch : Fin 16) (s : State) (d : Dev), d = s.dev ∧ d.rd (Spc.ch_STATE ch) = 2 :=
    ⟨15, (wd (((dm 4).wr (Spc.ch_RSENSE 15) 20).wr (Spc.ch_STATE 15) 2)), _, rfl, by decide⟩

theorem wit_SlotPower_8 : ∃ (ch : Fin 16) (s : State) (d : Dev), d = s.dev ∧ (d.rd (Spc.ch_STATE ch) = 2 ∨ d.rd (Spc.ch_STATE ch) = 3) :=
    ⟨15, (wd (((dm 4).wr (Spc.ch_RSENSE 15) 20).wr (Spc.ch_STATE 15) 3)), _, rfl, by decide⟩

theorem wit_SlotPower_9 : ∃ (ch : Fin 16) (s : State) (d : Dev) (f : Dev), d = s.dev ∧ f = ((d.wr (Spc.ch_STATE ch) 4).spcDrive (Spc.ch_PG ch) (.spcPg ch)
      true).raise1 (Spc.ch_PG_RISE_EVT ch) ∧ d.rd (Spc.ch_STATE ch) = 3 ∧ d.flag (Spc.ch_TIMER_RUN ch) = false ∧ 10800 ≤ d.rd
      (Spc.ch_VOUT ch) :=
    ⟨15, (wd (((dm 4).wr (Spc.ch_VOUT 15) 10800).wr (Spc.ch_STATE 15) 3)), _, _, rfl, rfl, by decide⟩

theorem wit_SlotPower_10 : ∃ (ch : Fin 16) (s : State) (d : Dev), d = s.dev ∧ d.rd (Spc.ch_STATE ch) = 4 :=
    ⟨15, (wd (((dm 4).wr (Spc.ch_RSENSE 15) 20).wr (Spc.ch_STATE 15) 4)), _, rfl, by decide⟩

theorem wit_SlotPower_11 : ∃ (ch : Fin 16) (s : State) (d : Dev), d = s.dev ∧ (d.wrFlag (Spc.ch_IN_LIMIT ch) false).rd (Spc.ch_STATE ch) = 3 :=
    ⟨15, (wd (((dm 4).wr (Spc.ch_RSENSE 15) 20).wr (Spc.ch_STATE 15) 3)), _, rfl, by decide⟩

theorem wit_SlotPower_12 : ∃ (ch : Fin 16) (s : State) (d : Dev), d = s.dev ∧ d.flag (Spc.ch_TIMER_RUN ch) = true :=
    ⟨15, (wd ((dm 4).wr (Spc.ch_TIMER_RUN 15) 1)), _, rfl, by decide⟩

theorem wit_SlotPower_13 : ∃ (ch : Fin 16) (s : State) (d : Dev), d = s.dev ∧ d.rd (Spc.ch_STATE ch) ≠ 0 ∧ d.rd (Spc.ch_RSENSE ch) ≠ 0 :=
    ⟨15, (wd (((dm 4).wr (Spc.ch_RSENSE 15) 20).wr (Spc.ch_STATE 15) 4)), _, rfl, by decide⟩

theorem wit_SlotPower_14 : ∃ (ch : Fin 16) (s : State) (d : Dev), d = s.dev ∧ d.rd (Spc.ch_STATE ch) = 5 :=
    ⟨15, (wd (((dm 4).wr (Spc.ch_RSENSE 15) 20).wr (Spc.ch_STATE 15) 5)), _, rfl, by decide⟩

theorem wit_SlotPower_15 : ∃ (ch : Fin 16) (s : State) (d : Dev), d = s.dev :=
    ⟨15, (wd (((dm 4).wr (Spc.ch_RSENSE 15) 20).wr (Spc.ch_STATE 15) 6)), _, rfl⟩

theorem wit_CoreSupply_1 : ∃ (cycles : List Nat) (c : Nat) (s : State) (d : Dev), d = s.dev ∧ d.mode ≠ 0 ∧ cycles = [c] ∧ 0 < c ∧ c ≤ 1250 ∧ ((d.wr
      Glob.SPEED_INDEX c).wr Glob.SLOW_TILE 0).rd Glob.SPEED_FASTEST ≤ c ∧ c ≤ ((d.wr Glob.SPEED_INDEX c).wr Glob.SLOW_TILE 0).rd
      Glob.SPEED_SLOWEST :=
    ⟨[1000], 1000, (wd (((dm 4).wr Glob.SPEED_FASTEST 900).wr Glob.SPEED_SLOWEST 1100)), _, rfl, by decide⟩

theorem wit_CoreSupply_2 : ∃ (ok : Bool) (s : State) (d : Dev) (f : Dev), d = s.dev ∧ f = d.wr Glob.VCORE_SET (d.rd Glob.VCORE_SET + 5) ∧ ok = true ∧
      d.mode ≠ 0 ∧ d.rst.booting = false ∧ d.thermal.pmbus = 0 ∧ d.flag Glob.AVS_EN = true ∧ d.rd Glob.SPEED_TARGET < d.rd
      Glob.SPEED_INDEX ∧ d.rd Glob.VCORE_SET < 5 * d.rd Glob.VCORE_MAX :=
    ⟨true, (wd
      { ((((dm 4).wr Glob.AVS_EN 1).wr Glob.SPEED_INDEX 1200).wr Glob.VCORE_SET 750).wr Glob.VCORE_MAX 160 with rst := { booting := false } }),
      _, _, rfl, rfl, by decide⟩

theorem wit_CoreSupply_3 : ∃ (ok : Bool) (s : State) (d : Dev), d = s.dev ∧ ok = true ∧ d.mode ≠ 0 ∧ d.thermal.pmbus = 1 :=
    ⟨true, (wd { dm 4 with thermal := { pmbus := 1 } }), _, rfl, by decide⟩

theorem wit_CoreSupply_4 : ∃ (mv : Nat) (s : State) (d : Dev), d = s.dev ∧ d.mode ≠ 0 ∧ 700 ≤ mv ∧ mv ≤ 900 :=
    ⟨900, w4, _, rfl, by decide⟩

theorem wit_FirmwareUpdate_1 : ∃ (h : SilekHdr) (bank len : Nat) (s : State) (d : Dev) (i : CmdInfo), d = s.begun.dev ∧ i = .of 0x701 0 (.fwUpdateStart h.key
      bank len) ∧ s.admits h i = true ∧ d.unsecured h.secured = false ∧ d.mode = 10 ∧ bank ≤ 1 ∧ d.sc.update = none ∧ d.sc.pldmStep
      = 0 ∧ d.runs bank = false ∧ 4097 ≤ len ∧ len ≤ 25161728 :=
    ⟨hw, 1, 25161728, (wd (((dm 10).wr ScR.SC_STATE 1).wr (ScR.RUNNING 0) 1)), _, _, rfl, rfl, by decide⟩

theorem wit_FirmwareUpdate_2 : ∃ (b : Nat) (s : State) (d : Dev), d = s.dev ∧ d.sc.update = some (b, false) ∧ (d.bank b).state = 0 :=
    ⟨1, (wd { ((((dm 10).wr ScR.SC_STATE 1).wr (ScR.RUNNING 0) 1).setBank 1 {}) with sc := { update := some (1, false) } }), _, rfl,
      by decide⟩

theorem wit_FirmwareUpdate_3 : ∃ (h : SilekHdr) (off len : Nat) (data : List Byte) (b : Nat) (s : State) (d : Dev) (i : CmdInfo), d = s.begun.dev ∧ i = .of
      0x702 0 (.fwUpdateData h.key off len data) ∧ s.admits h i = true ∧ d.unsecured h.secured = false ∧ d.mode = 10 ∧ d.sc.update =
      some (b, false) ∧ (d.bank b).state = 1 ∧ 1 ≤ len ∧ len ≤ 3064 ∧ data.length = len ∧ off = (d.bank b).image.length ∧ off + len
      ≤ (d.bank b).declared :=
    ⟨hw, 0, 1, [0], 1, (wd
      { ((((dm 10).wr ScR.SC_STATE 1).wr (ScR.RUNNING 0) 1).setBank 1 { state := 1, declared := 4097 }) with sc := { update := some (1, false) } }),
      _, _, rfl, rfl, by decide⟩

theorem wit_FirmwareUpdate_4 : ∃ (h : SilekHdr) (bank : Nat) (s : State) (d : Dev) (i : CmdInfo) (f : Dev) (c : Nat), d = s.begun.dev ∧ i = .of 0x703 0
      (.fwUpdateVerify h.key bank) ∧ s.admits h i = true ∧ f = (d.verifyBank bank).1.endUpdate ∧ c = (d.verifyBank bank).2 ∧
      d.unsecured h.secured = false ∧ d.mode = 10 ∧ bank ≤ 1 ∧ d.sc.update = some (bank, false) ∧ (d.bank bank).state = 1 ∧ (d.bank
      bank).declared ≤ (d.bank bank).image.length ∧ d.rd ScR.SC_STATE ≠ 2 :=
    ⟨hw, 1, (wd
      { ((((dm 10).wr ScR.SC_STATE 1).wr (ScR.RUNNING 0) 1).setBank 1 { state := 1 }) with sc := { update := some (1, false) } }),
      _, _, _, _, rfl, rfl, by decide, rfl, rfl, by decide⟩

theorem wit_FirmwareUpdate_5 : ∃ (h : SilekHdr) (bank : Nat) (s : State) (d : Dev) (i : CmdInfo), d = s.begun.dev ∧ i = .of 0x704 0 (.fwActivate h.key bank) ∧
      s.admits h i = true ∧ d.unsecured h.secured = false ∧ d.mode = 10 ∧ bank ≤ 1 ∧ (d.bank bank).state = 2 ∧ d.topBank ≠ some bank :=
    ⟨hw, 1, (wd { ((((dm 10).wr ScR.SC_STATE 1).wr (ScR.RUNNING 0) 1).setBank 1 { state := 2 }) with sc := { update := none } }), _,
      _, rfl, rfl, by decide⟩

theorem wit_FirmwareUpdate_6 : ∃ (h : SilekHdr) (s : State) (d : Dev) (i : CmdInfo), d = s.begun.dev ∧ i = .of 0x705 0 (.fwQuery h.key) ∧ s.admits h i = true :=
    ⟨hw, w4, _, _, rfl, rfl, by decide⟩

theorem wit_FirmwareUpdate_7 : ∃ (h : SilekHdr) (s : State) (d : Dev) (i : CmdInfo), d = s.begun.dev ∧ i = .of 0x710 0 (.selfTest h.key) ∧ s.admits h i = true
      ∧ d.works (fun w => decide (w = .selfTest)) = false :=
    ⟨hw, w4, _, _, rfl, rfl, by decide⟩

theorem wit_FirmwareUpdate_8 : ∃ (ok : Bool) (s : State) (d : Dev), d = s.dev ∧ d.works (fun w => decide (w = .selfTest)) = true :=
    ⟨true, (wd
      { dm 4 with silek := { running := [{ req := .fm 1, tag := 0, minor := 3, opcode := 0x710, cmd := .selfTest hw, src := 0, work := .selfTest }] } }),
      _, rfl, by decide⟩

theorem wit_FirmwareUpdate_9 : ∃ (secured : Bool) (s : State) (d : Dev), d = s.dev ∧ d.mode = 10 ∧ d.unsecured secured = false ∧ d.sc.update = none ∧
      d.sc.pldmStep = 0 :=
    ⟨true, (wd (((dm 10).wr ScR.SC_STATE 1).wr (ScR.RUNNING 0) 1)), _, rfl, by decide⟩

theorem wit_FirmwareUpdate_10 : ∃ (secured : Bool) (identifier : Nat) (s : State) (d : Dev), d = s.dev ∧ d.mode = 10 ∧ d.unsecured secured = false ∧
      d.sc.pldmStep = 1 ∧ identifier = 0x964 :=
    ⟨true, 0x964, (wd
      { ((((dm 10).wr ScR.SC_STATE 1).wr (ScR.RUNNING 0) 1).setBank 1 {}) with sc := { update := none, pldmStep := 1 } }), _, rfl,
      by decide⟩

theorem wit_FirmwareUpdate_11 : ∃ (secured : Bool) (identifier size : Nat) (s : State) (d : Dev), d = s.dev ∧ d.mode = 10 ∧ d.unsecured secured = false ∧
      d.sc.pldmStep = 2 ∧ identifier = 0x964 ∧ 4097 ≤ size ∧ size ≤ 25161728 :=
    ⟨true, 0x964, 4097, (wd
      { ((((dm 10).wr ScR.SC_STATE 1).wr (ScR.RUNNING 0) 1).setBank 1 {}) with sc := { update := none, pldmStep := 2 } }), _, rfl,
      by decide⟩

theorem wit_FirmwareUpdate_12 : ∃ (secured : Bool) (data : List Byte) (b : Nat) (s : State) (d : Dev), d = s.dev ∧ d.mode = 10 ∧ d.unsecured secured = false ∧
      d.sc.update = some (b, true) ∧ (d.bank b).state = 1 ∧ d.rd ScR.SC_STATE ≠ 2 ∧ data ≠ [] ∧ data.length = min 1024 ((d.bank
      b).declared - (d.bank b).image.length) ∧ ((d.program b data).bank b).image.length < (d.bank b).declared :=
    ⟨true, List.replicate 1024 0, 1, (wd
      { ((((dm 10).wr ScR.SC_STATE 1).wr (ScR.RUNNING 0) 1).setBank 1 { state := 1, declared := 4097 }) with sc := { update := some (1, true) } }),
      _, rfl, by decide⟩

theorem wit_FirmwareUpdate_13 : ∃ (secured selfContained : Bool) (s : State) (d : Dev) (b : Nat), d = s.dev ∧ b = (if d.runs 0 = true then 1 else 0) ∧ d.mode =
      10 ∧ d.unsecured secured = false ∧ d.sc.pldmStep = 4 ∧ selfContained = false ∧ (d.bank b).state = 2 ∧ d.topBank ≠ some b :=
    ⟨true, false, (wd
      { ((((dm 10).wr ScR.SC_STATE 1).wr (ScR.RUNNING 0) 1).setBank 1 { state := 2 }) with sc := { update := none, pldmStep := 4 } }),
      _, _, rfl, rfl, by decide⟩

theorem wit_ServiceMessages_1 : ∃ (s : State) (d : Dev) (f : Dev), d = s.dev ∧ f = (d.wr ScR.SC_STATE 2).wrFlag ScR.DRBG_OK false ∧ d.rd ScR.SC_STATE ≠ 2 :=
    ⟨w4, _, _, rfl, rfl, by decide⟩

theorem wit_ServiceMessages_2 : ∃ (port : Fin 64) (sequence : Bool) (s : State) (d : Dev), d = s.dev ∧ d.rd (Pg.IDE_STATE port) = 2 :=
    ⟨63, true, (wd ((dm 4).wr (Pg.IDE_STATE 63) 2)), _, rfl, by decide⟩

theorem wit_ServiceMessages_3 : ∃ (port : Fin 64) (s : State) (d : Dev), d = s.dev ∧ (d.port port).ideRefresh = true :=
    ⟨63, (wd ((dm 4).setPort 63 { ideRefresh := true })), _, rfl, by decide⟩

theorem wit_ServiceMessages_4 : ∃ (port : Fin 64) (op : IdeKeyOp) (anchorOk : Bool) (s : State) (d : Dev), d = s.dev ∧ d.linkUp port = true ∧ d.rd ScR.SC_STATE
      ≠ 2 ∧ d.isHostPort port = true ∧ d.isDevicePort port = false ∧ d.rd (Pg.CXL_GEN port) ≠ 1 ∧ d.ideSession port = true ∧ op =
      .programCurrent :=
    ⟨0, .programCurrent, true, (wd { dWin with sc := { sessions := [{ id := 1, transport := 0, mutualAuth := true }] } }), _, rfl,
      by decide⟩

theorem wit_ServiceMessages_5 : ∃ (slot : Nat) (s : State) (d : Dev), d = s.dev ∧ 2 ≤ d.mode ∧ d.scReady = true ∧ slot = 0 ∧ d.sc.certSlot0 = true :=
    ⟨0, (wd { (dm 4).wr ScR.SC_STATE 1 with sc := { certSlot0 := true } }), _, rfl, by decide⟩

theorem wit_ServiceMessages_6 : ∃ (slot : Nat) (nonce : List Byte) (s : State) (d : Dev), d = s.dev ∧ 2 ≤ d.mode ∧ d.scReady = true ∧ slot = 0 ∧ d.sc.certSlot0
      = true :=
    ⟨0, [], (wd { (dm 4).wr ScR.SC_STATE 1 with sc := { certSlot0 := true } }), _, rfl, by decide⟩

theorem wit_ServiceMessages_7 : ∃ (index : Nat) (nonce : List Byte) (s : State) (d : Dev), d = s.dev ∧ 2 ≤ d.mode ∧ d.scReady = true ∧ 1 ≤ index ∧ index ≤ 6 :=
    ⟨6, [], (wd { (dm 4).wr ScR.SC_STATE 1 with sc := { certSlot0 := true } }), _, rfl, by decide⟩

theorem wit_ServiceMessages_8 : ∃ (transport : Nat) (mutualAuth authOk : Bool) (s : State) (d : Dev), d = s.dev ∧ 2 ≤ d.mode ∧ d.scReady = true ∧
      d.sc.sessions.length < 96 ∧ authOk = true :=
    ⟨0, true, true, (wd { (dm 4).wr ScR.SC_STATE 1 with sc := { certSlot0 := true } }), _, rfl, by decide⟩

theorem wit_ServiceMessages_9 : ∃ (eid : Nat) (s : State) (d : Dev), d = s.dev ∧ 2 ≤ d.mode :=
    ⟨9, w4, _, rfl, by decide⟩

theorem wit_ServiceMessages_10 : ∃ (s : State) (d : Dev), d = s.dev ∧ 2 ≤ d.mode :=
    ⟨w4, _, rfl, by decide⟩

theorem wit_ServiceMessages_11 : ∃ (s : State) (d : Dev), d = s.dev ∧ 2 ≤ d.mode :=
    ⟨w4, _, rfl, by decide⟩

theorem wit_ServiceMessages_12 : ∃ (s : State) (d : Dev), d = s.dev ∧ 2 ≤ d.mode :=
    ⟨w4, _, rfl, by decide⟩

theorem wit_ServiceMessages_13 : ∃ (s : State) (d : Dev), d = s.dev ∧ 2 ≤ d.mode :=
    ⟨w4, _, rfl, by decide⟩

theorem wit_ServiceMessages_14 : ∃ (selector : Nat) (s : State) (d : Dev), d = s.dev ∧ 2 ≤ d.mode :=
    ⟨0, w4, _, rfl, by decide⟩

theorem wit_ServiceMessages_15 : ∃ (eid : Nat) (s : State) (d : Dev), d = s.dev ∧ 2 ≤ d.mode :=
    ⟨9, w4, _, rfl, by decide⟩

theorem wit_ServiceMessages_16 : ∃ (s : State) (d : Dev), d = s.dev ∧ 2 ≤ d.mode :=
    ⟨w4, _, rfl, by decide⟩

theorem wit_ServiceMessages_17 : ∃ (record : Nat) (s : State) (d : Dev), d = s.dev ∧ 2 ≤ d.mode :=
    ⟨52, w4, _, rfl, by decide⟩

theorem wit_ServiceMessages_18 : ∃ (sensor : Nat) (v : Nat) (s : State) (d : Dev), d = s.dev ∧ 2 ≤ d.mode ∧ d.sensor sensor = some v ∧
      d.silek.sensorsOff.contains sensor = false :=
    ⟨3, 0, (wd ((dm 4).wr Glob.SPEED_INDEX 0)), _, rfl, by decide⟩

theorem wit_ServiceMessages_19 : ∃ (sensor : Nat) (s : State) (d : Dev), d = s.dev ∧ 2 ≤ d.mode :=
    ⟨52, w4, _, rfl, by decide⟩

theorem wit_ServiceMessages_20 : ∃ (sensor : Nat) (enable : Bool) (s : State) (d : Dev), d = s.dev ∧ 2 ≤ d.mode ∧ enable = true :=
    ⟨3, true, w4, _, rfl, by decide⟩

theorem wit_RegisterRows_1 : ∃ (path : AccessPath) (port : Fin 64) (value : BitVec 32) (s : State), s.dev.pathOpen path = true :=
    ⟨.bar0, 63, 0x80, (wd (dm 4)), by decide⟩

theorem wit_RegisterRows_2 : ∃ (path : AccessPath) (port : Fin 64) (value : BitVec 32) (s : State), s.dev.pathOpen path = true :=
    ⟨.bar0, 63, 0x100, (wd (dm 4)), by decide⟩

theorem wit_RegisterRows_3 : ∃ (path : AccessPath) (port : Fin 64) (value : BitVec 32) (s : State), s.dev.pathOpen path = true :=
    ⟨.bar0, 63, 0x200, (wd (dm 4)), by decide⟩

theorem wit_RegisterRows_4 : ∃ (path : AccessPath) (port : Fin 64) (value : BitVec 32) (s : State), s.dev.pathOpen path = true :=
    ⟨.bar0, 63, 0x400000, (wd (dm 11)), by decide⟩

theorem wit_RegisterRows_5 : ∃ (path : AccessPath) (lane : Fin 256) (value : BitVec 32) (s : State), s.dev.pathOpen path = true :=
    ⟨.bar0, 255, 1, (wd (dm 11)), by decide⟩

theorem wit_RegisterRows_6 : ∃ (path : AccessPath) (lane : Fin 256) (value : BitVec 32) (s : State), s.dev.pathOpen path = true :=
    ⟨.bar0, 255, 0x10, (wd (dm 11)), by decide⟩

theorem wit_RegisterRows_7 : ∃ (path : AccessPath) (lane : Fin 256) (value : BitVec 32) (s : State), s.dev.pathOpen path = true :=
    ⟨.bar0, 255, 0x20, (wd (dm 11)), by decide⟩

theorem wit_RegisterRows_8 : ∃ (path : AccessPath) (port : Fin 64) (value : BitVec 32) (s : State), s.dev.pathOpen path = true :=
    ⟨.bar0, 63, 0, (wd (dm 4)), by decide⟩

theorem wit_RegisterRows_9 : ∃ (path : AccessPath) (value : BitVec 32) (s : State), s.dev.pathOpen path = true :=
    ⟨.reg, 0, (wd (dm 4)), by decide⟩

theorem wit_RegisterRows_10 : ∃ (path : AccessPath) (group : Fin 16) (value : BitVec 32) (s u : State), s.dev.pathOpen path = true ∧ guardedPath path = true ∧
      u = (s.passGuard path).2 :=
    ⟨.bar0, 15, 0, w4, (w4.passGuard .bar0).2, by decide⟩

theorem wit_RegisterRows_11 : ∃ (path : AccessPath) (off size : Nat) (s : State), s.dev.pathOpen path = true ∧ off = 0x2008 ∧ size = 4 :=
    ⟨.bar0, 0x2008, 4, w4, by decide⟩

theorem wit_RegisterRows_12 : ∃ (path : AccessPath) (off size : Nat) (s : State), s.dev.pathOpen path = true ∧ off = 0x10 ∧ size = 4 :=
    ⟨.bar0, 0x10, 4, w4, by decide⟩

theorem wit_RegisterRows_13 : ∃ (path : AccessPath) (off size : Nat) (i : Fin 262144) (s : State), s.dev.pathOpen path = true ∧ off = 0x400000 + 8 * (i : Nat)
      ∧ size = 4 :=
    ⟨.bar0, 0x400000, 4, 0, w4, by decide⟩

theorem wit_RegisterRows_14 : ∃ (path : AccessPath) (off size : Nat) (s : State), s.dev.pathOpen path = true ∧ 0x100000 ≤ off ∧ off < 0x120000 ∧ off % 4 = 0 ∧
      size = 4 :=
    ⟨.bar0, 0x11fffc, 4, w4, by decide⟩

theorem wit_RegisterRows_15 : ∃ (off : Nat) (s : State), s.dev.mode ≠ 0 :=
    ⟨0x30, w4, by decide⟩

theorem wit_RegisterRows_16 : ∃ (table : Fin 6) (index : Nat) (s : State) (d : Dev), d = s.dev ∧ d.mode ≠ 0 :=
    ⟨5, 0, w4, _, rfl, by decide⟩

theorem wit_KeyGuard_1 : ∃ (path : AccessPath) (value : BitVec 32) (s : State), s.dev.mode ≠ 0 ∧ (path = .bar0 ∨ path = .reg) ∧ s.guard.lockedOut = false
      ∧ value = 0x4d494c4b :=
    ⟨.reg, 0x4d494c4b, w4, by decide⟩

theorem wit_KeyGuard_2 : ∃ (path : AccessPath) (value : BitVec 32) (s : State), s.dev.mode ≠ 0 ∧ (path = .bar0 ∨ path = .reg) ∧ s.guard.lockedOut = false
      ∧ value ≠ 0x4d494c4b ∧ s.guard.wrongRun < 7 :=
    ⟨.bar0, 0, w4, by decide⟩

theorem wit_KeyGuard_3 : ∃ (path : AccessPath) (value : BitVec 32) (s : State), s.dev.mode ≠ 0 ∧ (path = .bar0 ∨ path = .reg) ∧ s.guard.lockedOut = false
      ∧ value ≠ 0x4d494c4b ∧ s.guard.wrongRun = 7 :=
    ⟨.bar0, 0, { w4 with guard := { wrongRun := 7 } }, by decide⟩

theorem wit_KeyLockOut_1 : ∃ (path : AccessPath) (value : BitVec 32) (s : State), s.dev.mode ≠ 0 ∧ (path = .bar0 ∨ path = .reg) ∧ s.guard.lockedOut = false
      ∧ value ≠ 0x4d494c4b ∧ s.guard.wrongRun = 7 :=
    ⟨.bar0, 0, { w4 with guard := { wrongRun := 7 } }, by decide⟩

theorem wit_KeyLockOut_2 : ∃ (path : AccessPath) (value : BitVec 32) (s : State), s.dev.mode ≠ 0 ∧ (path = .bar0 ∨ path = .reg) ∧ s.guard.lockedOut = true :=
    ⟨.bar0, 0x4d494c4b, { w4 with guard := { lockedOut := true, wrongRun := 8 } }, by decide⟩

theorem wit_KeyLockOut_3 : ∃ (path : AccessPath) (value : BitVec 32) (s : State), s.dev.pathOpen path = true ∧ (path = .cp ∨ path = .jtag) :=
    ⟨.cp, 0x4d494c4b, w4, by decide⟩

theorem wit_RegisterCommands_1 : ∃ (h : SilekHdr) (s : State) (d : Dev) (i : CmdInfo), d = s.begun.dev ∧ i = .of 0x720 0 (.securityStatus h.key) ∧ s.admits h i =
      true :=
    ⟨hw, w4, _, _, rfl, rfl, by decide⟩

theorem wit_RegisterCommands_2 : ∃ (h : SilekHdr) (off count : Nat) (s u : State) (i : CmdInfo), i = .of 0x801 0 (.regRead h.key off count) ∧ s.admits h i = true
      ∧ 1 ≤ count ∧ count ≤ 256 ∧ off % 4 = 0 ∧ off + 4 * count ≤ 0x4000000 ∧ u = (State.regWords count off s.begun).2 :=
    ⟨hw, 0x30, 1, w4, (State.regWords 1 0x30 w4.begun).2, .of 0x801 0 (.regRead hw.key 0x30 1), rfl, by decide⟩

theorem wit_RegisterCommands_3 : ∃ (h : SilekHdr) (off value : Nat) (s u : State) (i : CmdInfo), i = .of 0x802 0 (.regWrite h.key off value) ∧ s.admits h i =
      true ∧ off % 4 = 0 ∧ off < 0x4000000 ∧ value < 2 ^ 32 ∧ s.begun.dev.badRoute off (2 ^ 32 - 1) value = false ∧ u =
      s.settledFrom ((s.begun.writeAccess State.ringMark .reg off 4 value).answered h i .ok []) ∧ u.dev.ringFree 64 = false :=
    ⟨hw, 0x50, 1, w4, _, .of 0x802 0 (.regWrite hw.key 0x50 1), rfl, by decide, by decide, by decide, by decide, by decide, rfl, by
      decide⟩

theorem wit_RegisterCommands_4 : ∃ (h : SilekHdr) (slice set : Nat) (s : State) (d : Dev) (i : CmdInfo), d = s.begun.dev ∧ i = .of 0x820 0 (.dirRead h.key slice
      set) ∧ s.admits h i = true ∧ slice ≤ 31 ∧ set ≤ 4095 :=
    ⟨hw, 31, 4095, w4, _, _, rfl, rfl, by decide⟩

theorem wit_RegisterCommands_5 : ∃ (path : AccessPath) (off size : Nat) (value : BitVec 64) (s u : State), s.dev.pathOpen path = true ∧ 0xa100 ≤ off ∧ off <
      0xb000 ∧ off % 4 = 0 ∧ size = 4 ∧ s.dev.flag (Mbx.BUSY 64) = false ∧ s.dev.calm = true ∧ s.dev.ringFree 64 = false ∧ u =
      { s with mem := (List.range 4).foldl (fun (m : Memory) k => Memory.write m (Mailbox.cell 64 (off - 0xa000) + k) (BitVec.ofNat 8 (value.toNat % 2 ^ 32 / 2 ^ (8 * k)))) s.mem } :=
    ⟨.bar0, 0xaffc, 4, 0x12345678, w4, _, by decide, by decide, by decide, by decide, by decide, by decide, by decide, by decide,
      rfl⟩

theorem wit_RegisterCommands_6 : ∃ (path : AccessPath) (off a b : Nat) (value : BitVec 32) (s u : State), s.dev.pathOpen path = true ∧ 0x2000000 ≤ off ∧ off <
      0x4000000 ∧ off % 4 = 0 ∧ a = (aliasOf off).1 ∧ b = (aliasOf off).2 ∧ u = s.settledFrom (s.aliasWrite State.ringMark path a b
      (value.toNat % 2)) ∧ u.dev.ringFree 64 = false :=
    ⟨.cp, 0x2000600, 0x30, 0, 1, w4, _, by decide, by decide, by decide, by decide, by decide, by decide, rfl, by decide⟩

theorem wit_MessageEvents_1 : ∃ (mb : Fin 65) (bs : List Byte) (s u : State) (h : SilekHdr) (i : CmdInfo), bs = Memory.readBytes s.mem (Mailbox.cell mb 0x100)
      16 ∧ 2 ≤ s.dev.mode ∧ s.dev.flag (Mbx.BUSY mb) = false ∧ (s.dev.raise1 (Mbx.DOORBELL mb)).ringFree mb = true ∧ leNat
      (Memory.readBytes s.mem (Mailbox.cell mb 0x10a) 2) = 0 ∧ isReplyMessage bs = false ∧ byteField bs 2 2 = 0x101 ∧ u = s.withDev
      (((s.dev.raise1 (Mbx.DOORBELL mb)).wrFlag (Mbx.DOORBELL mb) false).raise1 (Mbx.BUSY mb)) ∧ h = headerOf (if (mb : Nat) = 64
      then .mgmt else .host mb) false false bs ∧ i = .of 0x101 0 (.silekVersion h.key) ∧ u.admits h i = true :=
    ⟨64, [2, 3, 1, 1, 0, 0, 0, 0, 0, 0, 0, 0, 0, 0, 0, 0], wBell, _, _, _, by decide, by decide, by decide, by decide, by decide, by
      decide, by decide, rfl, rfl, rfl, by decide⟩

theorem wit_MessageEvents_2 : ∃ (l : ChainLine) (f : ChainFrame) (tag index last src dst epoch : Nat) (reply : Bool) (bytes : List Byte) (s : State), f =
      chainFrameOf l dst src epoch (.silek (chainSegment index last tag reply bytes)) ∧ segmentFits (.chain l src dst epoch) index
      last bytes = true ∧ s.dev.mode ≠ 0 ∧ l.crc = f.crc 5 ∧ l.type = 5 ∧ l.bcast = false ∧ dst ≠ s.dev.chainAddr ∧ s.dev.atEnd
      l.reverse = false ∧ l.hops.val < 15 :=
    ⟨(segLine 3 2 0 0 []), _, 1, 0, 0, 3, 2, 0, false, [], w8, rfl, by decide, by decide, rfl, by decide⟩

theorem wit_MessageEvents_3 : ∃ (l : ChainLine) (f : ChainFrame) (tag index last src dst epoch : Nat) (reply : Bool) (bytes : List Byte) (s : State), f =
      chainFrameOf l dst src epoch (.silek (chainSegment index last tag reply bytes)) ∧ segmentFits (.chain l src dst epoch) index
      last bytes = true ∧ s.dev.mode ≠ 0 ∧ l.crc ≠ f.crc l.type.toNat :=
    ⟨{ segLine 3 2 0 0 [] with crc := (segLine 3 2 0 0 []).crc ^^^ 1 }, _, 1, 0, 0, 3, 2, 0, false, [], w8, rfl, by decide, by
      decide, flip_ne _⟩

theorem wit_MessageEvents_4 : ∃ (l : ChainLine) (f : ChainFrame) (tag last src dst epoch : Nat) (reply : Bool) (bytes : List Byte) (s : State) (k : Silek), f
      = chainFrameOf l dst src epoch (.silek (chainSegment 0 last tag reply bytes)) ∧ l.crc = f.crc 5 ∧ l.type = 5 ∧ l.bcast = false
      ∧ k = s.dev.silek ∧ 1 ≤ last ∧ last ≤ 3 ∧ bytes.length = 1020 ∧ s.dev.mode ≠ 0 ∧ dst = s.dev.chainAddr ∧ k.partials = [] :=
    ⟨(segLine 3 1 0 3 (List.replicate 1020 0)), _, 1, 3, 3, 1, 0, false, List.replicate 1020 0, w8, _, rfl, by decide +kernel, by
      decide, by decide, rfl, by decide⟩

theorem wit_MessageEvents_5 : ∃ (via : SegPath) (tag index last : Nat) (reply : Bool) (bytes : List Byte) (s : State), segmentFits via index last bytes =
      false :=
    ⟨(.chain { type := 5, crc := 0 } 1 2 0), 1, 4, 4, false, [], w4, by decide⟩

theorem wit_MessageEvents_6 : ∃ (src : Nat) (vc5 : Bool) (s : State) (d : Dev) (l : List Partial), d = s.dev ∧ l = d.silek.partials.filter (fun x => decide
      (x.src = src ∧ x.vc5 = vc5)) :=
    ⟨3, false, w8, _, _, rfl, rfl⟩

theorem wit_MessageEvents_7 : ∃ (id : Nat) (c : SentCommand) (s : State) (d : Dev), d = s.dev ∧ d.silek.sent = [c] ∧ c.id = id ∧ c.opcode ≠ 0x506 ∧ c.dst <
      256 ∧ c.resends < 3 :=
    ⟨5, { id := 5, tag := 5, dst := 3, opcode := 0x402, purpose := 0, epoch := 5, payload := [] }, (wd
      { dPri 8 with silek := { sent := [{ id := 5, tag := 5, dst := 3, opcode := 0x402, purpose := 0, epoch := 5, payload := [] }] } }),
      _, rfl, by decide⟩

theorem wit_MessageEvents_8 : ∃ (qfl : QflHdr) (o : Outst) (s : State) (d : Dev) (f : Dev), d = s.dev ∧ f = (d.matchResponse s.time.now 5 3 qfl).1 ∧
      (d.matchResponse s.time.now 5 3 qfl).2 = some o :=
    ⟨qAck, oAck, wAck, _, _, rfl, rfl, by decide⟩

theorem wit_MessageEvents_9 : ∃ (req : Requester) (tag : Nat) (s : State) (d : Dev) (r : Running), d = s.dev ∧ d.runningOf req = [r] ∧ r.tag = tag ∧ r.interim
      = false ∧ tag < 65536 ∧ req.mailbox = none :=
    ⟨(.fm 1), 7, (wd
      { dm 4 with silek := { running := [{ req := .fm 1, tag := 7, minor := 3, opcode := 0x710, cmd := .selfTest hw, src := 0, work := .selfTest }] } }),
      _, { req := .fm 1, tag := 7, minor := 3, opcode := 0x710, cmd := .selfTest hw, src := 0, work := .selfTest }, rfl, by decide⟩

theorem wit_HostRequests_1 : ∃ (port : Fin 64) (tag hpa keep : Nat) (vi : Nat) (s : State) (d : Dev) (f : Dev), d = s.dev ∧ f =
      ({ d with edge := { d.edge with credits := Tab.put d.edge.credits port (Tab.getD d.edge.credits port 0 - 1) 0 } } : Dev) ∧
      f.flaws = [] ∧ f.isHostPort port = true ∧ f.linkUp port = true ∧ f.rd (Pg.IDE_STATE port) ≠ 3 ∧ f.trafficVi port = some vi ∧
      f.rd (Vi.STATE vi) ≠ 0 ∧ f.mustHold port vi (.memrd port tag hpa keep) d.stopped = false :=
    ⟨0, 5, 64, 1, 0, wWin1, _, _, rfl, rfl, by decide⟩

theorem wit_HostRequests_2 : ∃ (port : Fin 64) (tag hpa keep : Nat) (vi : Nat) (s : State) (d : Dev) (f : Dev), d = s.dev ∧ f =
      ({ d with edge := { d.edge with credits := Tab.put d.edge.credits port (Tab.getD d.edge.credits port 0 - 1) 0 } } : Dev) ∧
      f.flaws = [] ∧ f.isHostPort port = true ∧ f.linkUp port = true ∧ f.rd (Pg.IDE_STATE port) ≠ 3 ∧ f.trafficVi port = some vi ∧
      f.rd (Vi.STATE vi) ≠ 0 ∧ f.mustHold port vi (.meminv port tag hpa keep) d.stopped = false :=
    ⟨0, 5, 64, 2, 0, wWin1, _, _, rfl, rfl, by decide⟩

theorem wit_HostRequests_3 : ∃ (port : Fin 64) (tag hpa : Nat) (vi : Nat) (s : State) (d : Dev) (f : Dev), d = s.dev ∧ f =
      ({ d with edge := { d.edge with credits := Tab.put d.edge.credits port (Tab.getD d.edge.credits port 0 - 1) 0 } } : Dev) ∧
      f.flaws = [] ∧ f.isHostPort port = true ∧ f.linkUp port = true ∧ f.rd (Pg.IDE_STATE port) ≠ 3 ∧ f.trafficVi port = some vi ∧
      f.rd (Vi.STATE vi) ≠ 0 ∧ f.mustHold port vi (.memclnevct port tag hpa) d.stopped = false :=
    ⟨0, 5, 64, 0, wWin1, _, _, rfl, rfl, by decide⟩

theorem wit_HostRequests_4 : ∃ (port : Fin 64) (tag hpa keep : Nat) (be : Enables) (data : Line) (poison : Bool) (vi : Nat) (s : State) (d : Dev) (f : Dev),
      d = s.dev ∧ f =
      ({ d with edge := { d.edge with credits := Tab.put d.edge.credits port (Tab.getD d.edge.credits port 0 - 1) 0 } } : Dev) ∧
      f.flaws = [] ∧ f.isHostPort port = true ∧ f.linkUp port = true ∧ f.rd (Pg.IDE_STATE port) ≠ 3 ∧ f.trafficVi port = some vi ∧
      f.rd (Vi.STATE vi) ≠ 0 ∧ f.mustHold port vi (.memwr port tag hpa keep be data poison) d.stopped = false :=
    ⟨0, 5, 64, 1, 1, 7, true, 0, wWin1, _, _, rfl, rfl, by decide⟩

theorem wit_HostRequests_5 : ∃ (port : Fin 64) (hpa : Nat) (vi : Nat) (fa kind : Nat) (s : State) (d : Dev) (f : Dev), d = s.dev ∧ f =
      ({ d with edge := { d.edge with credits := Tab.put d.edge.credits port (Tab.getD d.edge.credits port 0 - 1) 0 } } : Dev) ∧
      f.flaws = [] ∧ f.isHostPort port = true ∧ f.linkUp port = true ∧ f.rd (Pg.IDE_STATE port) ≠ 3 ∧ f.trafficVi port = some vi ∧
      f.rd (Vi.STATE vi) ≠ 0 ∧ f.mustHold port vi (.memspecrd port hpa) d.stopped = false ∧ f.serves = true ∧ (f.mon s.time.now 54
      0x601 (f.portMaster port vi) hpa).decode vi hpa = some (fa, kind) :=
    ⟨0, 64, 0, (faOf 1 0 64), 0, wMap, _, _, rfl, rfl, by decide⟩

theorem wit_HostRequests_6 : ∃ (port : Fin 64) (tag addr len : Nat) (vi : Nat) (x : Nat) (s : State) (d : Dev) (f : Dev), d = s.dev ∧ f =
      ({ d with edge := { d.edge with credits := Tab.put d.edge.credits port (Tab.getD d.edge.credits port 0 - 1) 0 } } : Dev) ∧
      f.flaws = [] ∧ f.isHostPort port = true ∧ f.linkUp port = true ∧ f.rd (Pg.IDE_STATE port) ≠ 3 ∧ f.trafficVi port = some vi ∧
      f.rd (Vi.STATE vi) ≠ 0 ∧ f.mustHold port vi (.mrd port tag addr len) d.stopped = false ∧ f.ioAddr port vi addr = some x :=
    ⟨0, 5, 64, 4, 0, 64, wWin1, _, _, rfl, rfl, by decide⟩

theorem wit_HostRequests_7 : ∃ (port : Fin 64) (addr : Nat) (data : List Byte) (relaxed poison : Bool) (vi : Nat) (x : Nat) (s : State) (d : Dev) (f : Dev),
      d = s.dev ∧ f =
      ({ d with edge := { d.edge with credits := Tab.put d.edge.credits port (Tab.getD d.edge.credits port 0 - 1) 0 } } : Dev) ∧
      f.flaws = [] ∧ f.isHostPort port = true ∧ f.linkUp port = true ∧ f.rd (Pg.IDE_STATE port) ≠ 3 ∧ f.trafficVi port = some vi ∧
      f.rd (Vi.STATE vi) ≠ 0 ∧ f.mustHold port vi (.mwr port addr data relaxed poison) d.stopped = false ∧ f.ioAddr port vi addr =
      some x :=
    ⟨0, 64, [1, 2], false, false, 0, 64, wWin1, _, _, rfl, rfl, by decide⟩

theorem wit_HostRequests_8 : ∃ (port : Fin 64) (tag addr op size a b : Nat) (vi : Nat) (x : Nat) (s : State) (d : Dev) (f : Dev), d = s.dev ∧ f =
      ({ d with edge := { d.edge with credits := Tab.put d.edge.credits port (Tab.getD d.edge.credits port 0 - 1) 0 } } : Dev) ∧
      f.flaws = [] ∧ f.isHostPort port = true ∧ f.linkUp port = true ∧ f.rd (Pg.IDE_STATE port) ≠ 3 ∧ f.trafficVi port = some vi ∧
      f.rd (Vi.STATE vi) ≠ 0 ∧ f.mustHold port vi (.atomicop port tag addr op size a b) d.stopped = false ∧ op = 1 ∧ size = 8 ∧
      f.personality port = 1 ∧ f.ioAddr port vi addr = some x ∧ x % 8 = 0 :=
    ⟨0, 5, 64, 1, 8, 3, 0, 0, 64, wWin1, _, _, rfl, rfl, by decide⟩

theorem wit_HostResponses_1 : ∃ (port : Fin 64) (tag keeps : Nat) (x : HostSnoop) (tr : Tracker) (s : State) (d : Dev) (f : Dev) (h : HeldAnswer), d = s.dev ∧
      f =
      ({ d with edge := { d.edge with snoops := d.edge.snoops.filter (fun x => decide ¬ (x.port = (port : Nat) ∧ x.tag = tag)), answers := [] } }
      : Dev) ∧ h = f.heldAnswer x (some keeps) ∧ d.flaws = [] ∧ d.carries port = true ∧ d.snoopOf port tag = some x ∧ d.edge.answers
      = [] ∧ ({ f with edge := { f.edge with answers := [h] } } : Dev).answerFree h = true ∧ f.tracker x.slice x.tracker = some tr ∧
      tr.snooped.contains x.slot = true :=
    ⟨0, 5, 0, xS, trS, wSnoop, _, _, _, rfl, rfl, rfl, by decide⟩

theorem wit_HostResponses_2 : ∃ (port : Fin 64) (tag : Nat) (x : HostSnoop) (tr : Tracker) (s : State) (d : Dev) (f : Dev) (h : HeldAnswer), d = s.dev ∧ f =
      ({ d with edge := { d.edge with answers := [] } } : Dev) ∧ h = f.heldAnswer x none ∧ d.carries port = true ∧ d.snoopOf port
      tag = some x ∧ d.edge.answers = [] ∧ ({ f with edge := { f.edge with answers := [h] } } : Dev).answerFree h = true ∧ f.isDead
      x.slot = false ∧ f.tracker x.slice x.tracker = some tr ∧ tr.writes = 0 :=
    ⟨0, 5, xS, trS, wSnoop, _, _, _, rfl, rfl, rfl, by decide⟩

theorem wit_HostResponses_3 : ∃ (port : Fin 64) (tag : Nat) (ok poison : Bool) (data : List Byte) (s : State) (d : Dev), d = s.dev ∧ d.ladles.hostReads.any
      (fun x => decide (x.tag = tag) && decide (x.port = (port : Nat)) && decide (x.incarnation = d.rd (Pg.INCARNATION port))) =
      true :=
    ⟨0, 5, true, false, [], (wd { dm 4 with ladles := { hostReads := [{ tag := 5, port := 0, origin := .mem 0 0 }] } }), _, rfl, by
      decide⟩

theorem wit_HostResponses_4 : ∃ (port : Fin 64) (vport : Nat) (data : List Byte) (vi q : Nat) (s : State) (d : Dev), d = s.dev ∧ d.linkUp port = true ∧ d.rd
      (Pg.IDE_STATE port) ≠ 3 ∧ d.isHostPort port = true ∧ d.viOfPort port = some vi ∧ Tab.get (d.instOf vi).type2 vport = some q ∧
      d.rd (Pg.CXL_GEN port) ≠ 1 ∧ d.type2Up q = true ∧ d.rd (Pg.IDE_STATE q) ≠ 3 :=
    ⟨0, 7, [1], 0, 4, wT2, _, rfl, by decide⟩

theorem wit_HostResponses_5 : ∃ (port : Fin 64) (function register value : Nat) (functionMask : Option Bool) (vi : Nat) (s : State) (d : Dev), d = s.dev ∧
      d.isHostPort port = true ∧ d.carries port = true ∧ d.viOfPort port = some vi ∧ d.presents vi (function % 16) = true ∧
      functionMask = none :=
    ⟨0, 0, 4, 6, none, 0, wWin1, _, rfl, by decide⟩

theorem wit_HostResponses_6 : ∃ (port : Fin 64) (tag : Nat) (data : Line) (poison : Bool) (r : AgentReq) (s : State) (d : Dev) (f : Dev), d = s.dev ∧ f =
      ({ d with agents := { d.agents with reads := d.agents.reads.erase r } } : Dev).mon s.time.now ((port : Nat) / 4) 0x102
      r.acc.master r.acc.fa ∧ d.agents.reads.find? (fun x => decide (x.port = (port : Nat) ∧ x.id = tag)) = some r ∧ r.incarnation =
      d.rd (Pg.INCARNATION port) :=
    ⟨4, 9, 7, false, rq, wReads, _, _, rfl, rfl, by decide⟩

theorem wit_HostResponses_7 : ∃ (port : Fin 64) (ld : Fin 16) (e : EgressEntry) (s : State) (d : Dev), d = s.dev ∧ d.buf.entries.find? (fun x => decide
      (x.port = (port : Nat) ∧ x.ld = (ld : Nat) ∧ d.sentNow x = true)) = some e :=
    ⟨4, 0, eSent, wSent, _, rfl, by decide⟩

theorem wit_HostResponses_8 : ∃ (port : Fin 64) (count : Nat) (e : EgressEntry) (s : State) (d : Dev), d = s.dev ∧ count = 1 ∧ d.buf.entries.find? (fun x =>
      decide (x.port = (port : Nat) ∧ d.sentNow x = true)) = some e :=
    ⟨4, 1, eSent, wSent, _, rfl, by decide⟩

theorem wit_HostResponses_9 : ∃ (port : Fin 64) (r : AgentReq) (s : State) (d : Dev), d = s.dev ∧ (d.agents.queue.filter (fun x => decide (x.port = (port :
      Nat)) && d.grantable x)).find? (fun x => decide (x.acc.master / 4096 = 3)) = some r :=
    ⟨4, rc, wGrant, _, rfl, by decide⟩

theorem wit_ChurnEvents_1 : ∃ (id : Nat) (r : Retry) (p g : Nat) (s : State) (d : Dev), d = s.dev ∧ d.chn.retries.find? (fun x => decide (x.acc.id = id)) =
      some r ∧ r.acc.origin = .mem p g ∧ d.chn.trackers = [] :=
    ⟨1, { acc := aRd, hint := 0 }, 0, 0, (wd { dWin with chn := { retries := [{ acc := aRd, hint := 0 }] } }), _, rfl, by decide⟩

theorem wit_ChurnEvents_2 : ∃ (slice : Fin 32) (number : Fin 256) (k : Ticket) (a : Access) (s : State) (d : Dev), d = s.dev ∧ d.chn.tickets.find? (fun x =>
      decide (x.slice = (slice : Nat) ∧ x.number = (number : Nat))) = some k ∧ k.waiting = some a ∧ d.blocked slice a (some k) = 0 :=
    ⟨0, 5, tk, aRd, (wd { dWin.setInst 0 { portA := some 0, trackerMax := 480 } with chn := { tickets := [tk] } }), _, rfl, by
      decide⟩

theorem wit_ChurnEvents_3 : ∃ (slice : Fin 32) (number : Fin 256) (k : Ticket) (s : State) (d : Dev), d = s.dev ∧ d.chn.tickets.find? (fun x => decide
      (x.slice = (slice : Nat) ∧ x.number = (number : Nat))) = some k ∧ k.waiting = none ∧ d.chn.trackers = [] :=
    ⟨0, 5, { tk with waiting := none }, (wd { dWin with chn := { tickets := [{ tk with waiting := none }] } }), _, rfl, by decide⟩

theorem wit_ChurnEvents_4 : ∃ (slice : Fin 32) (id : Fin 512) (tr : Tracker) (s : State) (d : Dev), d = s.dev ∧ d.chn.waiting = [] ∧ d.tracker slice id =
      some tr ∧ tr.phase = .evict ∧ tr.wayFor = none ∧ tr.victim = none ∧ tr.acc.isChurn = true :=
    ⟨0, 0, trW, (wd { dWin with chn := { trackers := [trW] } }), _, rfl, by decide⟩

theorem wit_ChurnEvents_5 : ∃ (slice : Fin 32) (id : Fin 512) (bad : Bool) (tr : Tracker) (s : State) (d : Dev), d = s.dev ∧ bad = false ∧ d.tracker slice
      id = some tr ∧ tr.phase = .tier2 ∧ d.findBucket tr.la = none :=
    ⟨0, 0, false, trT, (wd { dWin with chn := { trackers := [trT] } }), _, rfl, by decide⟩

theorem wit_ChurnEvents_6 : ∃ (s : State) (d : Dev), d = s.dev ∧ d.chn.zeroing = true ∧ d.flag ChurnR.TIER2_EN = true :=
    ⟨(wd { (dm 4).wr ChurnR.TIER2_EN 1 with chn := { zeroing := true } }), _, rfl, by decide⟩

theorem wit_ChurnEvents_7 : ∃ (slot : Fin 64) (r : Reclaim) (s : State) (d : Dev) (f : Dev) (g : Dev) (x : Dev) (y : Dev), d = s.dev ∧ f = (List.range
      32).foldl (fun (x : Dev) c => x.startWork s.time.now c) d ∧ g =
      (({ (f.markDead slot false) with chn := { (f.markDead slot false).chn with reclaims := (f.markDead slot false).chn.reclaims.filter (fun x => decide (x.slot ≠ (slot : Nat))) } }
      : Dev)).raise1 ChurnR.RECLAIM_DONE_EVT ∧ x = (g.finishDeaths s.time.now).post s.time.now 4 ((slot : Nat) + 2 ^ 32 * r.entries
      + 2 ^ 64 * r.lost) ∧ y =
      ({ x with chn := { x.chn with reclaims := x.chn.reclaims.map (fun (z : Reclaim) => { z with scanned := true }) } } : Dev) ∧
      d.chn.reclaims = [r] ∧ r.slot = (slot : Nat) ∧ r.scanned = true ∧ f.chn.reclaims = [r] ∧ f.slotScanned slot = true ∧
      f.poisonPending = false ∧ f.chn.mirrorWaits = [] ∧ g.sharer slot = {} :=
    ⟨63, { slot := 63, entries := 2, lost := 1 }, (wd
      { dm 4 with chn := { reclaims := [{ slot := 63, entries := 2, lost := 1 }] } }), _, _, _, _, _, rfl, rfl, rfl, rfl, rfl, by
      decide⟩

theorem wit_ChurnEvents_8 : ∃ (port : Fin 64) (s : State) (d : Dev), d = s.dev ∧ d.chn.portReclaims = [{ port := port }] ∧ d.extents = [] ∧ (d.portReclaim
      s.time.now port) = d :=
    ⟨4, (wd { dm 4 with chn := { portReclaims := [{ port := 4 }] } }), _, rfl, by decide⟩

theorem wit_CapacityEvents_1 : ∃ (port : Fin 64) (slots : List Nat) (vi k : Nat) (b : Binding) (s : State) (d : Dev), d = s.dev ∧ d.dcInstance port = some vi ∧
      d.binder.hotPlug = [] ∧ d.offersOf vi = [b] ∧ slots = b.slots ∧ b.slots = [k] :=
    ⟨0, [7], 0, 7, { id := 2, window := 255, slots := [7], fresh := [true] }, (wd
      { dWin with binder := { bindings := [{ id := 2, window := 255, slots := [7], fresh := [true] }] } }), _, rfl, by decide⟩

theorem wit_CapacityEvents_2 : ∃ (port : Fin 64) (slots : List Nat) (vi k : Nat) (s : State) (d : Dev) (f : Dev) (g : Dev) (u : Unbinding), d = s.dev ∧ f =
      d.toHost vi (.dcResult vi true) ∧ g = f.post s.time.now 3 (vi + 2 ^ 32 * k) ∧ u =
      { id := f.binder.nextId, vi := vi, slots := [k], waiting := [k], command := false, byHost := true, list := [(f.slot k).fx] } ∧
      d.dcInstance port = some vi ∧ slots = [k] ∧ (d.windowsOf vi).any (fun w => w.2.holds k) = true ∧ (d.slot k).valid = true ∧
      f.binder.unbindings = [] ∧ f.ownExtent (f.slot k).fx = true :=
    ⟨0, [7], 0, 7, wMap, _, _, _, _, rfl, rfl, rfl, rfl, by decide⟩

theorem wit_CapacityEvents_3 : ∃ (port : Fin 64) (vi : Nat) (s : State) (d : Dev), d = s.dev ∧ d.dcInstance port = some vi :=
    ⟨0, 0, wMap, _, rfl, by decide⟩

theorem wit_CapacityEvents_4 : ∃ (id : Nat) (b : Binding) (s : State) (d : Dev), d = s.dev ∧ d.binder.bindings.find? (fun x => decide (x.id = id ∧ x.member = 0
      ∧ x.asked = [])) = some b :=
    ⟨2, { id := 2, window := 255, slots := [7], fresh := [true] }, (wd
      { dWin with binder := { bindings := [{ id := 2, window := 255, slots := [7], fresh := [true] }] } }), _, rfl, by decide⟩

theorem wit_CapacityEvents_5 : ∃ (id : Nat) (u : Unbinding) (k : Nat) (s : State) (d : Dev), d = s.dev ∧ d.binder.unbindings.find? (fun x => decide (x.id =
      id)) = some u ∧ u.waiting = [k] ∧ ((d.setUnbinding { u with waiting := [], timedOut := true }).clearUnbinding (d.slot
      k).fx).acting = false :=
    ⟨2, { id := 2, vi := 0, slots := [7], waiting := [7] }, 7, (wd
      { dWin with binder := { unbindings := [{ id := 2, vi := 0, slots := [7], waiting := [7] }] } }), _, rfl, by decide⟩

theorem wit_CapacityEvents_6 : ∃ (id : Nat) (u : Unbinding) (y : Nat × Nat) (s : State) (d : Dev), d = s.dev ∧ d.binder.unbindings.find? (fun x => decide (x.id
      = id)) = some u ∧ u.finishing = [y] ∧ d.drained u.vi y.2 = true ∧ d.scanClean u.vi y.2 = true ∧ d.ownExtent y.2 = true :=
    ⟨2, { id := 2, vi := 0, slots := [7], waiting := [], finishing := [(7, 262144)] }, (7, 262144), (wd
      { dWin.wr Glob.CHAIN_ADDRESS 1 with binder := { unbindings := [{ id := 2, vi := 0, slots := [7], waiting := [], finishing := [(7, 262144)] }] } }),
      _, rfl, by decide⟩

theorem wit_CapacityEvents_7 : ∃ (index : Fin 32) (m : Migration) (s : State) (d : Dev) (f : Dev), d = s.dev ∧ f = ((d.setExt m.source
      { d.ext m.source with port := (d.ext m.dest).port, ld := (d.ext m.dest).ld, dpaUnit := (d.ext m.dest).dpaUnit, poisonCapable := (d.ext m.dest).poisonCapable, migrating := false, migIndex := 0 }).setExt
      m.dest
      { d.ext m.dest with port := (d.ext m.source).port, ld := (d.ext m.source).ld, dpaUnit := (d.ext m.source).dpaUnit, poisonCapable := (d.ext m.source).poisonCapable, migrating := false, migIndex := 0, state := 2 }).releaseHeld
      index ∧ Tab.get d.binder.migrations index = some m ∧ m.phase = 2 ∧ d.dualsOpen m.source = false ∧ d.lostWork m.source = false
      ∧ m.zero = false ∧ d.ladles.runs = [] ∧ f.ladles.runs = [] :=
    ⟨31, { source := 0, dest := 1, phase := 2 }, (wd
      { dMig with ladles := {}, binder := { migrations := [(31, { source := 0, dest := 1, phase := 2 })] } }), _, _, rfl, rfl, by
      decide⟩

theorem wit_PortEvents_1 : ∃ (port : Fin 64) (s : State) (d : Dev), d = s.dev :=
    ⟨0, wWin, _, rfl⟩

theorem wit_PortEvents_2 : ∃ (port : Fin 64) (tag : Nat) (s : State) (d : Dev), d = s.dev ∧ (d.snoopOf port tag).isSome = true :=
    ⟨0, 5, wSnoop, _, rfl, by decide⟩

theorem wit_PortEvents_3 : ∃ (port : Fin 64) (s : State) (d : Dev), d = s.dev ∧ d.buf.entries.any (fun x => decide (x.port = (port : Nat))) = true :=
    ⟨4, wSent, _, rfl, by decide⟩

theorem wit_PortEvents_4 : ∃ (port : Fin 64) (present : Bool) (s : State) (d : Dev), d = s.dev ∧ d.present port = true ∧ present = true :=
    ⟨0, true, wHost, _, rfl, by decide⟩

theorem wit_PortEvents_5 : ∃ (port : Fin 64) (present : Bool) (s : State) (d : Dev), d = s.dev ∧ d.present port = true ∧ present = false :=
    ⟨0, false, wHost, _, rfl, by decide⟩

theorem wit_PortEvents_6 : ∃ (port : Fin 64) (s : State) (d : Dev), d = s.dev ∧ (d.port port).removed = true :=
    ⟨0, (wd ((dm 4).setPort 0 { removed := true })), _, rfl, by decide⟩

theorem wit_PortEvents_7 : ∃ (port : Fin 64) (s : State) (d : Dev) (n : Nat), d = s.dev ∧ n = (d.rd (Pg.INCARNATION port) + 1) % 65536 ∧ (d.port
      port).removed = true ∧ d.flag (Pg.RECLAIM_BUSY port) = false ∧ d.rd (Pg.SETTLE_REMAINING port) = 0 ∧ d.agents.reads = [] :=
    ⟨0, (wd ((dm 4).setPort 0 { removed := true })), _, _, rfl, rfl, by decide⟩

theorem wit_PortEvents_8 : ∃ (port : Fin 64) (gen rate width : Nat) (flit256 latencyOpt poisonCapable : Bool) (capacity : List Nat) (type2 : Bool) (s :
      State) (d : Dev) (f : Dev), d = s.dev ∧ f = (((((d.raise1 (Pg.DL_UP port)).wr (Pg.RATE port) (min (min rate (d.rd
      (Pg.CXL_MAX_RATE ((port : Nat) / 4)))) 6)).wr (Pg.WIDTH port) (max 1 (min width (2 ^ d.widthCfg port)))).wr (Pg.CXL_GEN port)
      3).wrFlag (Pg.FLIT_256 port) true).wrFlag (Pg.LATENCY_OPT port) false ∧ d.isHostPort port = true ∧ d.linkUp port = false ∧ 3 ≤
      d.mode ∧ d.flag (Pg.POWERED ((port : Nat) / 4)) = true ∧ (d.port port).disabled = false ∧ d.scanHolds = false ∧ (d.port
      port).removed = false ∧ (d.port port).admitted = true ∧ d.isDevicePort port = false ∧ gen = 3 ∧ flit256 = true ∧ latencyOpt =
      false ∧ f.isHostPort port = true ∧ f.isDevicePort port = false ∧ (f.setPort port
      { d.port port with lastGen := 3, poisonCapable := false, capacity := [], type2 := type2 }).isDevicePort port = false :=
    ⟨0, 3, 6, 16, true, false, true, [], false, (wd ((((dm 4).wr (Pg.PERSONALITY 0) 1).wr (Pg.BIFURCATION 0) 0).wr (Pg.POWERED 0)
      1)), _, _, rfl, rfl, by decide⟩

theorem wit_PortEvents_9 : ∃ (port : Fin 64) (s : State) (d : Dev), d = s.dev ∧ d.isHostPort port = true ∧ d.linkUp port = false ∧ d.flag (Pg.PRESENT port)
      = true ∧ (d.port port).admitted = true ∧ (d.port port).disabled = false :=
    ⟨0, (wd ((((dm 4).wr (Pg.PERSONALITY 0) 1).wr (Pg.BIFURCATION 0) 0).wr (Pg.PRESENT 0) 1)), _, rfl, by decide⟩

theorem wit_PortEvents_10 : ∃ (port : Fin 64) (s : State) (d : Dev), d = s.dev ∧ d.perstMay port = true ∧ (d.port port).perstHigh = false :=
    ⟨4, (wd ((dDev.wr (Pg.POWERED 1) 1).wr (Spc.ch_PG 1) 1)), _, rfl, by decide⟩

theorem wit_PortEvents_11 : ∃ (port : Fin 64) (s : State) (d : Dev), d = s.dev ∧ d.isHostPort port = true :=
    ⟨0, wHost, _, rfl, by decide⟩

theorem wit_PortEvents_12 : ∃ (port : Fin 64) (s : State) (d : Dev), d = s.dev ∧ d.carries port = true ∧ d.isHostPort port = true ∧ d.presentsPort port =
      true :=
    ⟨0, wWin, _, rfl, by decide⟩

theorem wit_PeerRequests_1 : ∃ (h : QflHdr) (w : ReqWord) (s : State) (d : Dev) (f : Dev) (g : Access × Dev), d = s.dev ∧ f = (d.receiveFiltered s.time.now 0
      1 h).1 ∧ g = f.peerAccess s.time.now 1 h w (BitVec.allOnes 64) 0 none ∧ (d.receiveFiltered s.time.now 0 1 h).2 = true ∧
      f.stopped = false ∧ g.2.isHome w.addr = true ∧ g.2.serves = true :=
    ⟨qReq, wReq, wPeer, _, _, _, rfl, rfl, rfl, by decide⟩

theorem wit_PeerRequests_2 : ∃ (h : QflHdr) (w : ReqWord) (s : State) (d : Dev) (f : Dev) (g : Access × Dev), d = s.dev ∧ f = (d.receiveFiltered s.time.now 0
      2 h).1 ∧ g = f.peerAccess s.time.now 2 h w (BitVec.allOnes 64) 0 none ∧ (d.receiveFiltered s.time.now 0 2 h).2 = true ∧
      f.stopped = false ∧ g.2.isHome w.addr = true ∧ g.2.serves = true :=
    ⟨qReq, wReq, wPeer, _, _, _, rfl, rfl, rfl, by decide⟩

theorem wit_PeerRequests_3 : ∃ (h : QflHdr) (w : ReqWord) (s : State) (d : Dev) (f : Dev) (g : Access × Dev), d = s.dev ∧ f = (d.receiveFiltered s.time.now 0
      3 h).1 ∧ g = f.peerAccess s.time.now 3 h w (BitVec.allOnes 64) 0 none ∧ (d.receiveFiltered s.time.now 0 3 h).2 = true ∧
      f.stopped = false ∧ g.2.isHome w.addr = true ∧ g.2.serves = true :=
    ⟨qReq, wReq, wPeer, _, _, _, rfl, rfl, rfl, by decide⟩

theorem wit_PeerRequests_4 : ∃ (h : QflHdr) (w : ReqWord) (s : State) (d : Dev) (f : Dev) (g : Access × Dev), d = s.dev ∧ f = (d.receiveFiltered s.time.now 0
      4 h).1 ∧ g = f.peerAccess s.time.now 4 h w (BitVec.allOnes 64) 0 none ∧ (d.receiveFiltered s.time.now 0 4 h).2 = true ∧
      f.stopped = false ∧ g.2.isHome w.addr = true ∧ g.2.serves = true :=
    ⟨qReq, wReq, wPeer, _, _, _, rfl, rfl, rfl, by decide⟩

theorem wit_PeerRequests_5 : ∃ (h : QflHdr) (w : ReqWord) (s : State) (d : Dev) (f : Dev) (g : Access × Dev), d = s.dev ∧ f = (d.receiveFiltered s.time.now 0
      5 h).1 ∧ g = f.peerAccess s.time.now 5 h w (BitVec.allOnes 64) 0 none ∧ (d.receiveFiltered s.time.now 0 5 h).2 = true ∧
      f.stopped = false ∧ g.2.isHome w.addr = true ∧ g.2.serves = true :=
    ⟨qReq, wReq, wPeer, _, _, _, rfl, rfl, rfl, by decide⟩

theorem wit_PeerRequests_6 : ∃ (h : QflHdr) (w : ReqWord) (data : Line) (s : State) (d : Dev) (f : Dev) (g : Access × Dev), d = s.dev ∧ f =
      (d.receiveFiltered s.time.now 0 6 h).1 ∧ g = f.peerAccess s.time.now 6 h w (BitVec.allOnes 64) data none ∧ (d.receiveFiltered
      s.time.now 0 6 h).2 = true ∧ f.stopped = false ∧ g.2.isHome w.addr = true ∧ g.2.serves = true :=
    ⟨qReq, wReq, 7, wPeer, _, _, _, rfl, rfl, rfl, by decide⟩

theorem wit_PeerRequests_7 : ∃ (h : QflHdr) (w : ReqWord) (s : State) (d : Dev) (f : Dev) (g : Access × Dev), d = s.dev ∧ f = (d.receiveFiltered s.time.now 0
      7 h).1 ∧ g = f.peerAccess s.time.now 7 h w (BitVec.allOnes 64) 0 none ∧ (d.receiveFiltered s.time.now 0 7 h).2 = true ∧
      f.stopped = false ∧ g.2.isHome w.addr = true ∧ g.2.serves = true :=
    ⟨qReq, wReq, wPeer, _, _, _, rfl, rfl, rfl, by decide⟩

theorem wit_PeerRequests_8 : ∃ (h : QflHdr) (w : ReqWord) (be : Enables) (data : Line) (s : State) (d : Dev) (f : Dev) (g : Access × Dev), d = s.dev ∧ f =
      (d.receiveFiltered s.time.now 0 8 h).1 ∧ g = f.peerAccess s.time.now 8 h w be data none ∧ (d.receiveFiltered s.time.now 0 8
      h).2 = true ∧ f.stopped = false ∧ g.2.isHome w.addr = true ∧ g.2.serves = true :=
    ⟨qReq, wReq, 1, 7, wPeer, _, _, _, rfl, rfl, rfl, by decide⟩

theorem wit_PeerRequests_9 : ∃ (h : QflHdr) (w : ReqWord) (op a b : Nat) (s : State) (d : Dev) (f : Dev) (g : Access × Dev), d = s.dev ∧ f =
      (d.receiveFiltered s.time.now 0 9 h).1 ∧ g = f.peerAccess s.time.now 9 h w (BitVec.allOnes 64) 0 (some
      { op := op, a := a, b := b }) ∧ (d.receiveFiltered s.time.now 0 9 h).2 = true ∧ f.stopped = false ∧ g.2.isHome w.addr = true ∧
      g.2.serves = true ∧ 1 ≤ op ∧ op ≤ 4 ∧ w.addr % ({ op := op, a := a, b := b } : AtomArgs).size = 0 :=
    ⟨qReq, wReq, 1, 5, 0, wPeer, _, _, _, rfl, rfl, rfl, by decide⟩

theorem wit_PeerRequests_10 : ∃ (h : QflHdr) (w : ReqWord) (s : State) (d : Dev) (f : Dev) (g : Access × Dev), d = s.dev ∧ f = (d.receiveFiltered s.time.now 0
      10 h).1 ∧ g = f.peerAccess s.time.now 10 h w (BitVec.allOnes 64) 0 none ∧ (d.receiveFiltered s.time.now 0 10 h).2 = true ∧
      g.2.isHome w.addr = true ∧ g.2.trackerOn (lineAddr w.addr) = none :=
    ⟨qReq, wReq, wPeer, _, _, _, rfl, rfl, rfl, by decide⟩

theorem wit_RecallsAndResponses_1 : ∃ (h : QflHdr) (addr : Nat) (s : State) (d : Dev) (f : Dev) (w : ChurnWork), d = s.dev ∧ f = (d.receiveFiltered s.time.now 1 1
      h).1 ∧ w =
      { slice := sliceOf (lineAddr addr), acc := { id := f.newId.1, kind := .recall, origin := .churn 0, master := h.master, fa := laFa (lineAddr addr), keep := 0, time := s.time.now }, la := lineAddr addr, reply := some (h.src, h.tag, h.e2e) }
      ∧ (d.receiveFiltered s.time.now 1 1 h).2 = true ∧ f.homeLine (lineAddr addr) = false :=
    ⟨qReq, (faOf 1 0 0), wPeer, _, _, _, rfl, rfl, rfl, by decide⟩

theorem wit_RecallsAndResponses_2 : ∃ (h : QflHdr) (addr : Nat) (s : State) (d : Dev) (f : Dev) (w : ChurnWork), d = s.dev ∧ f = (d.receiveFiltered s.time.now 1 2
      h).1 ∧ w =
      { slice := sliceOf (lineAddr addr), acc := { id := f.newId.1, kind := .recall, origin := .churn 0, master := h.master, fa := laFa (lineAddr addr), keep := 1, time := s.time.now }, la := lineAddr addr, reply := some (h.src, h.tag, h.e2e) }
      ∧ (d.receiveFiltered s.time.now 1 2 h).2 = true ∧ f.homeLine (lineAddr addr) = false :=
    ⟨qReq, (faOf 1 0 0), wPeer, _, _, _, rfl, rfl, rfl, by decide⟩

theorem wit_RecallsAndResponses_3 : ∃ (h : QflHdr) (addr : Nat) (s : State) (d : Dev) (f : Dev) (w : ChurnWork), d = s.dev ∧ f = (d.receiveFiltered s.time.now 1 3
      h).1 ∧ w =
      { slice := sliceOf (lineAddr addr), acc := { id := f.newId.1, kind := .recall, origin := .churn 0, master := h.master, fa := laFa (lineAddr addr), keep := 2, time := s.time.now }, la := lineAddr addr, reply := some (h.src, h.tag, h.e2e) }
      ∧ (d.receiveFiltered s.time.now 1 3 h).2 = true ∧ f.homeLine (lineAddr addr) = false :=
    ⟨qReq, (faOf 1 0 0), wPeer, _, _, _, rfl, rfl, rfl, by decide⟩

theorem wit_RecallsAndResponses_4 : ∃ (h : QflHdr) (grant : Nat) (error : Bool) (o : Outst) (s : State) (d : Dev) (f : Dev), d = s.dev ∧ f = (d.matchResponse
      s.time.now 2 1 h).1 ∧ (d.matchResponse s.time.now 2 1 h).2 = some o :=
    ⟨qAck, 1, false, oAck, wAck, _, _, rfl, rfl, by decide⟩

theorem wit_RecallsAndResponses_5 : ∃ (h : QflHdr) (cause hint : Nat) (ticket : Option Nat) (o : Outst) (a : Access) (s : State) (d : Dev) (f : Dev), d = s.dev ∧ f
      = (d.matchResponse s.time.now 2 2 h).1 ∧ (d.matchResponse s.time.now 2 2 h).2 = some o ∧ o.cont = .direct a ∧ cause ≠ 0 :=
    ⟨qAck, 1, 2, none, oDirect, aRd, (wd { dMem 7 with fab := { outstanding := [oDirect] } }), _, _, rfl, rfl, by decide⟩

theorem wit_RecallsAndResponses_6 : ∃ (h : QflHdr) (grant : Nat) (o : Outst) (s : State) (d : Dev) (f : Dev), d = s.dev ∧ f = (d.matchResponse s.time.now 2 3 h).1 ∧
      (d.matchResponse s.time.now 2 3 h).2 = some o :=
    ⟨qAck, 1, oAck, wAck, _, _, rfl, rfl, by decide⟩

theorem wit_RecallsAndResponses_7 : ∃ (h : QflHdr) (grant : Nat) (poison error : Bool) (data : Line) (o : Outst) (s : State) (d : Dev) (f : Dev), d = s.dev ∧ f =
      (d.matchResponse s.time.now 3 1 h).1 ∧ (d.matchResponse s.time.now 3 1 h).2 = some o :=
    ⟨qAck, 1, false, true, 7, oAck, wAck, _, _, rfl, rfl, by decide⟩

theorem wit_RecallsAndResponses_8 : ∃ (h : QflHdr) (grant : Nat) (poison : Bool) (data : Line) (o : Outst) (s : State) (d : Dev) (f : Dev), d = s.dev ∧ f =
      (d.matchResponse s.time.now 3 2 h).1 ∧ (d.matchResponse s.time.now 3 2 h).2 = some o :=
    ⟨qAck, 1, false, 7, oAck, wAck, _, _, rfl, rfl, by decide⟩

theorem wit_RecallsAndResponses_9 : ∃ (h : QflHdr) (poison error : Bool) (value : Nat) (o : Outst) (s : State) (d : Dev) (f : Dev), d = s.dev ∧ f = (d.matchResponse
      s.time.now 3 3 h).1 ∧ (d.matchResponse s.time.now 3 3 h).2 = some o :=
    ⟨qAck, false, false, 9, oAck, wAck, _, _, rfl, rfl, by decide⟩

theorem wit_RecallsAndResponses_10 : ∃ (h : QflHdr) (cause : Nat) (o : Outst) (s : State) (d : Dev) (f : Dev), d = s.dev ∧ f = (d.matchResponse s.time.now 2 255 h).1
      ∧ (d.matchResponse s.time.now 2 255 h).2 = some o ∧ cause ≠ 0 :=
    ⟨qAck, 5, oAck, wAck, _, _, rfl, rfl, by decide⟩

theorem wit_RecallsAndResponses_11 : ∃ (dst tag : Nat) (o : Outst) (s : State) (d : Dev) (f : Dev), d = s.dev ∧ f = d.inc (Qfab.TIMEOUTS (dst - 1)) ∧
      d.fab.outstanding.find? (fun x => decide (x.dst = dst ∧ x.tag = tag)) = some o ∧ 1 ≤ dst ∧ dst ≤ 16 ∧ o.vc ≠ 4 :=
    ⟨1, 9, oAck, wAck, _, _, rfl, rfl, by decide⟩

theorem wit_MirrorChannel_1 : ∃ (h : QflHdr) (location : BitVec 64) (entry : BitVec 128) (s : State) (d : Dev) (f : Dev), d = s.dev ∧ f = (d.receiveFiltered
      s.time.now 4 1 h).1 ∧ (d.receiveFiltered s.time.now 4 1 h).2 = true ∧ f.mode = 6 :=
    ⟨qReq, 0, 0, wMirror, _, _, rfl, rfl, by decide⟩

theorem wit_MirrorChannel_2 : ∃ (h : QflHdr) (word : BitVec 64) (units : List (BitVec 64)) (s : State) (d : Dev) (f : Dev), d = s.dev ∧ f = (d.receiveFiltered
      s.time.now 4 2 h).1 ∧ (d.receiveFiltered s.time.now 4 2 h).2 = true ∧ f.mode = 6 :=
    ⟨qReq, 0, [0], wMirror, _, _, rfl, rfl, by decide⟩

theorem wit_MirrorChannel_3 : ∃ (h : QflHdr) (location : BitVec 64) (data : Line) (s : State) (d : Dev) (f : Dev), d = s.dev ∧ f = (d.receiveFiltered
      s.time.now 4 4 h).1 ∧ (d.receiveFiltered s.time.now 4 4 h).2 = true ∧ f.mode = 6 :=
    ⟨qReq, 1, 0, wMirror, _, _, rfl, rfl, by decide⟩

theorem wit_MirrorChannel_4 : ∃ (h : QflHdr) (count : Nat) (s : State) (d : Dev) (f : Dev), d = s.dev ∧ f = (d.receiveFiltered s.time.now 4 5 h).1 ∧
      (d.receiveFiltered s.time.now 4 5 h).2 = true ∧ f.mode = 6 :=
    ⟨qReq, 3, wMirror, _, _, rfl, rfl, by decide⟩

theorem wit_MirrorChannel_5 : ∃ (h : QflHdr) (o : Outst) (s : State) (d : Dev) (f : Dev), d = s.dev ∧ f = (d.matchResponse s.time.now 4 3 h).1 ∧
      (d.matchResponse s.time.now 4 3 h).2 = some o :=
    ⟨qAck, oAck, wAck, _, _, rfl, rfl, by decide⟩

theorem wit_MirrorChannel_6 : ∃ (s : State) (d : Dev) (f : Dev), d = s.dev ∧ f = (d.wr Memb.RESYNC_COPIED 0).wr Memb.RESYNC_PHASE 3 ∧ d.acting = true ∧ d.rd
      Memb.RESYNC_PHASE = 2 ∧ d.chn.tier1 = [] ∧ d.chn.tier2 = [] ∧ d.chn.image = [] ∧ d.flaws = [] :=
    ⟨(wd (((dPri 5).wr Memb.MIRROR_ADDR 2).wr Memb.RESYNC_PHASE 2)), _, _, rfl, rfl, by decide⟩

theorem wit_MirrorChannel_7 : ∃ (s : State) (d : Dev) (m : Nat), d = s.dev ∧ m = d.rd Memb.MIRROR_ADDR ∧ d.mode = 5 ∧ m ≠ 0 ∧ d.chn.mirrorWaits.isEmpty =
      false ∧ d.silentAt m = false :=
    ⟨(wd { (dPri 5).wr Memb.MIRROR_ADDR 2 with chn := { mirrorWaits := [(0, 1)] } }), _, _, rfl, rfl, by decide⟩

theorem wit_MirrorChannel_8 : ∃ (s : State) (d : Dev), d = s.dev ∧ d.mode = 5 ∧ d.memb.synced = false :=
    ⟨w5m, _, rfl, by decide⟩

theorem wit_Training_1 : ∃ (port : Fin 64) (s : State) (d : Dev), d = s.dev ∧ d.rd (Pg.phy_STATE port) = 0 ∧ d.mayTrain port = true :=
    ⟨4, (wd (dQ 0)), _, rfl, by decide⟩

theorem wit_Training_2 : ∃ (port : Fin 64) (lanes : BitVec 32) (found : List Nat) (s : State) (d : Dev), d = s.dev ∧ d.rd (Pg.phy_STATE port) = 1 ∧ found
      = (d.portLanes port).filter (fun x => lanes.getLsbD x) ∧ found ≠ [] ∧ (d.qphy port).tested ≠ some found :=
    ⟨4, 0xffff, (List.range 16), (wd (dQ 1)), _, rfl, by decide⟩

theorem wit_Training_3 : ∃ (port : Fin 64) (lanes : BitVec 32) (found : List Nat) (s : State) (d : Dev) (f : Dev), d = s.dev ∧ f = (d.drawn.wr
      (Pg.phy_NONCE_LOCAL port) (d.freeVal 10)).setQphy port { d.qphy port with tested := some found, detected := found } ∧ d.rd
      (Pg.phy_STATE port) = 1 ∧ found = (d.portLanes port).filter (fun x => lanes.getLsbD x) ∧ found ≠ [] ∧ (d.qphy port).tested =
      some found :=
    ⟨4, 0xffff, (List.range 16), (wd (dQp 1 { tested := some (List.range 16) })), _, _, rfl, rfl, by decide⟩

theorem wit_Training_4 : ∃ (port : Fin 64) (set : Ts1Set) (lanes : List Ts1Lane) (s : State) (d : Dev), d = s.dev ∧ d.isQflPort port = true ∧ lanes =
      set.lanes.filter (fun y => ¬ (d.laneOf (laneBase port + y.lane)).dropped) ∧ lanes ≠ [] ∧ d.rd (Pg.phy_STATE port) = 5 ∧
      lanes.any (fun y => (d.lanesInUse port).contains y.lane) = true :=
    ⟨4, set1, set1.lanes, (wd ((dQp 5 { rxLanes := List.range 16 }).wr (Pg.phy_WIDTH_ACTIVE 4) 4)), _, rfl, by decide⟩

theorem wit_Training_5 : ∃ (port : Fin 64) (set : Ts2Set) (s : State) (d : Dev), d = s.dev ∧ d.isQflPort port = true ∧ d.rd (Pg.phy_STATE port) = 4 ∧
      (d.portLanes port).all (fun x => (d.laneOf (laneBase port + x)).dropped) = false ∧ countSame (d.qphy port).ts2 set = (set, 8) :=
    ⟨4, set2, (wd (dQp 4 { ts2 := some (set2, 7) })), _, rfl, by decide⟩

theorem wit_Training_6 : ∃ (port : Fin 64) (s : State) (d : Dev), d = s.dev ∧ (d.rd (Pg.phy_STATE port) = 4 ∨ d.rd (Pg.phy_STATE port) = 6) ∧ (d.qphy
      port).ready = true :=
    ⟨4, (wd (dQp 4 { ready := true, selection := some (4, false) })), _, rfl, by decide⟩

theorem wit_Training_7 : ∃ (lane : Fin 256) (skips : Nat) (place : SkpPlace) (codes : List (BitVec 10)) (p : Nat) (s : State) (d : Dev), d = s.dev ∧
      d.laneOwner lane = some p ∧ d.isQflPort p = true ∧ (d.laneOf lane).dropped = false ∧ d.rd (Pg.phy_STATE p) ≠ 7 :=
    ⟨31, 5, .inPlace, [], 4, (wd (dQ 5)), _, rfl, by decide⟩

theorem wit_Training_8 : ∃ (lane : Fin 256) (skips : Nat) (place : SkpPlace) (codes : List (BitVec 10)) (p : Nat) (s : State) (d : Dev), d = s.dev ∧
      d.laneOwner lane = some p ∧ d.isQflPort p = true ∧ (d.laneOf lane).dropped = false ∧ d.rd (Pg.phy_STATE p) = 7 :=
    ⟨31, 5, .inPlace, [5], 4, (wd (dQ 7)), _, rfl, by decide⟩

theorem wit_Training_9 : ∃ (x : LaneScan) (skips : Nat) (e : Int), 1 ≤ skips ∧ skips ≤ 5 ∧ e = x.lane.elastic + (skips : Int) - 3 :=
    ⟨{ lane := {} }, 5, 2, by decide⟩

theorem wit_Training_10 : ∃ (x : LaneScan) (skips : Nat), (skips = 0 ∨ 5 < skips) :=
    ⟨{ lane := {} }, 6, by decide⟩

theorem wit_Training_11 : ∃ (x : LaneScan) (skips : Nat) (place : SkpPlace), place ≠ .inPlace ∧ 3 ≤ x.lane.skpsLost :=
    ⟨{ lane := { skpsLost := 3 } }, 0, .missing, by decide⟩

theorem wit_Training_12 : ∃ (port : Fin 64) (s : State) (d : Dev), d = s.dev ∧ 2 ≤ d.rd (Pg.phy_STATE port) ∧ d.rd (Pg.phy_STATE port) ≤ 6 :=
    ⟨4, (wd (dQ 6)), _, rfl, by decide⟩

theorem wit_Training_13 : ∃ (port : Fin 64) (skew : Nat) (s : State) (d : Dev), d = s.dev ∧ d.rd (Pg.phy_STATE port) = 6 ∧ skew ≤ 112 :=
    ⟨4, 112, (wd (dQ 6)), _, rfl, by decide⟩

theorem wit_Training_14 : ∃ (port : Fin 64) (s : State) (d : Dev), d = s.dev ∧ 2 ≤ d.rd (Pg.phy_STATE port) :=
    ⟨4, (wd (dQ 2)), _, rfl, by decide⟩

theorem wit_Training_15 : ∃ (port : Fin 64) (s : State) (d : Dev), d = s.dev ∧ d.rd (Pg.phy_STATE port) = 5 ∧ d.mode ≠ 11 :=
    ⟨4, (wd (dQ 5)), _, rfl, by decide⟩

theorem wit_Training_16 : ∃ (port : Fin 64) (s : State) (d : Dev), d = s.dev ∧ d.rd (Pg.phy_STATE port) = 5 ∧ d.mode = 11 ∧ d.rd (Pg.ll_LL_STATE port) ≠ 0 :=
    ⟨4, (wd ((dL 2 {}).wr Glob.CURRENT_MODE 11)), _, rfl, by decide⟩

theorem wit_Training_17 : ∃ (port : Fin 64) (s : State) (d : Dev), d = s.dev ∧ (d.rd (Pg.phy_STATE port) = 5 ∨ d.rd (Pg.phy_STATE port) = 6 ∨ d.rd
      (Pg.phy_STATE port) = 7) :=
    ⟨4, (wd (dQ 7)), _, rfl, by decide⟩

theorem wit_Training_18 : ∃ (port : Fin 64) (final : Bool) (s : State) (d : Dev), d = s.dev ∧ d.rd (Pg.phy_STATE port) = 2 ∧ (final = true ∨ (d.qphy
      port).complete = [] ∨ (d.qphy port).deskews < 2) :=
    ⟨4, false, (wd (dQ 2)), _, rfl, by decide⟩

theorem wit_Training_19 : ∃ (port : Fin 64) (s : State) (d : Dev), d = s.dev ∧ d.rd (Pg.phy_STATE port) = 3 :=
    ⟨4, (wd (dQ 3)), _, rfl, by decide⟩

theorem wit_Training_20 : ∃ (port : Fin 64) (s : State) (d : Dev), d = s.dev ∧ d.rd (Pg.phy_STATE port) = 4 :=
    ⟨4, (wd (dQ 4)), _, rfl, by decide⟩

theorem wit_Training_21 : ∃ (port : Fin 64) (s : State) (d : Dev), d = s.dev ∧ d.rd (Pg.phy_STATE port) = 6 :=
    ⟨4, (wd (dQ 6)), _, rfl, by decide⟩

theorem wit_Training_22 : ∃ (port : Fin 64) (lane : Fin 32) (e : EqLane) (s : State) (d : Dev), d = s.dev ∧ Tab.get (d.qphy port).eq lane = some e ∧ d.rd
      (Pg.phy_STATE port) = 3 ∧ e.kind ≠ 0 ∧ e.evaluating = false ∧ e.done = false ∧ d.eqOver s.time.now port = false :=
    ⟨4, 15, { kind := 1 }, (wd (dQp 3 { eq := [(15, { kind := 1 })] })), _, rfl, by decide⟩

theorem wit_Training_23 : ∃ (port : Fin 64) (lane : Fin 32) (eye : Fin 64) (e : EqLane) (eq : Tab EqLane) (s : State) (d : Dev), d = s.dev ∧ Tab.get
      (d.qphy port).eq lane = some e ∧ d.rd (Pg.phy_STATE port) = 3 ∧ e.evaluating = true ∧ e.done = false ∧ e.kind = 2 ∧ (eye :
      Nat) ≤ e.bestEye ∧ 2 ≤ e.requests ∧ eq = Tab.set (d.qphy port).eq lane { e with done := true, evaluating := false } :=
    ⟨4, 15, 63, { kind := 2, evaluating := true, requests := 9, bestEye := 63 }, [(15,
      { kind := 2, done := true, requests := 9, bestEye := 63 })], (wd (dQp 3
      { eq := [(15, { kind := 2, evaluating := true, requests := 9, bestEye := 63 })] })), _, rfl, by decide⟩

theorem wit_Training_24 : ∃ (port : Fin 64) (lane : Fin 32) (s : State) (d : Dev), d = s.dev ∧ (d.portLanes port).contains lane = true :=
    ⟨4, 15, (wd (dQ 5)), _, rfl, by decide⟩

theorem wit_LinkFlits_1 : ∃ (port : Fin 64) (bits : BitVec 1024) (s : State) (d : Dev) (f : Dev), d = s.dev ∧ f = (d.inc (Pg.ll_CRC_ERRORS port)).mon
      s.time.now (port / 4) 0x105 0xffff 0 ∧ d.rd (Pg.phy_STATE port) ≠ 7 ∧ d.hears port = true ∧ bits.toNat % 4 = 2 ∧ bits.toNat /
      2 ^ 992 ≠ flitCrc (fieldOf (bits.toNat % 2 ^ 32) 2 12) bits ∧ (f.link port).badRun < 3 :=
    ⟨4, 2, (wd (dL 2 {})), _, _, rfl, rfl, by decide, by decide, by decide +kernel, by decide +kernel, by decide⟩

theorem wit_LinkFlits_2 : ∃ (port : Fin 64) (bits : BitVec 1024) (s : State) (d : Dev) (f : Dev), d = s.dev ∧ f = d.setLink port
      { d.link port with nextNew := ((d.link port).nextNew + 1) % 4096, rxFlits := (d.link port).rxFlits + 1 } ∧ d.rd (Pg.phy_STATE
      port) ≠ 7 ∧ d.hears port = true ∧ bits.toNat % 4 = 1 ∧ d.flag (Pg.ll_RX_SYNCED port) = true ∧ (d.link port).badRun = 0 ∧
      bits.toNat / 2 ^ 992 = flitCrc (d.link port).nextNew bits ∧ fieldOf (bits.toNat % 2 ^ 32) 14 1 = 0 ∧ d.flag (Pg.ll_ENCRYPTED
      port) = false ∧ f.flag (Pg.ll_ENCRYPTED port) = false ∧ f.link port =
      { d.link port with nextNew := ((d.link port).nextNew + 1) % 4096, rxFlits := (d.link port).rxFlits + 1 } :=
    ⟨4, wFlit, (wd ((dL 2 { nextNew := 5 }).wr (Pg.ll_RX_SYNCED 4) 1)), _, _, rfl, rfl, by decide, by decide, by decide +kernel, by
      decide, by decide, by decide +kernel, by decide +kernel, by decide⟩

theorem wit_LinkFlits_3 : ∃ (port : Fin 64) (seq : Fin 4096) (synced : Bool) (crc : BitVec 8) (s : State) (d : Dev), d = s.dev ∧ d.hears port = true ∧ crc
      = wheyCrc 1 [seq, flagBit synced] :=
    ⟨4, 4095, true, (wheyCrc 1 [4095, 1]), (wd (dL 1 {})), _, rfl, by decide⟩

theorem wit_LinkFlits_4 : ∃ (port : Fin 64) (seq : Fin 4096) (map : BitVec 16) (synced resync : Bool) (crc : BitVec 8) (s : State) (d : Dev) (f : Dev), d
      = s.dev ∧ f = d.freeReplay port seq ∧ (f.confirm port synced).flaws = [] ∧ d.hears port = true ∧ resync = false ∧ (f.confirm
      port synced).selective port = false ∧ crc = wheyCrc 2 [seq, map.toNat, flagBit synced, flagBit resync] :=
    ⟨4, 0, 1, false, false, (wheyCrc 2 [0, 1, 0, 0]), (wd (dL 2 {})), _, _, rfl, rfl, by decide⟩

theorem wit_LinkFlits_5 : ∃ (port : Fin 64) (vc : Fin 8) (count : BitVec 16) (crc : BitVec 8) (s : State) (d : Dev), d = s.dev ∧ d.flaws = [] ∧ d.hears
      port = true ∧ (vc : Nat) ≤ 5 ∧ (d.link port).creditSeen.contains (vc : Nat) = true ∧ crc = wheyCrc 3 [vc, count.toNat] :=
    ⟨4, 5, 0xffff, (wheyCrc 3 [5, 0xffff]), (wd (dL 1 { creditSeen := [5] })), _, rfl, by decide⟩

theorem wit_LinkFlits_6 : ∃ (port : Fin 64) (next : Fin 4096) (crc : BitVec 8) (s : State) (d : Dev) (f : Dev), d = s.dev ∧ f = d.setLink port
      { d.link port with nextNew := next, rxFlits := (d.link port).rxFlits + (next.val + 4096 - (d.link port).nextNew) % 4096 } ∧
      d.hears port = true ∧ crc = wheyCrc 4 [next] ∧ (f.raise1 (Pg.ll_RX_SYNCED port)).missing port = [] :=
    ⟨4, 0, (wheyCrc 4 [0]), (wd ((dL 1 {}).wr (Pg.ll_RX_ACK_SEQ 4) 4095)), _, _, rfl, rfl, by decide⟩

theorem wit_LinkFlits_7 : ∃ (port : Fin 64) (s : State) (d : Dev), d = s.dev ∧ (d.link port).confirmed = false :=
    ⟨4, (wd (dL 1 {})), _, rfl, by decide⟩

theorem wit_LinkFlits_8 : ∃ (port : Fin 64) (s : State) (d : Dev), d = s.dev :=
    ⟨4, w4, _, rfl⟩

theorem wit_LinkFlits_9 : ∃ (port : Fin 64) (s : State) (d : Dev), d = s.dev ∧ d.hears port = true ∧ 0 < (d.link port).sinceAck ∧ d.missing port = [] :=
    ⟨4, (wd ((dL 2 { sinceAck := 3 }).wr (Pg.ll_RX_ACK_SEQ 4) 4095)), _, rfl, by decide⟩

theorem wit_LinkFlits_10 : ∃ (port : Fin 64) (s : State) (d : Dev), d = s.dev ∧ d.hears port = true ∧ d.missing port ≠ [] :=
    ⟨4, (wd (dL 2 { nextNew := 3 })), _, rfl, by decide⟩

theorem wit_LinkFlits_11 : ∃ (port : Fin 64) (s : State) (d : Dev) (f : Dev), d = s.dev ∧ f = (d.setLink port
      { d.link port with expiries := (d.link port).expiries + 1 }).replayFlits s.time.now port (d.link port).replay ∧ d.flaws = [] ∧
      d.hears port = true ∧ (d.link port).replay ≠ [] ∧ d.selective port = false ∧ (d.link port).expiries + 1 < f.rd
      (Pg.ll_REPLAY_LIMIT port) :=
    ⟨4, (wd (dL 2 { replay := [{ seq := 0, bits := 1, msgs := [] }] })), _, _, rfl, rfl, by decide⟩

theorem wit_LinkFlits_12 : ∃ (port : Fin 64) (s : State) (d : Dev), d = s.dev ∧ d.rd (Pg.ll_LL_STATE port) = 3 :=
    ⟨4, (wd (dL 3 {})), _, rfl, by decide⟩

theorem wit_LinkFlits_13 : ∃ (port : Fin 64) (s : State) (d : Dev), d = s.dev ∧ (d.link port).replay ≠ [] :=
    ⟨4, (wd (dL 2 { replay := [{ seq := 0, bits := 1, msgs := [] }] })), _, rfl, by decide⟩

theorem wit_LinkFlits_14 : ∃ (port : Fin 64) (x : QflLink) (s : State) (d : Dev), d = s.dev ∧ d.flag (Pg.ll_ROUTED_AWAY port) = true ∧ d.rd (Pg.ll_LL_STATE
      port) = 2 ∧ x = d.link (d.rd (Pg.ll_TWIN_PORT port)) ∧ x.txq.any (fun m => d.routedBy port m) = false ∧ x.replay.any (fun y =>
      y.msgs.any (fun m => d.routedBy port m)) = false :=
    ⟨4, {}, (wd (((dL 2 {}).wr (Pg.ll_ROUTED_AWAY 4) 1).wr (Pg.ll_TWIN_PORT 4) 8)), _, rfl, by decide⟩

theorem wit_LinkFlits_15 : ∃ (port : Fin 64) (m : QflMsg) (s : State) (d : Dev) (f : Dev), d = s.dev ∧ f = (d.setLink port
      { d.link port with txq := [], replay := [] }).inc Qfab.LIFETIME_DROPS ∧ (d.link port).txq = [m] ∧ (d.link port).replay = [] ∧
      m.born + 500000 ≤ s.time.now ∧ f.ownAddr m.src = false :=
    ⟨4, { vc := 0, opcode := 1, src := 1, dst := 2 }, (later500 (wd (dL 0
      { txq := [{ vc := 0, opcode := 1, src := 1, dst := 2 }] }))), _, _, rfl, rfl, by decide⟩

theorem wit_WidthChange_1 : ∃ (port : Fin 64) (width : Fin 8) (id : BitVec 8) (crc : BitVec 8) (s : State) (d : Dev), d = s.dev ∧ d.hears port = true ∧ crc
      = wheyCrc 5 [0, width, id.toNat] ∧ (d.link port).widthStep = 0 ∧ d.widthOk port width = false :=
    ⟨4, 7, 255, (wheyCrc 5 [0, 7, 255]), (wd (dL 2 {})), _, rfl, by decide⟩

theorem wit_WidthChange_2 : ∃ (port : Fin 64) (width : Fin 8) (id : BitVec 8) (crc : BitVec 8) (s : State) (d : Dev), d = s.dev ∧ d.hears port = true ∧ crc
      = wheyCrc 5 [0, width, id.toNat] ∧ (d.link port).widthStep = 0 ∧ d.widthOk port width = true :=
    ⟨4, 2, 255, (wheyCrc 5 [0, 2, 255]), wWidth, _, rfl, by decide⟩

theorem wit_WidthChange_3 : ∃ (port : Fin 64) (width : Fin 8) (id crc : BitVec 8) (s : State) (d : Dev), d = s.dev ∧ d.hears port = true ∧ crc = wheyCrc 5
      [1, width, id.toNat] ∧ d.widthAsked port id.toNat = true :=
    ⟨4, 2, 7, (wheyCrc 5 [1, 2, 7]), (wd (dL 2 { width := some (2, 7, true), widthStep := 1 })), _, rfl, by decide⟩

theorem wit_WidthChange_4 : ∃ (port : Fin 64) (width : Fin 8) (id crc : BitVec 8) (s : State) (d : Dev), d = s.dev ∧ d.hears port = true ∧ crc = wheyCrc 5
      [2, width, id.toNat] ∧ d.widthAsked port id.toNat = true :=
    ⟨4, 2, 7, (wheyCrc 5 [2, 2, 7]), (wd (dL 2 { width := some (2, 7, true), widthStep := 1 })), _, rfl, by decide⟩

theorem wit_WidthChange_5 : ∃ (port : Fin 64) (width : Fin 8) (id crc : BitVec 8) (k : Nat) (own : Bool) (s : State) (d : Dev), d = s.dev ∧ d.hears port =
      true ∧ crc = wheyCrc 5 [3, width, id.toNat] ∧ (d.link port).widthStep = 2 ∧ (d.link port).width = some (k, id.toNat, own) :=
    ⟨4, 4, 7, (wheyCrc 5 [3, 4, 7]), 4, true, (wd (dL 2 { width := some (4, 7, true), widthStep := 2 })), _, rfl, by decide⟩

theorem wit_WidthChange_6 : ∃ (port : Fin 64) (width : Fin 8) (id : BitVec 8) (own : Bool) (s : State) (d : Dev), d = s.dev ∧ (d.link port).width = some
      (↑width, id.toNat, own) :=
    ⟨4, 2, 7, true, (wd (dL 2 { width := some (2, 7, true), widthStep := 3 })), _, rfl, by decide⟩

theorem wit_WidthChange_7 : ∃ (port : Fin 64) (s : State) (d : Dev), d = s.dev ∧ d.widening port = true :=
    ⟨4, (wd (dL 2 { width := some (2, 7, true), widthStep := 2 })), _, rfl, by decide⟩

theorem wit_WidthChange_8 : ∃ (port : Fin 64) (k id : Nat) (own : Bool) (s : State) (d : Dev), d = s.dev ∧ (d.link port).width = some (k, id, own) ∧
      d.widening port = true ∧ 0 < (d.link port).marks ∧ (d.link port).readySent = false :=
    ⟨4, 2, 7, true, (wd (dL 2 { width := some (2, 7, true), widthStep := 2, marks := 1 })), _, rfl, by decide⟩

theorem wit_WidthChange_9 : ∃ (port : Fin 64) (s : State) (d : Dev), d = s.dev ∧ (d.link port).widthStep = 1 :=
    ⟨4, (wd (dL 2 { widthStep := 1 })), _, rfl, by decide⟩

theorem wit_WidthChange_10 : ∃ (port : Fin 64) (s : State) (d : Dev), d = s.dev ∧ d.widening port = true ∧ ((d.link port).readySent = false ∨ (d.link
      port).readySeen = false) :=
    ⟨4, (wd (dL 2 { width := some (2, 7, true), widthStep := 2 })), _, rfl, by decide⟩

theorem wit_WidthChange_11 : ∃ (port : Fin 64) (k : Nat) (s : State) (d : Dev), d = s.dev ∧ (d.link port).widthRetry = some k ∧ d.widthOk port k = true :=
    ⟨4, 2, wWidth2, _, rfl, by decide⟩

theorem wit_LinkEncryption_1 : ∃ (port : Fin 64) (s : State) (d : Dev), d = s.dev ∧ d.flag (Pg.ll_ENCRYPTED port) = true :=
    ⟨4, (wd ((dL 2 {}).wr (Pg.ll_ENCRYPTED 4) 1)), _, rfl, by decide⟩

theorem wit_LinkEncryption_2 : ∃ (port : Fin 64) (s : State) (d : Dev), d = s.dev ∧ ((d.link port).session = 1 ∨ (d.link port).session = 2) ∧ d.rd
      (Pg.ll_LL_STATE port) ≠ 0 :=
    ⟨4, (wd (dL 2 { session := 1 })), _, rfl, by decide⟩

theorem wit_LinkEncryption_3 : ∃ (port : Fin 64) (opcode : Fin 4) (authOk final : Bool) (s : State) (d : Dev), d = s.dev ∧ (d.link port).session = 1 ∧ d.rd
      ScR.SC_STATE = 1 ∧ authOk = false :=
    ⟨4, 0, false, true, wSpdm, _, rfl, by decide⟩

theorem wit_LinkEncryption_4 : ∃ (port : Fin 64) (opcode : Fin 4) (authOk final : Bool) (s : State) (d : Dev) (f : Dev), d = s.dev ∧ f = d.drawn.drawn ∧
      (d.link port).session = 1 ∧ d.rd ScR.SC_STATE = 1 ∧ authOk = true ∧ final = true :=
    ⟨4, 0, true, true, wSpdm, _, _, rfl, rfl, by decide⟩

theorem wit_TimeEvents_1 : ∃ (s : State), s.dev.mode ≠ 0 ∧ s.time.lastEdge = none ∧ s.dev.rd Tim.TIME_SOURCE = 0 ∧ s.time.ppsValid = false :=
    ⟨(wd ((dm 4).wr Tim.TIME_SOURCE 0)), by decide⟩

theorem wit_TimeEvents_2 : ∃ (s : State), s.dev.mode ≠ 0 ∧ s.time.ppsValid = true :=
    ⟨{ w4 with time := { ppsValid := true } }, by decide⟩

theorem wit_TimeEvents_3 : ∃ (s : State) (d : Dev), d = s.dev ∧ d.mode ≠ 0 ∧ d.flag Tim.PPS_OUT_EN = true :=
    ⟨(wd ((dm 4).wr Tim.PPS_OUT_EN 1)), _, rfl, by decide⟩

theorem wit_TimeEvents_4 : ∃ (p : Nat) (s : State), s.follows = true ∧ s.time.exchange = none ∧ s.dev.routePort (s.dev.rd Memb.PRIMARY_ADDR) = some p ∧
      s.dev.timeOn p = true :=
    ⟨4, wFollow, by decide⟩

theorem wit_TimeEvents_5 : ∃ (port : Fin 64) (crc : BitVec 8) (s : State) (d : Dev), d = s.dev ∧ d.hears port = true ∧ crc = wheyCrc 6 [] ∧ d.timeOn port =
      true :=
    ⟨4, (wheyCrc 6 []), (wd ((dL 2 {}).wr (Pg.phy_FEATURES_ENABLED 4) 16)), _, rfl, by decide⟩

theorem wit_TimeEvents_6 : ∃ (port : Fin 64) (t3 : BitVec 48) (crc : BitVec 8) (x : TimeExchange) (s : State), s.time.exchange = some x ∧ x.port = port ∧
      s.dev.hears port = true ∧ x.t2 = none ∧ crc = wheyCrc 7 [t3.toNat] :=
    ⟨4, 100, (wheyCrc 7 [100]), { port := 4, t1 := 0 }, wExch, by decide⟩

theorem wit_TimeEvents_7 : ∃ (port : Fin 64) (t2 : BitVec 48) (crc : BitVec 8) (x : TimeExchange) (k : Nat) (o : Int) (y : State) (s : State),
      s.time.exchange = some x ∧ x.port = port ∧ s.dev.hears port = true ∧ x.t3 = some k ∧ o = ((((s.time.widen t2 : Nat) : Int) -
      x.t1) - ((x.t4 : Int) - k)) / 2 ∧ y =
      { s with time := { s.time with exchange := none, lastExchange := some s.time.now }, dev := s.dev.wr Qfab.LAST_TIME_OFFSET (BitVec.ofInt 32 o).toNat }
      ∧ crc = wheyCrc 8 [t2.toNat] :=
    ⟨4, 100, (wheyCrc 8 [100]), { port := 4, t1 := 0, t3 := some 90 }, 90, 95, _, wExch3, by decide, by decide, by decide, by
      decide, by decide, rfl, by decide⟩

theorem wit_ErrorLogAndMonitors_1 : ∃ (h : SilekHdr) (first count : Nat) (recs : List ErrorRec) (s : State) (d : Dev) (i : CmdInfo), d = s.begun.dev ∧ i = .of 0x930
      0 (.errorLogRead h.key first count) ∧ s.admits h i = true ∧ d.flaws = [] ∧ 1 ≤ count ∧ count ≤ 64 ∧ recs = (logFrom d.errors
      first).take count :=
    ⟨hw, 1, 64, [], w4, _, _, rfl, rfl, by decide⟩

theorem wit_ErrorLogAndMonitors_2 : ∃ (h : SilekHdr) (upto : Nat) (keep : List ErrorRec) (s : State) (d : Dev) (i : CmdInfo), d = s.begun.dev ∧ i = .of 0x931 0
      (.errorLogClear h.key upto) ∧ s.admits h i = true ∧ keep = d.errors.filter (fun x => upto < x.number) :=
    ⟨hw, 5, [], w4, _, _, rfl, rfl, by decide⟩

theorem wit_ErrorLogAndMonitors_3 : ∃ (path : AccessPath) (number : BitVec 32) (s : State) (d : Dev), d = s.dev ∧ d.flaws = [] ∧ d.mode ≠ 0 :=
    ⟨.bar0, 0xffffffff, w4, _, rfl, by decide⟩

theorem wit_ErrorLogAndMonitors_4 : ∃ (h : SilekHdr) (block counter event : Nat) (s : State) (d : Dev) (i : CmdInfo), d = s.begun.dev ∧ i = .of 0x901 0
      (.monitorConfig h.key block counter event) ∧ s.admits h i = true ∧ 0x40 ≤ block ∧ block ≤ 0x79 ∧ counter ≤ 7 ∧ event / 256 =
      monKind (block - 0x40) ∧ event % 256 ≤ monEvents (monKind (block - 0x40)) :=
    ⟨hw, 0x79, 7, 0x903, w4, _, _, rfl, rfl, by decide⟩

theorem wit_ErrorLogAndMonitors_5 : ∃ (h : SilekHdr) (block : Nat) (s : State) (d : Dev) (i : CmdInfo), d = s.begun.dev ∧ i = .of 0x902 0 (.monitorRead h.key block)
      ∧ s.admits h i = true ∧ 0x40 ≤ block ∧ block ≤ 0x79 :=
    ⟨hw, 0x40, w4, _, _, rfl, rfl, by decide⟩

theorem wit_ErrorLogAndMonitors_6 : ∃ (path : AccessPath) (mon : Fin 58) (s : State) (d : Dev), d = s.dev ∧ d.mode ≠ 0 :=
    ⟨.bar0, 57, w4, _, rfl, by decide⟩

theorem wit_ErrorLogAndMonitors_7 : ∃ (path : AccessPath) (mon : Fin 58) (bits : BitVec 8) (s : State) (d : Dev), d = s.dev ∧ d.mode ≠ 0 :=
    ⟨.bar0, 57, 0xff, w4, _, rfl, by decide⟩

theorem wit_SkimmerAndHerdbook_1 : ∃ (h : SilekHdr) (vi base size interval : Nat) (s : State) (d : Dev) (i : CmdInfo) (f : Dev), d = s.begun.dev ∧ i = .of 0x910 0
      (.skimmerConfig h.key vi base size interval) ∧ s.admits h i = true ∧ f = (((({ d with skim := { vi, base, size } } : Dev).wr
      Skim.SKIM_INSTANCE vi).wr Skim.INTERVAL interval).wr Skim.SIZE size).wr Skim.BASE_LO base ∧ vi ≤ 63 ∧ d.rd (Vi.STATE vi) ≠ 0 ∧
      base % 4096 = 0 ∧ size % 4096 = 0 ∧ 8192 ≤ size ∧ size ≤ 2 ^ 30 ∧ 1 ≤ interval ∧ interval ≤ 65535 ∧ d.selected ≠ [] :=
    ⟨hw, 63, 4096, 8192, 65535, (wd ((dVi 1 {}).wr Skim.SELECT_LO 1)), _, _, _, rfl, rfl, by decide, rfl, by decide⟩

theorem wit_SkimmerAndHerdbook_2 : ∃ (h : SilekHdr) (s : State) (d : Dev) (i : CmdInfo), d = s.begun.dev ∧ i = .of 0x911 0 (.skimmerStop h.key) ∧ s.admits h i =
      true :=
    ⟨hw, w4, _, _, rfl, rfl, by decide⟩

theorem wit_SkimmerAndHerdbook_3 : ∃ (s : State) (d : Dev) (f : Dev), d = s.dev ∧ f = d.selected.foldl (fun x m => (List.range 8).foldl (fun y k => if y.flag
      Skim.RUNNING ∧ fieldOf (y.mrd (Mon.SAMPLE_HELD m)) k 1 = 1 then y.skimSample s.time.now m k else y) x) d ∧ d.flag Skim.RUNNING
      = true ∧ d.buf.waiting.any (fun e => e.writes.any (fun w => w.master = masterSkimmer)) = false ∧ ((d.hostPortOf d.skim.vi).map
      d.linkUp).getD false = true ∧ f.flag Skim.RUNNING = true :=
    ⟨wSkim, _, _, rfl, rfl, by decide⟩

theorem wit_SkimmerAndHerdbook_4 : ∃ (temps : List Int) (x : Int) (rest : List Int) (tj : Int) (tile : Nat) (s : State) (d : Dev) (f : Dev) (g : Dev), d = s.dev ∧
      f = (d.wr Hbk.TJ_CURRENT (byteOfInt tj)).wr Hbk.TJ_TILE tile ∧ g = f.wr Hbk.TJ_PEAK (byteOfInt tj) ∧ temps = x :: rest ∧
      d.mode ≠ 0 ∧ hottest rest 1 (x, 0) = (tj, tile) ∧ intOfByte (f.rd Hbk.TJ_PEAK) < tj ∧ tj < 100 ∧ g.thermal.alert = false :=
    ⟨[99], 99, [], 99, 0, (wd ((dm 4).wr Hbk.TJ_PEAK 20)), _, _, _, rfl, rfl, rfl, by decide⟩

theorem wit_SkimmerAndHerdbook_5 : ∃ (s : State) (d : Dev), d = s.dev ∧ d.mode ≠ 0 :=
    ⟨w4, _, rfl, by decide⟩

theorem wit_SkimmerAndHerdbook_6 : ∃ (lane : Fin 256) (errors : Nat) (worst cur hours two four : Nat) (s : State) (d : Dev), d = s.dev ∧ Tab.getD d.hbk.lanes lane
      (0, 0, 0, 0, 0) = (worst, cur, hours, two, four) ∧ 1000 ≤ errors ∧ errors < 10000 :=
    ⟨255, 9999, 0, 0, 0, 0, 0, w4, _, rfl, by decide⟩

theorem wit_SkimmerAndHerdbook_7 : ∃ (n : Nat) (s : State) (d : Dev), d = s.dev ∧ n = (d.hbk.nakWindow.filter (fun x => 1000 * d.rd Hbk.NAK_STORM_LIMIT <
      x.2)).length :=
    ⟨0, w4, _, rfl, by decide⟩

theorem wit_SkimmerAndHerdbook_8 : ∃ (s : State) (d : Dev), d = s.dev ∧ d.mode ≠ 0 ∧ d.hbk.writing = none :=
    ⟨w4, _, rfl, by decide⟩

theorem wit_SkimmerAndHerdbook_9 : ∃ (s : State) (d : Dev), d = s.dev ∧ d.mode ≠ 0 ∧ d.hbk.writing = none :=
    ⟨w4, _, rfl, by decide⟩

theorem wit_SkimmerAndHerdbook_10 : ∃ (ok : Bool) (s : State) (d : Dev), d = s.dev ∧ d.hbk.writing ≠ none ∧ ok = false :=
    ⟨false, (wd { dm 4 with hbk := { writing := some 1 } }), _, rfl, by decide⟩

theorem wit_SkimmerAndHerdbook_11 : ∃ (ok : Bool) (s : State) (d : Dev), d = s.dev ∧ d.hbk.writing ≠ none ∧ ok = true ∧ d.herdbookWritten.flag Hbk.FLUSH = false :=
    ⟨true, (wd { dm 4 with hbk := { writing := some 1 } }), _, rfl, by decide⟩

theorem wit_SkimmerAndHerdbook_12 : ∃ (h : SilekHdr) (off len : Nat) (s : State) (d : Dev) (i : CmdInfo), d = s.begun.dev ∧ i = .of 0x920 0 (.herdbookRead h.key off
      len) ∧ s.admits h i = true ∧ 1 ≤ len ∧ len ≤ 3072 ∧ off + len ≤ 4096 :=
    ⟨hw, 1024, 3072, w4, _, _, rfl, rfl, by decide⟩

theorem wit_FmApiQueries_1 : ∃ (eid tag : Nat) (s : State) (h : SilekHdr) (d : Dev) (i : CmdInfo), h = fmHeader eid s.fmTag ∧ d = s.fmStart.begun.dev ∧ i =
      .of 0x102 0 (.deviceInfo h.key) ∧ s.fmFresh = true ∧ s.fmStart.admits h i = true :=
    ⟨9, 3, w4, _, _, _, rfl, rfl, rfl, by decide⟩

theorem wit_FmApiQueries_2 : ∃ (eid tag : Nat) (s : State) (d : Dev), d = s.dev ∧ 1 < d.mode ∧ d.silek.fmBackground = none :=
    ⟨9, 3, w4, _, rfl, by decide⟩

theorem wit_FmApiQueries_3 : ∃ (tag : Nat) (s : State) (d : Dev), d = s.dev ∧ 1 < d.mode :=
    ⟨3, w4, _, rfl, by decide⟩

theorem wit_FmApiQueries_4 : ∃ (tag exponent : Nat) (s : State) (d : Dev), d = s.dev ∧ 1 < d.mode ∧ 8 ≤ exponent ∧ exponent ≤ 11 :=
    ⟨3, 11, w4, _, rfl, by decide⟩

theorem wit_FmApiQueries_5 : ∃ (eid tag : Nat) (s : State) (h : SilekHdr) (d : Dev) (i : CmdInfo), h = fmHeader eid s.fmTag ∧ d = s.fmStart.begun.dev ∧ i =
      .of 0x103 0 (.identifySwitchDevice eid tag) ∧ s.fmFresh = true ∧ s.fmStart.admits h i = true :=
    ⟨9, 3, w4, _, _, _, rfl, rfl, rfl, by decide⟩

theorem wit_FmApiQueries_6 : ∃ (eid tag : Nat) (first count : Nat) (s : State) (h : SilekHdr) (d : Dev) (i : CmdInfo), h = fmHeader eid s.fmTag ∧ d =
      s.fmStart.begun.dev ∧ i = .of 0x103 0 (.portStatusQuery h.key first count) ∧ s.fmFresh = true ∧ s.fmStart.admits h i = true ∧
      1 ≤ count ∧ count ≤ 64 ∧ first + count ≤ 64 :=
    ⟨9, 3, 60, 4, w4, _, _, _, rfl, rfl, rfl, by decide⟩

theorem wit_FmApiQueries_7 : ∃ (eid tag : Nat) (vi : Nat) (s : State) (h : SilekHdr) (d : Dev) (i : CmdInfo), h = fmHeader eid s.fmTag ∧ d =
      s.fmStart.begun.dev ∧ i = { CmdInfo.of 0x302 0 (.instanceQuery h.key vi) with hostMay := fun _ v => decide (v = vi) } ∧
      s.fmFresh = true ∧ s.fmStart.admits h i = true ∧ vi ≤ 63 :=
    ⟨9, 3, 63, w4, _, _, _, rfl, rfl, rfl, by decide⟩

theorem wit_FmApiQueries_8 : ∃ (eid tag : Nat) (s : State) (h : SilekHdr) (d : Dev) (i : CmdInfo), h = fmHeader eid s.fmTag ∧ d = s.fmStart.begun.dev ∧ i =
      .of 0x102 0 (.getDcdInfo eid tag) ∧ s.fmFresh = true ∧ s.fmStart.admits h i = true :=
    ⟨9, 3, w4, _, _, _, rfl, rfl, rfl, by decide⟩

theorem wit_FmApiQueries_9 : ∃ (eid tag : Nat) (host : Nat) (s : State) (h : SilekHdr) (d : Dev) (i : CmdInfo), h = fmHeader eid s.fmTag ∧ d =
      s.fmStart.begun.dev ∧ i = .of 0x211 3 (.getHostDcRegionConfiguration eid tag host) ∧ s.fmFresh = true ∧ s.fmStart.admits h i =
      true ∧ host ≤ 63 :=
    ⟨9, 3, 63, w4, _, _, _, rfl, rfl, rfl, by decide⟩

theorem wit_FmApiQueries_10 : ∃ (eid tag : Nat) (host start count : Nat) (s : State) (h : SilekHdr) (d : Dev) (i : CmdInfo), h = fmHeader eid s.fmTag ∧ d =
      s.fmStart.begun.dev ∧ i = .of 0x241 0 (.getDcRegionExtentLists eid tag host start count) ∧ s.fmFresh = true ∧ s.fmStart.admits
      h i = true ∧ host ≤ 63 ∧ count ≤ 768 :=
    ⟨9, 3, 63, 0, 768, w4, _, _, _, rfl, rfl, rfl, by decide⟩

theorem wit_FmApiChanges_1 : ∃ (eid tag : Nat) (port op : Nat) (e : Dev) (s : State) (h : SilekHdr) (d : Dev) (i : CmdInfo), h = fmHeader eid s.fmTag ∧ d =
      s.fmStart.begun.dev ∧ i = .of 0xa11 0 (.portControl h.key port op) ∧ s.fmFresh = true ∧ s.fmStart.admits h i = true ∧ port ≤
      63 ∧ op = 1 ∧ d.present port = true ∧ d.personality port = 3 ∧ e = d.wrFlag (Pg.phy_PORT_DISABLE port) false ∧ e.calm = true :=
    ⟨9, 3, 4, 1, _, (wd (dQ 0)), _, _, _, rfl, rfl, rfl, by decide, by decide, by decide, by decide, by decide, by decide, rfl, by
      decide⟩

theorem wit_FmApiChanges_2 : ∃ (eid tag : Nat) (vi vppb port : Nat) (x : InstCfg) (a b : Nat) (t2 : List Nat) (m q : Nat) (e : Dev) (s : State) (h :
      SilekHdr) (d : Dev) (i : CmdInfo), h = fmHeader eid s.fmTag ∧ d = s.fmStart.begun.dev ∧ i = .of 0x301 0 (.instanceConfig h.key
      vi a b t2 m q true) ∧ s.fmFresh = true ∧ s.fmStart.admits h i = true ∧ 1 ≤ vppb ∧ vppb ≤ 7 ∧ vi ≤ 63 ∧ port ≤ 63 ∧
      s.dev.viState vi ≠ 0 ∧ x = s.fmStart.dev.cfgOf vi ∧ a = x.portA.getD 0xff ∧ b = x.portB.getD 0xff ∧ t2 = (List.range 7).map
      (fun k => if k + 1 = vppb then port else Tab.getD x.type2 (k + 1) 0xff) ∧ m = x.msix ∧ q = s.fmStart.dev.rd (Vi.QUEUE_ALLOC
      vi) ∧ e = (d.instanceConfig vi a b t2 m q true).1 ∧ (d.instanceConfig vi a b t2 m q true).2 = .final .ok [] ∧ e.out =
      s.dev.out ∧ e.silek = d.silek ∧ e.calm = true :=
    ⟨9, 3, 0, 7, 4, _, _, _, _, _, _, _, wVppb, _, _, _, rfl, rfl, rfl, by decide, by decide, by decide, by decide, by decide, by
      decide, by decide, rfl, rfl, rfl, rfl, rfl, rfl, rfl, by decide⟩

theorem wit_FmApiChanges_3 : ∃ (eid tag : Nat) (vi vppb : Nat) (x : InstCfg) (a b : Nat) (t2 : List Nat) (m q : Nat) (e : Dev) (s : State) (h : SilekHdr) (d
      : Dev) (i : CmdInfo), h = fmHeader eid s.fmTag ∧ d = s.fmStart.begun.dev ∧ i = .of 0x301 0 (.instanceConfig h.key vi a b t2 m
      q true) ∧ s.fmFresh = true ∧ s.fmStart.admits h i = true ∧ 1 ≤ vppb ∧ vppb ≤ 7 ∧ vi ≤ 63 ∧ s.dev.viState vi ≠ 0 ∧ x =
      s.fmStart.dev.cfgOf vi ∧ a = x.portA.getD 0xff ∧ b = x.portB.getD 0xff ∧ t2 = (List.range 7).map (fun k => if k + 1 = vppb
      then 0xff else Tab.getD x.type2 (k + 1) 0xff) ∧ m = x.msix ∧ q = s.fmStart.dev.rd (Vi.QUEUE_ALLOC vi) ∧ e = (d.instanceConfig
      vi a b t2 m q true).1 ∧ (d.instanceConfig vi a b t2 m q true).2 = .final .ok [] ∧ e.out = s.dev.out ∧ e.silek = d.silek ∧
      e.calm = true :=
    ⟨9, 3, 0, 7, _, _, _, _, _, _, _, wVppb, _, _, _, rfl, rfl, rfl, by decide, by decide, by decide, by decide, by decide, by
      decide, rfl, rfl, rfl, rfl, rfl, rfl, rfl, by decide⟩

theorem wit_FmApiChanges_4 : ∃ (eid tag : Nat) (w host region kind base count : Nat) (enable : Bool) (e : Dev) (s : State) (h : SilekHdr) (d : Dev) (i :
      CmdInfo), h = fmHeader eid s.fmTag ∧ d = s.fmStart.begun.dev ∧ i = .of 0x210 0 (.windowConfig h.key w host region kind base
      count enable) ∧ s.fmFresh = true ∧ s.fmStart.admits h i = true ∧ w ≤ 255 ∧ host ≤ 63 ∧ region ≤ 7 ∧ kind ≤ 2 ∧ enable = false
      ∧ d.memberOf w = none ∧ d.heldSlots (d.win w) = [] ∧ e = d.setWin w {} ∧ e.calm = true :=
    ⟨9, 3, 255, 63, 7, 2, 0, 0, false, _, w4, _, _, _, rfl, rfl, rfl, by decide, by decide, by decide, by decide, by decide, by
      decide, by decide, by decide, by decide, rfl, by decide⟩

theorem wit_FmApiChanges_5 : ∃ (eid tag : Nat) (host policy region : Nat) (extents : List (Nat × Nat)) (xs : List Nat) (w : Nat) (x : Window) (ks : List Nat)
      (e : Dev) (job : Work) (s : State) (h : SilekHdr) (d : Dev) (i : CmdInfo) (u : State), h = fmHeader eid s.fmTag ∧ d =
      s.fmStart.begun.dev ∧ i = .of 0x220 0 (.initiateDynamicCapacityAdd eid tag host policy region extents) ∧ 1 < s.dev.mode ∧
      s.fmStart.admits h i = true ∧ s.dev.fmExtents extents = some xs ∧ s.dev.regionWindow host region = some (w, x) ∧ policy = 2 ∧
      ks = d.freeSlots x xs.length ∧ xs.length ≤ ks.length ∧ e = (d.bindSlots s.time.now w ks (x.kind + 1) xs).1 ∧ (d.bindSlots
      s.time.now w ks (x.kind + 1) xs).2 = .run job ∧ s.dev.fmRuns = false ∧ u = s.fmStart.settledFrom ((s.fmStart.withDev e).runs h
      i job) ∧ (u.dev.out.drop s.dev.out.length).findSome? (fun o => o.replyTo s.fmTag) = none :=
    ⟨9, 3, 0, 2, 0, [(0, 2 ^ 28)], [262144], 255, dWin.win 255, [7], _, .bind 1, wFmAdd, _, _, _, _, rfl, rfl, rfl, by decide, by
      decide, by decide, by decide, by decide, by decide, by decide, rfl, by decide, by decide, rfl, by decide⟩

theorem wit_FmApiChanges_6 : ∃ (eid tag : Nat) (host : Nat) (forced : Bool) (region : Nat) (extents : List (Nat × Nat)) (xs : List Nat) (w : Nat) (x :
      Window) (ks : List Nat) (e : Dev) (job : Work) (s : State) (h : SilekHdr) (d : Dev) (i : CmdInfo) (u : State), h = fmHeader
      eid s.fmTag ∧ d = s.fmStart.begun.dev ∧ i = .of 0x221 0 (.initiateDynamicCapacityRelease eid tag host forced region extents) ∧
      1 < s.dev.mode ∧ s.fmStart.admits h i = true ∧ s.dev.fmExtents extents = some xs ∧ s.dev.regionWindow host region = some (w,
      x) ∧ ks = xs.filterMap (fun y => x.slots.find? (fun k => (d.slot k).valid ∧ (d.slot k).fx = y)) ∧ xs.length ≤ ks.length ∧ e =
      (d.unbindSlots s.time.now w ks forced false).1 ∧ (d.unbindSlots s.time.now w ks forced false).2 = .run job ∧ s.dev.fmRuns =
      false ∧ u = s.fmStart.settledFrom ((s.fmStart.withDev e).runs h i job) ∧ (u.dev.out.drop s.dev.out.length).findSome? (fun o =>
      o.replyTo s.fmTag) = none :=
    ⟨9, 3, 0, false, 0, [(0, 2 ^ 28)], [262144], 255, dWin.win 255, [7], _, .unbind 1, wBound, _, _, _, _, rfl, rfl, rfl, by decide,
      by decide, by decide, by decide, by decide, by decide, rfl, by decide, by decide, rfl, by decide⟩

theorem wit_ChainEvents_1 : ∃ (s : State) (d : Dev) (f : Dev), d = s.dev ∧ f = d.raise1 Memb.IN_LOS ∧ d.mode ≠ 0 ∧ d.lineMode = false ∧ f.lineMode = false :=
    ⟨w4, _, _, rfl, rfl, by decide⟩

theorem wit_ChainEvents_2 : ∃ (rx : ChainRx) (g : Dev) (s : State) (d : Dev) (f : ChainFrame), d = s.dev ∧ f = chainFrameOf rx.line 0 rx.src rx.epoch
      (.breakMark rx.src) ∧ d.mode ≠ 0 ∧ rx.line.crc = f.crc rx.line.type.toNat ∧ rx.line.type.toNat = f.body.type ∧ rx.epoch =
      d.epoch ∧ g = d.enterLine rx.src ∧ g.atEnd rx.line.reverse = false ∧ f.hops < 15 :=
    ⟨(rxOf 5 0 (.breakMark 5)), _, w4, _, _, rfl, rfl, by decide, rfl, rfl, by decide, rfl, by decide⟩

theorem wit_ChainEvents_3 : ∃ (pair : Fin 2) (s : State) (d : Dev), d = s.dev ∧ d.mode ≠ 0 ∧ d.lineMode = true ∧ pair = 1 :=
    ⟨1, (wd ((dm 4).wr Memb.CHAIN_MODE 2)), _, rfl, by decide⟩

theorem wit_ChainEvents_4 : ∃ (s : State) (d : Dev) (f : Dev), d = s.dev ∧ f = d.enterRing ∧ d.mode ≠ 0 ∧ d.lineMode = true ∧ d.flag Memb.LINE_END = true ∧
      f.lineMode = false :=
    ⟨(wd (((dm 4).wr Memb.CHAIN_MODE 2).wr Memb.LINE_END 1)), _, _, rfl, rfl, by decide⟩

theorem wit_ChainEvents_5 : ∃ (rx : ChainRx) (g : Dev) (s : State) (d : Dev) (f : ChainFrame), d = s.dev ∧ f = chainFrameOf rx.line 0 rx.src rx.epoch .ring
      ∧ d.mode ≠ 0 ∧ rx.line.crc = f.crc rx.line.type.toNat ∧ rx.line.type.toNat = f.body.type ∧ rx.epoch = d.epoch ∧ g =
      d.enterRing ∧ rx.src ≠ g.chainAddr ∧ g.atEnd rx.line.reverse = false ∧ f.hops < 15 :=
    ⟨(rxOf 3 0 .ring), _, w4, _, _, rfl, rfl, by decide, rfl, rfl, by decide, rfl, by decide⟩

theorem wit_ChainEvents_6 : ∃ (rx : ChainRx) (s : State) (d : Dev) (f : ChainFrame) (g : Dev), d = s.dev ∧ f = chainFrameOf rx.line 0 rx.src rx.epoch .ring
      ∧ g = d.enterRing ∧ d.mode ≠ 0 ∧ rx.line.crc = f.crc rx.line.type.toNat ∧ rx.line.type.toNat = f.body.type ∧ rx.epoch =
      d.epoch ∧ g.lineMode = false ∧ rx.line.bcast = true ∧ rx.src ≠ 0 ∧ rx.src = g.chainAddr :=
    ⟨(rxOf 2 0 .ring), (wd ((dm 4).wr Glob.CHAIN_ADDRESS 2)), _, _, _, rfl, rfl, rfl, by decide, rfl, rfl, by decide⟩

theorem wit_ChainEvents_7 : ∃ (rx : ChainRx) (next turns : Nat) (own : Bool) (g : Dev) (s : State) (d : Dev) (f : ChainFrame), d = s.dev ∧ f = chainFrameOf
      rx.line 0 rx.src rx.epoch (.enum next turns) ∧ d.mode ≠ 0 ∧ rx.line.crc = f.crc rx.line.type.toNat ∧ rx.line.type.toNat =
      f.body.type ∧ d.epoch = 0 ∧ d.mode = 2 ∧ d.chainAddr = 0 ∧ d.memb.enumState = 1 ∧ next ≤ 16 ∧ g =
      ({ d with memb := { d.memb with enumState := 3 } } : Dev).wr Glob.CHAIN_ADDRESS next ∧ g.atEnd rx.line.reverse = false :=
    ⟨(rxOf 1 0 (.enum 16 0)), 16, 0, false, _, (wd { dm 2 with memb := { enumState := 1 } }), _, _, rfl, rfl, by decide, rfl, rfl,
      by decide, by decide, by decide, by decide, by decide, rfl, by decide⟩

theorem wit_ChainEvents_8 : ∃ (rx : ChainRx) (next turns : Nat) (own : Bool) (g : Dev) (s : State) (d : Dev) (f : ChainFrame), d = s.dev ∧ f = chainFrameOf
      rx.line 0 rx.src rx.epoch (.enum next turns) ∧ d.mode ≠ 0 ∧ rx.line.crc = f.crc rx.line.type.toNat ∧ rx.line.type.toNat =
      f.body.type ∧ d.epoch = 0 ∧ d.mode = 2 ∧ d.chainAddr = 0 ∧ d.memb.enumState = 1 ∧ next ≤ 16 ∧ g =
      ({ d with memb := { d.memb with enumState := 3 } } : Dev).wr Glob.CHAIN_ADDRESS next ∧ g.atEnd rx.line.reverse = true :=
    ⟨(rxOf 1 0 (.enum 16 0)), 16, 0, false, _, (wd { (dm 2).wr Memb.CHAIN_MODE 2 with memb := { enumState := 1, silent := [1] } }),
      _, _, rfl, rfl, by decide, rfl, rfl, by decide, by decide, by decide, by decide, by decide, rfl, by decide⟩

theorem wit_ChainEvents_9 : ∃ (s : State) (d : Dev) (f : Dev), d = s.dev ∧ f = ({ d with memb := { d.memb with enumState := 2 } } : Dev).wr
      Glob.CHAIN_ADDRESS 1 ∧ d.mode = 2 ∧ d.memb.enumState = 1 ∧ d.memb.peers.filter (fun x => x.2.ever) = [] ∧ d.rst.straps.head =
      true ∧ f.lineMode = false :=
    ⟨(wd { dm 2 with memb := { enumState := 1 }, rst := { straps := { head := true } } }), _, _, rfl, rfl, by decide⟩

theorem wit_ChainEvents_10 : ∃ (rx : ChainRx) (count : Nat) (shape : EnumShape) (g k : Dev) (s : State) (d : Dev) (f : ChainFrame), d = s.dev ∧ f =
      chainFrameOf rx.line 0 rx.src rx.epoch (.enumDone count shape.mode shape.overflow) ∧ d.mode ≠ 0 ∧ rx.line.crc = f.crc
      rx.line.type.toNat ∧ rx.line.type.toNat = f.body.type ∧ g = d.passFrame f ∧ g.epoch = 0 ∧ g.mode = 2 ∧ k = ((g.wr
      Memb.CHAIN_COUNT count).wr Memb.CHAIN_MODE shape.mode).wrFlag Memb.OVERFLOW shape.overflow :=
    ⟨(rxOf 1 0 (.enumDone 16 1 false)), 16, ⟨1, false⟩, _, _, (wd { dm 2 with memb := { enumState := 3 } }), _, _, rfl, rfl, by
      decide, rfl, rfl, rfl, by decide, by decide, rfl⟩

theorem wit_ChainEvents_11 : ∃ (s : State) (d : Dev), d = s.dev ∧ d.mode = 2 :=
    ⟨(wd { dm 2 with memb := { enumState := 1 } }), _, rfl, by decide⟩

theorem wit_ChainFrames_1 : ∃ (rx : ChainRx) (s : State) (d : Dev) (f : ChainFrame), d = s.dev ∧ f = chainFrameOf rx.line 0 rx.src rx.epoch (.breakMark
      rx.src) ∧ d.mode ≠ 0 ∧ rx.line.crc ≠ f.crc rx.line.type.toNat :=
    ⟨(rxBad 5 (.breakMark 5)), w4, _, _, rfl, rfl, by decide, flip_ne _⟩

theorem wit_ChainFrames_2 : ∃ (rx : ChainRx) (s : State) (d : Dev) (f : ChainFrame), d = s.dev ∧ f = chainFrameOf rx.line 0 rx.src rx.epoch .ring ∧ d.mode ≠
      0 ∧ rx.line.crc ≠ f.crc rx.line.type.toNat :=
    ⟨(rxBad 5 .ring), w4, _, _, rfl, rfl, by decide, flip_ne _⟩

theorem wit_ChainFrames_3 : ∃ (rx : ChainRx) (next turns : Nat) (own : Bool) (s : State) (d : Dev) (f : ChainFrame), d = s.dev ∧ f = chainFrameOf rx.line 0
      rx.src rx.epoch (.enum next turns) ∧ d.mode ≠ 0 ∧ rx.line.crc ≠ f.crc rx.line.type.toNat :=
    ⟨(rxBad 1 (.enum 17 255)), 17, 255, true, (wd (dm 2)), _, _, rfl, rfl, by decide, flip_ne _⟩

theorem wit_ChainFrames_4 : ∃ (rx : ChainRx) (count : Nat) (shape : EnumShape) (s : State) (d : Dev) (f : ChainFrame), d = s.dev ∧ f = chainFrameOf rx.line
      0 rx.src rx.epoch (.enumDone count shape.mode shape.overflow) ∧ d.mode ≠ 0 ∧ rx.line.crc = f.crc rx.line.type.toNat ∧
      rx.line.type.toNat ≠ f.body.type :=
    ⟨(rxOdd 0 (.enumDone 3 1 true)), 3, ⟨1, true⟩, (wd (dm 2)), _, _, rfl, rfl, by decide, rfl, by decide⟩

theorem wit_ChainFrames_5 : ∃ (via : FabricVia) (src epoch : Nat) (word : BitVec 64) (l : ChainLine) (s : State) (d : Dev) (f : ChainFrame), d = s.dev ∧ f =
      chainFrameOf l 0 src epoch (.heartbeat word.toNat) ∧ via = .chain l ∧ d.mode ≠ 0 ∧ l.crc = f.crc l.type.toNat ∧ l.type.toNat ≠
      f.body.type :=
    ⟨(.chain (rxOdd 3 (.heartbeat 0)).line), 3, 0, 0, (rxOdd 3 (.heartbeat 0)).line, w4, _, _, rfl, rfl, rfl, by decide, rfl, by
      decide⟩

theorem wit_ChainFrames_6 : ∃ (via : FabricVia) (src dst notice : Nat) (l : ChainLine) (s : State) (d : Dev) (f : ChainFrame), d = s.dev ∧ f = chainFrameOf
      l dst src notice (.fenced notice) ∧ via = .chain l ∧ d.mode ≠ 0 ∧ l.crc = f.crc l.type.toNat ∧ l.type.toNat = f.body.type ∧
      dst ≠ d.chainAddr ∧ l.hops.val = 15 :=
    ⟨(.chain
      { (fencedTo 3 2 9) with hops := 15, crc := (chainFrameOf { type := 6, bcast := false, hops := 15, crc := 0 } 3 2 9 (.fenced 9)).crc 6 }),
      2, 3, 9,
      { (fencedTo 3 2 9) with hops := 15, crc := (chainFrameOf { type := 6, bcast := false, hops := 15, crc := 0 } 3 2 9 (.fenced 9)).crc 6 },
      (wd ((dm 7).wr Glob.CHAIN_ADDRESS 5)), _, _, rfl, rfl, rfl, by decide, rfl, rfl, by decide⟩

theorem wit_ChainFrames_7 : ∃ (via : FabricVia) (src dst notice : Nat) (l : ChainLine) (s : State) (d : Dev) (f : ChainFrame), d = s.dev ∧ f = chainFrameOf
      l dst src notice (.fenced notice) ∧ via = .chain l ∧ d.mode ≠ 0 ∧ l.crc = f.crc l.type.toNat ∧ l.type.toNat = f.body.type ∧
      dst ≠ d.chainAddr ∧ d.lineMode = true ∧ d.atEnd l.reverse = true ∧ l.bcast = false ∧ l.hops.val < 15 :=
    ⟨(.chain (fencedTo 3 2 9)), 2, 3, 9, (fencedTo 3 2 9), (wd
      { ((dm 7).wr Glob.CHAIN_ADDRESS 5).wr Memb.CHAIN_MODE 2 with memb := { silent := [1] } }), _, _, rfl, rfl, rfl, by decide,
      rfl, rfl, by decide⟩

theorem wit_ChainFrames_8 : ∃ (rx : ChainRx) (s : State) (d : Dev) (f : ChainFrame) (g : Dev), d = s.dev ∧ f = chainFrameOf rx.line 0 rx.src rx.epoch
      (.breakMark rx.src) ∧ g = d.enterLine rx.src ∧ d.mode ≠ 0 ∧ rx.line.crc = f.crc rx.line.type.toNat ∧ rx.line.type.toNat =
      f.body.type ∧ rx.epoch = d.epoch ∧ g.atEnd rx.line.reverse = true ∧ rx.line.bcast = true ∧ rx.line.reverse = true :=
    ⟨⟨{ type := 3, bcast := true, reverse := true, crc := (chainFrameOf { type := 3, bcast := true, reverse := true, crc := 0 } 0 5 0 (.breakMark 5)).crc 3 },
      5, 0⟩, (wd { (dm 4).wr Memb.CHAIN_MODE 2 with memb := { silent := [0] } }), _, _, _, rfl, rfl, rfl, by decide, rfl, rfl, by
      decide⟩

theorem wit_Heartbeats_1 : ∃ (f g : Dev) (s : State) (d : Dev), d = s.dev ∧ 3 ≤ d.mode ∧ d.chainAddr ≠ 0 ∧ f = d.sendHeartbeat s.time.now ∧ g =
      (((List.range 16).map (· + 1)).filter (fun a => a ≠ f.chainAddr)).foldl (fun (x : Dev) a => x.countMissed s.time.now a) f :=
    ⟨_, _, (wd ((dm 7).wr Glob.CHAIN_ADDRESS 2)), _, rfl, by decide, by decide, rfl, rfl⟩

theorem wit_Heartbeats_2 : ∃ (via : FabricVia) (src epoch : Nat) (word : BitVec 64) (l : ChainLine) (g : Dev) (s : State) (d : Dev) (f : ChainFrame), d =
      s.dev ∧ f = chainFrameOf l 0 src epoch (.heartbeat word.toNat) ∧ via = .chain l ∧ d.mode ≠ 0 ∧ l.crc = f.crc l.type.toNat ∧
      l.type.toNat = f.body.type ∧ g = d.passFrame f ∧ 1 ≤ src ∧ src ≤ 16 ∧ src ≠ g.chainAddr ∧ g.memb.yokeWait = none ∧ epoch =
      g.epoch :=
    ⟨(.chain (rxOf 3 0 (.heartbeat 0)).line), 3, 0, 0, (rxOf 3 0 (.heartbeat 0)).line, _, (wd ((dm 7).wr Glob.CHAIN_ADDRESS 2)), _,
      _, rfl, rfl, rfl, by decide, rfl, rfl, rfl, by decide⟩

theorem wit_Heartbeats_3 : ∃ (via : FabricVia) (src epoch : Nat) (word : BitVec 64) (h : QflHdr) (f : Dev) (s : State) (d : Dev), d = s.dev ∧ via = .vc5 h
      ∧ d.mode ≠ 0 ∧ f = d.takeRx { vc := 5, opcode := 0x10, src := h.src, dst := h.dst, tag := h.tag, e2e := h.e2e } ∧ 1 ≤ h.src ∧
      h.src ≤ 16 ∧ h.src ≠ f.chainAddr ∧ f.memb.yokeWait = none ∧ f.epoch ≠ 0 ∧ h.epoch ≠ 0 ∧ h.epoch ≠ f.epoch ∧ f.lateEpoch
      s.time.now h.src h.epoch = false ∧ newerEpoch h.epoch f.epoch = false :=
    ⟨(.vc5 qOld), 1, 3, 0, qOld, _, (wd (((dm 7).wr Glob.CHAIN_ADDRESS 2).wr Memb.EPOCH 9)), _, rfl, rfl, by decide, rfl, by decide⟩

theorem wit_Heartbeats_4 : ∃ (via : FabricVia) (src dst notice : Nat) (l : ChainLine) (s : State) (d : Dev) (f : ChainFrame), d = s.dev ∧ f = chainFrameOf
      l dst src notice (.fenced notice) ∧ via = .chain l ∧ d.mode ≠ 0 ∧ l.crc = f.crc l.type.toNat ∧ l.type.toNat = f.body.type ∧
      dst = d.chainAddr :=
    ⟨(.chain (fencedTo 2 1 5)), 1, 2, 5, (fencedTo 2 1 5), (wd ((dm 7).wr Glob.CHAIN_ADDRESS 2)), _, _, rfl, rfl, rfl, by decide,
      rfl, rfl, by decide⟩

theorem wit_Heartbeats_5 : ∃ (via : FabricVia) (src dst notice : Nat) (l : ChainLine) (s : State) (d : Dev) (f : ChainFrame), d = s.dev ∧ f = chainFrameOf
      l dst src notice (.fenced notice) ∧ via = .chain l ∧ d.mode ≠ 0 ∧ l.crc = f.crc l.type.toNat ∧ l.type.toNat = f.body.type ∧
      dst ≠ d.chainAddr ∧ l.bcast = false ∧ d.atEnd l.reverse = false ∧ l.hops.val < 15 :=
    ⟨(.chain (fencedTo 3 1 5)), 1, 3, 5, (fencedTo 3 1 5), (wd ((dm 7).wr Glob.CHAIN_ADDRESS 2)), _, _, rfl, rfl, rfl, by decide,
      rfl, rfl, by decide⟩

theorem wit_Heartbeats_6 : ∃ (via : FabricVia) (src dst notice : Nat) (h : QflHdr) (s : State) (d : Dev), d = s.dev ∧ via = .vc5 h ∧ d.mode ≠ 0 :=
    ⟨(.vc5 qOld), 1, 2, 5, qOld, (wd ((dm 7).wr Glob.CHAIN_ADDRESS 2)), _, rfl, rfl, by decide⟩

theorem wit_Rennet_1 : ∃ (h : SilekHdr) (cls target setting : Nat) (e : Dev) (s : State) (d : Dev) (i : CmdInfo), d = s.begun.dev ∧ i = .of 0x810 1
      (.rennetSet h.key cls target setting) ∧ s.admits h i = true ∧ s.dev.mode = 11 ∧ s.dev.partS = false ∧ s.guard.unlocked = true
      ∧ rennetTarget cls target = true ∧ rennetSetting cls setting = true ∧ s.begun.dev.rennetTargetOk cls target = true ∧
      s.begun.dev.rennetPut cls target setting = some e :=
    ⟨hw, 9, 0, 1, _, wKeyed, _, _, rfl, rfl, by decide, by decide, by decide, by decide, by decide, by decide, by decide, rfl⟩

theorem wit_Rennet_2 : ∃ (h : SilekHdr) (s : State) (d : Dev) (i : CmdInfo), d = s.begun.dev ∧ i = .of 0x811 1 (.rennetClear h.key) ∧ s.admits h i =
      true :=
    ⟨hw, w4, _, _, rfl, rfl, by decide⟩

theorem wit_Rennet_3 : ∃ (h : SilekHdr) (s : State) (d : Dev) (i : CmdInfo), d = s.begun.dev ∧ i = .of 0x812 1 (.rennetQuery h.key) ∧ s.admits h i =
      true :=
    ⟨hw, w4, _, _, rfl, rfl, by decide⟩

theorem wit_Rennet_4 : ∃ (stream : Fin 4) (v : Nat) (s : State) (d : Dev), d = s.dev ∧ d.rennet 7 stream = some v ∧ 2 ≤ streamMode v :=
    ⟨3, 0x80000000, wExercise, _, rfl, by decide⟩

theorem wit_Rennet_5 : ∃ (snoops : Bool) (c : Cont) (rest : List (Bool × Cont)) (s : State) (d : Dev), d = s.dev ∧ snoops = false ∧ d.exer.memory =
      (true, c) :: rest :=
    ⟨false, .test, [], (wd { dm 11 with exer := { memory := [(true, .test)] } }), _, rfl, by decide⟩

theorem wit_Rennet_6 : ∃ (snoops : Bool) (c : Cont) (rest : List (Bool × Cont)) (s : State) (d : Dev), d = s.dev ∧ snoops = false ∧ d.exer.memory =
      (false, c) :: rest :=
    ⟨false, .test, [], (wd { dm 11 with exer := { memory := [(false, .test)] } }), _, rfl, by decide⟩

theorem wit_Rennet_7 : ∃ (lane : Fin 256) (v : Nat) (s : State) (d : Dev), d = s.dev ∧ d.rennet 6 lane = some v ∧ v % 65536 ≠ 0 :=
    ⟨255, 100, (wd (((((dm 11).wr (Ren.CLASS 0) 6).wr (Ren.TARGET 0) 255).wr (Ren.SETTING 0) 100).setLane 255 { dropped := true })),
      _, rfl, by decide⟩

theorem wit_Rennet_8 : ∃ (s : State) (d : Dev), d = s.dev ∧ d.mode = 11 :=
    ⟨(wd (dm 11)), _, rfl, by decide⟩

theorem wit_Rennet_9 : ∃ (h : QflHdr) (p : Nat) (g : Dev) (s : State) (d : Dev) (f : Dev), d = s.dev ∧ f = (d.receiveFiltered s.time.now 5 0x30 h).1 ∧
      d.arrivedOn { vc := 5, opcode := 0x30, src := h.src, dst := h.dst, tag := h.tag, e2e := h.e2e } = some p ∧ (d.receiveFiltered
      s.time.now 5 0x30 h).2 = true ∧ g = ({ f with fab := { f.fab with tests := f.fab.tests + 1 } } : Dev) :=
    ⟨qReq, 4, _, wTest, _, _, rfl, rfl, by decide, by decide, rfl⟩

theorem wit_Rennet_10 : ∃ (h : QflHdr) (o : Outst) (s : State) (d : Dev) (f : Dev), d = s.dev ∧ f = (d.matchResponse s.time.now 5 0x31 h).1 ∧
      (d.matchResponse s.time.now 5 0x31 h).2 = some o :=
    ⟨qAck, oTest, (wd { dMem 7 with fab := { outstanding := [oTest] } }), _, _, rfl, rfl, by decide⟩

theorem wit_Rennet_11 : ∃ (lane : Fin 256) (received : List Bool) (bits errors : Nat) (n : Nat) (s : State) (d : Dev) (f : Dev), d = s.dev ∧ f =
      d.raise1 (Pg.lane_CHK_SYNC lane) ∧ d.checks lane = true ∧ d.flag (Pg.lane_CHK_SYNC lane) = false ∧ prbsInSync (d.rd
      (Pg.lane_CHK_PATTERN lane)) received = true ∧ f.flag (Pg.lane_CHK_SYNC lane) = true ∧ n = f.rd (Pg.lane_PRBS_BITS_LO lane) + 2
      ^ 32 * f.rd (Pg.lane_PRBS_BITS_HI lane) ∧ n < 2 ^ 48 - 1 ∧ n + bits ≤ 2 ^ 48 - 1 :=
    ⟨255, (prbsBits 1 100), 1000, 1, 0, (wd ((dm 11).wr (Pg.lane_CHK_PATTERN 255) 1)), _, _, rfl, rfl, by decide⟩

theorem wit_Rennet_12 : ∃ (lane : Fin 256) (window bits errors : Nat) (s : State) (d : Dev), d = s.dev ∧ d.flag (Pg.lane_CHK_SYNC lane) = true ∧ 256 ≤
      window :=
    ⟨255, 256, 9, 1, (wd ((dm 11).wr (Pg.lane_CHK_SYNC 255) 1)), _, rfl, by decide⟩

theorem wit_IdleStep_1 : ∃ (s : State), s.pending = [] ∧ s.dev.nextHeld = none ∧ s.dev.ringNext = none ∧ s.dev.doorbellFree = none ∧ s.dev.mode = 0 :=
    ⟨({ State.reset with dev := { State.reset.dev with rst := { State.reset.dev.rst with inOm0 := true } } } : State), by decide⟩

theorem wit_IdleStep_2 : ∃ (s : State), s.pending = [] ∧ s.dev.nextHeld = none ∧ s.dev.ringNext = none ∧ s.dev.doorbellFree = none ∧ s.dev.mode ≠ 0 ∧
      s.dev.chn.sweeps = [] :=
    ⟨State.reset, by decide⟩

theorem wit_IdleStep_3 : ∃ (s : State) (u : TimeUnit), s.pending = [] ∧ s.dev.nextHeld = none ∧ s.dev.ringNext = none ∧ s.dev.doorbellFree = none ∧
      s.dev.mode ≠ 0 ∧ s.dev.chn.sweeps ≠ [] ∧ u = s.time.tick (decide (s.activeSource ≠ 0)) :=
    ⟨(wd { dm 4 with chn := { sweeps := [0] } }), _, by decide, by decide, by decide, by decide, by decide, by decide, rfl⟩

theorem wit_IdleStep_4 : ∃ (s : State) (t : State) (x : HeldCommand), s.pending = [] ∧ s.dev.nextHeld = some x ∧ exec x.cmd (s.release x) = .next t :=
    ⟨wHeld, _, xHeld, by decide, by decide, rfl⟩

theorem wit_IdleStep_5 : ∃ (s : State) (mb : Nat), s.pending = [] ∧ s.dev.nextHeld = none ∧ s.dev.ringNext = some mb :=
    ⟨(wd ((dm 4).wr (Mbx.DOORBELL 5) 1)), 5, by decide⟩

theorem wit_IdleStep_6 : ∃ (s : State) (p : Nat), s.pending = [] ∧ s.dev.nextHeld = none ∧ s.dev.ringNext = none ∧ s.dev.doorbellFree = some p :=
    ⟨(wd { dm 4 with edge := { (dm 4).edge with held := [⟨0, .sqTail 0 0 0, true⟩] } }), 0, by decide⟩

theorem wit_InvKept : ∃ (s : State) (t : State), s.Inv ∧ step s = .next t :=
    ⟨wBell, _, ⟨rfl, fun h => absurd h (by decide), fun _ => by decide⟩, rfl⟩

theorem wit_CommandsComplete_1 : ∃ (c : Instr) (s : State), c.segmentOk = true :=
    ⟨.deviceInfo hw, w4, by decide⟩

theorem wit_CommandsComplete_2 : ∃ (c : Instr) (s : State), c.segmentOk = false :=
    ⟨.silekSegment (.mctp 1 false) 0 0 0 false (List.replicate 3105 0), w4, by decide +kernel⟩

theorem wit_Refusals_1 : ∃ (c : Instr) (h : SilekHdr) (s : State), c.header = some h ∧ s.dev.calm = true ∧ s.dev.flag (Mbx.DOORBELL 64) = false ∧
      s.dev.mode ≤ 1 :=
    ⟨.deviceInfo hw, hw, State.reset, by decide⟩

theorem wit_Refusals_2 : ∃ (c : Instr) (h : SilekHdr) (s : State), c.header = some h ∧ s.dev.calm = true ∧ s.dev.flag (Mbx.DOORBELL 64) = false ∧ 1 <
      s.dev.mode ∧ h.broadcast = true ∧ (c.opcode ≠ 0x506 ∨ h.dst ≠ 0) :=
    ⟨.deviceInfo { hw with broadcast := true }, { hw with broadcast := true }, w4, by decide⟩

theorem wit_Refusals_3 : ∃ (c : Instr) (h : SilekHdr) (s : State) (e : Nat), c.header = some h ∧ s.dev.calm = true ∧ s.dev.flag (Mbx.DOORBELL 64) = false
      ∧ h.requester = .fm e ∧ s.dev.silek.releasing = none ∧ 1 < s.dev.mode ∧ h.broadcast = false ∧ h.epoch ≠ 0 ∧ h.epoch ≠
      s.dev.epoch :=
    ⟨.deviceInfo { hw with epoch := 7 }, { hw with epoch := 7 }, w4, 1, by decide⟩

theorem wit_Refusals_4 : ∃ (c : Instr) (h : SilekHdr) (s : State) (e : Nat), c.header = some h ∧ s.dev.calm = true ∧ s.dev.flag (Mbx.DOORBELL 64) = false
      ∧ h.requester = .fm e ∧ s.dev.silek.releasing = none ∧ 1 < s.dev.mode ∧ h.broadcast = false ∧ (h.epoch = 0 ∨ h.epoch =
      s.dev.epoch) ∧ c.opcode ≠ 0x101 ∧ h.major ≠ 2 :=
    ⟨.deviceInfo { hw with major := 3 }, { hw with major := 3 }, w4, 1, by decide⟩

theorem wit_Refusals_5 : ∃ (c : Instr) (h : SilekHdr) (s : State) (e : Nat), c.header = some h ∧ s.dev.calm = true ∧ s.dev.flag (Mbx.DOORBELL 64) = false
      ∧ h.requester = .fm e ∧ s.dev.silek.releasing = none ∧ 1 < s.dev.mode ∧ h.broadcast = false ∧ (h.epoch = 0 ∨ h.epoch =
      s.dev.epoch) ∧ h.major = 2 ∧ min h.minor 3 < c.minMinor ∧ c.opcode ≠ 0x101 :=
    ⟨.rennetQuery { hw with minor := 0 }, { hw with minor := 0 }, w4, 1, by decide⟩

theorem wit_Refusals_6 : ∃ (c : Instr) (h : SilekHdr) (s : State) (e : Nat), c.header = some h ∧ s.dev.calm = true ∧ s.dev.flag (Mbx.DOORBELL 64) = false
      ∧ h.requester = .fm e ∧ s.dev.silek.releasing = none ∧ 1 < s.dev.mode ∧ h.broadcast = false ∧ (h.epoch = 0 ∨ h.epoch =
      s.dev.epoch) ∧ h.major = 2 ∧ c.opcode ≠ 0x101 ∧ c.minMinor ≤ min h.minor 3 ∧ s.dev.tagFree h = true ∧ (h.dst = 0 ∨ h.dst =
      s.dev.chainAddr) ∧ s.dev.modeAccepts c.opcode false = false :=
    ⟨.capacityRemove { hw with minor := 0 } 0 1, { hw with minor := 0 }, wd (dm 2), 1, by decide⟩

theorem wit_Refusals_7 : ∃ (c : Instr) (h : SilekHdr) (s : State) (e : Nat), c.header = some h ∧ s.dev.calm = true ∧ s.dev.flag (Mbx.DOORBELL 64) = false
      ∧ h.requester = .fm e ∧ s.dev.silek.releasing = none ∧ 1 < s.dev.mode ∧ h.broadcast = false ∧ (h.epoch = 0 ∨ h.epoch =
      s.dev.epoch) ∧ h.major = 2 ∧ c.opcode ∉ [0x101, 0x506, 0x503, 0x107] ∧ c.minMinor ≤ min h.minor 3 ∧ s.dev.tagFree h = true ∧
      (h.dst = 0 ∨ h.dst = s.dev.chainAddr) ∧ s.dev.modeAccepts c.opcode false = true ∧ h.padOk = false :=
    ⟨.capacityRemove { hw with padOk := false } 0 1, { hw with padOk := false }, w4, 1, by decide⟩

theorem wit_Refusals_8 : ∃ (c : Instr) (h : SilekHdr) (s : State) (e : Nat), c.header = some h ∧ s.dev.calm = true ∧ s.dev.flag (Mbx.DOORBELL 64) = false
      ∧ h.requester = .fm e ∧ s.dev.silek.releasing = none ∧ 1 < s.dev.mode ∧ h.broadcast = false ∧ (h.epoch = 0 ∨ h.epoch =
      s.dev.epoch) ∧ h.major = 2 ∧ c.opcode ∉ [0x101, 0x506, 0x503, 0x107] ∧ c.minMinor ≤ min h.minor 3 ∧ s.dev.tagFree h = true ∧
      (h.dst = 0 ∨ h.dst = s.dev.chainAddr) ∧ s.dev.modeAccepts c.opcode false = true ∧ h.padOk = true ∧ 64 ≤
      s.dev.silek.running.length :=
    ⟨.capacityRemove hw 0 1, hw, wBusy, 1, by decide⟩

theorem wit_RepeatedTags_1 : ∃ (c : Instr) (h : SilekHdr) (s : State) (e : Nat) (r : Running), c.header = some h ∧ s.dev.calm = true ∧ s.dev.flag
      (Mbx.DOORBELL 64) = false ∧ h.requester = .fm e ∧ s.dev.silek.releasing = none ∧ 1 < s.dev.mode ∧ h.broadcast = false ∧
      (h.epoch = 0 ∨ h.epoch = s.dev.epoch) ∧ (c.opcode = 0x101 ∨ h.major = 2) ∧ c.minMinor ≤ (CmdInfo.of c.opcode c.minMinor
      c.keyed).minorOf h ∧ (s.dev.runningOf h.requester).find? (fun x => x.tag = h.tag) = some r ∧ r.cmd = c.keyed :=
    ⟨.deviceInfo hw, hw, wRuns, 1, rDev, by decide⟩

theorem wit_RepeatedTags_2 : ∃ (c : Instr) (h : SilekHdr) (s : State) (e : Nat) (r : Running), c.header = some h ∧ s.dev.calm = true ∧ s.dev.flag
      (Mbx.DOORBELL 64) = false ∧ h.requester = .fm e ∧ s.dev.silek.releasing = none ∧ 1 < s.dev.mode ∧ h.broadcast = false ∧
      (h.epoch = 0 ∨ h.epoch = s.dev.epoch) ∧ (c.opcode = 0x101 ∨ h.major = 2) ∧ c.minMinor ≤ (CmdInfo.of c.opcode c.minMinor
      c.keyed).minorOf h ∧ (s.dev.runningOf h.requester).find? (fun x => x.tag = h.tag) = some r ∧ r.cmd ≠ c.keyed :=
    ⟨.modeQuery hw, hw, wRuns, 1, rDev, by decide⟩

theorem wit_RepeatedTags_3 : ∃ (c : Instr) (h : SilekHdr) (s : State) (e : Nat) (r : HeldCommand), c.header = some h ∧ s.dev.calm = true ∧ s.dev.flag
      (Mbx.DOORBELL 64) = false ∧ h.requester = .fm e ∧ s.dev.silek.releasing = none ∧ 1 < s.dev.mode ∧ h.broadcast = false ∧
      (h.epoch = 0 ∨ h.epoch = s.dev.epoch) ∧ (c.opcode = 0x101 ∨ h.major = 2) ∧ c.minMinor ≤ (CmdInfo.of c.opcode c.minMinor
      c.keyed).minorOf h ∧ (s.dev.runningOf h.requester).find? (fun x => x.tag = h.tag) = none ∧ s.dev.silek.held.find? (fun x =>
      x.req = h.requester ∧ x.tag = h.tag) = some r :=
    ⟨.deviceInfo hw, hw, wHeld, 1, xHeld, by decide⟩

theorem wit_RepeatedTags_4 : ∃ (c : Instr) (h : SilekHdr) (s : State) (e : Nat) (r : CachedReply), c.header = some h ∧ s.dev.calm = true ∧ s.dev.flag
      (Mbx.DOORBELL 64) = false ∧ h.requester = .fm e ∧ s.dev.silek.releasing = none ∧ 1 < s.dev.mode ∧ h.broadcast = false ∧
      (h.epoch = 0 ∨ h.epoch = s.dev.epoch) ∧ (c.opcode = 0x101 ∨ h.major = 2) ∧ c.minMinor ≤ (CmdInfo.of c.opcode c.minMinor
      c.keyed).minorOf h ∧ (s.dev.runningOf h.requester).find? (fun x => x.tag = h.tag) = none ∧ s.dev.silek.held.find? (fun x =>
      x.req = h.requester ∧ x.tag = h.tag) = none ∧ s.dev.silek.cache.find? (fun x => x.req = h.requester ∧ x.tag = h.tag) = some r
      ∧ r.cmd = c.keyed ∧ s.time.now ≤ r.time + 10000000000 :=
    ⟨.deviceInfo hw, hw, wKept, 1, kDev, by decide⟩

theorem wit_RepeatedTags_5 : ∃ (h : SilekHdr) (i : CmdInfo) (st : Status) (p : List Byte) (s : State) (e : Nat), h.requester = .fm e ∧ s.dev.silek.releasing
      = none ∧ h.tag < 65536 :=
    ⟨hw, .of 0x102 0 (.deviceInfo hw), .ok, [], w4, 1, by decide⟩

theorem wit_RepeatedTags_6 : ∃ (h : SilekHdr) (i : CmdInfo) (st : Status) (p : List Byte) (s : State) (e : Nat), h.requester = .fm e ∧ s.dev.silek.releasing
      = none ∧ h.tag < 65536 :=
    ⟨hw, .of 0x102 0 (.deviceInfo hw), .ok, [], w4, 1, by decide⟩

theorem wit_MailboxMemory_1 : ∃ (path : AccessPath) (off : Nat) (value : BitVec 64) (mb : Nat) (o : Nat) (s : State), s.dev.pathOpen path = true ∧ s.dev.calm
      = true ∧ bufferAt off = some (mb, o) ∧ off % 4 = 0 ∧ s.dev.flag (Mbx.BUSY mb) = false ∧ s.dev.ringFree (mailboxAt off) = false :=
    ⟨.bar0, 0xaffc, 0x12345678, 64, 0xffc, w4, by decide⟩

theorem wit_MailboxMemory_2 : ∃ (path : AccessPath) (off : Nat) (value : BitVec 64) (mb : Nat) (o : Nat) (s : State) (e : Dev), s.dev.pathOpen path = true ∧
      bufferAt off = some (mb, o) ∧ off % 4 = 0 ∧ s.dev.flag (Mbx.BUSY mb) = true ∧ e = s.dev.inc (Mbx.WRITES_IGNORED mb) ∧ e.calm =
      true ∧ e.ringFree (mailboxAt off) = false :=
    ⟨.bar0, 0xaffc, 0x12345678, 64, 0xffc, wd ((dm 4).wr (Mbx.BUSY 64) 1), _, by decide, by decide, by decide, by decide, rfl, by
      decide⟩

theorem wit_MailboxMemory_3 : ∃ (h : SilekHdr) (i : CmdInfo) (st : Status) (p : List Byte) (s : State) (mb : Nat) (t : State) (bs : List Byte),
      h.requester.mailbox = some mb ∧ s.dev.silek.releasing = none ∧ t = s.answered h i st p ∧ bs = silekMessage s.dev i.opcode
      (i.minorOf h) 1 st.code h.tag h.src s.dev.epoch p :=
    ⟨{ hw with requester := .mgmt }, .of 0x102 0 (.deviceInfo hw), .ok, [1], w4, 64, _, _, by decide, by decide, rfl, rfl⟩

theorem wit_MailboxMemory_4 : ∃ (h : SilekHdr) (i : CmdInfo) (st : Status) (p : List Byte) (s : State) (mb : Nat) (t : State), h.requester.mailbox = some mb ∧
      s.dev.silek.releasing = none ∧ t = s.answered h i st p ∧ s.dev.flag (Mbx.REPLY_IRQ_EN mb) = false :=
    ⟨{ hw with requester := .mgmt }, .of 0x102 0 (.deviceInfo hw), .ok, [1], w4, 64, _, by decide, by decide, rfl, by decide⟩

theorem wit_EntryToOm0_1 : ∃ (s : State), s.dev.rst.inOm0 = false :=
    ⟨w4, by decide⟩

theorem wit_EntryToOm0_2 : ∃ (rail : Fin 6) (s : State), s.dev.rst.inOm0 = false :=
    ⟨3, w4, by decide⟩

theorem wit_DirectoryPlacement_1 : ∃ (x : Nat) (y : Nat), x < 2 ^ 45 ∧ y < 2 ^ 45 ∧ sliceOf x = sliceOf y ∧ setOf x = setOf y ∧ fieldOf x 17 28 = fieldOf y 17 28 :=
    ⟨5, 5, by decide⟩

theorem wit_DirectoryPlacement_2 : ∃ (d : Dev) (x : Nat), x < 2 ^ 45 :=
    ⟨dm 4, 5, by decide⟩

theorem wit_FlitRoundTrip_1 : ∃ (enc : Bool) (ms : List QflMsg), ms ≠ [] ∧ (∀ m ∈ ms, m.fits = true) ∧ ((ms.map QflMsg.len).foldr (· + ·) 0 ≤ (if enc then 13
      else 15)) :=
    ⟨false,
      [{ vc := 5, opcode := 1, src := 31, dst := 16, hops := 7, master := 0xffff, tag := 0xffff, epoch := 0xffffffff, e2e := 0xffffffff, units := List.replicate 13 (BitVec.allOnes 64) }],
      by decide⟩

theorem wit_FlitRoundTrip_2 : ∃ (m : QflMsg), m.fits = true :=
    ⟨{ vc := 4, opcode := 3, src := 1, dst := 2, units := [7] }, by decide⟩

theorem wit_FlitRoundTrip_3 : ∃ (s : Nat) (body : Nat), body < 2 ^ 992 :=
    ⟨0xffe, 1, by decide⟩

theorem wit_MonitorSetup_1 : ∃ (h : SilekHdr) (block : Nat) (counter : Nat) (event : Nat) (s : State) (i : CmdInfo) (m : Nat), i = .of 0x901 0
      (.monitorConfig h.key block counter event) ∧ s.admits h i = true ∧ m = block - 0x40 ∧ 0x40 ≤ block ∧ block ≤ 0x79 ∧ counter ≤
      7 ∧ event / 256 = monKind m ∧ event % 256 ≤ monEvents (monKind m) :=
    ⟨hw, 0x79, 7, 0x903, w4, _, _, rfl, by decide, rfl, by decide⟩

theorem wit_MonitorSetup_2 : ∃ (h : SilekHdr) (block : Nat) (s : State) (i : CmdInfo) (p : List Byte) (t : Nat) (d : Dev), i = .of 0x902 0 (.monitorRead
      h.key block) ∧ s.admits h i = true ∧ 0x40 ≤ block ∧ block ≤ 0x79 ∧ d = s.begun.dev ∧ p = d.monBlock (block - 0x40) :=
    ⟨hw, 0x40, w4, _, _, 0, _, rfl, by decide, by decide, by decide, rfl, rfl⟩

theorem wit_PairEnable : ∃ (h : SilekHdr) (pair : Nat) (log2 : Nat) (sq : Nat) (cq : Nat) (vector : Nat) (q : Nat) (s : State) (i : CmdInfo), i =
      { CmdInfo.of 0x341 0 (.queueSetup h.key pair log2 sq cq vector true) with hostMay := fun _ _ => true } ∧ s.admits h i = true ∧
      s.begun.dev.namedPair h.requester pair = some q ∧ sq % 4096 = 0 ∧ cq % 4096 = 0 ∧ 4 ≤ log2 ∧ log2 ≤ 12 ∧ ((s.dev.pair q).fm =
      true ∨ vector < s.dev.rd (Vi.MSIX_COUNT (s.dev.pair q).inst)) ∧ (s.dev.pair q).state = 1 ∧ (s.dev.pair q).disabling = false :=
    ⟨hw, 8191, 12, 4096, 8192, 3, 8191, wPair1, _, rfl, by decide⟩

theorem wit_HardwareErrors_1 : ∃ (port : Fin 64) (tag hpa keep : Nat) (s : State) (d : Dev) (f : Dev), d = s.dev ∧ f =
      ({ d with edge := { d.edge with credits := Tab.put d.edge.credits port (Tab.getD d.edge.credits port 0 - 1) 0 } } : Dev) ∧
      d.isHostPort port = true ∧ d.linkUp port = true ∧ d.rd (Pg.IDE_STATE port) ≠ 3 ∧ d.flaws.contains (.credit port) = true :=
    ⟨0, 5, 64, 1, (wd { dWin with flaws := [.credit 0] }), _, _, rfl, rfl, by decide⟩

theorem wit_HardwareErrors_2 : ∃ (port : Fin 64) (vc : Fin 8) (count : BitVec 16) (crc : BitVec 8) (s : State) (d : Dev), d = s.dev ∧ d.hears port = true ∧ crc
      = wheyCrc 3 [vc, count.toNat] ∧ (vc : Nat) ≤ 5 ∧ d.flaws.contains (.credit port) = true :=
    ⟨4, 5, 0xffff, (wheyCrc 3 [5, 0xffff]), (wd { dL 1 {} with flaws := [.credit 4] }), _, rfl, by decide⟩

theorem wit_HardwareErrors_3 : ∃ (t : Nat) (a : Access) (r : Answer) (d : Dev) (p : Nat), p = (d.backing a.fa).1 ∧ r.ending = .done ∧ r.poison = false ∧
      d.flaws.contains (.portAlu p) = true :=
    ⟨0, { id := 0, kind := .atomic, origin := .exerciser, master := 0 }, {}, { dm 4 with flaws := [.portAlu 0] }, _, rfl, by decide⟩

theorem wit_HardwareErrors_4 : ∃ (t : Nat) (tr : Tracker) (x : Line) (poison : Bool) (d : Dev), tr.acc.kind = .atomic ∧ tr.data = some (x, poison) ∧
      d.flaws.contains (.homeAlu tr.slice) = true :=
    ⟨0,
      { slice := 3, id := 0, acc := { id := 0, kind := .atomic, origin := .exerciser, master := 0 }, la := 3, data := some (0, false) },
      0, false, { dm 4 with flaws := [.homeAlu 3] }, by decide⟩

theorem wit_HardwareErrors_5 : ∃ (t vi access master hpa : Nat) (d : Dev) (x : Nat × Nat) (e : Dev), e = d.mon t 54 0x601 master hpa ∧ e.decode vi hpa = some x
      ∧ e.flaws.contains .adder = true :=
    ⟨0, 0, 7, 0, 64, { wMap.dev with flaws := [.adder] }, (faOf 1 0 64, 0), _, rfl, by decide⟩

theorem wit_HardwareErrors_6 : ∃ (t slice : Nat) (la i : Nat) (d : Dev), slice = sliceOf la ∧ d.flaws.findSome? (Flaw.inRead 1 slice (fun k => k / 16 = setOf
      la)) = some (i, 3) ∧ d.flaws.findSome? (Flaw.inRead 1 slice (fun k => k = i)) = some (i, 3) :=
    ⟨0, _, 3, 0, { dm 4 with flaws := [.word 1 3 0 3] }, rfl, by decide⟩

theorem wit_HardwareErrors_7 : ∃ (t code unit source i b : Nat) (hit : Nat → Bool) (d : Dev), code ≠ 1 ∧ d.flaws.findSome? (Flaw.inRead code unit hit) = some
      (i, b) :=
    ⟨0, 4, 2, 0, 7, 2, (fun _ => true), { dm 4 with flaws := [.word 4 2 7 2] }, by decide⟩

theorem wit_HardwareErrors_8 : ∃ (t : Nat) (r x : ErrorRec) (d : Dev) (b : Nat), d.flaws.findSome? (Flaw.inRead 11 0 (fun k => k = r.number)) = some (r.number,
      b) ∧ 1 < b ∧ (d.readArray t 11 0 0xd (fun k => k = r.number)).1.errors.find? (fun y => y.number = r.number) = some x :=
    ⟨0,
      { number := 1, cls := 1, severity := 0, source := 0, access := 0, master := 0, rule := 0, addr := 0, time := 0, epoch := 0, detail := 0 },
      { number := 1, cls := 1, severity := 0, source := 0, access := 0, master := 0, rule := 0, addr := 0, time := 0, epoch := 0, detail := 0 },
      { dm 4 with flaws := [.word 11 0 1 2], errors := [{ number := 1, cls := 1, severity := 0, source := 0, access := 0, master := 0, rule := 0, addr := 0, time := 0, epoch := 0, detail := 0 }] },
      2, by decide⟩

theorem wit_SymbolCodes_1 : ∃ (l : List Symbol) (rd : Bool) (x y : LaneScan), (∀ s ∈ l, s ∈ tableSymbols) ∧ x.lane.disparity = some rd ∧ y = (encodeSymbols
      rd l).foldl LaneScan.step x :=
    ⟨[.com, .data 0], false, (({ lane := { disparity := some false } } : LaneScan)), _, by decide, by decide, rfl⟩

theorem wit_SymbolCodes_2 : ∃ (s : Symbol) (rd : Bool) (x : LaneScan), s ∈ tableSymbols ∧ x.lane.disparity = some (!rd) ∧ s.code rd ≠ s.code (!rd) :=
    ⟨.com, true, (({ lane := { disparity := some false } } : LaneScan)), by decide⟩

theorem wit_SymbolCodes_3 : ∃ (c : BitVec 10) (rd : Bool) (x : LaneScan), ((c ∈ ([0b0011111001, 0b0011110010, 0b0011111000, 0b1110101000, 0b1011101000,
      0b0111101000] : List (BitVec 10))) ∨ ~~~c ∈ ([0b0011111001, 0b0011110010, 0b0011111000, 0b1110101000, 0b1011101000,
      0b0111101000] : List (BitVec 10))) ∧ x.lane.disparity = some rd :=
    ⟨0b0011111001, false, (({ lane := { disparity := some false } } : LaneScan)), by decide⟩

theorem wit_SymbolCodes_4 : ∃ (c : BitVec 10) (x : LaneScan), x.lane.disparity = none :=
    ⟨0, ({ lane := {} } : LaneScan), by decide⟩

theorem wit_SymbolCodes_5 : ∃ (w : Nat) (bs : List Byte) (i : Nat), 0 < w ∧ i < bs.length :=
    ⟨16, List.replicate 128 0, 127, by decide⟩

theorem wit_Residues_1 : ∃ (n a b : Nat), a < 2 ^ n ∧ b < 2 ^ n :=
    ⟨64, 0xfffffffffffffffe, 5, by decide⟩

theorem wit_Residues_2 : ∃ (n a b : Nat), a < 2 ^ n ∧ b < 2 ^ n :=
    ⟨16, 0, 1, by decide⟩

theorem wit_Residues_3 : ∃ (f : Flaw) (predicted right : Nat) (d : Dev), predicted = residue right :=
    ⟨.adder, 0, 3, (dm 4), by decide⟩

end Sys2Proof.Tests
end

section
/-! SUPPORT. What a host port, a Type 2 device's traffic and a memory port agent do with what answers an earlier request, and the
statements on responses (O24) and on the front of the queue (O44). -/
namespace Sys2Proof.Machine
open Sys2Proof

/-! ### The rows act on the device and settle -/

theorem exec_birsp (port : Fin 64) (tag keeps : Nat) (s : State) :
    exec (.birsp port tag keeps) s = .next (s.settledFrom (s.withDev (s.dev.birsp s.time.now port tag keeps))) := rfl
theorem exec_biconflict (port : Fin 64) (tag : Nat) (s : State) :
    exec (.biconflict port tag) s = .next (s.settledFrom (s.withDev (s.dev.biconflict s.time.now port tag))) := rfl
theorem exec_cxlCache (port : Fin 64) (vport : Nat) (data : List Byte) (s : State) :
    exec (.cxlCache port vport data) s = .next (s.settledFrom (s.withDev (s.dev.cacheForward port vport data))) := rfl
theorem exec_configurationWrite (port : Fin 64) (function register value : Nat) (functionMask : Option Bool) (s : State) :
    exec (.configurationWrite port function register value functionMask) s =
      .next (s.settledFrom (s.withDev (s.dev.configWrite s.time.now port function register value functionMask))) := rfl
theorem exec_cxlMemReadData (port : Fin 64) (tag : Nat) (data : Line) (poison : Bool) (s : State) :
    exec (.cxlMemReadData port tag data poison) s =
      .next (s.settledFrom (s.withDev (s.dev.readData s.time.now port tag data poison))) := rfl
theorem exec_cxlMemWriteCompletion (port : Fin 64) (ld : Fin 16) (s : State) :
    exec (.cxlMemWriteCompletion port ld) s =
      .next (s.settledFrom (s.withDev ((s.dev.writePerformed s.time.now port ld).later .recheck))) := rfl
theorem exec_hostWriteAck (port : Fin 64) (count : Nat) (s : State) :
    exec (.hostWriteAck port count) s =
      .next (s.settledFrom (s.withDev ((s.dev.hostAcked s.time.now port count).later .recheck))) := rfl
theorem exec_memoryAgentGrant (port : Fin 64) (s : State) :
    exec (.memoryAgentGrant port) s = .next (s.settledFrom (s.withDev (s.dev.agentGrant s.time.now port))) := rfl

/-- A completion of a read that the device sent in the port's present incarnation goes on to what waits for it (R179). -/
theorem exec_cxlIoCompletion_read {port : Fin 64} {tag : Nat} {s : State} (ok poison : Bool) (data : List Byte)
    (h : s.dev.ladles.hostReads.any (fun x => decide (x.tag = tag) && decide (x.port = (port : Nat)) &&
      decide (x.incarnation = s.dev.rd (Pg.INCARNATION port))) = true) :
    exec (.cxlIoCompletion port tag ok poison data) s =
      .next (s.settledFrom (s.withDev (s.dev.later (.hostData tag ok poison data)))) :=
  congrArg (fun d => Host.Outcome.next (s.settledFrom (s.withDev d))) (if_pos h)

/-! ### Snoop responses -/

/-- A sound array gives a tracker back as written. -/
theorem Dev.readTracker_of_sound {d : Dev} (h : d.flaws = []) (t : Nat) (tr : Tracker) : d.readTracker t tr = (d, false) := by
  unfold Dev.readTracker
  split
  · rfl
  · simp [Dev.readArray_of_sound h]

/-- A BIRsp whose slot the tracker still waits for answers the tracker's snoop. -/
theorem Dev.takeAnswer_birsp {t k : Nat} {x : HostSnoop} {tr : Tracker} {d : Dev} (hd : d.flaws = [])
    (ht : d.tracker x.slice x.tracker = some tr) (hs : tr.snooped.contains x.slot = true) :
    d.takeAnswer t (d.heldAnswer x (some k)) = d.snoopAnswered t tr x.slot k := by
  simp only [Dev.takeAnswer, Dev.heldAnswer, ht, hs, not_true, if_false, Dev.readTracker_of_sound hd]

/-- A BIConflict on a tracker without writebacks is acknowledged at once (R206). -/
theorem Dev.takeAnswer_biconflict {t : Nat} {x : HostSnoop} {tr : Tracker} {d : Dev} (hd : d.isDead x.slot = false)
    (ht : d.tracker x.slice x.tracker = some tr) (hw : tr.writes = 0) :
    d.takeAnswer t (d.heldAnswer x none) = d.emit (.host x.port (.biConflictAck x.tag)) := by
  simp [Dev.takeAnswer, Dev.heldAnswer, ht, hd, hw]

/-- A BIRsp to a present snoop ends the snoop and is kept as its answer. -/
theorem Dev.birsp_snoop {t p tag keeps : Nat} {x : HostSnoop} {d : Dev} (hc : d.carries p = true) (hx : d.snoopOf p tag = some x) :
    d.birsp t p tag keeps =
      ({ d with edge := { d.edge with snoops := d.edge.snoops.filter (fun y => decide ¬ (y.port = p ∧ y.tag = tag)) } } : Dev).answerSnoop
        t x (some keeps) := by
  simp only [Dev.birsp, hc, hx, not_true, if_false]

/-- A BIConflict to a present snoop is kept as its answer. -/
theorem Dev.biconflict_snoop {t p tag : Nat} {x : HostSnoop} {d : Dev} (hc : d.carries p = true) (hx : d.snoopOf p tag = some x) :
    d.biconflict t p tag = d.answerSnoop t x none := by
  simp only [Dev.biconflict, hc, hx, not_true, if_false]

/-! ### Traffic that passes through -/

/-- CXL.cache of a host that is not CXL 1.1 reaches the Type 2 device that its host sees at the port (R6). -/
theorem Dev.cacheForward_host {p vport vi q : Nat} {d : Dev} (bs : List Byte) (hu : d.linkUp p = true) (hi : d.rd (Pg.IDE_STATE p) ≠ 3)
    (hh : d.isHostPort p = true) (hv : d.viOfPort p = some vi) (hq : Tab.get (d.instOf vi).type2 vport = some q)
    (hg : d.rd (Pg.CXL_GEN p) ≠ 1) (ht : d.type2Up q = true) (hj : d.rd (Pg.IDE_STATE q) ≠ 3) :
    d.cacheForward p vport bs = d.emit (.device q (.forwarded bs)) := by
  have hb : (d.viOfPort p).bind (fun vi => Tab.get (d.instOf vi).type2 vport) = some q := by rw [hv, Option.bind_some, hq]
  simp only [Dev.cacheForward, hu, hh, hb, not_true, false_or, if_neg hi, if_true]
  exact if_pos ⟨hg, ht, hj⟩

/-- A write to a presented function is kept; without a function mask nothing else changes (R321). -/
theorem Dev.configWrite_kept {t p fn reg value vi : Nat} {d : Dev} (hh : d.isHostPort p = true) (hc : d.carries p = true)
    (hv : d.viOfPort p = some vi) (hp : d.presents vi (fn % 16) = true) :
    d.configWrite t p fn reg value none = d.setConfig ((vi * 16 + fn % 16) * 4096 + reg % 4096)
      (configKept (fn % 16) (reg % 4096) (Tab.getD d.edge.config ((vi * 16 + fn % 16) * 4096 + reg % 4096) 0) value) := by
  simp only [Dev.configWrite, hh, hc, hv, hp, not_true, or_self, if_false]

/-! ### Memory port agents -/

/-- Data of a read that was sent in the port's present incarnation ends the read (R179). -/
theorem Dev.readData_present {t p tag : Nat} {r : AgentReq} {d : Dev} (data : Line) (poison : Bool)
    (hr : d.agents.reads.find? (fun x => decide (x.port = p ∧ x.id = tag)) = some r) (hi : r.incarnation = d.rd (Pg.INCARNATION p)) :
    d.readData t p tag data poison =
      (({ d with agents := { d.agents with reads := d.agents.reads.erase r } } : Dev).mon t (p / 4) 0x102 r.acc.master r.acc.fa).later
        (.ended r.cont { data := if poison = true then 0 else data, poison := poison }) := by
  simp only [Dev.readData, hr]
  exact if_neg (not_not_intro hi)

/-- The completion of a write that was sent in the present incarnation frees its entry and sends the target's next (R261). -/
theorem Dev.writePerformed_sent {t p ld : Nat} {e : EgressEntry} {d : Dev}
    (he : d.buf.entries.find? (fun x => decide (x.port = p ∧ x.ld = ld ∧ d.sentNow x = true)) = some e) :
    d.writePerformed t p ld = (d.dropEntry t e none).sendNext t p ld := by
  simp only [Dev.writePerformed, he]

/-- One acknowledged posted write frees the oldest entry that was sent in the present incarnation (R261). -/
theorem Dev.hostAcked_one {t p : Nat} {e : EgressEntry} {d : Dev}
    (he : d.buf.entries.find? (fun x => decide (x.port = p ∧ d.sentNow x = true)) = some e) :
    d.hostAcked t p 1 = d.dropEntry t e none := by
  simp only [Dev.hostAcked, he]

/-- A ready request of the Churn's own is granted before any other (R339). -/
theorem Dev.agentGrant_churn {t p : Nat} {r : AgentReq} {d : Dev}
    (hr : (d.agents.queue.filter (fun x => decide (x.port = p) && d.grantable x)).find? (fun x => decide (x.acc.master / 4096 = 3)) =
      some r) : d.agentGrant t p = d.grant t r := by
  simp only [Dev.agentGrant, hr]

/-! ### The statements -/

/-- Settles O24: each row acts on the device and settles, and the case that its hypotheses single out is what the device does. -/
theorem hostResponses : Obligations.HostResponses := by
  unfold Obligations.HostResponses
  refine ⟨?birsp, ?biconflict, ?completion, ?cache, ?config, ?readData, ?written, ?acked, ?grant⟩
  case birsp =>
    rintro port tag keeps x tr s d f _ rfl hf' rfl hd hc hx ha hf ht hs
    have hb : s.dev.birsp s.time.now port tag keeps = f.answerSnoop s.time.now x (some keeps) := by
      rw [Dev.birsp_snoop hc hx, hf', ← ha]
    have hfa : f.edge.answers = [] := by rw [hf']
    have hfd : f.flaws = [] := by rw [hf']; exact hd
    rw [exec_birsp, hb, Dev.answerSnoop_free hfa hf, Dev.takeAnswer_birsp hfd ht hs]
  case biconflict =>
    rintro port tag x tr s d f _ rfl hf' rfl hc hx ha hf hd ht hw
    obtain rfl : f = s.dev := by rw [hf', ← ha]
    rw [exec_biconflict, Dev.biconflict_snoop hc hx, Dev.answerSnoop_free ha hf, Dev.takeAnswer_biconflict hd ht hw]
  case completion =>
    rintro port tag ok poison data s d rfl h
    exact exec_cxlIoCompletion_read ok poison data h
  case cache =>
    rintro port vport data vi q s d rfl hu hi hh hv hq hg ht hj
    rw [exec_cxlCache, Dev.cacheForward_host data hu hi hh hv hq hg ht hj]
  case config =>
    rintro port function register value functionMask vi s d rfl hh hc hv hp rfl
    rw [exec_configurationWrite, Dev.configWrite_kept hh hc hv hp, Dev.setConfig]
  case readData =>
    rintro port tag data poison r s d f rfl rfl hr hi
    rw [exec_cxlMemReadData, Dev.readData_present data poison hr hi]
  case written =>
    rintro port ld e s d rfl he
    rw [exec_cxlMemWriteCompletion, Dev.writePerformed_sent he]
  case acked =>
    rintro port count e s d rfl rfl he
    rw [exec_hostWriteAck, Dev.hostAcked_one he]
  case grant =>
    rintro port r s d rfl hr
    rw [exec_memoryAgentGrant, Dev.agentGrant_churn hr]

/-- Settles O44: `step` matches on the queue alone. -/
theorem stepRunsFront : Obligations.StepRunsFront := by
  unfold Obligations.StepRunsFront
  intro c rest s
  rfl

end Sys2Proof.Machine
end

section
/-! SUPPORT. How every Silek command comes to the responder, what the responder answers a fabric manager over MCTP, and the statement on
refusals (O50). -/
namespace Sys2Proof.Machine
open Sys2Proof

/-! ### Every Silek command is one call of the responder -/

/-- The responder's account of a command agrees with the command's own tables (R411, R421). -/
def CmdInfo.Of (i : CmdInfo) (c : Instr) : Prop := i.opcode = c.opcode ∧ i.minMinor = c.minMinor ∧ i.key = c.keyed

/-- How a command comes to the responder: as it is, with the work it hands on, or also with the doorbell that it may ring. -/
inductive SilekForm (c : Instr) (h : SilekHdr) (i : CmdInfo) (body : State → State × Result) : Prop
  | plain (e : ∀ s, exec c s = runSilek h i body s)
  | settled (e : ∀ s, exec c s = runSettled h i body s)
  | ringing (e : ∀ s, exec c s = thenRing 64 (runSettled h i body s))

/-- A command with a header runs through the responder. -/
theorem silekForm_of_header {c : Instr} {h : SilekHdr} (hc : c.header = some h) :
    ∃ i body, SilekForm c h i body ∧ i.Of c := by
  cases c
  case regWrite => cases hc; exact ⟨_, _, .ringing fun _ => rfl, rfl, rfl, rfl⟩
  case silekVersion | deviceInfo | portStatusQuery | commandSupport | eventRead | eventSubscribe | eventNotify | deviceCapacityQuery |
      windowQuery | extentQuery | slotQuery | instanceQuery | qosQuery | queueQuery | gateRead | sharerSlotQuery | membershipQuery |
      slotPowerOn | slotPowerConfig | slotPowerQuery | fwUpdateStart | fwUpdateData | fwUpdateVerify | fwActivate | fwQuery |
      selfTest | zeroize | securityStatus | rennetClear | rennetQuery | dirRead | monitorConfig | monitorRead | skimmerConfig |
      skimmerStop | herdbookRead | errorLogRead | errorLogClear | modeQuery | barrierCmd | warmReset | configSave =>
    cases hc; exact ⟨_, _, .plain fun _ => rfl, rfl, rfl, rfl⟩
  case capacityAdd | capacityRemove | windowConfig | extentBind | extentUnbind | extentMigrate | extentMigrateAbort | extentZero |
      instanceConfig | instanceQuiesce | instanceResume | instanceReset | qosSet | queueAssign | queueSetup | queueDisable |
      queueReset | ladleSubmit | gateWrite | gateCommit | gateDiscard | sharerSlotSet | membershipSet | memberJoin | memberRejoin |
      memberDeclareDead | epochAdvance | pairHeadSet | mirrorResync | replicaSet | slotPowerOff | regRead | rennetSet | modeSet |
      portConfig | portControl =>
    cases hc; exact ⟨_, _, .settled fun _ => rfl, rfl, rfl, rfl⟩
  all_goals cases hc

/-- Where the responder leaves no work, no fed mirror and no doorbell of the management function, what it leaves is what the command
leaves. -/
theorem SilekForm.exec_still {c : Instr} {h : SilekHdr} {i : CmdInfo} {body : State → State × Result} (f : SilekForm c h i body)
    {s t : State} (hr : runSilek h i body s = .next t) (hc : t.dev.calm = true) (hd : t.dev.flag (Mbx.DOORBELL 64) = false) :
    exec c s = .next t := by
  have hs : runSettled h i body s = .next t := by
    simp only [runSettled, hr]
    exact congrArg Host.Outcome.next (State.settledFrom_calm hc)
  cases f with
  | plain e => rw [e, hr]
  | settled e => rw [e, hs]
  | ringing e => rw [e, hs]; exact if_neg (by simp [Dev.ringFree, hd])

/-! ### Replies over MCTP -/

/-- A reply to a fabric manager over MCTP is sent with its payload padded (R410). -/
theorem State.answer_fm (e op tag minor src flags : Nat) (st : Status) (p : List Byte) (s : State) :
    s.answer (.fm e) op tag minor src flags st p = s.sending (.reply (.fm e) op tag minor flags st (padBytes p)) s.dev.silek.cache := rfl

/-- Outside the release of held commands, the error reply of a refused command goes out and is kept. -/
theorem State.finalReply_refuses {s : State} {h : SilekHdr} {i : CmdInfo} {c : Instr} {e : Nat} (hi : i.Of c)
    (hq : h.requester = .fm e) (hr : s.dev.silek.releasing = none) (st : Status) :
    s.finalReply h i (min h.minor 3) st [] = s.refuses h c st := by
  obtain ⟨ho, -, hk⟩ := hi
  simp only [State.finalReply, hr, reduceCtorEq, if_false, State.directReply, hq, State.answer_fm, State.refuses, ← ho, ← hk]
  rfl

/-! ### The responder's checks, in their order (R407 to R425, log entry 17) -/

/-- In OM0 and OM1 the responder is deaf. -/
theorem runSilek_deaf {s : State} (hm : s.dev.mode ≤ 1) (h : SilekHdr) (i : CmdInfo) (body : State → State × Result) :
    runSilek h i body s = .next s := if_pos hm

/-- A chain broadcast is heard as EPOCH_ADVANCE to all alone (R414). -/
theorem runSilek_broadcast {s : State} {h : SilekHdr} {i : CmdInfo} (hm : 1 < s.dev.mode) (hb : h.broadcast = true)
    (ho : i.opcode ≠ 0x506 ∨ h.dst ≠ 0) (body : State → State × Result) : runSilek h i body s = .next s :=
  (if_neg (Nat.not_le.mpr hm)).trans (if_pos ⟨hb, ho⟩)

/-- A tag that is in no use meets nothing (R421). -/
theorem Dev.lookupTag_free {d : Dev} {h : SilekHdr} (hf : d.tagFree h = true) (t : Nat) (i : CmdInfo) : d.lookupTag t h i = .none := by
  simp only [Dev.tagFree, Bool.and_eq_true, List.all_eq_true, Bool.not_eq_true', Bool.and_eq_false_imp, decide_eq_true_eq,
    decide_eq_false_iff_not] at hf
  obtain ⟨⟨hr, hh⟩, hc⟩ := hf
  have e1 : (d.runningOf h.requester).find? (fun x => x.tag = h.tag) = none := by
    simpa [Dev.runningOf] using hr
  have e2 : d.silek.held.find? (fun x => x.req = h.requester ∧ x.tag = h.tag) = none := by simpa using hh
  have e3 : d.silek.cache.find? (fun x => x.req = h.requester ∧ x.tag = h.tag) = none := by simpa using hc
  simp only [Dev.lookupTag, e1, e2, e3]

section
variable {s : State} {h : SilekHdr} {i : CmdInfo} {body : State → State × Result} {e : Nat}
variable (hq : h.requester = .fm e) (hr : s.dev.silek.releasing = none) (hm : 1 < s.dev.mode) (hb : h.broadcast = false)
include hq hr hm hb

/-- An EPOCH that is not the device's is fenced (R425). -/
theorem runSilek_fm_epoch (he : h.epoch ≠ 0 ∧ h.epoch ≠ s.dev.epoch) :
    runSilek h i body s = .next (s.answer (.fm e) i.opcode h.tag (min h.minor 3) h.src 1 .fenced []) := by
  simp [runSilek, Nat.not_le.mpr hm, hb, Dev.checkEpoch, hr, hq, he]

variable (he : h.epoch = 0 ∨ h.epoch = s.dev.epoch)
include he

omit hm hb in
/-- The device's epoch, or none, is accepted (R425). -/
theorem Dev.checkEpoch_fm (t op : Nat) : s.dev.checkEpoch t h op = .accept := by
  have : ¬ (h.epoch ≠ 0 ∧ h.epoch ≠ s.dev.epoch) := fun ⟨h0, hd⟩ => he.elim h0 hd
  simp [Dev.checkEpoch, hr, hq, this]

/-- Another major version is answered with the versions that this device has (R412). -/
theorem runSilek_fm_major (ho : i.opcode ≠ 0x101) (hv : h.major ≠ 2) :
    runSilek h i body s = .next (s.answer (.fm e) i.opcode h.tag 3 h.src 1 .versionMismatch versionPayload) := by
  simp [runSilek, Nat.not_le.mpr hm, hb, Dev.checkEpoch_fm hq hr he, ho, hv, hq]

variable (ho : i.opcode ≠ 0x101) (hv : h.major = 2)
include ho hv

/-- A command younger than the operating minor version is unknown (R411). -/
theorem runSilek_fm_minor (hn : min h.minor 3 < i.minMinor) :
    runSilek h i body s = .next (s.finalReply h i (min h.minor 3) .badOpcode []) := by
  simp only [runSilek, Nat.not_le.mpr hm, hb, Dev.checkEpoch_fm hq hr he, ho, hv, hn, if_true, if_false, Bool.false_eq_true,
    false_and, ne_eq, not_true, and_false]

/-- A new command for this device itself is checked against its source and the mode, then its padding, then the limit of running
commands; it is held behind what it must wait for (R422), and otherwise it starts. -/
theorem runSilek_fm_new (hn : i.minMinor ≤ min h.minor 3) (ht : s.dev.tagFree h = true) (hd : h.dst = 0 ∨ h.dst = s.dev.chainAddr) :
    runSilek h i body s =
      if s.dev.sourceMay h i = false then .next (s.finalReply h i (min h.minor 3) .notPermitted [])
      else if s.dev.modeAccepts i.opcode false = false then .next (s.finalReply h i (min h.minor 3) .notPermitted [])
      else if h.padOk = false then .next (s.finalReply h i (min h.minor 3) .badParam [])
      else if 64 ≤ s.dev.silek.running.length then .next (s.finalReply h i (min h.minor 3) .noResource [])
      else if (h.ordered ∧ s.dev.runningOf (.fm e) ≠ []) ∨ s.dev.silek.held.any (fun x => decide (x.req = .fm e)) then
        .next (s.withDev { s.dev with silek := { s.dev.silek with held := s.dev.silek.held ++ [{
          req := .fm e, tag := h.tag, ordered := h.ordered, opcode := i.opcode, minor := min h.minor 3, src := h.src, cmd := i.key }] } })
      else .next (s.start h i (min h.minor 3) body) := by
  have hw : decide (h.dst ≠ 0 ∧ h.dst ≠ s.dev.chainAddr) = false := decide_eq_false fun ⟨h0, hc⟩ => hd.elim h0 hc
  have hp : s.dev.fromPrimary h = false := by simp only [Dev.fromPrimary, hq]
  have hf : s.dev.mailboxFull (.fm e) = false := rfl
  simp only [runSilek, Nat.not_le.mpr hm, hb, Dev.checkEpoch_fm hq hr he, ho, hv, Nat.not_lt.mpr hn, Dev.lookupTag_free ht, hw, hp, hq,
    hf, hr, Option.isNone_none, State.withDev, Bool.not_eq_true', Bool.not_false, Bool.not_true, Bool.true_and,
    Bool.false_and, Bool.false_eq_true, if_false, false_and, true_and, ne_eq, not_true, and_false, or_false]
end

/-- A fabric manager may send every command but those that members alone send one another (R418). -/
theorem Dev.sourceMay_fm {d : Dev} {h : SilekHdr} {i : CmdInfo} {e : Nat} (hq : h.requester = .fm e)
    (ho : i.opcode ∉ [0x506, 0x503, 0x107]) : d.sourceMay h i = true := by
  simp only [Dev.sourceMay, hq, List.contains_eq_mem, decide_eq_false ho, Bool.not_false]

/-- A refusal that the responder answers is all that the command does. -/
theorem SilekForm.exec_refuses {c : Instr} {h : SilekHdr} {i : CmdInfo} {body : State → State × Result} (f : SilekForm c h i body)
    {s : State} {e : Nat} {st : Status} (hi : i.Of c) (hq : h.requester = .fm e) (hr : s.dev.silek.releasing = none)
    (hc : s.dev.calm = true) (hd : s.dev.flag (Mbx.DOORBELL 64) = false)
    (ha : runSilek h i body s = .next (s.finalReply h i (min h.minor 3) st [])) : exec c s = .next (s.refuses h c st) := by
  rw [State.finalReply_refuses hi hq hr] at ha
  exact f.exec_still ha hc hd

/-! ### The statement -/

/-- Settles O50: every Silek command is one call of the responder (`silekForm_of_header`), whose checks come in the order of log
entry 17; each case is the first check that fails. -/
theorem refusals : Obligations.Refusals := by
  unfold Obligations.Refusals
  refine ⟨?mode, ?broadcast, ?epoch, ?major, ?minor, ?forbidden, ?padding, ?limit⟩
  case mode =>
    intro c h s hc hs hd hm
    obtain ⟨i, body, hf, -⟩ := silekForm_of_header hc
    exact hf.exec_still (runSilek_deaf hm h i body) hs hd
  case broadcast =>
    intro c h s hc hs hd hm hb ho
    obtain ⟨i, body, hf, hi⟩ := silekForm_of_header hc
    rw [← hi.1] at ho
    exact hf.exec_still (runSilek_broadcast hm hb ho body) hs hd
  case epoch =>
    intro c h s e hc hs hd hq hr hm hb he0 he
    obtain ⟨i, body, hf, hi⟩ := silekForm_of_header hc
    rw [← hi.1]
    exact hf.exec_still (runSilek_fm_epoch hq hr hm hb ⟨he0, he⟩) hs hd
  case major =>
    intro c h s e hc hs hd hq hr hm hb he ho hv
    obtain ⟨i, body, hf, hi⟩ := silekForm_of_header hc
    rw [← hi.1] at ho ⊢
    exact hf.exec_still (runSilek_fm_major hq hr hm hb he ho hv) hs hd
  case minor =>
    intro c h s e hc hs hd hq hr hm hb he hv hn ho
    obtain ⟨i, body, hf, hi⟩ := silekForm_of_header hc
    rw [← hi.1] at ho
    rw [← hi.2.1] at hn
    exact hf.exec_refuses hi hq hr hs hd (runSilek_fm_minor hq hr hm hb he ho hv hn)
  case forbidden =>
    intro c h s e hc hs hd hq hr hm hb he hv ho hn ht hw ha
    obtain ⟨i, body, hf, hi⟩ := silekForm_of_header hc
    rw [← hi.1] at ho ha
    rw [← hi.2.1] at hn
    refine hf.exec_refuses hi hq hr hs hd ?_
    rw [runSilek_fm_new hq hr hm hb he ho hv hn ht hw, if_pos ha, ite_self]
  case padding =>
    intro c h s e hc hs hd hq hr hm hb he hv ho hn ht hw ha hp
    obtain ⟨i, body, hf, hi⟩ := silekForm_of_header hc
    rw [← hi.1] at ho ha
    rw [← hi.2.1] at hn
    obtain ⟨hv1, hsrc⟩ := not_or.mp (mt List.mem_cons.mpr ho)
    refine hf.exec_refuses hi hq hr hs hd ?_
    rw [runSilek_fm_new hq hr hm hb he hv1 hv hn ht hw, if_neg (ne_false_of_eq_true (Dev.sourceMay_fm hq hsrc)),
      if_neg (ne_false_of_eq_true ha), if_pos hp]
  case limit =>
    intro c h s e hc hs hd hq hr hm hb he hv ho hn ht hw ha hp hl
    obtain ⟨i, body, hf, hi⟩ := silekForm_of_header hc
    rw [← hi.1] at ho ha
    rw [← hi.2.1] at hn
    obtain ⟨hv1, hsrc⟩ := not_or.mp (mt List.mem_cons.mpr ho)
    refine hf.exec_refuses hi hq hr hs hd ?_
    rw [runSilek_fm_new hq hr hm hb he hv1 hv hn ht hw, if_neg (ne_false_of_eq_true (Dev.sourceMay_fm hq hsrc)),
      if_neg (ne_false_of_eq_true ha), if_neg (ne_false_of_eq_true hp), if_pos hl]

end Sys2Proof.Machine
end

section
/-! SUPPORT. The commands that set the mode, configure and control ports, save the configuration and wait for writes, with the ends of
those that go on, and the statement on them (O11). -/
namespace Sys2Proof.Machine
open Sys2Proof

/-! ### The mode -/

theorem exec_modeSet (h : SilekHdr) (expected target role : Nat) (s : State) :
    exec (.modeSet h expected target role) s = runSettled h (.of 0xa01 0 (.modeSet h.key expected target role))
      (devBody fun t d => d.modeSet t expected target role) s := rfl
theorem exec_modeQuery (h : SilekHdr) (s : State) :
    exec (.modeQuery h) s =
      runSilek h (.of 0xa02 0 (.modeQuery h.key)) (queryBody fun s => .final .ok (leBytes 4 s.dev.modeStatus)) s := rfl

/-- From OM3 a role that the command names starts, in the mode of that role (R34). -/
theorem Dev.modeSet_role {d : Dev} {role : Nat} (hr : role ≤ 3) (hb : d.flag Glob.TRANSITION_BUSY = false) (hm : d.mode = 3) (t : Nat) :
    d.modeSet t 3 (role + 4) role = d.startRole t (role + 4) false := by
  have ht : ¬ (11 < role + 4 ∨ (3 < role ∧ role ≠ 0xff)) := by omega
  have hf : role ≠ 0xff := by omega
  have hw : 4 ≤ role + 4 ∧ role + 4 ≤ 7 := by omega
  simp only [Dev.modeSet, if_neg ht, hb, hm, if_neg hf, hw, ne_eq, not_true, Bool.false_eq_true, if_false, if_true, and_self]

/-- A device alone enters OM4 at once. -/
theorem Dev.startRole_alone (d : Dev) (t : Nat) : d.startRole t 4 false = (d.enterMode t 4 1, .final .ok []) := rfl

/-- A worker that has a chain address asks the primary to join, and the command goes on (R399). -/
theorem Dev.startRole_worker {d : Dev} (hc : d.chainAddr ≠ 0) (t : Nat) :
    d.startRole t 7 false = ((({ d with memb := { d.memb with rejoining := true, joinRole := 7, autostart := false } } : Dev).raise1
      Glob.TRANSITION_BUSY).sendJoin t 7, .run (.modeSet 7)) := if_neg hc

/-- OM10 is left for OM3 once no firmware update runs (R34). -/
theorem Dev.modeSet_leaveService {d : Dev} {role : Nat} (hr : role ≤ 3) (hb : d.flag Glob.TRANSITION_BUSY = false) (hm : d.mode = 10)
    (hu : d.sc.update = none) (hp : d.sc.pldmStep = 0) (t : Nat) : d.modeSet t 10 3 role = (d.enterMode t 3 1, .final .ok []) := by
  have hn : ¬ 3 < role := Nat.not_lt.mpr hr
  simp [Dev.modeSet, hn, hb, hm, hu, hp]

/-! ### Port configuration -/

theorem exec_portConfig (h : SilekHdr) (bitmap : Nat) (cfgs : List GroupConfig) (s : State) :
    exec (.portConfig h bitmap cfgs) s =
      runSettled h (.of 0xa10 0 (.portConfig h.key bitmap cfgs)) (devBody fun t d => d.portConfig t bitmap cfgs) s := rfl

/-- Bit 0 alone names group 0. -/
theorem groupsOf_one : groupsOf 1 = [0] := by decide

/-- Each field of a group's configuration has a value that R431 lists. -/
def GroupConfig.InRange (c : GroupConfig) : Prop := c.bifurcation ≤ 4 ∧ c.personality ≤ 3 ∧ c.maxRate ≤ 15 ∧ c.sris ≤ 1

/-- A change of group 0 that is in range, legal and within the limits is applied; a group with a personality waits for its power (R47,
R431). -/
theorem Dev.portConfig_group0 {d : Dev} {c : GroupConfig} (hm : d.mode = 3) (hc : GroupConfig.InRange c)
    (hg : gangsOk (d.groupsAfter [(0, c)]) = true) (hu : (List.range 4).any (fun k => d.portInUse (4 * 0 + k)) = false)
    (hl : limitsOk (d.groupsAfter [(0, c)]) = true) (hp : c.personality ≠ 0) (t : Nat) :
    d.portConfig t 1 [c] = (d.changeGroup t 0 c, .run (.portConfig [0])) := by
  obtain ⟨h1, h2, h3, h4⟩ := hc
  have hbad : ¬ (2 ^ 16 ≤ 1 ∨ [c].length ≠ [0].length ∨ [c].any (fun c => decide (4 < c.bifurcation) || decide (3 < c.personality) ||
      decide (15 < c.maxRate) || decide (1 < c.sris)) = true ∨ ¬ gangsOk (d.groupsAfter [(0, c)]) = true) := by
    simp [h1, h2, h3, h4, hg]
  have huse : ¬ [0].any (fun g => (List.range 4).any (fun k => d.portInUse (4 * g + k))) = true := by
    simp only [List.any_cons, hu, List.any_nil, Bool.or_self, Bool.false_eq_true, not_false_eq_true]
  have hwait : (([(0, c)] : List (Nat × GroupConfig)).filter (fun x => decide (x.2.personality ≠ 0))).map (·.1) = [0] := by simp [hp]
  simp only [Dev.portConfig, groupsOf_one, List.zip_cons_cons, List.zip_nil_right, hm, if_neg hbad, if_neg huse, hl, hwait,
    List.foldl_cons, List.foldl_nil, ne_eq, not_true, false_and, if_false, reduceCtorEq]

/-- The power of a configured group is on: a PORT_CONFIG whose groups all have theirs replies (R47). -/
theorem exec_groupPowered_configured {s : State} {group : Fin 16} (hm : 2 ≤ s.dev.mode) (hp : s.dev.rd (Pg.PERSONALITY group) ≠ 0) :
    exec (.groupPowered group) s = .next (s.settledFrom (s.withDev ((s.dev.raise1 (Pg.POWERED group)).finish s.time.now
      (s.dev.raise1 (Pg.POWERED group)).groupsReady .ok []))) := by
  refine congrArg (fun d => Host.Outcome.next (s.settledFrom (s.withDev d))) ?_
  exact if_neg (not_or.mpr ⟨Nat.not_lt.mpr hm, hp⟩)

/-! ### Port control -/

/-- PORT_CONTROL on the device (R431). -/
def Dev.portControl (t port action : Nat) (padOk : Bool) (d : Dev) : Dev × Result :=
  if ¬ padOk ∨ 63 < port ∨ 3 < action ∨ ¬ d.present port then (d, .err .badParam)
  else if d.personality port = 3 then (d.qflControl t port action, .final .ok [])
  else
    let d := d.cxlControl t port action
    if (action = 0 ∨ action = 3) ∧ d.flag (Pg.RECLAIM_BUSY port) then (d, .run (.portControl port)) else (d, .final .ok [])

theorem exec_portControl (h : SilekHdr) (port action : Nat) (s : State) :
    exec (.portControl h port action) s = runSettled h (.of 0xa11 0 (.portControl h.key port action))
      (devBody fun t d => d.portControl t port action h.padOk) s := rfl

/-- Disabling a CXL port removes it; the command goes on while the Churn reclaims what lay behind it (R23). -/
theorem Dev.portControl_disable {d f g : Dev} {t port : Nat} (hf : f = d.removePort t port)
    (hg : g = f.setPort port { f.port port with disabled := true }) (hp : port ≤ 63) (he : d.present port = true)
    (hc : d.personality port ≠ 3) :
    d.portControl t port 0 true =
      (g, if g.flag (Pg.RECLAIM_BUSY port) = true then .run (.portControl port) else .final .ok []) := by
  have hok : ¬ (¬ true = true ∨ 63 < port ∨ 3 < 0 ∨ ¬ d.present port = true) := by simp [he, hp]
  have hx : d.cxlControl t port 0 = g := by rw [hg, hf]; rfl
  unfold Dev.portControl
  rw [if_neg hok, if_neg hc, hx]
  simp only [true_or, true_and, apply_ite (Prod.mk g)]

/-- On a QFL port the command acts on its link and replies at once. -/
theorem Dev.portControl_qfl {d : Dev} {port action : Nat} (hp : port ≤ 63) (ha : action ≤ 3) (he : d.present port = true)
    (hc : d.personality port = 3) (t : Nat) : d.portControl t port action true = (d.qflControl t port action, .final .ok []) := by
  have hok : ¬ (¬ true = true ∨ 63 < port ∨ 3 < action ∨ ¬ d.present port = true) := by simp [he, hp, ha]
  unfold Dev.portControl
  rw [if_neg hok, if_pos hc]

/-! ### The configuration in flash -/

/-- CONFIG_SAVE on the device (R431). -/
def Dev.configSave (mode : Nat) (padOk : Bool) (d : Dev) : Dev × Result :=
  if ¬ padOk ∨ ¬ ((4 ≤ mode ∧ mode ≤ 7) ∨ mode = 0xff) then (d, .err .badParam)
  else if d.sc.update.isSome ∨ (1 ≤ d.sc.pldmStep ∧ d.sc.pldmStep ≤ 3) then (d, .err .busy)
  else ({ d with flashNext := some (d.saved mode) }, .run .configSave)

theorem exec_configSave (h : SilekHdr) (mode : Nat) (s : State) :
    exec (.configSave h mode) s =
      runSilek h (.of 0xa31 0 (.configSave h.key mode)) (devBody fun _ d => d.configSave mode h.padOk) s := rfl

/-- A save without an autostart mode starts the write of the flash, while no firmware update runs. -/
theorem Dev.configSave_starts {d : Dev} (hu : d.sc.update = none) (hp : d.sc.pldmStep = 0) :
    d.configSave 255 true = ({ d with flashNext := some (d.saved 255) }, .run .configSave) := by
  simp [Dev.configSave, hu, hp]

/-- The programmed configuration is the flash's, and the CONFIG_SAVE replies. -/
theorem exec_flashProgramDone_writes {s : State} {x : FlashConfig} (hx : s.dev.flashNext = some x) :
    exec .flashProgramDone s = .next (s.withDev (({ s.dev with flash := x, flashNext := none } : Dev).finish s.time.now
      (fun w => decide (w = .configSave)) .ok [])) := by
  refine congrArg (fun d => Host.Outcome.next (s.withDev d)) ?_
  simp only [hx]

/-! ### Barriers -/

/-- A barrier over the whole device that covers no write replies at once (R279). -/
theorem Dev.barrier_uncovered {d : Dev} (hb : d.buf.barriers = []) (hc : d.covered 3 0 = []) (t : Nat) :
    d.barrier t 3 0 = (d, .final .ok ({ scope := 3, id := 0, left := [], covered := 0 } : Barrier).payload) := by
  simp [Dev.barrier, hb, hc]

/-! ### The statement -/

/-- Settles O11: the responder takes the command up (`runSettled_dev`, `runSilek_dev` and their like), and its body is the device's own
operation at the case that the hypotheses single out. -/
theorem modeCommands : Obligations.ModeCommands := by
  unfold Obligations.ModeCommands
  refine ⟨?alone, ?worker, ?leave, ?query, ?config, ?powered, ?disable, ?disableBusy, ?qfl, ?save, ?saved, ?barrier⟩
  case alone =>
    rintro h _ _ _ s d i rfl rfl ha hm rfl rfl rfl hb
    rw [exec_modeSet]
    exact runSettled_dev ha ((Dev.modeSet_role (by decide) hb hm _).trans (Dev.startRole_alone _ _))
  case worker =>
    rintro h _ _ _ s d i rfl rfl ha hm rfl rfl rfl hb hc
    rw [exec_modeSet]
    exact runSettled_devRun ha ((Dev.modeSet_role (by decide) hb hm _).trans (Dev.startRole_worker hc _))
  case leave =>
    rintro h _ _ role s d i rfl rfl ha hm rfl rfl hr hb hu hp
    rw [exec_modeSet]
    exact runSettled_dev ha (Dev.modeSet_leaveService hr hb hm hu hp _)
  case query =>
    rintro h s d i rfl rfl ha
    rw [exec_modeQuery]
    exact runSilek_query ha rfl
  case config =>
    rintro h _ _ c s d i rfl rfl ha hm rfl rfl h1 h2 h3 h4 hg hu hl hp
    rw [exec_portConfig]
    exact runSettled_devRun ha (Dev.portConfig_group0 hm ⟨h1, h2, h3, h4⟩ hg hu hl hp _)
  case powered =>
    rintro group s d rfl hm hp
    exact exec_groupPowered_configured hm hp
  case disable =>
    rintro h port _ s d i f g rfl rfl ha hf hg hp rfl he hc hb
    rw [exec_portControl, State.padOk_of_admits ha]
    exact runSettled_dev ha ((Dev.portControl_disable hf hg hp he hc).trans (by rw [hb]; rfl))
  case disableBusy =>
    rintro h port _ s d i f g rfl rfl ha hf hg hp rfl he hc hb
    rw [exec_portControl, State.padOk_of_admits ha]
    exact runSettled_devRun ha ((Dev.portControl_disable hf hg hp he hc).trans (by rw [hb]; rfl))
  case qfl =>
    rintro h port action s d i rfl rfl ha hp hact he hc
    rw [exec_portControl, State.padOk_of_admits ha]
    exact runSettled_dev ha (Dev.portControl_qfl hp hact he hc _)
  case save =>
    rintro h _ s d i rfl rfl ha rfl hu hp
    rw [exec_configSave, State.padOk_of_admits ha]
    exact runSilek_devRun ha (Dev.configSave_starts hu hp)
  case saved =>
    rintro x s d rfl hx
    exact exec_flashProgramDone_writes hx
  case barrier =>
    rintro h _ _ s d i rfl rfl ha rfl rfl hb hc
    exact runSilek_dev ha (Dev.barrier_uncovered hb hc _)

end Sys2Proof.Machine
end

section
/-! SUPPORT. The rows of the speed window, the voltage loop, the regulator's retry and the measurement, and the statement on the core
supply (O14). -/
namespace Sys2Proof.Machine
open Sys2Proof

/-! ### Plain facts -/

/-- A count that fits its width is kept. -/
theorem saturate_of_lt {w n : Nat} (h : n < 2 ^ w) : saturate w n = n := if_pos h

/-- The slowest of one tile is that tile. -/
theorem slowest_one {c : Nat} (h : 0 < c) : slowest [c] 0 (0, 0) = (c, 0) := by simp [slowest, h]

/-- A core that is slower than its target and below its maximum is to have one step of 5 mV more (R495). -/
theorem Dev.avsTarget_slow {d : Dev} (hs : d.rd Glob.SPEED_TARGET < d.rd Glob.SPEED_INDEX)
    (hv : d.rd Glob.VCORE_SET < 5 * d.rd Glob.VCORE_MAX) : d.avsTarget = d.rd Glob.VCORE_SET + 5 := if_pos ⟨hs, hv⟩

/-! ### The rows -/

/-- A window of one tile whose count passes neither record nor the limit sets SPEED_INDEX and SLOW_TILE (R27). -/
theorem exec_speedWindow_inside {s : State} {c : Nat} {e : Dev} (he : e = (s.dev.wr Glob.SPEED_INDEX c).wr Glob.SLOW_TILE 0)
    (hm : s.dev.mode ≠ 0) (h0 : 0 < c) (hc : c ≤ 1250) (hf : e.rd Glob.SPEED_FASTEST ≤ c) (hs : c ≤ e.rd Glob.SPEED_SLOWEST) :
    exec (.speedWindow [c]) s = .next (s.withDev (e.threshold 3 1 false)) := by
  have hw : saturate 16 c = c := saturate_of_lt (by omega)
  have hl : ¬ 1250 < c := Nat.not_lt.mpr hc
  refine congrArg (fun d => Host.Outcome.next (s.withDev d)) ?_
  simp only [hm, slowest_one h0, hw, ← he, Nat.not_lt.mpr hf, Nat.not_lt.mpr hs, hl, decide_false, false_or, false_and, if_false,
    reduceCtorEq]

/-- A step of the voltage loop that raises the voltage and reaches the regulator (R495). -/
theorem exec_avsStep_raises {s : State} (hm : s.dev.mode ≠ 0) (hb : s.dev.rst.booting = false) (hp : s.dev.thermal.pmbus = 0)
    (ha : s.dev.flag Glob.AVS_EN = true) (hs : s.dev.rd Glob.SPEED_TARGET < s.dev.rd Glob.SPEED_INDEX)
    (hv : s.dev.rd Glob.VCORE_SET < 5 * s.dev.rd Glob.VCORE_MAX) :
    exec (.avsStep true) s = .next (s.withDev (
      let f := s.dev.wr Glob.VCORE_SET (s.dev.rd Glob.VCORE_SET + 5)
      (f.wrFlag Glob.AT_MAX (decide (f.rd Glob.SPEED_TARGET < f.rd Glob.SPEED_INDEX) &&
        decide (s.dev.rd Glob.VCORE_SET + 5 = 5 * f.rd Glob.VCORE_MAX))).voutCommand)) := by
  refine congrArg (fun d => Host.Outcome.next (s.withDev d)) ?_
  have hn : s.dev.rd Glob.VCORE_SET + 5 ≠ s.dev.rd Glob.VCORE_SET := by omega
  simp only [hm, hb, hp, ha, Dev.avsTarget_slow hs hv, decide_eq_true hn, false_or, Bool.false_eq_true, ne_eq, not_true, if_false, if_true]

/-- A repeated command that reaches the regulator ends its retries (R496). -/
theorem exec_pmbusRetry_ok {s : State} (hm : s.dev.mode ≠ 0) (hp : s.dev.thermal.pmbus = 1) :
    exec (.pmbusRetry true) s =
      .next (s.withDev { s.dev.voutCommand with thermal := { s.dev.voutCommand.thermal with pmbus := 0 } }) := by
  refine congrArg (fun d => Host.Outcome.next (s.withDev d)) ?_
  simp only [hm, hp, ne_eq, not_true, or_self, if_false, if_true]

/-- A measurement within 700 mV to 900 mV lies beyond no threshold (R494, R537). -/
theorem exec_vcoreMeasure_inside {s : State} {mv : Nat} (hm : s.dev.mode ≠ 0) (hl : 700 ≤ mv) (hh : mv ≤ 900) :
    exec (.vcoreMeasure mv) s =
      .next (s.withDev (((s.dev.wr Glob.VCORE_MEASURED mv).threshold 2 3 false).threshold 2 1 false)) := by
  have hw : saturate 10 mv = mv := saturate_of_lt (by omega)
  refine congrArg (fun d => Host.Outcome.next (s.withDev d)) ?_
  simp only [hm, hw, decide_eq_false (Nat.not_lt.mpr hl), decide_eq_false (Nat.not_lt.mpr hh), if_false]

/-! ### The statement -/

/-- Settles O14: each row at the case that its hypotheses single out. -/
theorem coreSupply : Obligations.CoreSupply := by
  unfold Obligations.CoreSupply
  refine ⟨?window, ?loop, ?retry, ?measure⟩
  case window =>
    rintro cycles c s d rfl hm rfl h0 hc hf hs
    exact exec_speedWindow_inside rfl hm h0 hc hf hs
  case loop =>
    rintro ok s d f rfl rfl rfl hm hb hp ha hs hv
    exact exec_avsStep_raises hm hb hp ha hs hv
  case retry =>
    rintro ok s d rfl rfl hm hp
    exact exec_pmbusRetry_ok hm hp
  case measure =>
    rintro mv s d rfl hm hl hh
    exact exec_vcoreMeasure_inside hm hl hh

end Sys2Proof.Machine
end

section
/-! SUPPORT. Stage 1 of a host port admits a request of a configured VI, what each request becomes behind it, and the statement on
requests (O23). -/
namespace Sys2Proof.Machine
open Sys2Proof

/-! ### Admission -/

/-- At a live port whose VI is configured and need not wait, a request uses a credit and passes stage 1 (R71, R332, R343). -/
theorem Dev.arrive_admitted {t p vi : Nat} {c : Instr} {d f : Dev}
    (hf : f = { d with edge := { d.edge with credits := Tab.put d.edge.credits p (Tab.getD d.edge.credits p 0 - 1) 0 } })
    (hs : f.flaws = []) (hh : f.isHostPort p = true) (hl : f.linkUp p = true) (hi : f.rd (Pg.IDE_STATE p) ≠ 3)
    (hv : f.trafficVi p = some vi) (hc : f.rd (Vi.STATE vi) ≠ 0) (hm : f.mustHold p vi c d.stopped = false) :
    d.arrive t p c = f.hostRequest t p vi c := by
  have ha : d.arrive t p c = f.takeIn t p c d.stopped := by rw [hf]; rfl
  simp [ha, Dev.takeIn, hh, hl, hi, hs, hv, hc, hm, Dev.admitRequest_of_sound hs]

/-- A row that brings such a request answers with what the request becomes. -/
theorem exec_admitted {p vi : Nat} {c : Instr} {s : State} {f : Dev}
    (hx : exec c s = .next (s.settledFrom (s.withDev (s.dev.arrive s.time.now p c))))
    (hf : f = { s.dev with edge :=
      { s.dev.edge with credits := Tab.put s.dev.edge.credits p (Tab.getD s.dev.edge.credits p 0 - 1) 0 } })
    (hs : f.flaws = []) (hh : f.isHostPort p = true) (hl : f.linkUp p = true) (hi : f.rd (Pg.IDE_STATE p) ≠ 3)
    (hv : f.trafficVi p = some vi) (hc : f.rd (Vi.STATE vi) ≠ 0) (hm : f.mustHold p vi c s.dev.stopped = false) :
    exec c s = .next (s.settledFrom (s.withDev (f.hostRequest s.time.now p vi c))) := by
  rw [hx, Dev.arrive_admitted hf hs hh hl hi hv hc hm]

/-! ### What an admitted request becomes -/

/-- An address that a sound decoder finds leaves stage 2 decoded, counted once. -/
theorem Dev.stage2_decodes {d : Dev} {t vi access master hpa : Nat} {x : Nat × Nat} (hs : d.flaws = [])
    (hx : (d.mon t 54 0x601 master hpa).decode vi hpa = some x) :
    d.stage2 t vi access master hpa true = (d.mon t 54 0x601 master hpa, some x) := by
  have hw := Dev.addersWrong_of_sound (d := d.mon t 54 0x601 master hpa) (by rw [Dev.mon_flaws, hs]) vi hpa
  simp only [Dev.stage2, if_true, hx, hw]

/-- A speculative read is decoded and checked by the Gate, and goes no further (R203). -/
theorem Dev.hostRequest_memspecrd {d : Dev} {t p vi hpa fa kind : Nat} (q : Fin 64) (hs : d.flaws = []) (hv : d.serves = true)
    (hx : (d.mon t 54 0x601 (d.portMaster p vi) hpa).decode vi hpa = some (fa, kind)) :
    d.hostRequest t p vi (.memspecrd q hpa) = ((d.mon t 54 0x601 (d.portMaster p vi) hpa).gateCheck t
      { space := 0, vi := 0, master := (d.mon t 54 0x601 (d.portMaster p vi) hpa).portMaster p vi, addr := fa } 1 7).1 := by
  simp only [Dev.hostRequest, hv, Dev.stage2_decodes hs hx]

/-- A read through the atomic window is a CXL.io read of its host address (R323). -/
theorem Dev.hostRequest_mrd {d : Dev} {p vi addr x : Nat} (hx : d.ioAddr p vi addr = some x) (t : Nat) (q : Fin 64) (tag len : Nat) :
    d.hostRequest t p vi (.mrd q tag addr len) = d.ioRequest t p vi tag x len 0 [] false none := by
  simp only [Dev.hostRequest, hx]

/-- A write through the atomic window is a CXL.io write of its host address (R323). -/
theorem Dev.hostRequest_mwr {d : Dev} {p vi addr x : Nat} (hx : d.ioAddr p vi addr = some x) (t : Nat) (q : Fin 64) (data : List Byte)
    (relaxed poison : Bool) :
    d.hostRequest t p vi (.mwr q addr data relaxed poison) = d.ioRequest t p vi 0 x data.length 1 data poison none := by
  simp only [Dev.hostRequest, hx]

/-- An aligned FetchAdd of 8 bytes through the atomic window of a host port is one atomic access (R323). -/
theorem Dev.hostRequest_fetchAdd {d : Dev} {p vi addr x : Nat} (hp : d.personality p = 1) (hx : d.ioAddr p vi addr = some x)
    (ha : x % 8 = 0) (t : Nat) (q : Fin 64) (tag a b : Nat) :
    d.hostRequest t p vi (.atomicop q tag addr 1 8 a b) = d.ioRequest t p vi tag x 8 2 [] false (some { op := 1, a, b }) := by
  simp [Dev.hostRequest, hp, hx, ha]

/-! ### The statement -/

/-- Settles O23: the port admits the request (`exec_admitted`), and `Dev.hostRequest` makes of it what its row says. -/
theorem hostRequests : Obligations.HostRequests := by
  unfold Obligations.HostRequests
  refine ⟨?memrd, ?meminv, ?memclnevct, ?memwr, ?memspecrd, ?mrd, ?mwr, ?atomic⟩
  case memrd =>
    rintro port tag hpa keep vi s d f rfl hf hs hh hl hi hv hc hm
    exact exec_admitted rfl hf hs hh hl hi hv hc hm
  case meminv =>
    rintro port tag hpa keep vi s d f rfl hf hs hh hl hi hv hc hm
    exact exec_admitted rfl hf hs hh hl hi hv hc hm
  case memclnevct =>
    rintro port tag hpa vi s d f rfl hf hs hh hl hi hv hc hm
    exact exec_admitted rfl hf hs hh hl hi hv hc hm
  case memwr =>
    rintro port tag hpa keep be data poison vi s d f rfl hf hs hh hl hi hv hc hm
    exact exec_admitted rfl hf hs hh hl hi hv hc hm
  case memspecrd =>
    rintro port hpa vi fa kind s d f rfl hf hs hh hl hi hv hc hm hserve hx
    rw [exec_admitted rfl hf hs hh hl hi hv hc hm, Dev.hostRequest_memspecrd port hs hserve hx]
  case mrd =>
    rintro port tag addr len vi x s d f rfl hf hs hh hl hi hv hc hm hx
    rw [exec_admitted rfl hf hs hh hl hi hv hc hm, Dev.hostRequest_mrd hx]
  case mwr =>
    rintro port addr data relaxed poison vi x s d f rfl hf hs hh hl hi hv hc hm hx
    rw [exec_admitted rfl hf hs hh hl hi hv hc hm, Dev.hostRequest_mwr hx]
  case atomic =>
    rintro port tag addr op size a b vi x s d f rfl hf hs hh hl hi hv hc hm rfl rfl hp hx ha
    rw [exec_admitted rfl hf hs hh hl hi hv hc hm, Dev.hostRequest_fetchAdd hp hx ha]

end Sys2Proof.Machine
end

section
/-! SUPPORT. What a retry, a turn of a ticket, a wait for a way, a bucket read and the ends of zeroing and of reclaims do at the Churn, and
the statement on its events (O25). -/
namespace Sys2Proof.Machine
open Sys2Proof

/-! ### The rows act on the device and settle -/

theorem exec_nakRetry (id : Nat) (s : State) :
    exec (.nakRetry id) s = .next (s.settledFrom (s.withDev (s.dev.nakRetry s.time.now id))) := rfl
theorem exec_ticketAdmission (slice : Fin 32) (number : Fin 256) (s : State) :
    exec (.ticketAdmission slice number) s = .next (s.settledFrom (s.withDev (s.dev.ticketTurn s.time.now slice number))) := rfl
theorem exec_ticketExpiry (slice : Fin 32) (number : Fin 256) (s : State) :
    exec (.ticketExpiry slice number) s = .next (s.settledFrom (s.withDev (s.dev.ticketExpiry slice number))) := rfl
theorem exec_churnWayWait (slice : Fin 32) (id : Fin 512) (s : State) :
    exec (.churnWayWait slice id) s = .next (s.settledFrom (s.withDev (s.dev.wayWait s.time.now slice id))) := rfl
theorem exec_tier2BucketReadDone (slice : Fin 32) (id : Fin 512) (bad : Bool) (s : State) :
    exec (.tier2BucketReadDone slice id bad) s =
      .next (s.settledFrom (s.withDev (s.dev.bucketRead s.time.now slice id bad))) := rfl
theorem exec_reclaimDone (slot : Fin 64) (s : State) :
    exec (.reclaimDone slot) s = .next (s.settledFrom (s.withDev (s.dev.reclaimDone s.time.now slot))) := rfl
theorem exec_devicePortReclaimDone (port : Fin 64) (s : State) :
    exec (.devicePortReclaimDone port) s = .next (s.settledFrom (s.withDev (s.dev.portReclaimDone s.time.now port))) := rfl

/-! ### Retries and tickets -/

/-- A NAKed access of a host goes out again as a new launch: it passes stages 2 and 3 again (R22). -/
theorem Dev.nakRetry_mem {t id p g : Nat} {r : Retry} {d : Dev} (hr : d.chn.retries.find? (fun x => decide (x.acc.id = id)) = some r)
    (ho : r.acc.origin = .mem p g) (ht : d.chn.trackers = []) :
    d.nakRetry t id = ({ d with chn := { d.chn with retries := d.chn.retries.erase r } } : Dev).later (.launch r.acc) := by
  simp only [Dev.nakRetry, hr, ho, Dev.proxyOf, ht, List.find?_nil]

/-- A ticket whose access waits is admitted once nothing blocks it (R213). -/
theorem Dev.ticketTurn_admits {t slice number : Nat} {k : Ticket} {a : Access} {d : Dev}
    (hk : d.chn.tickets.find? (fun x => decide (x.slice = slice ∧ x.number = number)) = some k) (ha : k.waiting = some a)
    (hb : d.blocked slice a (some k) = 0) :
    d.ticketTurn t slice number =
      ({ d with chn := { d.chn with tickets := d.chn.tickets.map (fun x => if x = k then { k with waiting := none } else x) } } :
        Dev).sliceAdmit t a := by
  simp only [Dev.ticketTurn, hk, ha, hb, if_true]

/-- A ticket that was never presented expires (R213). -/
theorem Dev.ticketExpiry_unused {slice number : Nat} {k : Ticket} {d : Dev}
    (hk : d.chn.tickets.find? (fun x => decide (x.slice = slice ∧ x.number = number)) = some k) (hw : k.waiting = none)
    (ht : d.chn.trackers = []) : d.ticketExpiry slice number = (d.releaseTicket k).inc (ChurnR.TICKETS_EXPIRED slice) := by
  simp only [Dev.ticketExpiry, hk, hw, ht, Option.isSome_none, List.any_nil, Bool.or_self, Bool.false_eq_true, if_false]

/-! ### Ways and buckets -/

/-- Where no request of the Churn waits, a free tracker starts nothing. -/
theorem Dev.startWork_idle {t slice : Nat} {d : Dev} (hw : d.chn.waiting = []) : d.startWork t slice = d := by
  simp only [Dev.startWork, hw, List.filter_nil, List.foldl_nil]

/-- A tracker of the Churn's own that waits for a way takes one (R218). -/
theorem Dev.wayWait_takes {t slice id : Nat} {tr : Tracker} {d : Dev} (hw : d.chn.waiting = []) (ht : d.tracker slice id = some tr)
    (hp : tr.phase = .evict) (hy : tr.wayFor = none) (hv : tr.victim = none) (hc : tr.acc.isChurn = true) :
    d.wayWait t slice id = d.takeWay t tr := by
  simp only [Dev.wayWait, Dev.startWork_idle hw, ht]
  exact if_pos ⟨hp, hy, hv, hc⟩

/-- A good bucket without the line ends the look-up with no entry (R217). -/
theorem Dev.bucketRead_misses {t slice id : Nat} {tr : Tracker} {d : Dev} (ht : d.tracker slice id = some tr) (hp : tr.phase = .tier2)
    (hb : d.findBucket tr.la = none) : d.bucketRead t slice id false = d.looked t { tr with phase := .lookup } := by
  simp only [Dev.bucketRead, ht, hp, hb, if_true, Bool.false_eq_true, if_false]

/-! ### Ends of zeroing and of reclaims -/

/-- Zeroing that is done makes tier 2 active and moves the lines that wait for it (R197). -/
theorem exec_tier2ZeroingDone_enabled {s : State} (hz : s.dev.chn.zeroing = true) (he : s.dev.flag ChurnR.TIER2_EN = true) :
    exec .tier2ZeroingDone s = .next (s.settledFrom (s.withDev
      ((({ s.dev with chn := { s.dev.chn with zeroing := false, tier2 := [] } } : Dev).raise1 ChurnR.TIER2_ACTIVE).sinkWaiting
        s.time.now none))) := by
  refine congrArg (fun d => Host.Outcome.next (s.settledFrom (s.withDev d))) ?_
  exact if_pos ⟨hz, he⟩

/-- A slot that stands for nobody leaves DEAD_SLOTS with its record alone (R234). -/
theorem Dev.slotReclaimed_unused {t : Nat} {r : Reclaim} {d g : Dev}
    (hg : g = ({ d.markDead r.slot false with chn := { (d.markDead r.slot false).chn with
      reclaims := (d.markDead r.slot false).chn.reclaims.filter (fun x => decide (x.slot ≠ r.slot)) } } : Dev).raise1
        ChurnR.RECLAIM_DONE_EVT)
    (hu : g.sharer r.slot = {}) :
    d.slotReclaimed t r = (g.finishDeaths t).post t 4 (r.slot + 2 ^ 32 * r.entries + 2 ^ 64 * r.lost) := by
  simp only [Dev.slotReclaimed, ← hg, hu, Bool.false_eq_true, false_and, if_false]

/-- The only slot of the running scan, with nothing left of it, ends its reclaim, and the next scan starts (R234, R235). -/
theorem Dev.reclaimDone_last {t slot : Nat} {r : Reclaim} {d f x y : Dev}
    (hf : f = (List.range 32).foldl (fun (x : Dev) c => x.startWork t c) d) (hx : x = f.slotReclaimed t r)
    (hy : y = { x with chn := { x.chn with reclaims := x.chn.reclaims.map (fun (z : Reclaim) => { z with scanned := true }) } })
    (hd : d.chn.reclaims = [r]) (hs : r.slot = slot) (hc : r.scanned = true) (hr : f.chn.reclaims = [r])
    (hn : f.slotScanned slot = true) (hp : f.poisonPending = false) (hm : f.chn.mirrorWaits = []) :
    d.reclaimDone t slot = (y.wrFlag ChurnR.RECLAIM_SCAN (!y.chn.reclaims.isEmpty)).startScan t := by
  have hscan : f.chn.reclaims.filter (·.scanned) = [r] := by simp [hr, hc]
  have hrun : ¬ ¬ d.chn.reclaims.any (fun z => decide (z.slot = slot) && z.scanned) = true := by simp [hd, hs, hc]
  have hwait : ¬ ([r].any (fun z => !f.slotScanned z.slot) = true ∨ f.poisonPending = true ∨ ¬ f.chn.mirrorWaits.isEmpty = true) := by
    simp [hs, hn, hp, hm]
  simp only [Dev.reclaimDone, if_neg hrun, ← hf, hscan, if_neg hwait, List.foldl_cons, List.foldl_nil, ← hx]
  rw [hy]

/-- Without extents no line lies behind a port: its reclaim is over at once, and what waited for it goes on (R238). -/
theorem Dev.portReclaimDone_empty {t p : Nat} {d : Dev} (hp : d.chn.portReclaims = [{ port := p }]) (he : d.extents = [])
    (hr : d.portReclaim t p = d) :
    d.portReclaimDone t p =
      ((({ d with chn := { d.chn with portReclaims := [] } } : Dev).portReclaimed t p).later .recheck) := by
  simp [Dev.portReclaimDone, hp, hr, Dev.extentsBehind, he]

/-! ### The statement -/

/-- Settles O25: each row acts on the device and settles, and the case that its hypotheses single out is what the device does. -/
theorem churnEvents : Obligations.ChurnEvents := by
  unfold Obligations.ChurnEvents
  refine ⟨?retry, ?admission, ?expiry, ?way, ?bucket, ?zeroing, ?reclaim, ?port⟩
  case retry =>
    rintro id r p g s d rfl hr ho ht
    rw [exec_nakRetry, Dev.nakRetry_mem hr ho ht]
  case admission =>
    rintro slice number k a s d rfl hk ha hb
    rw [exec_ticketAdmission, Dev.ticketTurn_admits hk ha hb]
  case expiry =>
    rintro slice number k s d rfl hk hw ht
    rw [exec_ticketExpiry, Dev.ticketExpiry_unused hk hw ht]
  case way =>
    rintro slice id tr s d rfl hw ht hp hy hv hc
    rw [exec_churnWayWait, Dev.wayWait_takes hw ht hp hy hv hc]
  case bucket =>
    rintro slice id bad tr s d rfl rfl ht hp hb
    rw [exec_tier2BucketReadDone, Dev.bucketRead_misses ht hp hb]
  case zeroing =>
    rintro s d rfl hz he
    exact exec_tier2ZeroingDone_enabled hz he
  case reclaim =>
    rintro slot r s d f g x y rfl hf hg hx hy hd hs hc hr hn hp hm hu
    rw [← hs] at hg hx hu
    rw [← Dev.slotReclaimed_unused hg hu] at hx
    rw [exec_reclaimDone, Dev.reclaimDone_last hf hx hy hd hs hc hr hn hp hm]
  case port =>
    rintro port s d rfl hp he hr
    rw [exec_devicePortReclaimDone, Dev.portReclaimDone_empty hp he hr]

end Sys2Proof.Machine
end

section
/-! SUPPORT. What a step does on an empty queue, case by case, and the statement on it (O45). -/
namespace Sys2Proof.Machine
open Sys2Proof

/-! ### The branches of an idle step -/

/-- A step on an empty queue is an idle step. -/
theorem step_empty {s : State} (h : s.pending = []) : step s = idle s := by simp only [step, h]

/-- A held command that may start comes first, and is no longer held once it has started (R422). -/
theorem idle_starts {s t : State} {x : HeldCommand} (hx : s.dev.nextHeld = some x) (ht : exec x.cmd (s.release x) = .next t) :
    idle s = .next t.released := by
  simp only [idle, hx, State.startHeld, ht]

/-- With no command to start, a mailbox whose DOORBELL may now be taken submits its message. -/
theorem idle_rings {s : State} {mb : Nat} (hx : s.dev.nextHeld = none) (hr : s.dev.ringNext = some mb) : idle s = s.submit mb := by
  simp only [idle, hx, hr]

/-- With neither, the oldest held doorbell of a port goes on (R267). -/
theorem idle_goesOn {s : State} {p : Nat} (hx : s.dev.nextHeld = none) (hr : s.dev.ringNext = none) (hd : s.dev.doorbellFree = some p) :
    idle s = .next (s.settledFrom (s.withDev (s.dev.later (.takeHeld p)))) := by
  simp only [idle, hx, hr, hd, onSettled_eq]

/-- With nothing to start or to go on, a nanosecond passes. -/
theorem idle_ticks {s : State} (hx : s.dev.nextHeld = none) (hr : s.dev.ringNext = none) (hd : s.dev.doorbellFree = none) :
    idle s = .next s.tick := by
  simp only [idle, hx, hr, hd]

/-! ### One nanosecond -/

/-- In OM0 no time passes. -/
theorem State.tick_off {s : State} (hm : s.dev.mode = 0) : s.tick = s := if_pos hm

/-- Without a sweep FABRIC_TIME and the monitors count one nanosecond (R55, R526). -/
theorem State.tick_counts {s : State} (hm : s.dev.mode ≠ 0) (hs : s.dev.chn.sweeps = []) :
    s.tick = { s with time := s.time.tick (decide (s.activeSource ≠ 0)), dev := s.dev.monTick } := by
  simp only [State.tick, if_neg hm, Dev.monTick_chn, if_pos hs]

/-- A sweep under way also reads one more line (R201). -/
theorem State.tick_sweeps {s : State} {u : TimeUnit} (hm : s.dev.mode ≠ 0) (hs : s.dev.chn.sweeps ≠ [])
    (hu : u = s.time.tick (decide (s.activeSource ≠ 0))) :
    s.tick = { s with time := u, dev := (s.dev.monTick.sweepStep u.now).finishCommand u.now s.dev } := by
  simp only [State.tick, if_neg hm, Dev.monTick_chn, if_neg hs, ← hu]

/-! ### The statement -/

/-- Settles O45: on an empty queue `step` is `idle`, whose branches follow the order of the hypotheses. -/
theorem idleStep : Obligations.IdleStep := by
  unfold Obligations.IdleStep
  refine ⟨?off, ?counts, ?sweeps, ?starts, ?rings, ?goesOn⟩
  case off =>
    intro s hp hx hr hd hm
    rw [step_empty hp, idle_ticks hx hr hd, State.tick_off hm]
  case counts =>
    intro s hp hx hr hd hm hs
    rw [step_empty hp, idle_ticks hx hr hd, State.tick_counts hm hs]
  case sweeps =>
    intro s u hp hx hr hd hm hs hu
    rw [step_empty hp, idle_ticks hx hr hd, State.tick_sweeps hm hs hu]
  case starts =>
    intro s t x hp hx ht
    rw [step_empty hp, idle_starts hx ht]
  case rings =>
    intro s mb hp hx hr
    rw [step_empty hp, idle_rings hx hr]
  case goesOn =>
    intro s p hp hx hr hd
    rw [step_empty hp, idle_goesOn hx hr hd]

end Sys2Proof.Machine
end

section
/-! SUPPORT. The PPS input and output and the exchange with the neighbour, row by row, and the statement on them (O35). -/
namespace Sys2Proof.Machine
open Sys2Proof

/-! ### PPS -/

/-- PPS that is valid and becomes invalid posts its record (R57). -/
theorem State.setPps_lost {s : State} (h : s.time.ppsValid = true) :
    s.setPps false = { s with time := { s.time with ppsValid := false }, dev := s.dev.post s.time.now 8 0 } :=
  if_neg (by rw [h]; decide)

/-- PPS that is not valid stays so without a record. -/
theorem State.setPps_same {s : State} {v : Bool} (h : s.time.ppsValid = v) : s.setPps v = s := if_pos h

/-- With TIME_SOURCE 0 the counter runs free (R56). -/
theorem State.activeSource_free {s : State} (h : s.dev.rd Tim.TIME_SOURCE = 0) : s.activeSource = 0 := by
  simp only [State.activeSource, h]

/-- The first edge is captured and is no good one yet (R57); a counter that runs free is not corrected. -/
theorem State.ppsEdge_first {s e : State}
    (he : e = { s with time := { s.time with capture := s.time.now, lastEdge := some s.time.now, goodEdges := 0 } })
    (hl : s.time.lastEdge = none) (hs : s.dev.rd Tim.TIME_SOURCE = 0) (hv : s.time.ppsValid = false) : s.ppsEdge = e := by
  have hp : e.setPps false = e := State.setPps_same (by rw [he]; exact hv)
  have ha : e.activeSource ≠ 1 := by
    rw [State.activeSource_free (s := e) (by rw [he]; exact hs)]
    decide
  simp only [State.ppsEdge, hl, Bool.false_eq_true, if_false, Nat.min_zero, ← he, hp, if_pos ha]

theorem exec_ppsEdge_on {s : State} (hm : s.dev.mode ≠ 0) : exec .ppsEdge s = .next s.ppsEdge :=
  congrArg Host.Outcome.next (if_neg hm)

/-- 2 s without an edge make a valid PPS invalid (R57). -/
theorem exec_ppsTimeout_lost {s : State} (hm : s.dev.mode ≠ 0) (hv : s.time.ppsValid = true) :
    exec .ppsTimeout s = .next { s with
      time := { s.time with goodEdges := 0, lastEdge := none, ppsValid := false }, dev := s.dev.post s.time.now 8 0 } :=
  congrArg Host.Outcome.next ((if_neg hm).trans
    (State.setPps_lost (s := { s with time := { s.time with goodEdges := 0, lastEdge := none } }) hv))

/-- PPS_OUT pulses while it is enabled (R59, R61). -/
theorem exec_ppsOut_pulses {s : State} (hm : s.dev.mode ≠ 0) (he : s.dev.flag Tim.PPS_OUT_EN = true) :
    exec .ppsOut s = .next (s.withDev ((s.dev.emit (.pin .ppsOut true)).emit (.pin .ppsOut false))) :=
  congrArg (fun d => Host.Outcome.next (s.withDev d)) (if_neg (not_or.mpr ⟨hm, not_not_intro he⟩))

/-! ### The exchange with the neighbour -/

/-- A Whey message with a right CRC-8 acts while the link layer listens (R124). -/
theorem Dev.wheyIn_intact {p op : Nat} {fields : List Nat} {crc : BitVec 8} {d : Dev} (hh : d.hears p = true)
    (hc : crc = wheyCrc op fields) (f : Dev → Dev) : d.wheyIn p op fields crc f = f d := by
  simp only [Dev.wheyIn, hh, hc, ne_eq, not_true, if_false]

/-- A time report with a right CRC-8 reaches the exchange under way on its port. -/
theorem State.timeIn_intact {p op : Nat} {x : BitVec 48} {crc : BitVec 8} {e : TimeExchange} {s : State}
    (he : s.time.exchange = some e) (hp : e.port = p) (hh : s.dev.hears p = true) (hc : crc = wheyCrc op [x.toNat])
    (f : TimeExchange → State → State) : s.timeIn p op x crc f = f e s := by
  simp only [State.timeIn, hh, hc, he, hp, ne_eq, not_true, if_false, if_true]

/-- While one of the two answers is missing, the exchange goes on with what has come. -/
theorem State.exchangeDone_waits {e : TimeExchange} (h : e.t2 = none) (s : State) :
    s.exchangeDone e = { s with time := { s.time with exchange := some e } } := by
  simp only [State.exchangeDone, h]

/-- A device that follows Fabric time and has no exchange under way asks the neighbour on its route to the master (R153). -/
theorem exec_timeSyncPeriod_asks {s : State} {p : Nat} (hf : s.follows = true) (he : s.time.exchange = none)
    (hr : s.dev.routePort (s.dev.rd Memb.PRIMARY_ADDR) = some p) (ht : s.dev.timeOn p = true) :
    exec .timeSyncPeriod s = .next { s with
      time := { s.time with exchange := some { port := p, t1 := s.time.now } }, dev := s.dev.whey p 6 [] } := by
  refine congrArg Host.Outcome.next ?_
  simp [hf, he, hr, ht]

/-- The neighbour answers with t3 and then t2 (R153). -/
theorem exec_timeReq_answers {s : State} {port : Fin 64} {crc : BitVec 8} (hh : s.dev.hears port = true) (hc : crc = wheyCrc 6 [])
    (ht : s.dev.timeOn port = true) :
    exec (.timeReq ⟨port, crc⟩) s =
      .next (s.withDev ((s.dev.whey port 7 [s.time.now % 2 ^ 48]).whey port 8 [s.time.now % 2 ^ 48])) :=
  congrArg (fun d => Host.Outcome.next (s.withDev d))
    ((Dev.wheyIn_intact hh hc _).trans (if_neg (not_not_intro ht)))

/-- t3 that arrives first is kept with the time of its arrival. -/
theorem exec_timeRsp_first {s : State} {port : Fin 64} {crc : BitVec 8} {t3 : BitVec 48} {x : TimeExchange}
    (he : s.time.exchange = some x) (hp : x.port = port) (hh : s.dev.hears port = true) (hx : x.t2 = none)
    (hc : crc = wheyCrc 7 [t3.toNat]) :
    exec (.timeRsp ⟨port, crc⟩ t3) s = .next { s with
      time := { s.time with exchange := some { x with t3 := some (s.time.widen t3), t4 := s.time.now } } } :=
  congrArg Host.Outcome.next ((State.timeIn_intact he hp hh hc _).trans (State.exchangeDone_waits (by exact hx) s))

/-- t2 that arrives second ends the exchange. -/
theorem exec_timeT2_ends {s : State} {port : Fin 64} {crc : BitVec 8} {t2 : BitVec 48} {x : TimeExchange}
    (he : s.time.exchange = some x) (hp : x.port = port) (hh : s.dev.hears port = true) (hc : crc = wheyCrc 8 [t2.toNat]) :
    exec (.timeT2 ⟨port, crc⟩ t2) s = .next (s.exchangeDone { x with t2 := some (s.time.widen t2) }) :=
  congrArg Host.Outcome.next (State.timeIn_intact he hp hh hc _)

/-- Both answers give the offset, which corrects the counter when Fabric is in use (R58, R153). -/
theorem State.exchangeDone_offset {s y : State} {e : TimeExchange} {n k : Nat} {o : Int} (h2 : e.t2 = some n) (h3 : e.t3 = some k)
    (ho : o = (((n : Int) - e.t1) - ((e.t4 : Int) - k)) / 2)
    (hy : y = { s with
      time := { s.time with exchange := none, lastExchange := some s.time.now }
      dev := s.dev.wr Qfab.LAST_TIME_OFFSET (BitVec.ofInt 32 o).toNat }) :
    s.exchangeDone e = if y.activeSource = 2 then y.correct o else y := by
  simp only [State.exchangeDone, h2, h3, ← ho, ← hy]

/-! ### The statement -/

/-- Settles O35: each row at the case that its hypotheses single out. -/
theorem timeEvents : Obligations.TimeEvents := by
  unfold Obligations.TimeEvents
  refine ⟨?edge, ?timeout, ?out, ?period, ?req, ?rsp, ?t2, ?abandon⟩
  case edge =>
    intro s hm hl hs hv
    rw [exec_ppsEdge_on hm, State.ppsEdge_first rfl hl hs hv]
  case timeout =>
    intro s hm hv
    exact exec_ppsTimeout_lost hm hv
  case out =>
    rintro s d rfl hm he
    exact exec_ppsOut_pulses hm he
  case period =>
    intro p s hf he hr ht
    exact exec_timeSyncPeriod_asks hf he hr ht
  case req =>
    rintro port crc s d rfl hh hc ht
    exact exec_timeReq_answers hh hc ht
  case rsp =>
    intro port t3 crc x s he hp hh hx hc
    exact exec_timeRsp_first he hp hh hx hc
  case t2 =>
    intro port t2 crc x k o y s he hp hh hk ho hy hc
    rw [exec_timeT2_ends he hp hh hc, State.exchangeDone_offset (e := { x with t2 := some (s.time.widen t2) }) rfl hk ho hy]
  case abandon =>
    intro s
    rfl

end Sys2Proof.Machine
end

section
/-! SUPPORT. What removals, presence, admission, training, reset pins and PTM do at a CXL port, and the statement on its events (O27). -/
namespace Sys2Proof.Machine
open Sys2Proof

/-! ### The rows act on the device -/

theorem exec_removal (port : Fin 64) (s : State) :
    exec (.removal port) s = .next (s.settledFrom (s.withDev (s.dev.removePort s.time.now port))) := rfl
theorem exec_presenceDebounce (port : Fin 64) (present : Bool) (s : State) :
    exec (.presenceDebounce port present) s =
      .next (s.settledFrom (s.withDev (s.dev.presenceDebounce s.time.now port present))) := rfl
theorem exec_slotSettleExpiry (port : Fin 64) (s : State) :
    exec (.slotSettleExpiry port) s = .next (s.withDev (s.dev.settleExpiry port)) := rfl
theorem exec_portAdmit (port : Fin 64) (s : State) :
    exec (.portAdmit port) s = .next (s.withDev (s.dev.portAdmit s.time.now port)) := rfl
theorem exec_cxlLinkUp (port : Fin 64) (gen rate width : Nat) (flit256 latencyOpt poisonCapable : Bool) (capacity : List Nat)
    (type2 : Bool) (s : State) :
    exec (.cxlLinkUp port gen rate width flit256 latencyOpt poisonCapable capacity type2) s = .next (s.settledFrom (s.withDev
      (s.dev.cxlLinkUp s.time.now port gen rate width flit256 latencyOpt poisonCapable capacity type2))) := rfl
theorem exec_trainingRetry (port : Fin 64) (s : State) :
    exec (.trainingRetry port) s = .next (s.withDev (s.dev.trainingRetry port)) := rfl
theorem exec_perstRelease (port : Fin 64) (s : State) :
    exec (.perstRelease port) s = .next (s.withDev (s.dev.perstRelease port)) := rfl

/-! ### Removals -/

/-- A host that leaves a snoop without its response in time is removed (R231). -/
theorem exec_snoopTimeout_waiting {port : Fin 64} {tag : Nat} {s : State} (h : (s.dev.snoopOf port tag).isSome = true) :
    exec (.snoopTimeout port tag) s = .next (s.settledFrom (s.withDev (s.dev.removePort s.time.now port))) :=
  congrArg (fun d => Host.Outcome.next (s.settledFrom (s.withDev d))) (if_pos h)

/-- A target with buffered entries that is lost is removed (R273). -/
theorem exec_targetTimeout_buffered {port : Fin 64} {s : State}
    (h : s.dev.buf.entries.any (fun x => decide (x.port = (port : Nat))) = true) :
    exec (.targetTimeout port) s = .next (s.settledFrom (s.withDev (s.dev.removePort s.time.now port))) :=
  congrArg (fun d => Host.Outcome.next (s.settledFrom (s.withDev d))) (if_pos h)

/-- The host's reset pin takes its port down (R64). -/
theorem exec_hostPerst_host {port : Fin 64} {s : State} (h : s.dev.isHostPort port = true) :
    exec (.hostPerst port) s = .next (s.settledFrom (s.withDev (s.dev.removePort s.time.now port))) :=
  congrArg (fun d => Host.Outcome.next (s.settledFrom (s.withDev d))) (if_pos h)

/-! ### Presence and admission -/

/-- Presence that has come sets PRESENT and nothing else (R49). -/
theorem Dev.presenceDebounce_came {t p : Nat} {d : Dev} (h : d.present p = true) :
    d.presenceDebounce t p true = (d.setPort p { d.port p with presentIn := true }).wrFlag (Pg.PRESENT p) true := by
  simp only [Dev.presenceDebounce, h, not_true, if_false, if_true]

/-- Presence that has gone clears PRESENT and removes the port (R72). -/
theorem Dev.presenceDebounce_went {t p : Nat} {d : Dev} (h : d.present p = true) :
    d.presenceDebounce t p false =
      ((d.setPort p { d.port p with presentIn := false }).wrFlag (Pg.PRESENT p) false).removePort t p := by
  simp only [Dev.presenceDebounce, h, not_true, Bool.false_eq_true, if_false]

/-- The settle time of a removed port is over. -/
theorem Dev.settleExpiry_removed {p : Nat} {d : Dev} (h : (d.port p).removed = true) :
    d.settleExpiry p = d.wr (Pg.SETTLE_REMAINING p) 0 := if_pos h

/-- A removed port whose reclaim, settle time and reads are over is admitted as a new incarnation (R180). -/
theorem Dev.portAdmit_over {t p n : Nat} {d : Dev} (hn : n = (d.rd (Pg.INCARNATION p) + 1) % 65536)
    (hr : (d.port p).removed = true) (hb : d.flag (Pg.RECLAIM_BUSY p) = false) (hs : d.rd (Pg.SETTLE_REMAINING p) = 0)
    (ha : d.agents.reads = []) :
    d.portAdmit t p = ((((d.wr (Pg.INCARNATION p) n).wrFlag (Pg.SETTLING p) false).wrFlag (Pg.ADMIT_HELD p) false).setPort p
      { d.port p with removed := false, admitted := true }).post t 0xa (p + 2 ^ 8 + 2 ^ 16 * n) := by
  simp only [Dev.portAdmit, hr, hb, hs, ha, ← hn, List.any_nil, Bool.false_eq_true, not_true, ne_eq, or_self, if_false]

/-! ### Training -/

/-- A CXL port with power in a mode that trains, neither disabled nor held by a scan, may train. -/
def Dev.cxlMayTrain (d : Dev) (p : Nat) : Prop :=
  3 ≤ d.mode ∧ d.flag (Pg.POWERED (p / 4)) = true ∧ (d.port p).disabled = false ∧ d.scanHolds = false

/-- An admitted host port whose 256-byte flit link trained as CXL 3.x comes up; nothing is known of a host's capacity, and what was held
for it goes on (R42, R48, R49). -/
theorem Dev.cxlLinkUp_host {t p rate width : Nat} {poisonCapable type2 : Bool} {capacity : List Nat} {d f g : Dev}
    (hf : f = (((((d.raise1 (Pg.DL_UP p)).wr (Pg.RATE p) (d.trainedRate p 3 rate)).wr (Pg.WIDTH p) (d.trainedWidth p width)).wr
      (Pg.CXL_GEN p) 3).wrFlag (Pg.FLIT_256 p) true).wrFlag (Pg.LATENCY_OPT p) false)
    (hg : g = f.setPort p { d.port p with lastGen := 3, poisonCapable := false, capacity := [], type2 := type2 })
    (hh : d.isHostPort p = true) (hl : d.linkUp p = false) (hm : d.cxlMayTrain p) (hr : (d.port p).removed = false)
    (ha : (d.port p).admitted = true) (hd : d.isDevicePort p = false) (hfh : f.isHostPort p = true) (hfd : f.isDevicePort p = false)
    (hgd : g.isDevicePort p = false) :
    d.cxlLinkUp t p 3 rate width true false poisonCapable capacity type2 = g.later (.takeHeld p) := by
  subst hg
  obtain ⟨h3, hp, hx, hs⟩ := hm
  have hn : ¬ d.mode < 3 := Nat.not_lt.mpr h3
  simp only [Dev.cxlLinkUp, hh, hl, hn, hp, hx, hs, hr, ha, hd, decide_true, Bool.true_or, Bool.and_true, not_true, Bool.false_eq_true,
    or_self, false_and, if_false, ← hf, hfh, hfd, Bool.and_false, if_true]
  exact if_neg (ne_true_of_eq_false hgd)

/-- A present host port that may train and is not up fails once more (R52). -/
theorem Dev.trainingRetry_host {p : Nat} {d : Dev} (hh : d.isHostPort p = true) (hl : d.linkUp p = false)
    (hp : d.flag (Pg.PRESENT p) = true) (ha : (d.port p).admitted = true) (hd : (d.port p).disabled = false) :
    d.trainingRetry p = d.countPort p .training := by
  simp only [Dev.trainingRetry, hh, hl, hp, ha, hd, Bool.true_or, not_true, Bool.false_eq_true, or_self, if_false]

/-! ### PERST# and PTM -/

/-- PERST# that may be released rises (R64). -/
theorem Dev.perstRelease_rises {p : Nat} {d : Dev} (hm : d.perstMay p = true) (hl : (d.port p).perstHigh = false) :
    d.perstRelease p = (d.setPort p { d.port p with perstHigh := true }).emit (.pin (.perst p) true) := by
  simp only [Dev.perstRelease, hm, hl, not_true, Bool.false_eq_true, or_self, if_false]

/-- A host port with a virtual downstream port behind it answers PTM with FABRIC_TIME (R60). -/
theorem exec_ptmRequest_host {port : Fin 64} {s : State} (hc : s.dev.carries port = true) (hh : s.dev.isHostPort port = true)
    (hp : s.dev.presentsPort port = true) :
    exec (.ptmRequest port) s = .next (s.withDev (s.dev.emit (.host port (.ptmResponse s.time.now)))) :=
  congrArg (fun d => Host.Outcome.next (s.withDev d)) ((if_neg (not_not_intro hc)).trans ((if_pos hh).trans (if_pos hp)))

/-! ### The statement -/

/-- Settles O27: each row acts on the device, and the case that its hypotheses single out is what the device does. -/
theorem portEvents : Obligations.PortEvents := by
  unfold Obligations.PortEvents
  refine ⟨?removal, ?snoop, ?target, ?came, ?went, ?settled, ?admitted, ?linkUp, ?training, ?perst, ?hostPerst, ?ptm⟩
  case removal =>
    rintro port s d rfl
    exact exec_removal port s
  case snoop =>
    rintro port tag s d rfl h
    exact exec_snoopTimeout_waiting h
  case target =>
    rintro port s d rfl h
    exact exec_targetTimeout_buffered h
  case came =>
    rintro port present s d rfl h rfl
    rw [exec_presenceDebounce, Dev.presenceDebounce_came h]
  case went =>
    rintro port present s d rfl h rfl
    rw [exec_presenceDebounce, Dev.presenceDebounce_went h]
  case settled =>
    rintro port s d rfl h
    rw [exec_slotSettleExpiry, Dev.settleExpiry_removed h]
  case admitted =>
    rintro port s d n rfl hn hr hb hs ha
    rw [exec_portAdmit, Dev.portAdmit_over hn hr hb hs ha]
  case linkUp =>
    rintro port gen rate width flit256 latencyOpt poisonCapable capacity type2 s d f rfl hf hh hl h3 hp hx hs hr ha hd rfl rfl rfl hfh
      hfd hgd
    rw [exec_cxlLinkUp, Dev.cxlLinkUp_host hf rfl hh hl ⟨h3, hp, hx, hs⟩ hr ha hd hfh hfd hgd]
  case training =>
    rintro port s d rfl hh hl hp ha hd
    rw [exec_trainingRetry, Dev.trainingRetry_host hh hl hp ha hd]
  case perst =>
    rintro port s d rfl hm hl
    rw [exec_perstRelease, Dev.perstRelease_rises hm hl]
  case hostPerst =>
    rintro port s d rfl h
    exact exec_hostPerst_host h
  case ptm =>
    rintro port s d rfl hc hh hp
    exact exec_ptmRequest_host hc hh hp

end Sys2Proof.Machine
end

section
/-! SUPPORT. The self-test's failure, the IDE streams, the SPDM, MCTP and PLDM services, and the statement on them (O16). -/
namespace Sys2Proof.Machine
open Sys2Proof

/-! ### The security controller and IDE -/

/-- A health test that fails puts the SC in ERROR: the generator stops, and every session and stream loses its keys (R477). -/
theorem Dev.scError_enters {t : Nat} {d f : Dev} (hf : f = (d.wr ScR.SC_STATE 2).wrFlag ScR.DRBG_OK false)
    (h : d.rd ScR.SC_STATE ≠ 2) :
    d.scError t = (({ f with sc := { f.sc with drbg := false, lfsr := some (Nat.xor t f.fuses.serial % 2 ^ 64) } } : Dev).secEvent
      t 3).dropSessionKeys t := by
  simp only [Dev.scError, if_neg h, ← hf]

theorem exec_healthTestFailure (s : State) :
    exec .healthTestFailure s = .next (s.settledFrom (s.withDev (s.dev.scError s.time.now))) := rfl

/-- A secure stream that fails goes insecure (R71). -/
theorem exec_ideFailure_secure {port : Fin 64} {s : State} (sequence : Bool) (h : s.dev.rd (Pg.IDE_STATE port) = 2) :
    exec (.ideFailure port sequence) s =
      .next (s.settledFrom (s.withDev (s.dev.ideInsecure s.time.now port (if sequence = true then 2 else 1)))) :=
  congrArg (fun d => Host.Outcome.next (s.settledFrom (s.withDev d))) (if_pos h)

/-- A key refresh that is not done in time makes its stream insecure (R478). -/
theorem exec_ideRefreshTimeout_running {port : Fin 64} {s : State} (h : (s.dev.port port).ideRefresh = true) :
    exec (.ideRefreshTimeout port) s = .next (s.settledFrom (s.withDev (s.dev.ideInsecure s.time.now port 3))) :=
  congrArg (fun d => Host.Outcome.next (s.settledFrom (s.withDev d))) (if_pos h)

/-- A host port that is up takes its current keys in a session of its own transport (R69, R478). -/
theorem Dev.ideKeys_host {t p : Nat} {anchorOk : Bool} {d : Dev} (hl : d.linkUp p = true) (hs : d.rd ScR.SC_STATE ≠ 2)
    (hh : d.isHostPort p = true) (hd : d.isDevicePort p = false) (hg : d.rd (Pg.CXL_GEN p) ≠ 1) (hi : d.ideSession p = true) :
    d.ideKeys t p .programCurrent anchorOk = (d.setPort p { d.port p with ideCurrent := true }).wr (Pg.IDE_STATE p) 1 := by
  simp only [Dev.ideKeys, hl, hs, hh, hd, hg, hi, true_or, not_true, or_self, Bool.false_eq_true, false_and, if_false]

theorem exec_ideKeyManagement (port : Fin 64) (op : IdeKeyOp) (anchorOk : Bool) (s : State) :
    exec (.ideKeyManagement port op anchorOk) s = .next (s.withDev (s.dev.ideKeys s.time.now port op anchorOk)) := rfl

/-! ### SPDM, from OM2 on -/

section
variable {s : State} (hm : 2 ≤ s.dev.mode) (hr : s.dev.scReady = true)
include hm hr

/-- GET_CERTIFICATE of slot 0 returns the chain (R473). -/
theorem exec_getCertificate_slot0 (hc : s.dev.sc.certSlot0 = true) :
    exec (.getCertificate 0) s = .next (s.withDev (s.dev.emit (.service 0x602
      [0, s.dev.flash.deviceIdCert, s.dev.sc.deviceIdKey.getD 0, s.dev.sc.aliasKey.getD 0]))) :=
  congrArg (fun d => Host.Outcome.next (s.withDev d)) ((if_neg (Nat.not_le.mpr hm)).trans (if_pos ⟨hr, rfl, hc⟩))

/-- CHALLENGE of slot 0 is signed (R473, R474). -/
theorem exec_challenge_slot0 (hc : s.dev.sc.certSlot0 = true) (nonce : List Byte) :
    exec (.challenge 0 nonce) s = .next (s.withDev (s.dev.emit (.service 0x603
      ((Config.ecdsaSign (s.dev.sc.aliasKey.getD 0) nonce).map (fun x => x.toNat))))) :=
  congrArg (fun d => Host.Outcome.next (s.withDev d)) ((if_neg (Nat.not_le.mpr hm)).trans (if_pos ⟨hr, rfl, hc⟩))

/-- GET_MEASUREMENTS of one block returns it with a signature (R475). -/
theorem exec_getMeasurements_one {index : Nat} (h1 : 1 ≤ index) (h6 : index ≤ 6) (nonce : List Byte) :
    exec (.getMeasurements index nonce) s = .next (s.withDev (s.dev.emit (.service 0x660 (index :: s.dev.measurement index ++
      (Config.ecdsaSign (s.dev.sc.aliasKey.getD 0) nonce).map (fun x => x.toNat))))) := by
  have hn : index ≠ 0xff := by omega
  refine congrArg (fun d => Host.Outcome.next (s.withDev d)) ((if_neg (Nat.not_le.mpr hm)).trans ?_)
  rw [if_pos ⟨hr, Or.inl ⟨h1, h6⟩⟩, if_neg hn]

/-- KEY_EXCHANGE of a requester that authenticates opens the next session, while fewer than 96 are open (R474). -/
theorem exec_keyExchange_opens (hl : s.dev.sc.sessions.length < 96) (transport : Nat) (mutualAuth : Bool) :
    exec (.keyExchange transport mutualAuth true) s = .next (s.withDev (((({ s.dev with sc := { s.dev.sc with
      sessions := s.dev.sc.sessions ++ [{ id := s.dev.sc.nextSession, transport := transport, mutualAuth := mutualAuth }]
      nextSession := s.dev.sc.nextSession + 1 } } : Dev).wr ScR.SESSIONS (s.dev.sc.sessions.length + 1)).inc
        ScR.SESSIONS_OPENED).emit (.service 0x664 [s.dev.sc.nextSession]))) := by
  refine congrArg (fun d => Host.Outcome.next (s.withDev d)) ((if_neg (Nat.not_le.mpr hm)).trans ?_)
  rw [if_neg (not_not_intro hr), if_neg (Nat.not_le.mpr hl), if_neg (not_not_intro rfl)]
  simp only [List.length_append, List.length_singleton]

end

/-! ### MCTP control and PLDM monitoring -/

/-- A service runs from OM2 on (R418). -/
theorem Dev.service_runs {d : Dev} (hm : 2 ≤ d.mode) (k : Dev) : d.service k = k := if_neg (Nat.not_le.mpr hm)

/-- A row that is a service leaves what the service does. -/
theorem exec_service {c : Instr} {s : State} {k : Dev} (hm : 2 ≤ s.dev.mode) (hx : exec c s = .next (s.withDev (s.dev.service k))) :
    exec c s = .next (s.withDev k) := by
  rw [hx, Dev.service_runs hm]

/-- A sensor that is not switched off answers with its reading (R537). -/
theorem exec_getSensorReading_on {sensor v : Nat} {s : State} (hm : 2 ≤ s.dev.mode) (hv : s.dev.sensor sensor = some v)
    (ho : s.dev.silek.sensorsOff.contains sensor = false) :
    exec (.getSensorReading sensor) s = .next (s.withDev (s.dev.emit (.service 0x211 [sensor, 0, v]))) := by
  rw [exec_service hm (c := .getSensorReading sensor) rfl, hv]
  simp only [ho, Bool.false_eq_true, if_false]

/-! ### The statement -/

/-- Settles O16: the SC's rows at the case that their hypotheses single out; the rows of MCTP and PLDM are services. -/
theorem serviceMessages : Obligations.ServiceMessages := by
  unfold Obligations.ServiceMessages
  refine ⟨?health, ?failure, ?refresh, ?keys, ?certificate, ?challenge, ?measurements, ?exchange, ?setEid, ?getEid, ?uuid, ?version,
    ?types, ?vendor, ?receiver, ?pdrInfo, ?pdr, ?reading, ?stateReading, ?enable⟩
  case health =>
    rintro s d f rfl hf h
    rw [exec_healthTestFailure, Dev.scError_enters hf h]
  case failure =>
    rintro port sequence s d rfl h
    exact exec_ideFailure_secure sequence h
  case refresh =>
    rintro port s d rfl h
    exact exec_ideRefreshTimeout_running h
  case keys =>
    rintro port op anchorOk s d rfl hl hs hh hd hg hi rfl
    rw [exec_ideKeyManagement, Dev.ideKeys_host hl hs hh hd hg hi]
  case certificate =>
    rintro slot s d rfl hm hr rfl hc
    exact exec_getCertificate_slot0 hm hr hc
  case challenge =>
    rintro slot nonce s d rfl hm hr rfl hc
    exact exec_challenge_slot0 hm hr hc nonce
  case measurements =>
    rintro index nonce s d rfl hm hr h1 h6
    exact exec_getMeasurements_one hm hr h1 h6 nonce
  case exchange =>
    rintro transport mutualAuth authOk s d rfl hm hr hl rfl
    exact exec_keyExchange_opens hm hr hl transport mutualAuth
  case getEid | uuid | version | types | pdrInfo =>
    rintro s d rfl hm
    exact exec_service hm rfl
  case setEid | vendor | receiver | pdr | stateReading =>
    rintro n s d rfl hm
    exact exec_service hm rfl
  case reading =>
    rintro sensor v s d rfl hm hv ho
    exact exec_getSensorReading_on hm hv ho
  case enable =>
    rintro sensor enable s d rfl hm rfl
    exact exec_service hm rfl

end Sys2Proof.Machine
end

section
/-! SUPPORT. Aligned word accesses to registers and windows over an open path, and the statement on the accesses that are commands of their
own (O17). -/
namespace Sys2Proof.Machine
open Sys2Proof

/-! ### Accesses over an open path -/

/-- A write over an open path is made, and what it sets off is done. -/
theorem writeCmd_open {path : AccessPath} {off size v : Nat} {s : State} (h : s.dev.pathOpen path = true) :
    writeCmd path off size v s = .next (s.settledFrom (s.writeAccess (fun _ u => u) path off size v)) :=
  congrArg (fun t => Host.Outcome.next (s.settledFrom t)) (if_neg (not_not_intro h))

/-- A read over an open path sends its data. -/
theorem readCmd_open {path : AccessPath} {off size v : Nat} {s t : State} (h : s.dev.pathOpen path = true)
    (hr : s.readAccess path off size = (some v, t)) :
    readCmd path off size s = .next (s.settledFrom (t.withDev (t.dev.emit (.readData path off size v)))) := by
  refine congrArg (fun t => Host.Outcome.next (s.settledFrom t)) ((if_neg (not_not_intro h)).trans ?_)
  rw [hr]
  rfl

theorem State.withDev_withDev (s : State) (d e : Dev) : (s.withDev d).withDev e = s.withDev e := rfl

/-- A read that acts on the device alone sends its data after it. -/
theorem readCmd_open_dev {path : AccessPath} {off size v : Nat} {s : State} {d : Dev} (h : s.dev.pathOpen path = true)
    (hr : s.readAccess path off size = (some v, s.withDev d)) :
    readCmd path off size s = .next (s.settledFrom (s.withDev (d.emit (.readData path off size v)))) := by
  rw [readCmd_open h hr, State.withDev_dev, State.withDev_withDev]

theorem exec_latchingRead (path : AccessPath) (off size : Nat) (s : State) :
    exec (.latchingRead path off size) s = readCmd path off size s := rfl
theorem exec_arrayEntryRead (path : AccessPath) (off size : Nat) (s : State) :
    exec (.arrayEntryRead path off size) s = readCmd path off size s := rfl

/-! ### Aligned words below the bit aliases -/

/-- An aligned access of 4 bytes is accepted (R438). -/
theorem okAccess_word {off : Nat} (ho : off % 4 = 0) : okAccess off 4 = true := by simp [okAccess, ho]

theorem word_of_aligned {off : Nat} (ho : off % 4 = 0) : off / 4 * 4 = off := Nat.div_mul_cancel (Nat.dvd_of_mod_eq_zero ho)

/-- An aligned write of 4 bytes below the aliases writes the word with all its bytes. -/
theorem State.writeAccess_word {ring : Nat → State → State} {path : AccessPath} {off v : Nat} {s : State} (ho : off % 4 = 0)
    (hb : off < 0x2000000) : s.writeAccess ring path off 4 v = s.writeWord ring path off 15 (v % 2 ^ 32) := by
  have hn : ¬ (0x2000000 ≤ off ∧ off < 0x4000000) := by omega
  simp [State.writeAccess, okAccess_word ho, if_neg hn, word_of_aligned ho]

/-- An aligned read of 4 bytes below the aliases reads the word with all its bytes. -/
theorem State.readAccess_word {path : AccessPath} {off : Nat} {s : State} (ho : off % 4 = 0) (hb : off < 0x2000000) :
    s.readAccess path off 4 = (some (fieldOf (s.readWord path off 15).1 0 32), (s.readWord path off 15).2) := by
  have hn : ¬ (0x2000000 ≤ off ∧ off < 0x4000000) := by omega
  simp [State.readAccess, okAccess_word ho, if_neg hn, word_of_aligned ho]

/-! ### Where a word lies -/

theorem instAt_below {a : Nat} (h : a < instBase) : instAt a = none := if_pos (Or.inl h)

/-- Below the devices of the instances only page 0x0A holds a mailbox buffer (R439). -/
theorem bufferAt_outside {a : Nat} (h : a < 0xa100 ∨ 0xb000 ≤ a) (hb : a < instBase) : bufferAt a = none := by
  have hn : ¬ (0xa100 ≤ a ∧ a < 0xb000) := by omega
  simp only [bufferAt, if_neg hn, instAt_below hb]

theorem State.writeWord_ctl {ring : Nat → State → State} {path : AccessPath} {a m v : Nat} {s : State} (hb : bufferAt a = none)
    (h : a < 0x100000) : s.writeWord ring path a m v = s.writeCtl ring path a m v := by
  simp only [State.writeWord, hb, if_pos h]

/-- A write of an array window is discarded and counted (R455). -/
theorem State.writeWord_window {ring : Nat → State → State} {path : AccessPath} {a m v : Nat} {s : State} (hb : bufferAt a = none)
    (h0 : 0x100000 ≤ a) (h1 : a < 0x2000000) (hw : (windowAt a).isSome = true) :
    s.writeWord ring path a m v = s.withDev (s.dev.inc Glob.ARRAY_WRITES_IGNORED) := by
  simp only [State.writeWord, hb, if_neg (Nat.not_lt.mpr h0), if_pos h1, if_pos hw, State.withDev]

theorem State.readWord_ctl {path : AccessPath} {a m : Nat} {s : State} (hb : bufferAt a = none) (h : a < 0x100000) :
    s.readWord path a m = s.readCtl path a m := by
  simp only [State.readWord, hb, if_pos h]

theorem State.readWord_array {path : AccessPath} {a m : Nat} {s : State} (hb : bufferAt a = none) (h0 : 0x100000 ≤ a)
    (h1 : a < 0x2000000) : s.readWord path a m = s.readArray path a := by
  simp only [State.readWord, hb, if_neg (Nat.not_lt.mpr h0), if_pos h1]

/-! ### PG_CONFIG -/

/-- Each port group's PG_CONFIG stands at the start of its page (R48). -/
theorem isPgConfig_group : ∀ g : Fin 16, isPgConfig (canonical (0x20000 + 0x1000 * g.val)) = true := by decide

/-- CSR_KEY is no port group's word. -/
theorem isPgConfig_ne_key {a : Nat} (h : isPgConfig a = true) : a ≠ 0xff0 := by
  rintro rfl
  exact absurd h (by decide)

/-- A direct write of PG_CONFIG over a guarded path passes the guard, changes nothing and is logged (R48). -/
theorem State.writeCtl_pgConfig {ring : Nat → State → State} {path : AccessPath} {a m v : Nat} {s u : State}
    (hp : isPgConfig (canonical a) = true) (hg : guardedPath path = true) (hu : u = (s.passGuard path).2) :
    s.writeCtl ring path a m v = u.withDev (u.dev.secEvent s.time.now 2) := by
  rw [hu]
  exact (if_neg (isPgConfig_ne_key hp)).trans ((if_pos hp).trans (if_pos hg))

/-! ### Reads that latch and reads that clear -/

/-- A register that is no latched upper half reads as it is. -/
theorem State.peek_plain {s : State} {a : Nat} (h : isHigh a = false) (path : AccessPath) : s.peek path a = s.plainWord a :=
  if_neg (ne_true_of_eq_false h)

/-- A read of a low register without RC fields latches its upper half for the path (R443). -/
theorem State.readCtl_latches {path : AccessPath} {a h m : Nat} {s : State} (hc : canonical a = a) (hi : isHigh a = false)
    (hh : highOf a = some h) (hn : ∀ l ∈ wordSlots a, l.acc ≠ .rc) :
    s.readCtl path a m = (s.plainWord a, s.withDev ((s.dev.setLatch path
      { s.dev.latch path with high := Tab.put (s.dev.latch path).high h (s.plainWord h) 0 }).scrub a)) := by
  have hf (d : Dev) : (wordSlots a).filter (fun l => l.acc = .rc ∧ d.wordThere a) = [] :=
    List.filter_eq_nil_iff.mpr fun l hl => by simp [hn l hl]
  simp only [State.readCtl, hc, State.peek_plain hi, hh, hf, List.foldl_nil, State.withDev]

/-- A read of a register that latches nothing clears its one RC field once it returns the whole of it (R438). -/
theorem State.readCtl_clears {path : AccessPath} {a m : Nat} {l : Slot} {s t : State} (hc : canonical a = a) (hi : isHigh a = false)
    (hh : highOf a = none) (hf : (wordSlots a).filter (fun l => l.acc = .rc ∧ s.dev.wordThere a) = [l])
    (hm : Nat.land ((2 ^ l.width - 1) * 2 ^ l.lo) (byteMask m) = (2 ^ l.width - 1) * 2 ^ l.lo) (ht : t = s.clearOnRead a l) :
    s.readCtl path a m = (s.plainWord a, t.withDev (t.dev.scrub a)) := by
  simp only [State.readCtl, hc, State.peek_plain hi, hh, hf, List.foldl_cons, List.foldl_nil, if_pos hm, ← ht, State.withDev]

/-- The key guard's word is there in every configuration. -/
theorem Dev.wordThere_guard (d : Dev) : d.wordThere 0x10 = true := rfl

/-- The one RC field of the key guard's word is the count of wrong keys (R438). -/
theorem wordSlots_guard_rc (d : Dev) : (wordSlots 0x10).filter (fun l => l.acc = .rc ∧ d.wordThere 0x10) = [⟨16, 16, .rc, 0⟩] := by
  simp only [Dev.wordThere_guard]
  decide

/-! ### Array windows -/

/-- A read of an entry's first word latches the entry for the path (R456). -/
theorem State.readArray_first {path : AccessPath} {a base size i : Nat} {s : State} {ws : List Nat} (hw : windowAt a = some (base, size))
    (hs : 0 < size) (ha : a = base + i * size) (hn : ws = s.dev.entryNow base size i) :
    s.readArray path a = (ws.getD 0 0, s.withDev (s.dev.setLatch path { s.dev.latch path with entry := some (a, ws) })) := by
  have hi : (a - base) / size = i := by rw [ha, Nat.add_sub_cancel_left, Nat.mul_div_cancel _ hs]
  simp only [State.readArray, hw, hi, ← ha, ← hn, Nat.sub_self, Nat.zero_div, if_true, State.withDev]

/-- The extent map's window (R454). -/
theorem windowAt_extents {a : Nat} (h0 : 0x400000 ≤ a) (h1 : a < 0x600000) : windowAt a = some (0x400000, 8) := by
  unfold windowAt
  rw [if_neg (by omega), if_neg (by omega), if_neg (by omega), if_neg (by omega), if_neg (by omega), if_neg (by omega),
    if_pos ⟨h0, h1⟩]

/-- The entries of the extent map's window are the extents. -/
theorem Dev.entryNow_extents (d : Dev) (i : Nat) : d.entryNow 0x400000 8 i = entryWords (d.ext i).bits 2 := rfl

/-- A read of an extent's first word. -/
theorem State.readAccess_extent {path : AccessPath} {off : Nat} {s : State} (i : Fin 262144) (ho : off = 0x400000 + 8 * (i : Nat)) :
    s.readAccess path off 4 = (some (fieldOf (fieldOf (s.dev.ext i).bits 0 32) 0 32),
      s.withDev (s.dev.setLatch path { s.dev.latch path with entry := some (off, entryWords (s.dev.ext i).bits 2) })) := by
  have hi : (i : Nat) < 262144 := i.isLt
  have hb : bufferAt off = none := bufferAt_outside (by omega) (by unfold instBase; omega)
  rw [State.readAccess_word (by omega) (by omega), State.readWord_array hb (by omega) (by omega),
    State.readArray_first (i := i) (windowAt_extents (by omega) (by omega)) (by decide) (by omega) rfl, Dev.entryNow_extents]
  rfl

/-! ### The rows -/

/-- A direct write of PG_CONFIG over an open guarded path uses up an unlock and is logged (R48). -/
theorem exec_pgConfig_guarded {path : AccessPath} {group : Fin 16} {s u : State} (value : BitVec 32) (h : s.dev.pathOpen path = true)
    (hg : guardedPath path = true) (hu : u = (s.passGuard path).2) :
    exec (.pgConfig path group value) s = .next (s.settledFrom (u.withDev (u.dev.secEvent s.time.now 2))) := by
  have hi : (group : Nat) < 16 := group.isLt
  have hb : bufferAt (0x20000 + 0x1000 * (group : Nat)) = none := bufferAt_outside (by omega) (by unfold instBase; omega)
  refine (writeCmd_open h).trans ?_
  rw [State.writeAccess_word (by omega) (by omega), State.writeWord_ctl hb (by omega),
    State.writeCtl_pgConfig (isPgConfig_group group) hg hu]

/-- A read of FABRIC_TIME's lower half latches the upper half (R443). -/
theorem exec_latchingRead_time {path : AccessPath} {s : State} (h : s.dev.pathOpen path = true) :
    exec (.latchingRead path 0x2008 4) s = .next (s.settledFrom (s.withDev (((s.dev.setLatch path
      { s.dev.latch path with high := Tab.put (s.dev.latch path).high 0x200c (s.plainWord 0x200c) 0 }).scrub 0x2008).emit
        (.readData path 0x2008 4 (fieldOf (s.plainWord 0x2008) 0 32))))) := by
  have hb : bufferAt 0x2008 = none := by decide
  have hr := State.readAccess_word (path := path) (off := 0x2008) (s := s) (by decide) (by decide)
  rw [State.readWord_ctl hb (by decide), State.readCtl_latches (h := 0x200c) (by decide) (by decide) (by decide) (by decide)] at hr
  rw [exec_latchingRead, readCmd_open_dev h hr]

/-- A read of the key guard's word clears the count of wrong keys (R438). -/
theorem exec_clearOnRead_guard {path : AccessPath} {s : State} (h : s.dev.pathOpen path = true) :
    exec (.clearOnRead path 0x10 4) s = .next (s.settledFrom { s with
      guard := { s.guard with wrongKeys := 0 }
      dev := (s.dev.scrub 0x10).emit (.readData path 0x10 4 (fieldOf (s.plainWord 0x10) 0 32)) }) := by
  have hb : bufferAt 0x10 = none := by decide
  have ht : ({ s with guard := { s.guard with wrongKeys := 0 } } : State) = s.clearOnRead 0x10 ⟨16, 16, .rc, 0⟩ := rfl
  have hr := State.readAccess_word (path := path) (off := 0x10) (s := s) (by decide) (by decide)
  rw [State.readWord_ctl hb (by decide),
    State.readCtl_clears (by decide) (by decide) (by decide) (wordSlots_guard_rc _) (by decide) ht] at hr
  exact readCmd_open h hr

/-- A write in the Gate's window is discarded and counted (R455). -/
theorem exec_arrayWindowWrite_gate {path : AccessPath} {off : Nat} {s : State} (h : s.dev.pathOpen path = true) (h0 : 0x100000 ≤ off)
    (h1 : off < 0x120000) (ho : off % 4 = 0) :
    exec (.arrayWindowWrite path off 4) s = .next (s.settledFrom (s.withDev (s.dev.inc Glob.ARRAY_WRITES_IGNORED))) := by
  have hw : windowAt off = some (0x100000, 32) := if_pos ⟨h0, h1⟩
  have hb : bufferAt off = none := bufferAt_outside (by omega) (by unfold instBase; omega)
  refine (writeCmd_open h).trans ?_
  rw [State.writeAccess_word ho (by omega), State.writeWord_window hb h0 (by omega) (by rw [hw]; rfl)]

/-! ### The statement -/

/-- Settles O17: the control rows are writes over an open path (`writeCmd_open`), each other row is the access that its offset names. -/
theorem registerRows : Obligations.RegisterRows := by
  unfold Obligations.RegisterRows
  refine ⟨?portDisable, ?retrain, ?fullRetrain, ?loopback, ?genPattern, ?prbsClear, ?injectError, ?widthGo, ?tier2, ?pgConfig, ?latching,
    ?clearing, ?entry, ?window, ?scrub, ?rewrite⟩
  case portDisable | retrain | fullRetrain | loopback | genPattern | prbsClear | injectError | widthGo =>
    intro path index value s h
    exact writeCmd_open h
  case tier2 =>
    intro path value s h
    exact writeCmd_open h
  case pgConfig =>
    intro path group value s u h hg hu
    exact exec_pgConfig_guarded value h hg hu
  case latching =>
    rintro path off size s h rfl rfl
    exact exec_latchingRead_time h
  case clearing =>
    rintro path off size s h rfl rfl
    exact exec_clearOnRead_guard h
  case entry =>
    rintro path off size i s h ho rfl
    rw [exec_arrayEntryRead, readCmd_open_dev h (State.readAccess_extent i ho)]
  case window =>
    rintro path off size s h h0 h1 ho rfl
    exact exec_arrayWindowWrite_gate h h0 h1 ho
  case scrub =>
    intro off s hm
    exact congrArg (fun d => Host.Outcome.next (s.withDev d)) (if_neg hm)
  case rewrite =>
    rintro table index s d rfl hm
    exact congrArg (fun d => Host.Outcome.next (s.withDev d)) (if_neg hm)

end Sys2Proof.Machine
end

section
/-! SUPPORT. The table code of a lane read back: a code of the table stands for one symbol, whatever the disparity. What a receiver makes of
codes, which lane carries a byte, and the statement on symbols (O59). -/
namespace Sys2Proof.Machine
open Sys2Proof

/-! ### A code names its symbol -/

/-- The place of a block in a list of blocks at negative running disparity that may also stand as at positive disparity. -/
def blockPlace (n : Nat) (blocks : List Nat) (v : Nat) : Nat :=
  blocks.findIdx (fun b => decide (b = v) || decide (atDisparity n b true = v))

/-- The data byte that a code may stand for: the alternate four bits are in no list and belong to D.x.7. -/
def byteOfCode (c : Nat) : Nat := blockPlace 6 sixBits (c / 16) + 32 * min 7 (blockPlace 4 fourBits (c % 16))

/-- The special symbols of R78. -/
def specialSymbols : List Symbol := [.com, .skp, .sof, .lcm, .why, .idl]

/-- The one symbol that a code may stand for. -/
def decodeSymbol (c : BitVec 10) : Symbol :=
  (specialSymbols.find? (fun s => decide (s.code false = c) || decide (s.code true = c))).getD (.data (byteOfCode c.toNat))

/-- The six bits at either disparity name the low five bits of the byte. -/
theorem blockPlace_six : ∀ x < 32, ∀ rd : Bool,
    atDisparity 6 (sixBits.getD x 0) rd < 64 ∧ blockPlace 6 sixBits (atDisparity 6 (sixBits.getD x 0) rd) = x := by decide

/-- The four bits at either disparity name the high three bits of the byte. -/
theorem blockPlace_four : ∀ y < 8, ∀ rd : Bool,
    atDisparity 4 (fourBits.getD y 0) rd < 16 ∧ blockPlace 4 fourBits (atDisparity 4 (fourBits.getD y 0) rd) = y := by decide

/-- The alternate four bits name D.x.7. -/
theorem blockPlace_alternate : ∀ mid : Bool, (if mid then 0b1000 else 0b0111) < 16 ∧
    min 7 (blockPlace 4 fourBits (if mid then 0b1000 else 0b0111)) = 7 := by decide

/-- A code of two blocks names the byte whose blocks they are. -/
theorem byteOfCode_blocks {six four x y : Nat} (h6 : blockPlace 6 sixBits six = x) (hf : four < 16)
    (h4 : min 7 (blockPlace 4 fourBits four) = y) : byteOfCode (six * 16 + four) = x + 32 * y := by
  have hd : (six * 16 + four) / 16 = six := by omega
  have hm : (six * 16 + four) % 16 = four := by omega
  rw [byteOfCode, hd, hm, h6, h4]

/-- A choice under two conditions is the second value, or the first one under the first condition. -/
theorem ite_and_cases {α : Type} (p q : Bool) (a b : α) :
    (if (p && q) = true then a else b) = b ∨ p = true ∧ (if (p && q) = true then a else b) = a := by
  cases p
  · exact .inl rfl
  · cases q
    · exact .inl rfl
    · exact .inr ⟨rfl, rfl⟩

/-- A data byte's code is its six bits, then its four bits or the alternate ones of D.x.7. -/
theorem dataCode_blocks (b : Nat) (rd : Bool) : ∃ (mid : Bool) (four : Nat),
    dataCode b rd = atDisparity 6 (sixBits.getD (b % 32) 0) rd * 16 + four ∧
      (four = atDisparity 4 (fourBits.getD (b / 32 % 8) 0) mid ∨ b / 32 % 8 = 7 ∧ four = if mid then 0b1000 else 0b0111) :=
  ⟨_, _, rfl, (ite_and_cases _ _ _ _).imp id (And.imp_left of_decide_eq_true)⟩

/-- A data byte's code has ten bits and names the byte. -/
theorem byteOfCode_dataCode {b : Nat} (hb : b < 256) (rd : Bool) : dataCode b rd < 1024 ∧ byteOfCode (dataCode b rd) = b := by
  obtain ⟨mid, four, hc, hfour⟩ := dataCode_blocks b rd
  obtain ⟨hs, h6⟩ := blockPlace_six (b % 32) (by omega) rd
  have h4 : four < 16 ∧ min 7 (blockPlace 4 fourBits four) = b / 32 % 8 := by
    rcases hfour with rfl | ⟨h7, rfl⟩
    · obtain ⟨hf, hy⟩ := blockPlace_four (b / 32 % 8) (by omega) mid
      exact ⟨hf, by omega⟩
    · rw [h7]
      exact blockPlace_alternate mid
  rw [hc, byteOfCode_blocks h6 h4.1 h4.2]
  omega

/-- A data symbol's code names its byte. -/
theorem byteOfCode_code {b : Nat} (hb : b < 256) (rd : Bool) : byteOfCode ((Symbol.data b).code rd).toNat = b := by
  obtain ⟨hlt, hbyte⟩ := byteOfCode_dataCode hb rd
  rwa [Symbol.code, BitVec.toNat_ofNat, Nat.mod_eq_of_lt hlt]

/-- The special symbols' codes differ from one another at either disparity. -/
theorem decodeSymbol_special : ∀ s ∈ specialSymbols, ∀ rd : Bool, decodeSymbol (s.code rd) = s := by decide

/-- The byte that a special symbol's code would name has another code. -/
theorem code_special_ne_data : ∀ s ∈ specialSymbols, ∀ rd rd' : Bool,
    (Symbol.data (byteOfCode (s.code rd').toNat)).code rd ≠ s.code rd' := by decide

/-- A data byte's code is no special symbol's. -/
theorem code_data_ne_special {b : Nat} (hb : b < 256) (rd : Bool) {s : Symbol} (hs : s ∈ specialSymbols) (rd' : Bool) :
    s.code rd' ≠ (Symbol.data b).code rd := by
  intro h
  have hn := code_special_ne_data s hs rd rd'
  rw [h, byteOfCode_code hb] at hn
  exact hn rfl

/-- A symbol's code at either disparity names the symbol. -/
theorem decodeSymbol_code {s : Symbol} (hs : s ∈ tableSymbols) (rd : Bool) : decodeSymbol (s.code rd) = s := by
  rcases List.mem_append.mp hs with h | h
  · exact decodeSymbol_special s h rd
  · obtain ⟨b, hb, rfl⟩ := List.mem_map.mp h
    have hb : b < 256 := List.mem_range.mp hb
    have hn : specialSymbols.find? (fun s => decide (s.code false = (Symbol.data b).code rd) ||
        decide (s.code true = (Symbol.data b).code rd)) = none :=
      List.find?_eq_none.mpr fun s hs => by simp [code_data_ne_special hb rd hs]
    rw [decodeSymbol, hn, Option.getD_none, byteOfCode_code hb]

/-! ### What a receiver makes of a code -/

/-- Only a symbol of the table is read, by its own code. -/
theorem symbolOf_some {c : BitVec 10} {rd : Bool} {s : Symbol} (h : symbolOf c rd = some s) : s ∈ tableSymbols ∧ s.code rd = c := by
  unfold symbolOf at h
  exact ⟨List.mem_of_find?_eq_some h, by simpa using List.find?_some h⟩

/-- A code sent at the receiver's disparity is read as its symbol. -/
theorem symbolOf_code {s : Symbol} (hs : s ∈ tableSymbols) (rd : Bool) : symbolOf (s.code rd) rd = some s := by
  cases h : symbolOf (s.code rd) rd with
  | none => exact absurd (decide_eq_true rfl) (List.find?_eq_none.mp h s hs)
  | some u =>
    obtain ⟨hu, hc⟩ := symbolOf_some h
    rw [← decodeSymbol_code hu rd, hc, decodeSymbol_code hs]

/-- A code that the symbol it names does not have at a disparity stands for nothing there. -/
theorem symbolOf_none {c : BitVec 10} {rd : Bool} (h : (decodeSymbol c).code rd ≠ c) : symbolOf c rd = none := by
  cases hu : symbolOf c rd with
  | none => rfl
  | some u =>
    obtain ⟨ht, rfl⟩ := symbolOf_some hu
    exact absurd (by rw [decodeSymbol_code ht]) h

theorem readCode_good {s : Symbol} (hs : s ∈ tableSymbols) (rd : Bool) : readCode (s.code rd) rd = .good s := by
  simp only [readCode, symbolOf_code hs]

/-- A code of the other disparity is read as such where its symbol's two codes differ (R79). -/
theorem readCode_wrongDisparity {s : Symbol} (hs : s ∈ tableSymbols) {rd : Bool} (h : s.code rd ≠ s.code (!rd)) :
    readCode (s.code rd) (!rd) = .wrongDisparity s := by
  have hn : symbolOf (s.code rd) (!rd) = none := symbolOf_none (by rw [decodeSymbol_code hs]; exact h.symm)
  simp only [readCode, hn, Bool.not_not, symbolOf_code hs]

/-- A code that the symbol it names has at neither disparity is a violation. -/
theorem readCode_violation {c : BitVec 10} (h : ∀ rd : Bool, (decodeSymbol c).code rd ≠ c) (rd : Bool) : readCode c rd = .violation := by
  simp only [readCode, symbolOf_none (h rd), symbolOf_none (h !rd)]

/-- The codes of K28.1, K28.4, K28.7, K23.7, K29.7 and K30.7 at negative running disparity, which the table leaves out (R79). -/
def unusedCodes : List (BitVec 10) :=
  [0b0011111001, 0b0011110010, 0b0011111000, 0b1110101000, 0b1011101000, 0b0111101000]

theorem unusedCodes_name_none : ∀ c ∈ unusedCodes, ∀ rd : Bool,
    (decodeSymbol c).code rd ≠ c ∧ (decodeSymbol (~~~c)).code rd ≠ ~~~c := by decide

/-- The unused control codes are violations in either form (R79). -/
theorem readCode_unused {c : BitVec 10} (h : c ∈ unusedCodes ∨ ~~~c ∈ unusedCodes) (rd : Bool) : readCode c rd = .violation := by
  rcases h with h | h
  · exact readCode_violation (fun rd => (unusedCodes_name_none c h rd).1) rd
  · have hc := fun rd => (unusedCodes_name_none _ h rd).2
    rw [BitVec.not_not] at hc
    exact readCode_violation hc rd

/-! ### One code on a lane -/

/-- A symbol read is the last, and counts a reserved command or an unlisted Whey type at most. -/
theorem LaneScan.symbol_eq (s : Symbol) (x : LaneScan) : ∃ c w, x.symbol s = { x with lcms := c, wheys := w, last := some s } := by
  unfold LaneScan.symbol
  split
  · split <;> exact ⟨_, _, rfl⟩
  · split <;> exact ⟨_, _, rfl⟩
  · exact ⟨_, _, rfl⟩

/-- The receiver of a locked lane after a code: one symbol time on, at the disparity that the code leaves. -/
def LaneState.heard (l : LaneState) (rd : Bool) (c : BitVec 10) : LaneState :=
  { l with symbols := l.symbols + 1, disparity := some (disparityAfter 10 c.toNat rd) }

section
variable {c : BitVec 10} {rd : Bool} {x : LaneScan} (hd : x.lane.disparity = some rd)
include hd

theorem LaneScan.step_good {s : Symbol} (hr : readCode c rd = .good s) :
    x.step c = ({ x with lane := x.lane.heard rd c } : LaneScan).symbol s := by
  simp only [LaneScan.step, hd, hr, LaneState.heard]

theorem LaneScan.step_wrongDisparity {s : Symbol} (hr : readCode c rd = .wrongDisparity s) :
    (x.step c).wrong = x.wrong + 1 ∧ (x.step c).violations = x.violations := by
  simp only [LaneScan.step, hd, hr]
  obtain ⟨c', w, h⟩ := LaneScan.symbol_eq s _
  rw [h]
  exact ⟨rfl, rfl⟩

theorem LaneScan.step_violation (hr : readCode c rd = .violation) :
    (x.step c).violations = x.violations + 1 ∧ (x.step c).wrong = x.wrong := by
  simp only [LaneScan.step, hd, hr, and_self]
end

/-- A lane that is not locked takes its disparity from a COM (R77). -/
theorem LaneScan.step_com {x : LaneScan} (hd : x.lane.disparity = none) (rd : Bool) :
    x.step (Symbol.com.code rd) =
      { x with lane := { x.lane with symbols := x.lane.symbols + 1, disparity := some (!rd) }, last := some .com } := by
  have hn : Symbol.com.code true ≠ Symbol.com.code false := by decide
  cases rd
  · simp only [LaneScan.step, hd, if_true, Bool.not_false]
  · simp only [LaneScan.step, hd, if_neg hn, if_true, Bool.not_true]

/-- A lane that is not locked passes over any other code. -/
theorem LaneScan.step_unlocked {x : LaneScan} {c : BitVec 10} (hd : x.lane.disparity = none) (hc : ∀ rd : Bool, c ≠ Symbol.com.code rd) :
    x.step c = { x with lane := { x.lane with symbols := x.lane.symbols + 1 } } := by
  simp only [LaneScan.step, hd, if_neg (hc false), if_neg (hc true)]

/-- A lane that is not locked counts no error, whether the code is a COM or not. -/
theorem LaneScan.step_unlocked_errors {x : LaneScan} (hd : x.lane.disparity = none) (c : BitVec 10) :
    (x.step c).violations = x.violations ∧ (x.step c).wrong = x.wrong := by
  by_cases hc : ∃ rd : Bool, c = Symbol.com.code rd
  · obtain ⟨rd, rfl⟩ := hc
    rw [LaneScan.step_com hd]
    exact ⟨rfl, rfl⟩
  · rw [LaneScan.step_unlocked hd (not_exists.mp hc)]
    exact ⟨rfl, rfl⟩

/-! ### Symbols in a row -/

/-- What a lane has shown has not changed but for n more symbols of which the last is given. -/
structure LaneScan.ReadsOn (x y : LaneScan) (n : Nat) (last : Option Symbol) : Prop where
  violations : y.violations = x.violations
  wrong : y.wrong = x.wrong
  errors : y.lane.errors = x.lane.errors
  lost : y.lost = x.lost
  last : y.last = last
  symbols : y.lane.symbols = x.lane.symbols + n

/-- One symbol sent at the lane's disparity is read without an error, and the lane's disparity follows the sender's (R77). -/
theorem LaneScan.step_code {s : Symbol} {rd : Bool} {x : LaneScan} (hs : s ∈ tableSymbols) (hd : x.lane.disparity = some rd) :
    x.ReadsOn (x.step (s.code rd)) 1 (some s) ∧
      (x.step (s.code rd)).lane.disparity = some (disparityAfter 10 (s.code rd).toNat rd) := by
  rw [LaneScan.step_good hd (readCode_good hs rd)]
  obtain ⟨c, w, hc⟩ := LaneScan.symbol_eq s { x with lane := x.lane.heard rd (s.code rd) }
  rw [hc]
  exact ⟨⟨rfl, rfl, rfl, rfl, rfl, rfl⟩, rfl⟩

/-- The codes of symbols in a row are read without an error, the last symbol last. -/
theorem LaneScan.foldl_encodeSymbols {l : List Symbol} (hl : ∀ s ∈ l, s ∈ tableSymbols) {rd : Bool} {x : LaneScan}
    (hd : x.lane.disparity = some rd) :
    x.ReadsOn ((encodeSymbols rd l).foldl LaneScan.step x) l.length ((l.getLast?.map some).getD x.last) := by
  induction l generalizing rd x with
  | nil => exact ⟨rfl, rfl, rfl, rfl, rfl, rfl⟩
  | cons s l ih =>
    obtain ⟨⟨hv, hw, he, hlost, hlast, hn⟩, hd'⟩ := LaneScan.step_code (hl s (List.mem_cons_self ..)) hd
    obtain ⟨iv, iw, ie, ilost, ilast, im⟩ := ih (fun u hu => hl u (List.mem_cons_of_mem _ hu)) hd'
    refine ⟨iv.trans hv, iw.trans hw, ie.trans he, ilost.trans hlost, ilast.trans ?_, im.trans ?_⟩
    · rw [hlast, List.getLast?_cons]
      cases l.getLast? <;> rfl
    · rw [hn, List.length_cons]
      omega

/-! ### Bytes on the lanes -/

/-- An element that a filter keeps stands behind the kept ones before it. -/
theorem getElem?_filter_countP_take {α : Type} {p : α → Bool} {l : List α} {i : Nat} {a : α} (ha : l[i]? = some a) (hp : p a = true) :
    (l.filter p)[(l.take i).countP p]? = some a := by
  induction l generalizing i with
  | nil => simp at ha
  | cons b l ih =>
    cases i with
    | zero =>
      obtain rfl : b = a := by simpa using ha
      simp [hp]
    | succ i =>
      have h := ih (by simpa using ha)
      by_cases hb : p b = true
      · simpa [hb] using h
      · simpa [hb] using h

/-- One more byte goes to the next lane, and behind the last lane to the first one again. -/
theorem succ_lane {w : Nat} (i : Nat) (hw : 0 < w) :
    (i % w + 1 = w ∧ (i + 1) % w = 0 ∧ (i + 1) / w = i / w + 1) ∨
      (i % w + 1 < w ∧ (i + 1) % w = i % w + 1 ∧ (i + 1) / w = i / w) := by
  have hm : (i + 1) % w = (i % w + 1) % w := (Nat.mod_add_mod i w 1).symm
  have hlt : i % w < w := Nat.mod_lt i hw
  by_cases hlast : i % w + 1 = w
  · have h0 : (i + 1) % w = 0 := by rw [hm, hlast, Nat.mod_self]
    exact .inl ⟨hlast, h0, Nat.succ_div_of_mod_eq_zero h0⟩
  · have hin : i % w + 1 < w := by omega
    have h1 : (i + 1) % w = i % w + 1 := by rw [hm, Nat.mod_eq_of_lt hin]
    exact .inr ⟨hin, h1, Nat.succ_div_of_mod_ne_zero (by omega)⟩

/-- Of the first i numbers, i / w leave a remainder r, and one more where r is among those of the last round. -/
theorem countP_range_mod {w r : Nat} (hr : r < w) (i : Nat) :
    (List.range i).countP (fun k => decide (k % w = r)) = i / w + if r < i % w then 1 else 0 := by
  induction i with
  | zero => rw [Nat.zero_div, Nat.zero_mod, if_neg (Nat.not_lt_zero r), List.range_zero, List.countP_nil]
  | succ i ih =>
    rw [List.range_succ, List.countP_append, ih, List.countP_singleton]
    simp only [decide_eq_true_eq]
    rcases succ_lane i (Nat.zero_lt_of_lt hr) with ⟨hlast, hm, hd⟩ | ⟨hin, hm, hd⟩
    · rw [hm, hd]
      split <;> split <;> split <;> omega
    · rw [hm, hd]
      split <;> split <;> split <;> omega

/-- Of the first i bytes, i / w go to byte i's lane. -/
theorem countP_lane {w i : Nat} (hw : 0 < w) {bs : List Byte} (hi : i ≤ bs.length) :
    (bs.zipIdx.take i).countP (fun x => decide (x.2 % w = i % w)) = i / w := by
  have hr : (bs.zipIdx.take i).map Prod.snd = List.range i := by
    rw [List.map_take, List.zipIdx_map_snd, ← List.range_eq_range', List.take_range, Nat.min_eq_left hi]
  have hc := countP_range_mod (Nat.mod_lt i hw) i
  rw [if_neg (Nat.lt_irrefl _), Nat.add_zero, ← hr, List.countP_map] at hc
  exact hc

/-- Byte i of a flit or a Whey message is symbol i / w of lane i mod w (R80, R81). -/
theorem stripe_getElem? {w i : Nat} (hw : 0 < w) {bs : List Byte} (hi : i < bs.length) :
    (stripe w (i % w) bs)[i / w]? = (bs[i]?).map (fun b => Symbol.data b.toNat) := by
  have hb : bs.zipIdx[i]? = some (bs[i], i) := by simp [hi]
  have hf := getElem?_filter_countP_take (p := fun x : Byte × Nat => decide (x.2 % w = i % w)) hb (decide_eq_true rfl)
  rw [countP_lane hw (Nat.le_of_lt hi)] at hf
  rw [stripe, List.getElem?_map, hf, List.getElem?_eq_getElem hi]
  rfl

/-! ### The statement -/

/-- Settles O59: a code names its symbol (`decodeSymbol_code`), so a receiver at the sender's disparity reads what was sent, one at the
other disparity knows the symbol, and a code that no symbol has is a violation. -/
theorem symbolCodes : Obligations.SymbolCodes := by
  unfold Obligations.SymbolCodes
  refine ⟨?sent, ?wrong, ?unused, ?unlocked, ?striped⟩
  case sent =>
    rintro l rd x _ hl hd rfl
    obtain ⟨hv, hw, he, hlost, hlast, hn⟩ := LaneScan.foldl_encodeSymbols hl hd
    exact ⟨hv, hw, he, hlost, hlast, hn⟩
  case wrong =>
    intro s rd x hs hd hc
    exact LaneScan.step_wrongDisparity hd (readCode_wrongDisparity hs hc)
  case unused =>
    intro c rd x hc hd
    exact LaneScan.step_violation hd (readCode_unused hc rd)
  case unlocked =>
    intro c x hd
    refine ⟨fun rd hc => ?_, fun hc => ?_, LaneScan.step_unlocked_errors hd c⟩
    · rw [hc, LaneScan.step_com hd]
      exact ⟨rfl, rfl⟩
    · rw [LaneScan.step_unlocked hd hc]
      exact ⟨hd, rfl⟩
  case striped =>
    intro w bs i hw hi
    exact stripe_getElem? hw hi

end Sys2Proof.Machine
end

section
/-! SUPPORT. What holdoffs, receiver tests, ordered sets, equalisation, timeouts and loss of lock do at a QFL port, and the statement on
training (O31). -/
namespace Sys2Proof.Machine
open Sys2Proof

/-- Equal devices are equal ends of a row: what is left to show of a row on the device alone is what it makes of the device. -/
theorem State.next_congr (s : State) {d e : Dev} (h : d = e) :
    (Host.Outcome.next (s.withDev d) : Host.Outcome State Fault Refusal) = .next (s.withDev e) :=
  congrArg (fun d => Host.Outcome.next (s.withDev d)) h

/-! ### Receiver tests -/

/-- A test that finds other lanes than the one before it is kept (R92). -/
theorem exec_receiverDetect_new {port : Fin 64} {lanes : BitVec 32} {found : List Nat} {s : State} (h1 : s.dev.rd (Pg.phy_STATE port) = 1)
    (hf : found = (s.dev.portLanes port).filter (fun x => lanes.getLsbD x)) (ht : (s.dev.qphy port).tested ≠ some found) :
    exec (.receiverDetect port lanes) s =
      .next (s.withDev (s.dev.setQphy port { s.dev.qphy port with tested := some found })) := by
  subst hf
  exact s.next_congr ((if_neg (not_not_intro h1)).trans (if_neg fun ⟨_, h⟩ => ht h))

/-- A second test that finds the same lanes enters TRAIN1 with a new nonce and every transmitter at INIT_PRESET (R92, R98, R103). -/
theorem exec_receiverDetect_same {port : Fin 64} {lanes : BitVec 32} {found : List Nat} {s : State} {f : Dev}
    (hd : f = (s.dev.drawn.wr (Pg.phy_NONCE_LOCAL port) (s.dev.freeVal 10)).setQphy port
      { s.dev.qphy port with tested := some found, detected := found })
    (h1 : s.dev.rd (Pg.phy_STATE port) = 1) (hf : found = (s.dev.portLanes port).filter (fun x => lanes.getLsbD x)) (hn : found ≠ [])
    (ht : (s.dev.qphy port).tested = some found) :
    exec (.receiverDetect port lanes) s = .next (s.withDev (((found.foldl (fun (x : Dev) n =>
      x.detectLane port n (preset (f.rd (Pg.phy_INIT_PRESET port)))) f).wr (Pg.phy_STATE port) 2).sendTs1 port)) := by
  subst hf hd
  exact s.next_congr ((if_neg (not_not_intro h1)).trans (if_pos ⟨hn, ht⟩))

/-! ### Ordered sets -/

/-- A TS1 on a lane in use takes an active port to RECOVERY (R105). -/
theorem Dev.ts1_active {t p : Nat} {x : Ts1Set} {d : Dev} (h5 : d.rd (Pg.phy_STATE p) = 5)
    (hu : x.lanes.any (fun y => (d.lanesInUse p).contains y.lane) = true) : d.ts1 t p x = d.enterRecovery p := by
  have h7 : d.rd (Pg.phy_STATE p) ≠ 7 := by omega
  exact (if_neg h7).trans ((if_pos h5).trans (if_pos hu))

/-- The lanes that LANE_DROP does not hold bring what they received of a TS1 (R546). -/
theorem exec_ts1_heard {port : Fin 64} {set : Ts1Set} {lanes : List Ts1Lane} {s : State} (hq : s.dev.isQflPort port = true)
    (hl : lanes = set.lanes.filter (fun y => ¬ (s.dev.laneOf (laneBase port + y.lane)).dropped)) (hn : lanes ≠ []) :
    exec (.ts1 port set) s = .next (s.withDev (s.dev.ts1 s.time.now port { set with lanes })) := by
  subst hl
  exact s.next_congr (if_pos ⟨hq, .inl hn⟩)

/-- The eighth identical TS2 in TRAIN2 decides version, features and width (R91, R100 to R104). -/
theorem exec_ts2_eighth {port : Fin 64} {set : Ts2Set} {s : State} (hq : s.dev.isQflPort port = true)
    (h4 : s.dev.rd (Pg.phy_STATE port) = 4)
    (hd : (s.dev.portLanes port).all (fun x => (s.dev.laneOf (laneBase port + x)).dropped) = false)
    (hc : countSame (s.dev.qphy port).ts2 set = (set, 8)) :
    exec (.ts2 port set) s =
      .next (s.withDev ((s.dev.setQphy port { s.dev.qphy port with ts2 := some (set, 8) }).ts2Eight s.time.now port set)) := by
  have hr : ¬ (¬ s.dev.isQflPort port = true ∨
      (s.dev.portLanes port).all (fun x => (s.dev.laneOf (laneBase port + x)).dropped) = true) :=
    not_or.mpr ⟨not_not_intro hq, ne_true_of_eq_false hd⟩
  have h7 : s.dev.rd (Pg.phy_STATE port) ≠ 7 := by omega
  refine s.next_congr ((if_neg hr).trans ((if_neg h7).trans ((if_neg (not_not_intro (.inl h4))).trans ?_)))
  rw [hc]
  exact if_pos ⟨Nat.le_refl 8, .inl h4⟩

/-! ### SKP sets (R84 to R86) -/

/-- What a lane of a QFL port received comes with its SKP set; in LOOPBACK it is returned, not decoded (R111). -/
theorem exec_skpOrderedSet_owned {lane : Fin 256} {skips p : Nat} {place : SkpPlace} {codes : List (BitVec 10)} {s : State}
    (hp : s.dev.laneOwner lane = some p) (hq : s.dev.isQflPort p = true) (hd : (s.dev.laneOf lane).dropped = false) :
    exec (.skpOrderedSet lane ⟨skips, place, codes⟩) s = .next (s.withDev (
      if s.dev.rd (Pg.phy_STATE p) = 7 then s.dev.emit (.qfl p (.retimed (lane.val - laneBase p) codes))
      else s.dev.laneReceives p lane skips place codes)) := by
  have hr : ¬ (¬ s.dev.isQflPort p = true ∨ (s.dev.laneOf lane).dropped = true) :=
    not_or.mpr ⟨not_not_intro hq, ne_true_of_eq_false hd⟩
  refine s.next_congr ?_
  simp only [hp, if_neg hr]

/-- A set of one to five SKP brings the elastic buffer one symbol nearer to its centre. -/
theorem LaneScan.skpSet_centres {x : LaneScan} {skips : Nat} {e : Int} (h1 : 1 ≤ skips) (h5 : skips ≤ 5)
    (he : e = x.lane.elastic + (skips : Int) - 3) :
    x.skpSet skips .inPlace = { x with lane := { x.lane with
      skpsLost := 0, symbols := x.lane.symbols + 1 + skips
      elastic := max (-8) (min 8 (if 0 < e then e - 1 else if e < 0 then e + 1 else e)) } } := by
  subst he
  have hs : ¬ (skips < 1 ∨ 5 < skips) := by omega
  exact (if_neg (not_not_intro rfl)).trans (if_neg hs)

/-- A set without SKP or with more than five is a code violation. -/
theorem LaneScan.skpSet_miscounted {x : LaneScan} {skips : Nat} (h : skips = 0 ∨ 5 < skips) :
    (x.skpSet skips .inPlace).violations = x.violations + 1 := by
  have hs : skips < 1 ∨ 5 < skips := by omega
  exact congrArg LaneScan.violations ((if_neg (not_not_intro rfl)).trans (if_pos hs))

/-- The fourth set in a row that is missing or misaligned loses lock. -/
theorem LaneScan.skpSet_misplaced {x : LaneScan} {skips : Nat} {place : SkpPlace} (hp : place ≠ .inPlace) (h3 : 3 ≤ x.lane.skpsLost) :
    (x.skpSet skips place).lost = true := by
  have h4 : 4 ≤ x.lane.skpsLost + 1 := by omega
  simp [LaneScan.skpSet, hp, h4]

/-! ### DESKEW and LOOPBACK -/

/-- In RECOVERY a DESKEW within the buffer's reach aligns the lanes (R95, R106). -/
theorem exec_deskew_recovery {port : Fin 64} {skew : Nat} {s : State} (h6 : s.dev.rd (Pg.phy_STATE port) = 6) (hs : skew ≤ 112) :
    exec (.deskew port skew) s = .next (s.withDev (((s.dev.setQphy port
      { s.dev.qphy port with deskews := (s.dev.qphy port).deskews + 1 }).wr (Pg.phy_SKEW port) skew).recoverStep port)) := by
  have hn : ¬ (s.dev.rd (Pg.phy_STATE port) ≠ 2 ∧ s.dev.rd (Pg.phy_STATE port) ≠ 6) := fun ⟨_, h⟩ => h h6
  have h2 : s.dev.rd (Pg.phy_STATE port) ≠ 2 := by omega
  exact s.next_congr ((if_neg hn).trans ((if_neg (Nat.not_lt.mpr hs)).trans (if_neg h2)))

/-- In OM11 an active port enters LOOPBACK; its link layer is HELD (R111). -/
theorem exec_loopbackEnter_diagnostic {port : Fin 64} {s : State} (h5 : s.dev.rd (Pg.phy_STATE port) = 5) (hm : s.dev.mode = 11)
    (hl : s.dev.rd (Pg.ll_LL_STATE port) ≠ 0) :
    exec (.loopbackEnter port) s = .next (s.withDev
      ((((s.dev.wr (Pg.ll_LL_STATE port) 3).wr (Pg.phy_STATE port) 7).showInUse port).qflPortDown port)) := by
  refine s.next_congr ((if_neg (not_not_intro h5)).trans ((if_pos hm).trans ?_))
  rw [if_neg hl]

/-! ### Equalisation (R98, R99) -/

/-- A request that waits for its answer is sent again while there is time. -/
theorem Dev.eqResend_waits {t p lane : Nat} {e : EqLane} {d : Dev} (he : Tab.get (d.qphy p).eq lane = some e)
    (h3 : d.rd (Pg.phy_STATE p) = 3) (hk : e.kind ≠ 0) (hv : e.evaluating = false) (hd : e.done = false) (ho : d.eqOver t p = false) :
    d.eqResend t p lane = d.sendTs1 p := by
  have hr : ¬ (d.rd (Pg.phy_STATE p) ≠ 3 ∨ e.kind = 0 ∨ e.evaluating = true ∨ e.done = true) := by simp [h3, hk, hv, hd]
  have hn : ¬ (e.kind = 1 ∧ d.eqOver t p = true) := fun ⟨_, h⟩ => ne_true_of_eq_false ho h
  simp only [Dev.eqResend, he, if_neg hr, if_neg hn]

/-- The evaluation of the best setting ends the lane's requests; a figure that is no better changes nothing of the setting. -/
theorem Dev.eqEvaluated_last {t p lane eye : Nat} {e : EqLane} {eq : Tab EqLane} {d : Dev}
    (he : Tab.get (d.qphy p).eq lane = some e) (hv : e.evaluating = true) (hd : e.done = false) (hk : e.kind = 2) (hb : eye ≤ e.bestEye)
    (hr : 2 ≤ e.requests) (hq : eq = Tab.set (d.qphy p).eq lane { e with done := true, evaluating := false }) :
    d.eqEvaluated t p lane eye = ((((d.wr (Pg.lane_EYE (laneBase p + lane)) eye).wr (Pg.lane_EQ_REQUESTS (laneBase p + lane))
      e.requests).setQphy p { d.qphy p with eq := eq, eqDone := (d.qphy p).eqDone || eq.all (fun z => z.2.done) }).sendTs1
        p).equaliseDone p := by
  have hn : ¬ (¬ e.evaluating = true ∨ e.done = true) := by simp [hv, hd]
  have hw : ¬ (e.bestEye < eye ∨ e.requests ≤ 1) := by omega
  have hl : e.kind ≠ 1 := by omega
  subst hq
  simp only [Dev.eqEvaluated, he, if_neg hn, if_neg hw, decide_eq_true hl, if_true]

/-! ### The statement -/

/-- Settles O31: each row's guard holds by its hypotheses, and the row does what stands behind the guard. -/
theorem training : Obligations.Training := by
  unfold Obligations.Training
  refine ⟨?holdoff, ?tested, ?detected, ?ts1, ?ts2, ?entry, ?skp, ?retimed, ?centres, ?miscounted, ?misplaced, ?interval, ?deskew, ?eios,
    ?loopIgnored, ?loopEntered, ?idle, ?train1, ?equalise, ?train2, ?recovery, ?resend, ?evaluated, ?lock⟩
  case holdoff =>
    rintro port s d rfl h0 hm
    exact s.next_congr (if_pos ⟨h0, hm⟩)
  case tested =>
    rintro port lanes found s d rfl h1 hf - ht
    exact exec_receiverDetect_new h1 hf ht
  case detected =>
    rintro port lanes found s d f rfl hd h1 hf hn ht
    exact exec_receiverDetect_same hd h1 hf hn ht
  case ts1 =>
    rintro port set lanes s d rfl hq hl hn h5 hu
    rw [exec_ts1_heard hq hl hn, Dev.ts1_active h5 hu]
  case ts2 =>
    rintro port set s d rfl hq h4 hd hc
    exact exec_ts2_eighth hq h4 hd hc
  case entry =>
    rintro port s d rfl hs hr
    exact s.next_congr (if_pos ⟨hs, hr⟩)
  case skp =>
    rintro lane skips place codes p s d rfl hp hq hd h7
    rw [exec_skpOrderedSet_owned hp hq hd, if_neg h7]
  case retimed =>
    rintro lane skips place codes p s d rfl hp hq hd h7
    rw [exec_skpOrderedSet_owned hp hq hd, if_pos h7]
  case centres =>
    intro x skips e h1 h5 he
    exact LaneScan.skpSet_centres h1 h5 he
  case miscounted =>
    intro x skips h
    exact LaneScan.skpSet_miscounted h
  case misplaced =>
    intro x skips place hp h3
    exact LaneScan.skpSet_misplaced hp h3
  case interval =>
    rintro port s d rfl h2 h6
    exact s.next_congr (if_pos ⟨h2, h6⟩)
  case deskew =>
    rintro port skew s d rfl h6 hs
    exact exec_deskew_recovery h6 hs
  case loopIgnored =>
    rintro port s d rfl h5 hm
    exact s.next_congr ((if_neg (not_not_intro h5)).trans (if_neg hm))
  case loopEntered =>
    rintro port s d rfl h5 hm hl
    exact exec_loopbackEnter_diagnostic h5 hm hl
  case train1 =>
    rintro port final s d rfl h2 h
    exact s.next_congr ((if_neg (not_not_intro h2)).trans (if_pos h))
  case eios | idle | equalise | train2 | recovery =>
    rintro port s d rfl h
    exact s.next_congr (if_pos h)
  case resend =>
    rintro port lane e s d rfl he h3 hk hv hd ho
    exact s.next_congr (Dev.eqResend_waits he h3 hk hv hd ho)
  case evaluated =>
    rintro port lane eye e eq s d rfl he h3 hv hd hk hb hr hq
    exact s.next_congr ((if_pos h3).trans (Dev.eqEvaluated_last he hv hd hk hb hr hq))
  case lock =>
    rintro port lane s d rfl h
    exact s.next_congr (if_pos h)

end Sys2Proof.Machine
end

section
/-! SUPPORT. What the Rennet's commands and streams, its responder, TEST messages and the PRBS checkers do, and the statement on them
(O43). -/
namespace Sys2Proof.Machine
open Sys2Proof

/-- The same for a row that hands work on. -/
theorem State.next_settled_congr (s : State) {d e : Dev} (h : d = e) :
    (Host.Outcome.next (s.settledFrom (s.withDev d)) : Host.Outcome State Fault Refusal) = .next (s.settledFrom (s.withDev e)) :=
  congrArg (fun d => Host.Outcome.next (s.settledFrom (s.withDev d))) h

/-! ### RENNET_SET (R545) -/

theorem State.begun_partS (s : State) : s.begun.dev.partS = s.dev.partS := by simp only [Dev.partS, State.begun_dev, Dev.mon_fuses]

/-- In OM11 on the C part an accepted setting enters its entry, acts, and consumes the unlock. -/
theorem exec_rennetSet_accepted {h : SilekHdr} {cls target setting : Nat} {e : Dev} {s : State}
    (ha : s.admits h (.of 0x810 1 (.rennetSet h.key cls target setting)) = true) (hm : s.dev.mode = 11) (hp : s.dev.partS = false)
    (hu : s.guard.unlocked = true) (hs : rennetSetting cls setting = true) (ht : s.begun.dev.rennetTargetOk cls target = true)
    (he : s.begun.dev.rennetPut cls target setting = some e) :
    exec (.rennetSet h cls target setting) s = .next (s.settledFrom (({ s.begun with
      dev := e.applySetting s.time.now cls target setting, guard := { s.guard with unlocked := false } } : State).answered h
        (.of 0x810 1 (.rennetSet h.key cls target setting)) .ok [])) := by
  have hmay : ¬ (s.begun.dev.mode ≠ 11 ∨ s.begun.dev.partS = true ∨ ¬ s.begun.guard.unlocked = true) := by
    simp [State.begun_mode, State.begun_partS, hm, hp, hu]
  have hok : ¬ (¬ s.begun.dev.rennetTargetOk cls target = true ∨ ¬ rennetSetting cls setting = true) := by simp [ht, hs]
  refine runSettled_state ha ((if_neg hmay).trans ((if_neg hok).trans ?_))
  rw [he]
  rfl

/-! ### Streams, the responder and dropped lanes (R546, R547) -/

/-- A stream that repeats injects its request. -/
theorem Dev.exerciseNext_repeats {t stream v : Nat} {d : Dev} (hv : d.rennet 7 stream = some v) (h2 : 2 ≤ streamMode v) :
    d.exerciseNext t stream = d.injectStream t v := by
  simp only [Dev.exerciseNext, hv, if_pos h2]

/-- The responder answers the oldest memory request, a read with data of its own. -/
theorem Dev.respondOne_memory {t : Nat} {write : Bool} {c : Cont} {rest : List (Bool × Cont)} {d : Dev}
    (hm : d.exer.memory = (write, c) :: rest) :
    d.respondOne t false =
      if write then ({ d with exer := { d.exer with memory := rest } } : Dev).later (.ended c {})
      else ({ d.drawn with exer := { d.exer with memory := rest } } : Dev).later (.ended c { data := BitVec.ofNat 512 (d.freeVal 11) }) := by
  simp only [Dev.respondOne, hm, Bool.false_eq_true, if_false]
  rfl

/-- A lane drop with a time ends. -/
theorem Dev.laneBack_timed {l v : Nat} {d : Dev} (hv : d.rennet 6 l = some v) (h0 : v % 65536 ≠ 0) :
    d.laneBack l = d.setLane l { d.laneOf l with dropped := false } := by
  simp only [Dev.laneBack, hv, if_neg h0]

/-! ### TEST and TEST_RSP (R547) -/

/-- A TEST that passes the filter is counted and answered over the link that it came over. -/
theorem Dev.testIn_passes {t p : Nat} {h : QflHdr} {d f g : Dev}
    (hp : d.arrivedOn { vc := 5, opcode := 0x30, src := h.src, dst := h.dst, tag := h.tag, e2e := h.e2e } = some p)
    (hr : d.receiveFiltered t 5 0x30 h = (f, true)) (hg : g = { f with fab := { f.fab with tests := f.fab.tests + 1 } }) :
    d.testIn t h = g.queueOn t p {
      vc := 5, opcode := 0x31, src := h.dst, dst := h.src, master := h.master, tag := h.tag, epoch := g.epoch, e2e := h.e2e } := by
  subst hg
  simp only [Dev.testIn, hp, hr, not_true, if_false]

/-- A TEST_RSP that answers an outstanding TEST is counted. -/
theorem exec_testRsp_matched {h : QflHdr} {o : Outst} {s : State} {f : Dev}
    (hm : s.dev.matchResponse s.time.now 5 0x31 h = (f, some o)) :
    exec (.testRsp h) s = .next (s.withDev { f with fab := { f.fab with testReplies := f.fab.testReplies + 1 } }) := by
  refine s.next_congr ?_
  simp only [hm]

/-! ### PRBS checkers (R110) -/

/-- While the bit count stays within 2^48 − 1, a checker in sync counts every bit and error of its report. -/
theorem Dev.prbsCount_within {l bits errors n : Nat} {d : Dev} (hs : d.flag (Pg.lane_CHK_SYNC l) = true)
    (hn : n = d.rd (Pg.lane_PRBS_BITS_LO l) + 2 ^ 32 * d.rd (Pg.lane_PRBS_BITS_HI l)) (hl : n < 2 ^ 48 - 1) (hb : n + bits ≤ 2 ^ 48 - 1) :
    d.prbsCount l bits errors = ((d.wr (Pg.lane_PRBS_BITS_LO l) ((n + bits) % 2 ^ 32)).wr (Pg.lane_PRBS_BITS_HI l)
      ((n + bits) / 2 ^ 32)).add (Pg.lane_PRBS_ERRORS l) errors := by
  have hroom : 2 ^ 48 - 1 - n ≠ 0 := by omega
  have hfit : bits ≤ 2 ^ 48 - 1 - n := by omega
  have hmin : min (2 ^ 48 - 1 - n) bits = bits := Nat.min_eq_right hfit
  subst hn
  refine (if_neg (not_not_intro hs)).trans ((if_neg hroom).trans ((if_pos hfit).trans ?_))
  rw [hmin]

/-- A checker that finds the pattern is in sync and counts its report. -/
theorem exec_checkerSync_found {lane : Fin 256} {received : List Bool} {bits errors : Nat} {s : State} (hc : s.dev.checks lane = true)
    (hs : s.dev.flag (Pg.lane_CHK_SYNC lane) = false) (hr : prbsInSync (s.dev.rd (Pg.lane_CHK_PATTERN lane)) received = true) :
    exec (.checkerSync lane received ⟨bits, errors⟩) s =
      .next (s.withDev ((s.dev.raise1 (Pg.lane_CHK_SYNC lane)).prbsCount lane bits errors)) :=
  s.next_congr ((if_neg (not_not_intro hc)).trans ((if_neg (ne_true_of_eq_false hs)).trans (if_pos hr)))

/-- 256 errors or more in a window of 1,024 bits lose a checker's sync. -/
theorem exec_syncLoss_lost {lane : Fin 256} {window bits errors : Nat} {s : State} (hs : s.dev.flag (Pg.lane_CHK_SYNC lane) = true)
    (hw : 256 ≤ window) :
    exec (.syncLoss lane window ⟨bits, errors⟩) s = .next (s.withDev (((s.dev.prbsCount lane bits errors).wrFlag
      (Pg.lane_CHK_SYNC lane) false).inc (Pg.lane_SYNC_LOSS lane))) :=
  s.next_congr (if_neg (not_or.mpr ⟨not_not_intro hs, Nat.not_lt.mpr hw⟩))

/-! ### The statement -/

/-- Settles O43: each row at the case that its hypotheses single out. -/
theorem rennet : Obligations.Rennet := by
  unfold Obligations.Rennet
  refine ⟨?set, ?clear, ?query, ?inject, ?written, ?read, ?laneBack, ?period, ?test, ?reply, ?sync, ?loss⟩
  case set =>
    rintro h cls target setting e s _ i rfl rfl ha hm hp hu - hs ht he
    exact exec_rennetSet_accepted ha hm hp hu hs ht he
  case clear =>
    rintro h s _ i rfl rfl ha
    exact runSilek_dev ha rfl
  case query =>
    rintro h s _ i rfl rfl ha
    exact runSilek_query ha rfl
  case inject =>
    rintro stream v s d rfl hv h2
    exact s.next_settled_congr (Dev.exerciseNext_repeats hv h2)
  case written | read =>
    rintro snoops c rest s d rfl rfl hm
    exact s.next_settled_congr (Dev.respondOne_memory hm)
  case laneBack =>
    rintro lane v s d rfl hv h0
    exact s.next_congr (Dev.laneBack_timed hv h0)
  case period =>
    rintro s d rfl hm
    exact s.next_congr (if_neg (not_not_intro hm))
  case test =>
    rintro h p g s d f rfl rfl hp hk hg
    exact s.next_congr (Dev.testIn_passes hp (Prod.ext rfl hk) hg)
  case reply =>
    rintro h o s d f rfl rfl ho
    exact exec_testRsp_matched (Prod.ext rfl ho)
  case sync =>
    rintro lane received bits errors n s d f rfl rfl hc hs hr hf hn hl hb
    rw [exec_checkerSync_found hc hs hr, Dev.prbsCount_within hf hn hl hb]
  case loss =>
    rintro lane window bits errors s d rfl hs hw
    exact exec_syncLoss_lost hs hw

end Sys2Proof.Machine
end

section
/-! SUPPORT. What packing messages into a flit and unpacking it keep, and the statement on it (O55). -/
namespace Sys2Proof.Machine
open Sys2Proof

/-! ### Fields of numbers -/

theorem fieldOf_eq_div_mod (n lo w : Nat) : fieldOf n lo w = n / 2 ^ lo % 2 ^ w := by
  rw [fieldOf, Nat.shiftRight_eq_div_pow]

theorem flagBit_eq_one (b : Bool) : decide (flagBit b = 1) = b := by cases b <;> rfl

theorem flagBit_lt (b : Bool) : flagBit b < 2 := by cases b <;> decide

/-! ### The two header units (R118) -/

theorem QflMsg.fits_iff (m : QflMsg) : m.fits = true ↔
    m.vc < 8 ∧ m.len < 16 ∧ m.opcode < 256 ∧ m.src < 32 ∧ m.dst < 32 ∧ m.hops < 8 ∧ m.master < 65536 ∧ m.tag < 65536 ∧
      m.epoch < 2 ^ 32 ∧ m.e2e < 2 ^ 32 := by
  simp only [QflMsg.fits, Bool.and_eq_true, decide_eq_true_eq, and_assoc]

/-- The number in unit 0. -/
def QflMsg.unit0 (m : QflMsg) : Nat :=
  m.vc + 2 ^ 3 * m.len + 2 ^ 7 * flagBit m.filtered + 2 ^ 8 * m.opcode + 2 ^ 16 * m.src + 2 ^ 21 * m.dst +
    2 ^ 26 * m.hops + 2 ^ 32 * m.master + 2 ^ 48 * m.tag

theorem QflMsg.words_eq (m : QflMsg) :
    m.words = BitVec.ofNat 64 m.unit0 :: BitVec.ofNat 64 (m.epoch + 2 ^ 32 * m.e2e) :: m.units := rfl

theorem QflMsg.length_words (m : QflMsg) : m.words.length = m.len := by
  simp only [QflMsg.words_eq, QflMsg.len, List.length_cons]; omega

theorem QflMsg.unit0_lt {m : QflMsg} (h : m.fits = true) : m.unit0 < 2 ^ 64 := by
  obtain ⟨hv, hl, ho, hs, hd, hh, hm, ht, -, -⟩ := m.fits_iff.mp h
  have hf := flagBit_lt m.filtered
  unfold QflMsg.unit0
  omega

/-- Each field of unit 0 comes back from its place. -/
theorem QflMsg.unit0_fields {m : QflMsg} (h : m.fits = true) :
    fieldOf m.unit0 0 3 = m.vc ∧ fieldOf m.unit0 3 4 = m.len ∧ fieldOf m.unit0 7 1 = flagBit m.filtered ∧
      fieldOf m.unit0 8 8 = m.opcode ∧ fieldOf m.unit0 16 5 = m.src ∧ fieldOf m.unit0 21 5 = m.dst ∧
      fieldOf m.unit0 26 3 = m.hops ∧ fieldOf m.unit0 32 16 = m.master ∧ fieldOf m.unit0 48 16 = m.tag := by
  obtain ⟨hv, hl, ho, hs, hd, hh, hm, ht, -, -⟩ := m.fits_iff.mp h
  have hf := flagBit_lt m.filtered
  simp only [fieldOf_eq_div_mod, QflMsg.unit0]
  refine ⟨?_, ?_, ?_, ?_, ?_, ?_, ?_, ?_, ?_⟩ <;> omega

/-- A message whose fields fit comes back from its header and units as the link carries it. -/
theorem QflMsg.ofWords_header {m : QflMsg} (h : m.fits = true) :
    QflMsg.ofWords (BitVec.ofNat 64 m.unit0) (BitVec.ofNat 64 (m.epoch + 2 ^ 32 * m.e2e)) m.units = m.carried := by
  obtain ⟨hvc, -, hfilt, hop, hsrc, hdst, hhops, hmast, htag⟩ := QflMsg.unit0_fields h
  obtain ⟨-, -, -, -, -, -, -, -, he, hx⟩ := m.fits_iff.mp h
  have h0 : (BitVec.ofNat 64 m.unit0).toNat = m.unit0 := Nat.mod_eq_of_lt (QflMsg.unit0_lt h)
  have h1 : (BitVec.ofNat 64 (m.epoch + 2 ^ 32 * m.e2e)).toNat = m.epoch + 2 ^ 32 * m.e2e := Nat.mod_eq_of_lt (by omega)
  have hepoch : fieldOf (m.epoch + 2 ^ 32 * m.e2e) 0 32 = m.epoch := by rw [fieldOf_eq_div_mod]; omega
  have he2e : fieldOf (m.epoch + 2 ^ 32 * m.e2e) 32 32 = m.e2e := by rw [fieldOf_eq_div_mod]; omega
  simp only [QflMsg.ofWords, h0, h1, hvc, hfilt, hop, hsrc, hdst, hhops, hmast, htag, hepoch, he2e, flagBit_eq_one, QflMsg.carried]

/-! ### UNIT_MAP (R117) -/

theorem unitMap_shift (u : Nat) (ms : List QflMsg) : unitMap u ms = 2 ^ u * unitMap 0 ms := by
  induction ms generalizing u with
  | nil => rfl
  | cons m l ih =>
    rw [unitMap, unitMap, Nat.zero_add, ih (u + m.len), ih m.len, Nat.pow_zero, Nat.pow_add, Nat.mul_add, Nat.mul_one, Nat.mul_assoc]

theorem unitMap_cons (m : QflMsg) (l : List QflMsg) : unitMap 0 (m :: l) = 1 + 2 ^ m.len * unitMap 0 l := by
  rw [unitMap, Nat.zero_add, Nat.pow_zero, unitMap_shift m.len l]

/-- From unit u on, the map of a message and those behind it marks unit u, no other unit of the message, and then what is behind. -/
theorem map_at_message {map u x n : Nat} (h : map / 2 ^ u = 1 + 2 ^ (n + 2) * x) :
    fieldOf map u 1 = 1 ∧ fieldOf map (u + 1) (n + 1) = 0 ∧ map / 2 ^ (u + (n + 2)) = x := by
  have heven : 2 ^ (n + 2) * x = 2 * (2 ^ (n + 1) * x) := by
    rw [Nat.pow_succ, Nat.mul_comm _ 2, Nat.mul_assoc]
  have hhalf : (1 + 2 ^ (n + 2) * x) / 2 = 2 ^ (n + 1) * x := by omega
  refine ⟨?_, ?_, ?_⟩
  · rw [fieldOf_eq_div_mod, h, heven]; omega
  · rw [fieldOf_eq_div_mod, Nat.pow_succ, ← Nat.div_div_eq_div_mul, h, hhalf, Nat.mul_mod_right]
  · rw [Nat.pow_add, ← Nat.div_div_eq_div_mul, h, Nat.add_mul_div_left _ _ (Nat.two_pow_pos _),
      Nat.div_eq_of_lt (Nat.one_lt_two_pow (by omega)), Nat.zero_add]

/-! ### The payload -/

theorem natWords_zero (n : Nat) : natWords n 0 = List.replicate n 0 := by
  induction n with
  | zero => rfl
  | succ n ih => rw [natWords, Nat.zero_div, ih]; rfl

/-- A payload gives back the words that spell it, and zero units behind them. -/
theorem natWords_wordsNat (ws : List (BitVec 64)) (k : Nat) :
    natWords (ws.length + k) (wordsNat ws) = ws ++ List.replicate k 0 := by
  induction ws with
  | nil => rw [List.length_nil, Nat.zero_add]; exact natWords_zero k
  | cons w l ih =>
    have hw := w.isLt
    have hword : BitVec.ofNat 64 (w.toNat + 2 ^ 64 * wordsNat l) = w := by
      apply BitVec.eq_of_toNat_eq; rw [BitVec.toNat_ofNat]; omega
    have hrest : (w.toNat + 2 ^ 64 * wordsNat l) / 2 ^ 64 = wordsNat l := by omega
    rw [List.length_cons, Nat.add_right_comm, natWords, wordsNat, hword, hrest, ih, List.cons_append]

/-! ### Unpacking -/

/-- The units that messages fill. -/
def unitsOf (ms : List QflMsg) : Nat := (ms.map QflMsg.len).foldr (· + ·) 0

theorem unitsOf_cons (m : QflMsg) (l : List QflMsg) : unitsOf (m :: l) = m.len + unitsOf l := rfl

theorem length_words_flatten (ms : List QflMsg) : (ms.map QflMsg.words).flatten.length = unitsOf ms := by
  induction ms with
  | nil => rfl
  | cons m l ih => rw [List.map_cons, List.flatten_cons, List.length_append, QflMsg.length_words, ih, unitsOf_cons]

/-- Each message fills the two units of its header at least. -/
theorem two_mul_length_le_unitsOf (ms : List QflMsg) : 2 * ms.length ≤ unitsOf ms := by
  induction ms with
  | nil => exact Nat.le_refl 0
  | cons m l ih => rw [List.length_cons, unitsOf_cons, QflMsg.len]; omega

/-- Behind the last message stand zero units that the map does not name: nothing more is unpacked. -/
theorem parseUnits_end (f u cap map k : Nat) (hm : map / 2 ^ u = 0) : parseUnits f u cap map (List.replicate k 0) = some [] := by
  cases f with
  | zero => rfl
  | succ f =>
    cases k with
    | zero => exact if_pos hm
    | succ k =>
      have h0 : fieldOf map u 1 = 0 := by rw [fieldOf_eq_div_mod, hm, Nat.zero_mod]
      have hz : ((0 : BitVec 64) :: List.replicate k 0).all (· = 0) = true := by simp
      rw [List.replicate_succ, parseUnits, if_pos h0, if_pos ⟨hz, hm⟩]

/-- A message that stands at unit u is unpacked, and unpacking goes on behind it. -/
theorem parseUnits_message {f u cap map x : Nat} {m : QflMsg} (ws : List (BitVec 64)) (h : m.fits = true) (hc : u + m.len ≤ cap)
    (hm : map / 2 ^ u = 1 + 2 ^ m.len * x) :
    parseUnits (f + 1) u cap map (m.words ++ ws) = (parseUnits f (u + m.len) cap map ws).map (m.carried :: ·) := by
  obtain ⟨-, hlen, -⟩ := QflMsg.unit0_fields h
  have h0 : (BitVec.ofNat 64 m.unit0).toNat = m.unit0 := Nat.mod_eq_of_lt (QflMsg.unit0_lt h)
  have hl : m.len = m.units.length + 2 := Nat.add_comm _ _
  rw [hl] at hm hc
  obtain ⟨hbit, hgap, -⟩ := map_at_message hm
  have hok : ¬ (m.units.length + 2 < 2 ∨ cap < u + (m.units.length + 2) ∨ fieldOf map (u + 1) (m.units.length + 2 - 1) ≠ 0) := by
    rintro (hlo | hhi | hne)
    · omega
    · omega
    · exact hne hgap
  rw [QflMsg.words_eq, List.cons_append, List.cons_append, parseUnits, if_neg (by omega)]
  simp only [h0, hlen, hl, if_neg hok, Nat.add_sub_cancel, List.drop_left, List.take_left, QflMsg.ofWords_header h]

/-- Messages packed from unit u are unpacked in order. -/
theorem parseUnits_packed {cap map k : Nat} : ∀ (ms : List QflMsg) (f u : Nat), (∀ m ∈ ms, m.fits = true) → ms.length ≤ f →
    u + unitsOf ms ≤ cap → map / 2 ^ u = unitMap 0 ms →
    parseUnits f u cap map ((ms.map QflMsg.words).flatten ++ List.replicate k 0) = some (ms.map QflMsg.carried) := by
  intro ms
  induction ms with
  | nil => exact fun f u _ _ _ hm => parseUnits_end f u cap map k hm
  | cons m l ih =>
    intro f u hfit hf hc hm
    obtain ⟨hfm, hfl⟩ := List.forall_mem_cons.mp hfit
    rw [unitsOf_cons] at hc
    rw [unitMap_cons] at hm
    obtain ⟨g, rfl⟩ : ∃ g, f = g + 1 := ⟨f - 1, by rw [List.length_cons] at hf; omega⟩
    have hnext : map / 2 ^ (u + m.len) = unitMap 0 l := by
      rw [QflMsg.len, Nat.add_comm 2] at hm ⊢
      exact (map_at_message hm).2.2
    rw [List.map_cons, List.flatten_cons, List.append_assoc, parseUnits_message _ hfm (by omega) hm,
      ih g (u + m.len) hfl (Nat.le_of_succ_le_succ hf) (by omega) hnext]
    rfl

/-- What fits a flit is unpacked from its payload and UNIT_MAP. -/
theorem flitMessages_packed {enc : Bool} {ms : List QflMsg} (hn : ms ≠ []) (hf : ∀ m ∈ ms, m.fits = true)
    (hc : unitsOf ms ≤ if enc then 13 else 15) :
    flitMessages enc (unitMap 0 ms) (wordsNat (ms.map QflMsg.words).flatten) = some (ms.map QflMsg.carried) := by
  have hcount : ms.length ≤ 16 := by
    have htwo := two_mul_length_le_unitsOf ms
    have hcap : unitsOf ms ≤ 15 := Nat.le_trans hc (by split <;> omega)
    omega
  rw [flitMessages]
  generalize (if enc then 13 else 15) = cap at hc ⊢
  obtain ⟨k, rfl⟩ := Nat.exists_eq_add_of_le hc
  have hparse := parseUnits_packed (cap := unitsOf ms + k) (k := k) ms 16 0 hf hcount (by omega) (Nat.div_one (unitMap 0 ms))
  have hwords := natWords_wordsNat (ms.map QflMsg.words).flatten k
  rw [length_words_flatten] at hwords
  obtain ⟨m, l, rfl⟩ := List.exists_cons_of_ne_nil hn
  rw [hwords, hparse, List.map_cons]

/-! ### The CRC (R116) -/

theorem leBytes_mod (n v : Nat) : leBytes n (v % 2 ^ (8 * n)) = leBytes n v := by
  induction n generalizing v with
  | zero => rfl
  | succ n ih =>
    have hlow : BitVec.ofNat 8 (v % 2 ^ (8 * (n + 1))) = BitVec.ofNat 8 v := by
      apply BitVec.eq_of_toNat_eq
      rw [BitVec.toNat_ofNat, BitVec.toNat_ofNat]
      exact Nat.mod_mod_of_dvd v (Nat.pow_dvd_pow 2 (by omega))
    have hhigh : v % 2 ^ (8 * (n + 1)) / 256 = v / 256 % 2 ^ (8 * n) := by
      rw [Nat.mul_succ, Nat.pow_add, Nat.mul_comm]
      exact Nat.mod_mul_right_div_self v 256 _
    rw [leBytes, leBytes, hlow, hhigh, ih]

/-- The CRC is that of bytes 0 to 123 alone. -/
theorem flitCrc_congr (s : Nat) {a b : BitVec 1024} (h : a.toNat % 2 ^ 992 = b.toNat % 2 ^ 992) : flitCrc s a = flitCrc s b := by
  have hcut (v : Nat) : leBytes 124 (v % 2 ^ 992) = leBytes 124 v := by simpa only [Nat.reduceMul] using leBytes_mod 124 v
  have hbytes : bitsBytes 124 a = bitsBytes 124 b := by rw [bitsBytes, bitsBytes, ← hcut a.toNat, h, hcut]
  rw [flitCrc, flitCrc, hbytes]

theorem flitCrc_lt (s : Nat) (b : BitVec 1024) : flitCrc s b < 2 ^ 32 := BitVec.isLt _

/-- Sealing puts the CRC above the body. -/
theorem sealFlit_toNat {s body : Nat} (h : body < 2 ^ 992) :
    (sealFlit s body).toNat = body + 2 ^ 992 * flitCrc s (BitVec.ofNat 1024 body) := by
  have hc := flitCrc_lt s (BitVec.ofNat 1024 body)
  rw [sealFlit, BitVec.toNat_ofNat]
  exact Nat.mod_eq_of_lt (by omega)

theorem sealFlit_body {s body : Nat} (h : body < 2 ^ 992) : (sealFlit s body).toNat % 2 ^ 992 = body := by
  rw [sealFlit_toNat h]; omega

/-- The receiver computes over a sealed flit the CRC that it bears. -/
theorem sealFlit_crc {s body : Nat} (h : body < 2 ^ 992) : (sealFlit s body).toNat / 2 ^ 992 = flitCrc s (sealFlit s body) := by
  have hbody : (BitVec.ofNat 1024 body).toNat = body := by
    rw [BitVec.toNat_ofNat]
    exact Nat.mod_eq_of_lt (by omega)
  have hsame : flitCrc s (sealFlit s body) = flitCrc s (BitVec.ofNat 1024 body) :=
    flitCrc_congr s (by rw [sealFlit_body h, hbody, Nat.mod_eq_of_lt h])
  rw [hsame, sealFlit_toNat h]; omega

/-! ### The statement -/

/-- Settles O55: messages are unpacked one by one, and sealing touches bytes 124 to 127 alone. -/
theorem flitRoundTrip : Obligations.FlitRoundTrip := by
  unfold Obligations.FlitRoundTrip
  refine ⟨?packed, ?header, ?sealed⟩
  case packed =>
    intro enc ms hn hf hc
    exact flitMessages_packed hn hf hc
  case header =>
    intro m hf
    exact QflMsg.ofWords_header hf
  case sealed =>
    intro s body h
    exact ⟨sealFlit_crc h, sealFlit_body h⟩

end Sys2Proof.Machine
end

section
/-! SUPPORT. What requests of peers, recalls at a proxy, responses and time limits of transactions do, and the statements on them (O28,
O29). -/
namespace Sys2Proof.Machine
open Sys2Proof

/-! ### Requests of peers (VC0) -/

/-- A request that passes the epoch check and the duplicate filter, while admission is not stopped, is launched at its home. -/
theorem Dev.peerRequest_launches {t op : Nat} {h : QflHdr} {w : ReqWord} {be : Enables} {data : Line} {atom : Option AtomArgs} {d f : Dev}
    {g : Access × Dev} (hr : d.receiveFiltered t 0 op h = (f, true)) (hg : g = f.peerAccess t op h w be data atom)
    (hs : f.stopped = false) (hh : g.2.isHome w.addr = true) (hv : g.2.serves = true) :
    d.peerRequest t op h w be data atom = g.2.later (.launch g.1) := by
  subst hg
  simp only [Dev.peerRequest, hr, hs, hh, hv, not_true, Bool.false_eq_true, or_self, and_self, if_false, if_true]

/-- An operation of R252 on an aligned operand is a request like the others. -/
theorem exec_qflAtomic_wellFormed {h : QflHdr} {w : ReqWord} {op a b : Nat} {s : State} (h1 : 1 ≤ op) (h4 : op ≤ 4)
    (ha : w.addr % ({ op, a, b } : AtomArgs).size = 0) :
    exec (.qflAtomic h w op a b) s = .next (s.settledFrom (s.withDev
      (s.dev.peerRequest s.time.now 9 h w (BitVec.allOnes 64) 0 (some { op, a, b })))) := by
  have hok : ¬ (op = 0 ∨ 4 < op ∨ w.addr % ({ op, a, b } : AtomArgs).size ≠ 0) := by
    rintro (h0 | h5 | hne)
    · omega
    · omega
    · exact hne ha
  exact s.next_settled_congr (if_neg hok)

/-- PLOST of a line that no tracker works on is launched at its home. -/
theorem Dev.plostIn_untracked {t : Nat} {h : QflHdr} {w : ReqWord} {d f : Dev} {g : Access × Dev}
    (hr : d.receiveFiltered t 0 10 h = (f, true)) (hg : g = f.peerAccess t 10 h w (BitVec.allOnes 64) 0 none)
    (hh : g.2.isHome w.addr = true) (ht : g.2.trackerOn (lineAddr w.addr) = none) :
    d.plostIn t h w = g.2.later (.launch g.1) := by
  subst hg
  simp only [Dev.plostIn, hr, hh, ht, not_true, if_false]

/-! ### Recalls at a proxy (VC1) -/

/-- The work that a recall of kind `keep` makes for the slice of its line. -/
def recallWork (t keep id la : Nat) (h : QflHdr) : ChurnWork :=
  { slice := sliceOf la, acc := { id, kind := .recall, origin := .churn 0, master := h.master, fa := laFa la, keep, time := t }, la
    reply := some (h.src, h.tag, h.e2e) }

/-- A recall of a line whose home is elsewhere waits for the line as work of its slice. -/
theorem Dev.recallIn_proxy {t kind addr : Nat} {h : QflHdr} {d f : Dev} {w : ChurnWork}
    (hr : d.receiveFiltered t 1 (kind + 1) h = (f, true)) (hw : w = recallWork t kind f.newId.1 (lineAddr addr) h)
    (hh : f.homeLine (lineAddr addr) = false) :
    d.recallIn t kind h addr =
      ((f.newId.2.churnWork w).proxyYield t (lineAddr addr)).later (.lineFree (sliceOf (lineAddr addr)) (lineAddr addr)) := by
  subst hw
  simp only [Dev.recallIn, hr, hh, not_true, Bool.false_eq_true, if_false, recallWork]

/-! ### Responses (VC2, VC3) -/

/-- A response that matches an outstanding request ends it. -/
theorem Dev.responseIn_matched {t vc op : Nat} {h : QflHdr} {r : Answer} {d f : Dev} {o : Outst}
    (hm : d.matchResponse t vc op h = (f, some o)) : d.responseIn t vc op h r = f.closeOutst o r := by
  simp only [Dev.responseIn, hm]

/-- A QFL_NAK to a request of this device's own agent: the agent keeps the access for another try. -/
theorem Dev.nakIn_direct {t hint : Nat} {ticket : Option Nat} {h : QflHdr} {d f : Dev} {o : Outst} {a : Access}
    (hm : d.matchResponse t 2 2 h = (f, some o)) (ho : o.cont = .direct a) :
    d.nakIn t h hint ticket =
      { f with chn := { f.chn with retries := f.chn.retries ++ [{ acc := { a with naks := min 3 (a.naks + 1), ticket }, hint }] } } := by
  simp only [Dev.nakIn, hm, ho]

/-- A request that is not answered in time is counted for its destination and ends. -/
theorem Dev.transactionTimeout_request {t dst tag : Nat} {d f : Dev} {o : Outst} (hf : f = d.inc (Qfab.TIMEOUTS (dst - 1)))
    (ho : d.fab.outstanding.find? (fun x => decide (x.dst = dst ∧ x.tag = tag)) = some o) (h1 : 1 ≤ dst) (h16 : dst ≤ 16)
    (hv : o.vc ≠ 4) :
    d.transactionTimeout t dst tag =
      (({ f with fab := { f.fab with outstanding := f.fab.outstanding.erase o } } : Dev).sendWaiting t).closeOutst o
        { poison := true, ending := .timedOut } := by
  subst hf
  simp only [Dev.transactionTimeout, ho, h1, h16, and_self, if_true, if_neg hv]

/-! ### The statements -/

/-- Settles O28: each opcode is a request of its kind, which its home launches. -/
theorem peerRequests : Obligations.PeerRequests := by
  unfold Obligations.PeerRequests
  refine ⟨?shared, ?own, ?invOwn, ?flush, ?evict, ?wb, ?rdNc, ?wrNc, ?atomic, ?lost⟩
  case shared | own | invOwn | flush | evict | rdNc =>
    rintro h w s _ _ _ rfl rfl rfl hok hs hh hv
    exact s.next_settled_congr (Dev.peerRequest_launches (Prod.ext rfl hok) rfl hs hh hv)
  case wb =>
    rintro h w data s _ _ _ rfl rfl rfl hok hs hh hv
    exact s.next_settled_congr (Dev.peerRequest_launches (Prod.ext rfl hok) rfl hs hh hv)
  case wrNc =>
    rintro h w be data s _ _ _ rfl rfl rfl hok hs hh hv
    exact s.next_settled_congr (Dev.peerRequest_launches (Prod.ext rfl hok) rfl hs hh hv)
  case atomic =>
    rintro h w op a b s _ _ _ rfl rfl rfl hok hs hh hv h1 h4 ha
    rw [exec_qflAtomic_wellFormed h1 h4 ha, Dev.peerRequest_launches (Prod.ext rfl hok) rfl hs hh hv]
  case lost =>
    rintro h w s _ _ _ rfl rfl rfl hok hh ht
    exact s.next_settled_congr (Dev.plostIn_untracked (Prod.ext rfl hok) rfl hh ht)

/-- Settles O29: a recall goes to its slice, a response ends the request that it matches, and a request past its time ends. -/
theorem recallsAndResponses : Obligations.RecallsAndResponses := by
  unfold Obligations.RecallsAndResponses
  refine ⟨?inv, ?data, ?cur, ?cmp, ?nak, ?recallRsp, ?dataMsg, ?recallData, ?atomic, ?error, ?timeout⟩
  case inv | data | cur =>
    rintro h addr s _ _ _ rfl rfl rfl hok hh
    exact s.next_settled_congr (Dev.recallIn_proxy (Prod.ext rfl hok) rfl hh)
  case cmp =>
    rintro h grant error o s _ _ rfl rfl ho
    exact s.next_settled_congr (Dev.responseIn_matched (Prod.ext rfl ho))
  case nak =>
    rintro h cause hint ticket o a s _ _ rfl rfl ho hc h0
    exact s.next_settled_congr ((Dev.nakIn_direct (Prod.ext rfl ho) hc).trans (by rw [if_neg h0]))
  case recallRsp =>
    rintro h grant o s _ _ rfl rfl ho
    exact s.next_settled_congr (Dev.responseIn_matched (Prod.ext rfl ho))
  case dataMsg =>
    rintro h grant poison error data o s _ _ rfl rfl ho
    exact s.next_settled_congr (Dev.responseIn_matched (Prod.ext rfl ho))
  case recallData =>
    rintro h grant poison data o s _ _ rfl rfl ho
    exact s.next_settled_congr (Dev.responseIn_matched (Prod.ext rfl ho))
  case atomic =>
    rintro h poison error value o s _ _ rfl rfl ho
    exact s.next_settled_congr (Dev.responseIn_matched (Prod.ext rfl ho))
  case error =>
    rintro h cause o s _ _ rfl rfl ho h0
    exact s.next_settled_congr ((if_neg h0).trans (Dev.responseIn_matched (Prod.ext rfl ho)))
  case timeout =>
    rintro dst tag o s _ _ rfl rfl ho h1 h16 hv
    exact s.next_settled_congr (Dev.transactionTimeout_request rfl ho h1 h16 hv)

end Sys2Proof.Machine
end

section
/-! SUPPORT. What flits, Whey messages and timers do at the link layer of a QFL port, and the statement on them (O32). -/
namespace Sys2Proof.Machine
open Sys2Proof

@[simp] theorem Dev.flag_setLink (d : Dev) (p : Nat) (x : QflLink) (f : Field) : (d.setLink p x).flag f = d.flag f := rfl

/-! ### Flits (R114 to R117) -/

theorem flitKind_eq (b : Nat) : b % 2 ^ 32 % 4 = b % 4 := Nat.mod_mod_of_dvd b (by decide)

/-- A flit that no port in LOOPBACK returns is received. -/
theorem exec_flit_received {port : Fin 64} (bits : BitVec 1024) {s : State} (h7 : s.dev.rd (Pg.phy_STATE port) ≠ 7) :
    exec (.flit port bits) s = .next (s.withDev (s.dev.rxFlit s.time.now port bits)) :=
  s.next_congr (if_neg h7)

/-- A REPLAY flit with a wrong CRC, not the fourth bad one in a row, is counted. -/
theorem Dev.rxFlit_replay_damaged {t p : Nat} {bits : BitVec 1024} {d f : Dev}
    (hf : f = (d.inc (Pg.ll_CRC_ERRORS p)).mon t (p / 4) 0x105 0xffff 0) (hh : d.hears p = true) (hk : bits.toNat % 4 = 2)
    (hc : bits.toNat / 2 ^ 992 ≠ flitCrc (fieldOf (bits.toNat % 2 ^ 32) 2 12) bits) (hb : (f.link p).badRun < 3) :
    d.rxFlit t p bits = f.setLink p { f.link p with badRun := (f.link p).badRun + 1 } := by
  subst hf
  have hkind : ¬ (2 = 0 ∨ 2 = 3) := by decide
  have hnew : ¬ 2 = 1 := by decide
  simp only [Dev.rxFlit, flitKind_eq, hk, hh, hkind, hnew, hc, Nat.ne_of_lt hb, ne_eq, not_true, not_false_eq_true, false_and, if_false,
    if_true]

/-- A sound NEW flit of a link in the clear ends a run of bad ones and is accepted under the next sequence. -/
theorem Dev.rxFlit_new_sound {t p : Nat} {bits : BitVec 1024} {d f : Dev}
    (hf : f = d.setLink p { d.link p with nextNew := ((d.link p).nextNew + 1) % 4096, rxFlits := (d.link p).rxFlits + 1 })
    (hh : d.hears p = true) (hk : bits.toNat % 4 = 1) (hs : d.flag (Pg.ll_RX_SYNCED p) = true)
    (hc : bits.toNat / 2 ^ 992 = flitCrc (d.link p).nextNew bits) (he : fieldOf (bits.toNat % 2 ^ 32) 14 1 = 0)
    (hp : d.flag (Pg.ll_ENCRYPTED p) = false) :
    d.rxFlit t p bits = (f.setLink p { f.link p with badRun := 0 }).acceptFlit t p (d.link p).nextNew
      (flitMessages false (fieldOf (bits.toNat % 2 ^ 32) 16 15) (fieldOf bits.toNat 32 960)) := by
  subst hf
  have hkind : ¬ (1 = 0 ∨ 1 = 3) := by decide
  have hclear : ¬ 0 = 1 := by decide
  simp only [Dev.rxFlit, flitKind_eq, hk, hh, hs, hkind, hclear, hc, he, hp, Dev.flag_setLink, ne_eq, not_true, and_false,
    decide_false, Bool.false_eq_true, if_false, if_true]

/-! ### Acknowledgements and credits (R122, R131) -/

/-- A NAK without RESYNC on a link without selective retransmission: a sound replay buffer goes out again as a whole. -/
theorem Dev.rxNak_replays {t p seq : Nat} {map : BitVec 16} {synced : Bool} {d g : Dev} (hg : g = (d.freeReplay p seq).confirm p synced)
    (hw : g.flaws = []) (hs : g.selective p = false) :
    d.rxNak t p seq map synced false = (g.replayFlits t p (g.link p).replay).pump p := by
  subst hg
  simp only [Dev.rxNak, hs, Bool.false_eq_true, if_false, Dev.resendFlits_of_sound hw]

/-- The count of a channel seen before sets its limit; sound credit counters agree with it. -/
theorem Dev.creditIn_seen {t p vc count : Nat} {d : Dev} (hw : d.flaws = []) (hv : vc ≤ 5) (hc : count < 65536)
    (hs : (d.link p).creditSeen.contains vc = true) :
    d.creditIn t p vc count =
      (((d.setLink p { d.link p with limit := Tab.put (d.link p).limit vc count 0 }).syncUp p).pump p).syncLink p := by
  simp only [Dev.creditIn, Nat.not_lt.mpr hv, if_false, Dev.creditRight hw p hc, hs, if_true]

/-! ### Timers -/

/-- The replay timer below its limit sends a sound replay buffer again and counts the expiry (R131, R133). -/
theorem exec_replayTimer_below {port : Fin 64} {s : State} {f : Dev}
    (hf : f = (s.dev.setLink port { s.dev.link port with expiries := (s.dev.link port).expiries + 1 }).replayFlits s.time.now port
      (s.dev.link port).replay)
    (hw : s.dev.flaws = []) (hh : s.dev.hears port = true) (hr : (s.dev.link port).replay ≠ []) (hs : s.dev.selective port = false)
    (hl : (s.dev.link port).expiries + 1 < f.rd (Pg.ll_REPLAY_LIMIT port)) :
    exec (.replayTimer port) s = .next (s.withDev f) := by
  subst hf
  refine s.next_congr ((if_neg (not_or.mpr ⟨not_not_intro hh, hr⟩)).trans ?_)
  have hsound (x : QflLink) : (s.dev.setLink port x).flaws = [] := hw
  simp only [hs, Bool.false_eq_true, if_false, Dev.resendFlits_of_sound (hsound _), not_true, hl, if_true]

/-- The only message of a port is past its life: the port holds none any more, and the drop is counted (R144). -/
theorem Dev.lifetime_last {t p : Nat} {m : QflMsg} {d : Dev} (hq : (d.link p).txq = [m]) (hr : (d.link p).replay = [])
    (hm : m.born + 500000 ≤ t) : d.lifetime t p = (d.setLink p { d.link p with txq := [], replay := [] }).lifeDrop t m := by
  have he : m.expired t = true := decide_eq_true hm
  simp [Dev.lifetime, hq, hr, he]

/-- The drop of another device's message is answered. -/
theorem Dev.lifeDrop_foreign {t : Nat} {m : QflMsg} {d : Dev} (h : (d.inc Qfab.LIFETIME_DROPS).ownAddr m.src = false) :
    d.lifeDrop t m = (d.inc Qfab.LIFETIME_DROPS).msgError t m 3 := by
  simp only [Dev.lifeDrop, h, Bool.false_eq_true, if_false]

/-- The port's twin holds nothing that the port's own route takes: the port sends again (R142). -/
theorem exec_routeReturn_returns {port : Fin 64} {x : QflLink} {s : State} (ha : s.dev.flag (Pg.ll_ROUTED_AWAY port) = true)
    (h2 : s.dev.rd (Pg.ll_LL_STATE port) = 2) (hx : x = s.dev.link (s.dev.rd (Pg.ll_TWIN_PORT port)))
    (hq : x.txq.any (fun m => s.dev.routedBy port m) = false)
    (hr : x.replay.any (fun y => y.msgs.any (fun m => s.dev.routedBy port m)) = false) :
    exec (.routeReturn port) s = .next (s.withDev ((s.dev.wrFlag (Pg.ll_ROUTED_AWAY port) false).pump port)) := by
  subst hx
  have hbusy : ¬ ((s.dev.link (s.dev.rd (Pg.ll_TWIN_PORT port))).txq.any (fun m => s.dev.routedBy port m) ||
      (s.dev.link (s.dev.rd (Pg.ll_TWIN_PORT port))).replay.any (fun y => y.msgs.any (fun m => s.dev.routedBy port m))) = true := by
    rw [hq, hr]; exact Bool.false_ne_true
  exact s.next_congr (if_pos ⟨ha, h2, hbusy⟩)

/-! ### The statement -/

/-- Settles O32: each row at the case that its hypotheses single out. -/
theorem linkFlits : Obligations.LinkFlits := by
  unfold Obligations.LinkFlits
  refine ⟨?damaged, ?sound, ?ack, ?nak, ?credit, ?seqSync, ?syncRepeat, ?refresh, ?ackTimer, ?nakTimer, ?replayTimer, ?hold, ?age,
    ?routeReturn, ?lifetime⟩
  case damaged =>
    rintro port bits s _ _ rfl rfl h7 hh hk hc hb
    rw [exec_flit_received bits h7, Dev.rxFlit_replay_damaged rfl hh hk hc hb]
  case sound =>
    rintro port bits s _ _ rfl rfl h7 hh hk hs - hc he hp - -
    rw [exec_flit_received bits h7, Dev.rxFlit_new_sound rfl hh hk hs hc he hp]
  case ack =>
    rintro port seq synced crc s _ rfl hh hc
    exact s.next_congr (Dev.wheyIn_intact hh hc _)
  case nak =>
    rintro port seq map synced resync crc s _ _ rfl rfl hw hh rfl hs hc
    exact s.next_congr ((Dev.wheyIn_intact hh hc _).trans (Dev.rxNak_replays rfl hw hs))
  case credit =>
    rintro port vc count crc s _ rfl hw hh hv hseen hc
    exact s.next_congr ((Dev.wheyIn_intact hh hc _).trans (Dev.creditIn_seen hw hv count.isLt hseen))
  case seqSync =>
    rintro port next crc s _ _ rfl rfl hh hc hm
    exact s.next_congr ((Dev.wheyIn_intact hh hc _).trans (if_pos hm))
  case syncRepeat =>
    rintro port s _ rfl hc
    exact s.next_congr (if_neg (ne_true_of_eq_false hc))
  case refresh =>
    rintro port s _ rfl
    rfl
  case ackTimer =>
    rintro port s _ rfl hh ha hm
    exact s.next_congr ((if_pos ⟨hh, ha⟩).trans (if_pos hm))
  case nakTimer =>
    rintro port s _ rfl hh hm
    exact s.next_congr (if_pos ⟨hh, hm⟩)
  case replayTimer =>
    rintro port s _ _ rfl rfl hw hh hr hs hl
    exact exec_replayTimer_below rfl hw hh hr hs hl
  case hold =>
    rintro port s _ rfl h3
    exact s.next_congr (if_pos h3)
  case age =>
    rintro port s _ rfl hr
    exact s.next_congr (if_neg hr)
  case routeReturn =>
    rintro port x s _ rfl ha h2 hx hq hr
    exact exec_routeReturn_returns ha h2 hx hq hr
  case lifetime =>
    rintro port m s _ _ rfl rfl hq hr hm ho
    exact s.next_congr ((Dev.lifetime_last hq hr hm).trans (Dev.lifeDrop_foreign ho))

end Sys2Proof.Machine
end

section
/-! SUPPORT. What a width change and the encryption of a QFL link do, and the statements on them (O33, O34). -/
namespace Sys2Proof.Machine
open Sys2Proof

/-! ### Changing the width (R135 to R139) -/

/-- While no own request waits for its answer, a partner's request is answered by this end's tests. -/
theorem Dev.widthReq_free {p k id : Nat} {d : Dev} (h : (d.link p).widthStep = 0) : d.widthReq p k id = d.widthAnswer p k id := by
  have h1 : (d.link p).widthStep ≠ 1 := by omega
  exact if_neg h1

theorem Dev.widthAnswer_refuses {p k id : Nat} {d : Dev} (h : d.widthOk p k = false) : d.widthAnswer p k id = d.whey p 5 [2, k, id] :=
  if_neg (ne_true_of_eq_false h)

theorem Dev.widthAnswer_begins {p k id : Nat} {d : Dev} (h : d.widthOk p k = true) :
    d.widthAnswer p k id = ((((d.setLink p { d.link p with width := some (k, id, false) }).raise1 (Pg.ll_WIDTH_BUSY p)).wr
      (Pg.ll_WIDTH_TARGET p) k).whey p 5 [1, k, id]).widthStart p :=
  if_pos h

/-- The partner's request reaches the width change once its CRC-8 is right. -/
theorem exec_widthReqMessage_free {port : Fin 64} {width : Fin 8} {id crc : BitVec 8} {s : State} (hh : s.dev.hears port = true)
    (hc : crc = wheyCrc 5 [0, width, id.toNat]) (h0 : (s.dev.link port).widthStep = 0) :
    exec (.widthReqMessage ⟨port, crc⟩ width id) s = .next (s.withDev (s.dev.widthAnswer port width id.toNat)) :=
  s.next_congr ((Dev.wheyIn_intact hh hc _).trans (Dev.widthReq_free h0))

/-- READY of the change under way, whose lanes wake at this end, makes it switch. -/
theorem exec_widthReady_switches {port : Fin 64} {width : Fin 8} {id crc : BitVec 8} {k : Nat} {own : Bool} {s : State}
    (hh : s.dev.hears port = true) (hc : crc = wheyCrc 5 [3, width, id.toNat]) (h2 : (s.dev.link port).widthStep = 2)
    (hw : (s.dev.link port).width = some (k, id.toNat, own)) :
    exec (.widthReady ⟨port, crc⟩ ⟨width, id⟩) s =
      .next (s.withDev ((s.dev.setLink port { s.dev.link port with readySeen := true }).widthSwitch port)) := by
  have hid : (s.dev.link port).width.map (fun x => x.2.1) = some id.toNat := by rw [hw]; rfl
  exact s.next_congr ((Dev.wheyIn_intact hh hc _).trans (if_pos ⟨h2, hid⟩))

/-- WIDTH_SWITCH of the change under way is noted. -/
theorem exec_widthSwitch_agreed {port : Fin 64} {width : Fin 8} {id : BitVec 8} {own : Bool} {s : State}
    (hw : (s.dev.link port).width = some (width.val, id.toNat, own)) :
    exec (.widthSwitch port width id) s =
      .next (s.withDev ((s.dev.setLink port { s.dev.link port with switchSeen := true }).widthDone port)) := by
  have hid : (s.dev.link port).width.map (fun x => (x.1, x.2.1)) = some (width.val, id.toNat) := by rw [hw]; rfl
  exact s.next_congr (if_pos hid)

/-- Lanes that are locked and marked answer READY once. -/
theorem exec_wakingLanesLocked_ready {port : Fin 64} {k id : Nat} {own : Bool} {s : State}
    (hw : (s.dev.link port).width = some (k, id, own)) (hu : s.dev.widening port = true) (hm : 0 < (s.dev.link port).marks)
    (hr : (s.dev.link port).readySent = false) :
    exec (.wakingLanesLocked port) s =
      .next (s.withDev ((s.dev.setLink port { s.dev.link port with readySent := true }).whey port 5 [3, k, id])) := by
  refine s.next_congr ?_
  simp only [hw]
  exact if_pos ⟨hu, hm, ne_true_of_eq_false hr⟩

/-- Waking lanes of either end that are not ready in time abandon the change. -/
theorem exec_widthWakeTimeout_abandons {port : Fin 64} {s : State} (hu : s.dev.widening port = true)
    (hr : (s.dev.link port).readySent = false ∨ (s.dev.link port).readySeen = false) :
    exec (.widthWakeTimeout port) s = .next (s.withDev (s.dev.widthAbandon port)) := by
  have hwaits : ¬ ((s.dev.link port).readySent = true ∧ (s.dev.link port).readySeen = true) := by
    rintro ⟨hsent, hseen⟩
    rcases hr with h | h
    · exact ne_true_of_eq_false h hsent
    · exact ne_true_of_eq_false h hseen
  exact s.next_congr (if_pos ⟨hu, hwaits⟩)

/-- After the delay a request that still passes the tests is sent again (R138). -/
theorem exec_widthRetryDelay_sends {port : Fin 64} {k : Nat} {s : State} (hk : (s.dev.link port).widthRetry = some k)
    (ho : s.dev.widthOk port k = true) : exec (.widthRetryDelay port) s = .next (s.withDev (s.dev.widthSend port k)) := by
  refine s.next_congr ?_
  simp only [hk]
  exact if_pos ho

/-- Settles O33: each row at the case that its hypotheses single out. -/
theorem widthChange : Obligations.WidthChange := by
  unfold Obligations.WidthChange
  refine ⟨?refused, ?begun, ?ack, ?refuse, ?ready, ?switch, ?mark, ?locked, ?noAnswer, ?noWake, ?retry⟩
  case refused =>
    rintro port width id crc s _ rfl hh hc h0 ho
    rw [exec_widthReqMessage_free hh hc h0, Dev.widthAnswer_refuses ho]
  case begun =>
    rintro port width id crc s _ rfl hh hc h0 ho
    rw [exec_widthReqMessage_free hh hc h0, Dev.widthAnswer_begins ho]
  case ack | refuse =>
    rintro port width id crc s _ rfl hh hc ha
    exact s.next_congr ((Dev.wheyIn_intact hh hc _).trans (if_pos ha))
  case ready =>
    rintro port width id crc k own s _ rfl hh hc h2 hw
    exact exec_widthReady_switches hh hc h2 hw
  case switch =>
    rintro port width id own s _ rfl hw
    exact exec_widthSwitch_agreed hw
  case mark =>
    rintro port s _ rfl hu
    exact s.next_congr (if_pos hu)
  case locked =>
    rintro port k id own s _ rfl hw hu hm hr
    exact exec_wakingLanesLocked_ready hw hu hm hr
  case noAnswer =>
    rintro port s _ rfl h1
    exact s.next_congr (if_pos h1)
  case noWake =>
    rintro port s _ rfl hu hr
    exact exec_widthWakeTimeout_abandons hu hr
  case retry =>
    rintro port k s _ rfl hk ho
    exact exec_widthRetryDelay_sends hk ho

/-! ### Encryption (R149, R150, R479) -/

/-- The requester of a session that is not established yet hears an SPDM message while the security controller operates. -/
theorem Dev.qflSpdm_heard {p : Nat} {d : Dev} (h1 : (d.link p).session = 1) (hs : d.rd ScR.SC_STATE = 1) :
    ¬ ((d.link p).session = 0 ∨ (d.link p).session = 3 ∨ d.rd ScR.SC_STATE ≠ 1) := by
  omega

/-- A peer that fails authentication is counted and posts security event 7. -/
theorem Dev.qflSpdm_fails {t p op : Nat} {final : Bool} {d : Dev} (h1 : (d.link p).session = 1) (hs : d.rd ScR.SC_STATE = 1) :
    d.qflSpdm t p op false final = (d.inc ScR.AUTH_FAILS).secEvent t 7 :=
  (if_neg (Dev.qflSpdm_heard h1 hs)).trans (if_pos Bool.false_ne_true)

/-- The final message of an authentic peer gives each direction a fresh key and salt, and the link runs encrypted. -/
theorem Dev.qflSpdm_encrypts {t p op : Nat} {d : Dev} (h1 : (d.link p).session = 1) (hs : d.rd ScR.SC_STATE = 1) :
    d.qflSpdm t p op true true = ((d.drawn.drawn.setLink p { d.link p with
      session := 3, txKey := Config.hkdf (d.freeVal 20) 0, rxKey := Config.hkdf (d.drawn.freeVal 20) 0
      txSalt := Config.hkdf (d.freeVal 20) 1 % 2 ^ 32, rxSalt := Config.hkdf (d.drawn.freeVal 20) 1 % 2 ^ 32
      keyFlits := 0 }).raise1 (Pg.ll_ENCRYPTED p)).pump p :=
  (if_neg (Dev.qflSpdm_heard h1 hs)).trans ((if_neg (not_not_intro rfl)).trans (if_pos rfl))

/-- Settles O34: each row at the case that its hypotheses single out. -/
theorem linkEncryption : Obligations.LinkEncryption := by
  unfold Obligations.LinkEncryption
  refine ⟨?roll, ?timeout, ?fails, ?encrypts⟩
  case roll =>
    rintro port s _ rfl he
    exact s.next_congr (if_neg (not_not_intro he))
  case timeout =>
    rintro port s _ rfl hn h0
    exact s.next_congr (if_pos ⟨hn, h0⟩)
  case fails =>
    rintro port opcode authOk final s _ rfl h1 hs rfl
    exact s.next_congr (Dev.qflSpdm_fails h1 hs)
  case encrypts =>
    rintro port opcode authOk final s _ _ rfl rfl h1 hs rfl rfl
    exact s.next_congr (Dev.qflSpdm_encrypts h1 hs)

end Sys2Proof.Machine
end

section
/-! SUPPORT. Which device a window or an extent parameter names, what the commands on capacity and windows do there, and the statement
on them (O2). -/
namespace Sys2Proof.Machine
open Sys2Proof

/-! ### Which device a window or an extent parameter names -/

/-- A plain extent number names an extent of this device (R410). -/
theorem fxChain_eq_zero {x : Nat} (h : x < 2 ^ 18) : fxChain x = 0 := Nat.div_eq_of_lt h
theorem fxExtent_eq_self {x : Nat} (h : x < 2 ^ 18) : fxExtent x = x := Nat.mod_eq_of_lt h
theorem fxExtent_le (x : Nat) : ¬ 262143 < fxExtent x := by
  have h : fxExtent x < 2 ^ 18 := Nat.mod_lt x (by decide)
  omega
theorem Dev.ownerOf_plain {x : Nat} (h : x < 2 ^ 18) (d : Dev) : d.ownerOf x = none := if_pos (.inl (fxChain_eq_zero h))

/-- WINDOW_CONFIG on a window of this device. -/
theorem Dev.windowConfigAt_own {w : Nat} {d : Dev} (hw : w ≤ 255) (hm : d.memberOf w = none) (t vi region kind base count : Nat)
    (enable : Bool) : d.windowConfigAt t w vi region kind base count enable = d.windowConfig w vi region kind base count enable := by
  rw [Dev.windowConfigAt, hm, Nat.mod_eq_of_lt (show w < 256 by omega)]

/-- EXTENT_BIND on a window of this device, which is no transfer to a member that joins. -/
theorem Dev.bindAt_own {w : Nat} {d : Dev} (hw : w ≤ 255) (hm : d.memberOf w = none) (hj : d.memb.rejoining = false)
    (t off n kind : Nat) (list : List Nat) (member : Bool) : d.bindAt t w off n kind list member = d.bind t w off n kind list := by
  have hpart : ¬ (w = 0xffff ∧ member = true) := by omega
  have hload : ¬ (kind = 0xff ∧ d.memb.rejoining = true) := by simp [hj]
  rw [Dev.bindAt, if_neg hpart, if_neg hload, hm, Nat.mod_eq_of_lt (show w < 256 by omega)]

/-- EXTENT_UNBIND on a window of this device. -/
theorem Dev.unbindAt_own {w : Nat} {d : Dev} (hw : w ≤ 255) (hm : d.memberOf w = none) (t off n : Nat) (force zero : Bool) :
    d.unbindAt t w off n force zero = d.unbind t w off n force zero := by
  rw [Dev.unbindAt, hm, Nat.mod_eq_of_lt (show w < 256 by omega)]

/-- EXTENT_MIGRATE between plain extents of this device. -/
theorem Dev.migrateAt_plain {src dst : Nat} (hs : src < 2 ^ 18) (hd : dst < 2 ^ 18) (t q : Nat) (zero : Bool) (d : Dev) :
    d.migrateAt t src dst q zero = d.migrate src dst q zero := by
  have hsame : ¬ d.ownerOf src ≠ d.ownerOf dst := not_not_intro ((Dev.ownerOf_plain hs d).trans (Dev.ownerOf_plain hd d).symm)
  rw [Dev.migrateAt, if_neg hsame, Dev.ownerOf_plain hs, fxExtent_eq_self hs, fxExtent_eq_self hd]

/-- EXTENT_MIGRATE_ABORT of an extent of this device. -/
theorem Dev.migrateAbortAt_own {src : Nat} {d : Dev} (ho : d.ownerOf src = none) (t : Nat) :
    d.migrateAbortAt t src = d.migrateAbort t (fxExtent src) := by
  rw [Dev.migrateAbortAt, ho]

/-- EXTENT_ZERO of an extent of this device. -/
theorem Dev.extentZeroAt_own {e : Nat} {d : Dev} (ho : d.ownerOf e = none) (t q : Nat) :
    d.extentZeroAt t e q = d.extentZero (fxExtent e) q := by
  rw [Dev.extentZeroAt, ho]

/-! ### Capacity (R159, R160, R579) -/

/-- Unregistered units of a device port become extents in ascending order (R159). -/
theorem Dev.capacityAdd_registers {p ld u n e : Nat} {d : Dev} (hf : d.pairForeign = false) (hp : d.isDevicePort p = true)
    (hl : d.linkUp p = true) (hn : 0 < n) (hld : ld < (d.port p).capacity.length) (hu : u + n ≤ (d.port p).capacity.getD ld 0)
    (hr : (List.range n).any (fun k => d.registered p ld (u + k)) = false) (he : e + n ≤ 262144)
    (hx : d.extents.any (fun x => decide (x.2.state ≠ 0 ∧ e ≤ x.1 ∧ x.1 < e + n)) = false) :
    d.capacityAdd p ld u n e = (Dev.register p ld n u e d, .final .ok []) := by
  have hport : ¬ (¬ d.isDevicePort p = true ∨ ¬ d.linkUp p = true) := by simp [hp, hl]
  have hunits : ¬ (n = 0 ∨ (d.port p).capacity.length ≤ ld ∨ (d.port p).capacity.getD ld 0 < u + n) := by omega
  rw [Dev.capacityAdd, if_neg (ne_true_of_eq_false hf), if_neg hport, if_neg hunits, if_neg (ne_true_of_eq_false hr),
    if_neg (Nat.not_lt.mpr he), if_neg (ne_true_of_eq_false hx)]

/-- Extents that are neither bound, migrating nor being zeroed become UNMAPPED (R160). -/
theorem Dev.capacityRemove_unmaps {e n : Nat} {d : Dev} (hn : 0 < n) (he : e + n ≤ 262144)
    (hb : (d.extents.filter (fun x => decide (e ≤ x.1 ∧ x.1 < e + n))).any
      (fun x => decide (x.2.migrating = true ∨ x.2.state = 7 ∨ 0 < x.2.bindCount)) = false) :
    d.capacityRemove e n =
      ({ d with extents := d.extents.filter (fun x => decide ¬ (e ≤ x.1 ∧ x.1 < e + n)) }, .final .ok []) := by
  have hrange : ¬ (n = 0 ∨ 262144 < e + n) := by omega
  exact (if_neg hrange).trans (if_neg (ne_true_of_eq_false hb))

/-- The capacities of the logical devices behind a device port whose link is up (R579). -/
theorem Dev.capacityQuery_up {p : Nat} {d : Dev} (hp : d.isDevicePort p = true) (hl : d.linkUp p = true) :
    d.capacityQuery p = .final .ok (leBytes 4 (d.port p).capacity.length ++ ((d.port p).capacity.zipIdx.map (fun x =>
      leBytes 1 x.2 ++ leBytes 1 (flagBit (d.port p).poisonCapable) ++ leBytes 2 0 ++ leBytes 4 x.1)).flatten) := by
  simp only [Dev.capacityQuery, hp, hl, not_true, if_false, if_true]

/-! ### Windows (R166, R167) -/

/-- A window that holds no slot is cleared (R166). -/
theorem Dev.windowConfig_clears {w vi region kind : Nat} {d : Dev} (hw : w ≤ 255) (hv : vi ≤ 63) (hr : region ≤ 7) (hk : kind ≤ 2)
    (hs : d.heldSlots (d.win w) = []) (base count : Nat) :
    d.windowConfig w vi region kind base count false = (d.setWin w {}, .final .ok []) := by
  have hrange : ¬ (255 < w ∨ 63 < vi ∨ 7 < region ∨ 2 < kind) := by omega
  exact (if_neg hrange).trans ((if_pos Bool.false_ne_true).trans (if_neg fun ⟨hheld, _⟩ => hheld hs))

/-- A disabled window takes a VI's free region and slots of its own (R166). -/
theorem Dev.windowConfig_enables {w vi region kind base count : Nat} {d : Dev} (hw : w ≤ 255) (hv : vi ≤ 63) (hr : region ≤ 7)
    (hk : kind ≤ 2) (hold : (d.win w).enabled = false) (hn : ((d.windowsOf vi).filter (fun x => decide (x.1 ≠ w))).length < 8)
    (hfree : ((d.windowsOf vi).filter (fun x => decide (x.1 ≠ w))).any (fun x => decide (x.2.region = region)) = false)
    (hb : base + count ≤ 262144) (hslots : d.windows.any (fun x => decide (x.1 ≠ w) && x.2.enabled &&
      decide (x.2.slotBase < base + count) && decide (base < x.2.slotBase + x.2.slotCount)) = false)
    (hc : 0 < count) (hc' : count ≤ 32768) (hg : kind = 1 → d.hostGen vi ≠ 1 ∧ d.hostGen vi ≠ 2) :
    d.windowConfig w vi region kind base count true = (d.setWin w
      { enabled := true, committed := false, vi, region, kind, slotBase := base, slotCount := count, hpaUnit := 0, size := 0 },
      .final .ok []) := by
  have hrange : ¬ (255 < w ∨ 63 < vi ∨ 7 < region ∨ 2 < kind) := by omega
  have hcount : ¬ (count = 0 ∨ 32768 < count) := by omega
  have hgen : ¬ (kind = 1 ∧ (d.hostGen vi = 1 ∨ d.hostGen vi = 2)) := fun ⟨h1, h⟩ => h.elim (hg h1).1 (hg h1).2
  simp only [Dev.windowConfig, if_neg hrange, not_true, if_false, if_neg hcount, if_neg hgen, hold, hfree, hslots, Bool.false_and,
    Bool.false_eq_true, false_and, or_false, if_neg (Nat.not_le.mpr hn), if_neg (Nat.not_lt.mpr hb)]

/-- An aligned, uninterleaved commit from the region's base on sets the window's address and size, and the host hears of it (R167). -/
theorem Dev.decoderCommit_sets {p w base size ways dpa : Nat} {d : Dev} (he : (d.win w).enabled = true)
    (hv : d.viOfPort p = some (d.win w).vi) (hb : base % 2 ^ 28 = 0) (hz : size % 2 ^ 28 = 0)
    (hs : size ≤ (d.win w).slotCount * 2 ^ 28) (hways : ways = 1) (hd : dpa = (d.win w).region * 2 ^ 43) :
    d.decoderCommit p w base size ways dpa true = (d.setWin w
      { d.win w with committed := true, hpaUnit := base / 2 ^ 28 % 2 ^ 24, size := size / 2 ^ 28 }).emit
        (.host p (.decoderCommit w true)) := by
  have hown : ¬ (¬ (d.win w).enabled = true ∨ d.viOfPort p ≠ some (d.win w).vi) := by simp [he, hv]
  have hfits : ¬ (base % 2 ^ 28 ≠ 0 ∨ size % 2 ^ 28 ≠ 0 ∨ (d.win w).slotCount * 2 ^ 28 < size ∨ ways ≠ 1 ∨
      dpa ≠ (d.win w).region * 2 ^ 43) := by omega
  exact (if_neg hown).trans ((if_neg (not_not_intro rfl)).trans (if_neg hfits))

/-! ### The statement on capacity and windows -/

/-- Settles O2: the responder takes each command up, and its hypotheses single out the case in which the device does what was asked. -/
theorem capacityAndWindows : Obligations.CapacityAndWindows := by
  unfold Obligations.CapacityAndWindows
  refine ⟨?add, ?remove, ?capacity, ?clear, ?enable, ?windows, ?extents, ?slots, ?commit⟩
  case add =>
    rintro h port ld unit count first s _ _ rfl rfl ha hf hp hl hn hld hu hr he hx
    exact runSettled_dev ha (Dev.capacityAdd_registers hf hp hl hn hld hu hr he hx)
  case remove =>
    rintro h first count s _ _ rfl rfl ha hn he hb
    exact runSettled_dev ha (Dev.capacityRemove_unmaps hn he hb)
  case capacity =>
    rintro h port s _ _ rfl rfl ha hp hl
    exact runSilek_query ha (Dev.capacityQuery_up hp hl)
  case clear =>
    rintro h w vi region kind base count _ s _ _ rfl rfl ha hw hv hr hk rfl hm hs
    exact runSettled_dev ha ((Dev.windowConfigAt_own hw hm ..).trans (Dev.windowConfig_clears hw hv hr hk hs ..))
  case enable =>
    rintro h w vi region kind base count _ s _ _ rfl rfl ha hw hv hr hk rfl hm hold hn hfree hb hslots hc hc' hg
    exact runSettled_dev ha ((Dev.windowConfigAt_own hw hm ..).trans
      (Dev.windowConfig_enables hw hv hr hk hold hn hfree hb hslots hc hc' hg))
  case windows =>
    rintro h first count s _ _ rfl rfl ha h1 h64 hr
    exact runSilek_query ha (if_neg (show ¬ (count < 1 ∨ 64 < count ∨ 256 < first + count) by omega))
  case extents =>
    rintro h first count s _ _ rfl rfl ha h1 h384 hr
    exact runSilek_query ha (if_neg (show ¬ (count < 1 ∨ 384 < count ∨ 262144 < first + count) by omega))
  case slots =>
    rintro h first count s _ _ rfl rfl ha h1 h768 hr
    exact runSilek_query ha (if_neg (show ¬ (count < 1 ∨ 768 < count ∨ 262144 < first + count) by omega))
  case commit =>
    rintro port w base size ways dpa _ s _ rfl hl he hv rfl hb hz hs hways hd
    exact congrArg (fun d => Host.Outcome.next (s.settledFrom (s.withDev d)))
      ((if_pos hl).trans (Dev.decoderCommit_sets he hv hb hz hs hways hd))

end Sys2Proof.Machine
end

section
/-! SUPPORT. How the commands on binding, unbinding, migration and zeroing start their work on extents of this device, and the statement on
them (O3). -/
namespace Sys2Proof.Machine
open Sys2Proof

/-! ### Binding (R172) -/

/-- EXTENT_BIND on an enabled window of the kind names as many of its slots as it lists extents. -/
theorem Dev.bind_slots {w off n kind : Nat} {list : List Nat} {d : Dev} (hw : w ≤ 255) (h1 : 1 ≤ n) (h64 : n ≤ 64)
    (hlen : list.length = n) (hlist : list.any (fun y => decide (2 ^ 23 ≤ y)) = false) (he : (d.win w).enabled = true)
    (hk : (d.win w).kind + 1 = kind) (hfit : off + n ≤ (d.win w).slotCount) (t : Nat) :
    d.bind t w off n kind list = d.bindSlots t w ((List.range n).map (fun k => (d.win w).slotBase + off + k)) kind list := by
  have hnamed : ¬ (255 < w ∨ n < 1 ∨ 64 < n ∨ list.length ≠ n ∨ list.any (fun y => decide (2 ^ 23 ≤ y)) = true) := by
    simp only [hlist, Bool.false_eq_true, or_false]; omega
  have hwindow : ¬ (¬ (d.win w).enabled = true ∨ (d.win w).kind + 1 ≠ kind ∨ (d.win w).slotCount < off + n) := by
    simp only [he, not_true, false_or]; omega
  exact (if_neg hnamed).trans (if_neg hwindow)

/-- Extents that no other owner must answer for are taken, and their slots are offered to the CXL 3.x host at once. -/
theorem Dev.bindSlots_offers {w kind : Nat} {slots list : List Nat} {d f : Dev}
    (hf : f = list.foldl (fun (e : Dev) y => e.takeExtent kind d.chainAddr (d.win w).vi y) d) (hk : kind ≠ 2)
    (hg : d.hostGen (d.win w).vi = 3) (hst : d.rd (Vi.STATE (d.win w).vi) < 2)
    (hfree : slots.any (fun k => (d.slot k).valid || (d.slot k).pending ||
      d.binder.bindings.any (fun b => decide (b.member = 0) && b.slots.contains k)) = false)
    (hr : d.bindRefusal kind list = none) (hc : d.bindCounts kind list = none)
    (ho : f.acting = true → f.otherOwners list = []) (t : Nat) :
    d.bindSlots t w slots kind list = ({ f with binder := { f.binder with nextId := f.binder.nextId + 1 } } : Dev).offer
      { id := f.binder.nextId, window := w, slots, list, kind
        fresh := list.map (fun y => d.ownExtent y && decide ((d.ext (fxExtent y)).state = 1)) } := by
  have hold : ¬ (d.hostGen (d.win w).vi = 1 ∧ d.rd (Vi.STATE (d.win w).vi) ≠ 3) := by omega
  have hstate : ¬ (d.hostGen (d.win w).vi ≠ 1 ∧ 2 ≤ d.rd (Vi.STATE (d.win w).vi)) := by omega
  have hlist : (d.bindRefusal kind list).or (d.bindCounts kind list) = none := by rw [hr, hc]; rfl
  have howners : (if f.acting = true then f.otherOwners list else []).isEmpty = true := by
    split
    · rw [ho ‹_›]; rfl
    · rfl
  have hnone : ¬ kind = 2 := hk
  subst hf
  unfold Dev.bindSlots
  refine (if_neg hold).trans ((if_neg hstate).trans ((if_neg (ne_true_of_eq_false hfree)).trans ?_))
  simp only [hlist, hnone, false_and, if_false]
  exact if_pos howners

/-- Step 3 of R172 for a CXL 3.x host: the slots become PENDING, and the host is offered them. -/
theorem Dev.offer_dc {b : Binding} {d g : Dev} (hg : g = (b.slots.zip b.list).foldl (fun (e : Dev) y =>
      e.setSlot y.1 { pending := true, chain := fxChain y.2, extent := fxExtent y.2 }) d)
    (h3 : d.hostGen (d.win b.window).vi = 3) :
    d.offer b = (({ g with binder := { g.binder with
      bindings := g.binder.bindings.filter (fun y => y.id ≠ b.id) ++ [b] } } : Dev).toDcHost b.window 0 b.slots, .run (.bind b.id)) := by
  subst hg
  exact if_pos h3

/-! ### Unbinding (R175, R176) -/

/-- EXTENT_UNBIND on an enabled window names its slots. -/
theorem Dev.unbind_slots {w off n : Nat} {d : Dev} (hw : w ≤ 255) (h1 : 1 ≤ n) (h64 : n ≤ 64) (he : (d.win w).enabled = true)
    (hfit : off + n ≤ (d.win w).slotCount) (t : Nat) (force zero : Bool) :
    d.unbind t w off n force zero =
      d.unbindSlots t w ((List.range n).map (fun k => (d.win w).slotBase + off + k)) force zero := by
  have hwindow : ¬ (255 < w ∨ n < 1 ∨ 64 < n ∨ ¬ (d.win w).enabled = true ∨ (d.win w).slotCount < off + n) := by
    simp only [he, not_true, false_or]; omega
  exact if_neg hwindow

/-- Slots whose extents no other owner must answer for start their unbinding at the window's VI. -/
theorem Dev.unbindSlots_starts {w : Nat} {slots : List Nat} {d : Dev} (hv : slots.any (fun k => decide ¬ (d.slot k).valid = true) = false)
    (hm : slots.any (fun k => d.ownExtent (d.slot k).fx && (d.ext (d.slot k).extent).migrating) = false)
    (hlost : slots.any (fun k => d.ownExtent (d.slot k).fx && decide ((d.ext (d.slot k).extent).state = 6)) = false)
    (hg : d.hostGen (d.win w).vi = 3) (hst : d.rd (Vi.STATE (d.win w).vi) < 2)
    (hu : d.binder.unbindings.any (fun u => decide (u.waiting.any (fun k => slots.contains k) = true ∨
      (u.member = 0 ∧ u.stage < 2 ∧ u.slots.any (fun k => slots.contains k) = true))) = false)
    (ho : d.acting = true → (d.otherOwners (slots.map (fun k => (d.slot k).fx))).filter (fun c => d.alive c) = [])
    (t : Nat) (zero : Bool) :
    d.unbindSlots t w slots false zero = ({ d with binder := { d.binder with nextId := d.binder.nextId + 1 } } : Dev).startUnbind t
      { id := d.binder.nextId, vi := (d.win w).vi, slots, waiting := [], zero, list := slots.map (fun k => (d.slot k).fx)
        window := w, force := false } := by
  have hlost' : ¬ (¬ false = true ∧
      slots.any (fun k => d.ownExtent (d.slot k).fx && decide ((d.ext (d.slot k).extent).state = 6)) = true) := by simp [hlost]
  have hold : ¬ (d.hostGen (d.win w).vi = 1 ∧ d.rd (Vi.STATE (d.win w).vi) ≠ 3) := by omega
  have hstate : ¬ (d.hostGen (d.win w).vi ≠ 1 ∧ ¬ false = true ∧ 2 ≤ d.rd (Vi.STATE (d.win w).vi)) := by omega
  have howners : (if d.acting = true then (d.otherOwners (slots.map (fun k => (d.slot k).fx))).filter (fun c => d.alive c)
      else []).isEmpty = true := by
    split
    · rw [ho ‹_›]; rfl
    · rfl
  unfold Dev.unbindSlots
  exact (if_neg (ne_true_of_eq_false hv)).trans ((if_neg (ne_true_of_eq_false hm)).trans ((if_neg hlost').trans ((if_neg hold).trans
    ((if_neg hstate).trans ((if_neg (ne_true_of_eq_false hu)).trans (if_pos howners))))))

/-- A CXL 3.x host is asked to release the slots, whose extents are UNBINDING meanwhile. -/
theorem Dev.startUnbind_asks {u : Unbinding} {d : Dev} (hg : d.hostGen u.vi = 3) (hf : u.force = false) (t : Nat) :
    d.startUnbind t u = ((u.slots.foldl (fun (e : Dev) k => e.modOwn (e.slot k).fx (fun x => { x with unbinding := true }))
      ({ d with binder := { d.binder with unbindings := d.binder.unbindings.filter (fun y => y.id ≠ u.id) ++
        [{ u with waiting := u.slots, stage := 2 }] } } : Dev)).toDcHost u.window 1 u.slots, .run (.unbind u.id)) := by
  have h1 : ¬ d.hostGen u.vi = 1 := by omega
  have h2 : ¬ d.hostGen u.vi = 2 := by omega
  unfold Dev.startUnbind
  exact (if_neg h1).trans ((if_neg h2).trans (if_neg (ne_true_of_eq_false hf)))

/-! ### Migration and zeroing (R163, R184, R189) -/

/-- With the first migration index free, both extents migrate under it and a MIGRATE descriptor of the device's own is posted. -/
theorem Dev.migrate_posts {src dst q : Nat} {zero : Bool} {d f : Dev}
    (hf : f = (({ d.wakeChurn with binder := { d.binder with
      migrations := Tab.set d.binder.migrations 0 { source := src, dest := dst, zero, queue := q } } } : Dev).modExt src
        (fun e => { e with migrating := true, migIndex := 0 })).modExt dst (fun e => { e with migrating := true, migIndex := 0 }))
    (hs : src < 2 ^ 18) (hd : dst < 2 ^ 18) (h3 : 3 ≤ (d.ext src).state) (h5 : (d.ext src).state ≤ 5)
    (hu : (d.ext src).unbinding = false) (hm : (d.ext src).migrating = false) (hdst : (d.ext dst).state = 1 ∨ (d.ext dst).state = 2)
    (hdm : (d.ext dst).migrating = false) (hl : d.linkUp (d.ext dst).port = true)
    (hne : (d.ext src).port ≠ (d.ext dst).port ∨ (d.ext src).ld ≠ (d.ext dst).ld ∨ (d.ext src).dpaUnit ≠ (d.ext dst).dpaUnit)
    (hp : (d.ext src).state = 4 → (d.ext dst).poisonCapable = true ∨ d.flag ChurnR.TIER2_ACTIVE = true)
    (hi : Tab.get d.binder.migrations 0 = none) (hq : d.queueRefusal q 1 = none) :
    d.migrate src dst q zero = (f.postDesc q
      { opcode := 7, srcSpace := 2, dstSpace := 2, length := 0x10000000, zeroAfter := zero, src := faOf f.homeAddr src 0
        dst := faOf f.homeAddr dst 0 } 2, .run (.migrate src)) := by
  have hrange : ¬ (262143 < src ∨ 262143 < dst) := by omega
  have hsource : ¬ (¬ (3 ≤ (d.ext src).state ∧ (d.ext src).state ≤ 5) ∨ (d.ext src).unbinding = true ∨
      (d.ext src).migrating = true) := by
    simp only [hu, hm, Bool.false_eq_true, or_false]; omega
  have hdest : ¬ (¬ ((d.ext dst).state = 1 ∨ (d.ext dst).state = 2) ∨ (d.ext dst).migrating = true) := by
    simp only [hdm, Bool.false_eq_true, or_false]; omega
  have hbacking : ¬ (¬ d.linkUp (d.ext dst).port = true ∨ ((d.ext src).port = (d.ext dst).port ∧ (d.ext src).ld = (d.ext dst).ld ∧
      (d.ext src).dpaUnit = (d.ext dst).dpaUnit)) := by
    simp only [hl, not_true, false_or]; omega
  have hpoison : ¬ ((d.ext src).state = 4 ∧ ¬ (d.ext dst).poisonCapable = true ∧ ¬ d.flag ChurnR.TIER2_ACTIVE = true) :=
    fun ⟨h4, hn, ht⟩ => (hp h4).elim hn ht
  have hindex : (List.range 32).find? (fun i => (Tab.get d.binder.migrations i).isNone) = some 0 :=
    List.find?_cons_of_pos (l := (List.range 31).map (· + 1)) (by rw [hi]; rfl)
  subst hf
  unfold Dev.migrate
  refine (if_neg hrange).trans ((if_neg hsource).trans ((if_neg hdest).trans ((if_neg hbacking).trans ((if_neg hpoison).trans ?_))))
  rw [hindex, hq]

/-- A migration still in its copy is abandoned, its destination unclean (R189). -/
theorem Dev.migrateAbort_copying {src index : Nat} {m : Migration} {d : Dev}
    (hm : d.binder.migrations.find? (fun x => decide (x.2.source = src)) = some (index, m)) (h1 : m.phase = 1) (t : Nat) :
    d.migrateAbort t src = (d.abandon t index 2 .aborted, .final .ok []) := by
  simp only [Dev.migrateAbort, hm]
  exact if_neg (not_not_intro h1)

/-- A FREE_UNCLEAN extent is being zeroed by a ZERO_RELEASE descriptor of the device's own (R163). -/
theorem Dev.extentZero_posts {e q : Nat} {d : Dev} (he : ¬ 262143 < e) (h2 : (d.ext e).state = 2) (hq : d.queueRefusal q 0 = none) :
    d.extentZero e q = ((d.modExt e (fun x => { x with state := 7 })).postDesc q (d.zeroDesc e) 1, .run (.zero e)) := by
  rw [Dev.extentZero, if_neg he, if_neg (not_not_intro h2), hq]

/-! ### The statement on binding and migration -/

/-- Settles O3: each command names extents and a window of this device, where its checks pass and its work starts. -/
theorem bindAndMigrate : Obligations.BindAndMigrate := by
  unfold Obligations.BindAndMigrate
  refine ⟨?bind, ?unbind, ?migrate, ?abort, ?zero⟩
  case bind =>
    rintro h w off n kind list s _ _ l f g rfl rfl ha hl hf hg hw h1 h64 hlen hlist hm he hkind hfit hk hgen hst hfree hr hc ho h3 hj
    have hslots : s.begun.dev.bindAt s.time.now w off n kind list (memberSender h.requester) =
        s.begun.dev.bindSlots s.time.now w l kind list := by
      rw [hl, Dev.bindAt_own hw hm hj, Dev.bind_slots hw h1 h64 hlen hlist he hkind hfit]
    exact runSettled_devRun ha
      (hslots.trans ((Dev.bindSlots_offers hf hk hgen hst hfree hr hc ho _).trans (Dev.offer_dc hg h3)))
  case unbind =>
    rintro h w off n _ zero s _ _ l rfl rfl ha hl hw h1 h64 hm he hfit rfl hv hmig hlost hgen hst hu ho
    have hslots : s.begun.dev.unbindAt s.time.now w off n false zero =
        s.begun.dev.unbindSlots s.time.now w l false zero := by
      rw [hl, Dev.unbindAt_own hw hm, Dev.unbind_slots hw h1 h64 he hfit]
    exact runSettled_devRun ha
      (hslots.trans ((Dev.unbindSlots_starts hv hmig hlost hgen hst hu ho ..).trans (Dev.startUnbind_asks hgen rfl _)))
  case migrate =>
    rintro h src dst q zero s _ _ f rfl rfl ha hf hs hd h3 h5 hu hmig hdst hdm hl hne hp hi hq
    exact runSettled_devRun ha ((Dev.migrateAt_plain hs hd ..).trans
      (Dev.migrate_posts hf hs hd h3 h5 hu hmig hdst hdm hl hne hp hi hq))
  case abort =>
    rintro h src index m s _ _ rfl rfl ha ho hm h1
    exact runSettled_dev ha ((Dev.migrateAbortAt_own ho _).trans (Dev.migrateAbort_copying hm h1 _))
  case zero =>
    rintro h e q s _ _ rfl rfl ha ho h2 hq
    exact runSettled_devRun ha ((Dev.extentZeroAt_own ho ..).trans (Dev.extentZero_posts (fxExtent_le e) h2 hq))

end Sys2Proof.Machine
end

section
/-! SUPPORT. What a host does with its dynamic capacity, what its time limits, unbind scans and migrations end in, and the statement on them
(O26). -/
namespace Sys2Proof.Machine
open Sys2Proof

/-! ### Hosts that answer, release and list (R172 to R177) -/

/-- A host that accepts the one slot of its one open offer ends the binding with it. -/
theorem Dev.addResponse_accepts {vi k : Nat} {b : Binding} {d : Dev} (hp : d.binder.hotPlug = []) (ho : d.offersOf vi = [b])
    (hb : b.slots = [k]) (t : Nat) :
    d.addResponse t vi b.slots = (d.toHost vi (.dcResult vi true)).endBinding t b [k] false := by
  simp [Dev.addResponse, hp, ho, hb]

/-- A release of one own slot that no unbinding waits for is an unbinding of the host's own, which an event record reports (R177). -/
theorem Dev.hostRelease_unprompted {t vi k : Nat} {d f g : Dev} {u : Unbinding} (hf : f = d.toHost vi (.dcResult vi true))
    (hg : g = f.post t 3 (vi + 2 ^ 32 * k))
    (hu : u = { id := f.binder.nextId, vi, slots := [k], waiting := [k], command := false, byHost := true, list := [(f.slot k).fx] })
    (hw : (d.windowsOf vi).any (fun w => w.2.holds k) = true) (hv : (d.slot k).valid = true) (hn : f.binder.unbindings = [])
    (ho : f.ownExtent (f.slot k).fx = true) :
    d.hostRelease t vi [k] = ({ g with binder := { g.binder with
      nextId := f.binder.nextId + 1, unbindings := g.binder.unbindings ++ [u] } } : Dev).releaseSlots t u [k] := by
  subst hu hg
  have hown : [k].any (fun k => decide ¬ ((d.windowsOf vi).any (fun w => w.2.holds k) && (d.slot k).valid) = true) = false := by
    simp [hw, hv]
  unfold Dev.hostRelease
  refine (if_neg (ne_true_of_eq_false hown)).trans ?_
  rw [← hf, List.foldl_cons, List.foldl_nil, hn]
  simp only [List.find?_nil, ho, or_true, if_true]

/-! ### Time limits and scans (R173, R176, R177) -/

/-- A host that has not released the one slot awaited keeps it: the extent is UNBINDING no longer. -/
theorem Dev.releaseTimeout_keeps {id k : Nat} {u : Unbinding} {d : Dev}
    (hu : d.binder.unbindings.find? (fun x => decide (x.id = id)) = some u) (hw : u.waiting = [k])
    (ha : ((d.setUnbinding { u with waiting := [], timedOut := true }).clearUnbinding (d.slot k).fx).acting = false) (t : Nat) :
    d.releaseTimeout t id = ((d.setUnbinding { u with waiting := [], timedOut := true }).clearUnbinding (d.slot k).fx).unbindEnd t
      { u with waiting := [], timedOut := true } := by
  simp only [Dev.releaseTimeout, hu, hw, List.map_cons, List.map_nil, List.foldl_cons, List.foldl_nil, ha, Bool.false_eq_true, if_false,
    reduceCtorEq]

/-- No other owner need be told of the end of bindings to this device's extents. -/
theorem Dev.dropElsewhere_own {y : Nat × Nat} {d : Dev} (ho : d.ownExtent y.2 = true) (t : Nat) (u : Unbinding) :
    d.dropElsewhere t u [y] = (d, u) := by
  simp [Dev.dropElsewhere, ho]

/-- A slot whose writes and recalls are over gives its binding up, which ends the unbinding. -/
theorem Dev.unbindFinish_drops {id : Nat} {u : Unbinding} {y : Nat × Nat} {d : Dev}
    (hu : d.binder.unbindings.find? (fun x => decide (x.id = id)) = some u) (hy : u.finishing = [y])
    (hd : d.drained u.vi y.2 = true) (hs : d.scanClean u.vi y.2 = true) (ho : d.ownExtent y.2 = true) (t : Nat) :
    d.unbindFinish t id = (((d.setUnbinding { u with finishing := [] }).dropBinding t
      ((d.setUnbinding { u with finishing := [] }).whose { u with finishing := [] }) u.zero y.2).clearUnbinding y.2).unbindEnd t
        { u with finishing := [] } := by
  have hready : u.finishing.filter (fun y => d.drained u.vi y.2 && d.scanClean u.vi y.2) = [y] := by simp [hy, hd, hs]
  have hlate : u.finishing.filter (fun x => decide ¬ [y].contains x = true) = [] := by simp [hy]
  simp only [Dev.unbindFinish, hu, hready, hlate, List.foldl_nil, Dev.dropElsewhere_own ho, List.foldl_cons]

/-! ### The end of a migration (R187) -/

/-- The extents of a migration whose dual writes are over exchange their backings; its command replies. -/
theorem Dev.migrationComplete_exchanges {index : Nat} {m : Migration} {d f : Dev}
    (hf : f = ((d.setExt m.source { d.ext m.source with
      port := (d.ext m.dest).port, ld := (d.ext m.dest).ld, dpaUnit := (d.ext m.dest).dpaUnit
      poisonCapable := (d.ext m.dest).poisonCapable, migrating := false, migIndex := 0 }).setExt m.dest { d.ext m.dest with
        port := (d.ext m.source).port, ld := (d.ext m.source).ld, dpaUnit := (d.ext m.source).dpaUnit
        poisonCapable := (d.ext m.source).poisonCapable, migrating := false, migIndex := 0, state := 2 }).releaseHeld index)
    (hm : Tab.get d.binder.migrations index = some m) (h2 : m.phase = 2) (hd : d.dualsOpen m.source = false)
    (hl : d.lostWork m.source = false) (hz : m.zero = false) (hr : f.ladles.runs = []) (t : Nat) :
    d.migrationComplete t index = (({ f with
      binder := { f.binder with migrations := Tab.erase f.binder.migrations index }, ladles := { f.ladles with runs := [] } } : Dev).finish
        t (fun w => decide (w = .migrate m.source)) .ok []).later .recheck := by
  have hover : ¬ (m.phase ≠ 2 ∨ d.dualsOpen m.source = true ∨ d.lostWork m.source = true) := by simp [h2, hd, hl]
  simp only [Dev.migrationComplete, hm, if_neg hover, hz, Bool.false_eq_true, if_false, ← hf, hr, List.filter_nil, List.foldl_nil]

/-! ### The rows -/

/-- At a port whose host sees dynamic capacity, the row acts on its VI (R178). -/
theorem exec_addDynamicCapacityResponse_seen {port : Fin 64} {vi : Nat} {s : State} (hv : s.dev.dcInstance port = some vi)
    (slots : List Nat) : exec (.addDynamicCapacityResponse port slots) s =
      .next (s.settledFrom (s.withDev (s.dev.addResponse s.time.now vi slots))) := by
  change execAddDynamicCapacityResponse port slots s = _
  simp only [execAddDynamicCapacityResponse, onSettled_eq, hv]

theorem exec_releaseDynamicCapacity_seen {port : Fin 64} {vi : Nat} {s : State} (hv : s.dev.dcInstance port = some vi)
    (slots : List Nat) : exec (.releaseDynamicCapacity port slots) s =
      .next (s.settledFrom (s.withDev (s.dev.hostRelease s.time.now vi slots))) := by
  change execReleaseDynamicCapacity port slots s = _
  simp only [execReleaseDynamicCapacity, onSettled_eq, hv]

theorem exec_getDynamicCapacityExtentList_seen {port : Fin 64} {vi : Nat} {s : State} (hv : s.dev.dcInstance port = some vi) :
    exec (.getDynamicCapacityExtentList port) s =
      .next (s.withDev (s.dev.emit (.host port (.dcExtents vi (s.dev.dcExtents vi))))) := by
  change execGetDynamicCapacityExtentList port s = _
  simp only [execGetDynamicCapacityExtentList, onDev_eq, hv]

theorem exec_releaseHostTimeout (id : Nat) (s : State) :
    exec (.releaseHostTimeout id) s = .next (s.settledFrom (s.withDev (s.dev.releaseTimeout s.time.now id))) := rfl
theorem exec_unbindScanComplete (id : Nat) (s : State) :
    exec (.unbindScanComplete id) s = .next (s.settledFrom (s.withDev (s.dev.unbindFinish s.time.now id))) := rfl
theorem exec_migrationComplete (index : Fin 32) (s : State) :
    exec (.migrationComplete index) s = .next (s.settledFrom (s.withDev (s.dev.migrationComplete s.time.now index))) := rfl

/-- The open offer of a host that has not answered in time is declined (R173). -/
theorem exec_bindHostTimeout_open {id : Nat} {b : Binding} {s : State}
    (hb : s.dev.binder.bindings.find? (fun x => decide (x.id = id ∧ x.member = 0 ∧ x.asked = [])) = some b) :
    exec (.bindHostTimeout id) s = .next (s.settledFrom (s.withDev (s.dev.endBinding s.time.now b [] true))) := by
  change execBindHostTimeout id s = _
  simp only [execBindHostTimeout, onSettled_eq, hb]

/-! ### The statement on capacity events -/

/-- Settles O26: each row acts on the device and settles, at the case that its hypotheses single out. -/
theorem capacityEvents : Obligations.CapacityEvents := by
  unfold Obligations.CapacityEvents
  refine ⟨?accept, ?release, ?list, ?declined, ?kept, ?scanned, ?migrated⟩
  case accept =>
    rintro port _ vi k b s _ rfl hv hp ho rfl hb
    rw [exec_addDynamicCapacityResponse_seen hv, Dev.addResponse_accepts hp ho hb]
  case release =>
    rintro port _ vi k s _ f g u rfl hf hg hu hv rfl hw hslot hn ho
    rw [exec_releaseDynamicCapacity_seen hv, Dev.hostRelease_unprompted hf hg hu hw hslot hn ho]
  case list =>
    rintro port vi s _ rfl hv
    exact exec_getDynamicCapacityExtentList_seen hv
  case declined =>
    rintro id b s _ rfl hb
    exact exec_bindHostTimeout_open hb
  case kept =>
    rintro id u k s _ rfl hu hw ha
    rw [exec_releaseHostTimeout, Dev.releaseTimeout_keeps hu hw ha]
  case scanned =>
    rintro id u y s _ rfl hu hy hd hs ho
    rw [exec_unbindScanComplete, Dev.unbindFinish_drops hu hy hd hs ho]
  case migrated =>
    rintro index m s _ f rfl hf hm h2 hd hl hz _ hr
    rw [exec_migrationComplete, Dev.migrationComplete_exchanges hf hm h2 hd hl hz hr]

end Sys2Proof.Machine
end

section
/-! SUPPORT. Where the directory places a line, and the statement on it (O54). -/
namespace Sys2Proof.Machine
open Sys2Proof

/-! ### Fields of a number -/

theorem fieldOf_lt (n lo w : Nat) : fieldOf n lo w < 2 ^ w := Nat.mod_lt _ (Nat.two_pow_pos w)

/-- A field above bit k is a field of what stands there. -/
theorem fieldOf_add (n k lo w : Nat) : fieldOf n (k + lo) w = fieldOf (n >>> k) lo w := by
  rw [fieldOf, fieldOf, Nat.shiftRight_add]

/-- Numbers that agree in bits k and up agree in every field there. -/
theorem fieldOf_congr_above {x y k lo : Nat} (h : x >>> k = y >>> k) (hk : k ≤ lo) (w : Nat) : fieldOf x lo w = fieldOf y lo w := by
  obtain ⟨i, rfl⟩ := Nat.exists_eq_add_of_le hk
  rw [fieldOf_add, fieldOf_add, h]

/-! ### Slice and set (R192) -/

/-- A slice is the XOR of the nine 5-bit fields of the line address. -/
theorem sliceOf_eq (x : Nat) : sliceOf x = fieldOf x 0 5 ^^^ fieldOf x 5 5 ^^^ fieldOf x 10 5 ^^^ fieldOf x 15 5 ^^^ fieldOf x 20 5 ^^^
    fieldOf x 25 5 ^^^ fieldOf x 30 5 ^^^ fieldOf x 35 5 ^^^ fieldOf x 40 5 :=
  congrArg (fun a => a ^^^ fieldOf x 5 5 ^^^ fieldOf x 10 5 ^^^ fieldOf x 15 5 ^^^ fieldOf x 20 5 ^^^ fieldOf x 25 5 ^^^ fieldOf x 30 5 ^^^
    fieldOf x 35 5 ^^^ fieldOf x 40 5) (Nat.zero_xor (fieldOf x 0 5))

/-- A set is the XOR of two 12-bit fields. -/
theorem setOf_eq (x : Nat) : setOf x = fieldOf x 5 12 ^^^ fieldOf x 17 12 := rfl

theorem sliceOf_lt (x : Nat) : sliceOf x < 32 := by
  have h (lo : Nat) : fieldOf x lo 5 < 2 ^ 5 := fieldOf_lt x lo 5
  rw [sliceOf_eq]
  iterate 8 refine Nat.xor_lt_two_pow ?_ (h _)
  exact h 0

theorem setOf_lt (x : Nat) : setOf x < 4096 :=
  Nat.xor_lt_two_pow (n := 12) (fieldOf_lt x 5 12) (fieldOf_lt x 17 12)

/-- A bucket is one of the tier-2 table, which counts as one bucket when it is empty (R198). -/
theorem Dev.bucketOf_lt (d : Dev) (x : Nat) : d.bucketOf x < max 1 (d.rd ChurnR.T2_UNITS * 4194304) :=
  Nat.mod_lt _ (Nat.lt_of_lt_of_le Nat.one_pos (Nat.le_max_left _ _))

/-! ### Slice, set and tag name a line (R192) -/

/-- Two values with the same XOR with a third are equal: that XOR undoes itself. -/
theorem eq_of_xor_right {a b c : Nat} (h : a ^^^ c = b ^^^ c) : a = b := by
  have hundo (n : Nat) : n ^^^ c ^^^ c = n := by rw [Nat.xor_assoc, Nat.xor_self, Nat.xor_zero]
  rw [← hundo a, h, hundo]

/-- The set and the tag fix the line address above its lowest field: the XOR with the tag's low bits undoes the set. -/
theorem eq_above_of_setOf {x y : Nat} (hx : x < 2 ^ 45) (hy : y < 2 ^ 45) (hset : setOf x = setOf y)
    (htag : fieldOf x 17 28 = fieldOf y 17 28) : x >>> 5 = y >>> 5 := by
  have htop : x / 2 ^ 17 = y / 2 ^ 17 := by simp only [fieldOf_eq_div_mod] at htag; omega
  have hlow : fieldOf x 17 12 = fieldOf y 17 12 := by simp only [fieldOf_eq_div_mod, htop]
  have hmid : fieldOf x 5 12 = fieldOf y 5 12 := by
    rw [setOf_eq, setOf_eq, hlow] at hset
    exact eq_of_xor_right hset
  simp only [fieldOf_eq_div_mod] at hmid
  simp only [Nat.shiftRight_eq_div_pow]
  omega

/-- The slice gives the lowest field back: the other eight lie above it. -/
theorem fieldOf_low_of_sliceOf {x y : Nat} (habove : x >>> 5 = y >>> 5) (hslice : sliceOf x = sliceOf y) :
    fieldOf x 0 5 = fieldOf y 0 5 := by
  have h {lo : Nat} (hlo : 5 ≤ lo) : fieldOf x lo 5 = fieldOf y lo 5 := fieldOf_congr_above habove hlo 5
  rw [sliceOf_eq, sliceOf_eq, h (lo := 5) (by decide), h (lo := 10) (by decide), h (lo := 15) (by decide), h (lo := 20) (by decide),
    h (lo := 25) (by decide), h (lo := 30) (by decide), h (lo := 35) (by decide), h (lo := 40) (by decide)] at hslice
  iterate 8 replace hslice := eq_of_xor_right hslice
  exact hslice

theorem eq_of_slice_set_tag {x y : Nat} (hx : x < 2 ^ 45) (hy : y < 2 ^ 45) (hslice : sliceOf x = sliceOf y)
    (hset : setOf x = setOf y) (htag : fieldOf x 17 28 = fieldOf y 17 28) : x = y := by
  have habove := eq_above_of_setOf hx hy hset htag
  have hlow := fieldOf_low_of_sliceOf habove hslice
  simp only [fieldOf_eq_div_mod, Nat.shiftRight_eq_div_pow] at habove hlow
  omega

/-! ### The home of a line (R193) -/

/-- The chain address in a line's fabric address is its top five bits. -/
theorem faChain_laFa (x : Nat) : faChain (laFa x) = fieldOf x 40 5 := by
  simp only [faChain, laFa, fieldOf_eq_div_mod]
  omega

theorem Dev.homeLine_iff (d : Dev) (x : Nat) : d.homeLine x = true ↔ fieldOf x 40 5 = d.homeAddr := by
  rw [Dev.homeLine, Dev.isHome, faChain_laFa, decide_eq_true_eq]

/-! ### The statement on placement -/

/-- Settles O54: slice, set and tag give the line address back from its highest field down (`eq_of_slice_set_tag`). -/
theorem directoryPlacement : Obligations.DirectoryPlacement := by
  unfold Obligations.DirectoryPlacement
  refine ⟨?injective, ?bounds, ?formulas, ?worked, ?home⟩
  case injective => exact fun x y hx hy hslice hset htag => eq_of_slice_set_tag hx hy hslice hset htag
  case bounds => exact fun d x => ⟨sliceOf_lt x, setOf_lt x, d.bucketOf_lt x⟩
  case formulas => exact fun x => ⟨sliceOf_eq x, setOf_eq x⟩
  case worked => decide
  case home => exact fun d x _ => d.homeLine_iff x

end Sys2Proof.Machine
end

section
/-! SUPPORT. What meets a hardware error, unit by unit and array by array, and the statement on it (O58). -/
namespace Sys2Proof.Machine
open Sys2Proof

/-! ### Residue errors (R254 to R256) -/

/-- A failing unit is met once. -/
theorem Dev.residueFails_found {d : Dev} {f : Flaw} (h : d.flaws.contains f = true) :
    d.residueFails f = ({ d with flaws := d.flaws.erase f }, true) := if_pos h

/-- A request that meets a failing credit counter of its live host port uses its credit and removes the port's agent (R72). -/
theorem Dev.arrive_creditFails {p : Nat} {c : Instr} {d f : Dev}
    (hd : f = { d with edge := { d.edge with credits := Tab.put d.edge.credits p (Tab.getD d.edge.credits p 0 - 1) 0 } })
    (hh : f.isHostPort p = true) (hl : f.linkUp p = true) (hi : f.rd (Pg.IDE_STATE p) ≠ 3) (hf : f.flaws.contains (.credit p) = true)
    (t : Nat) : d.arrive t p c = (({ f with flaws := f.flaws.erase (.credit p) } : Dev).residueError t (Pg.RESIDUE_PORT p)
      (0x20 + p / 4) 0 0xffff 0 4).later (.remove p) := by
  have ha : d.arrive t p c = f.takeIn t p c d.stopped := by rw [hd]; rfl
  have hlive : ¬ (¬ (f.isHostPort p || f.isDevicePort p) = true ∨ ¬ f.linkUp p = true ∨ f.rd (Pg.IDE_STATE p) = 3) := by
    simp [hh, hl, hi]
  simp only [ha, Dev.takeIn, if_neg hlive, if_pos hf, Dev.residueFails_found hf]

/-- The credit counters of a port in error are found, as sound ones pass (`Dev.creditRight`). -/
theorem Dev.creditFails {d : Dev} {p count : Nat} (h : d.flaws.contains (.credit p) = true) (hc : count < 65536) (used : Nat) :
    d.unitWrong (.credit p) (subResidue 16 count (used % 65536)) ((count + 65536 - used % 65536) % 65536) =
      ({ d with flaws := d.flaws.erase (.credit p) }, true) :=
  Dev.unitWrong_found h (subResidue_right16 hc (Nat.mod_lt _ (by decide)))

/-- A credit count that meets failing credit counters takes the link down. -/
theorem Dev.creditIn_fails {p vc count : Nat} {d : Dev} (hv : vc ≤ 5) (hc : count < 65536)
    (hf : d.flaws.contains (.credit p) = true) (t : Nat) :
    d.creditIn t p vc count = (({ d with flaws := d.flaws.erase (.credit p) } : Dev).residueError t (Pg.RESIDUE_PORT p) (0x20 + p / 4) 0
      0xffff 0 3).qflLinkDown t p := by
  simp only [Dev.creditIn, if_neg (Nat.not_lt.mpr hv), Dev.creditFails hf hc]

/-- An atomic that meets a failing ALU of its memory port agent ends with poison before its write, and its lock is released. -/
theorem Dev.directAtomic_aluFails {a : Access} {r : Answer} {d : Dev} (hr : r.ending = .done) (hp : r.poison = false)
    (hf : d.flaws.contains (.portAlu (d.backing a.fa).1) = true) (t : Nat) :
    d.directAtomic t a r = ((({ d with flaws := d.flaws.erase (.portAlu (d.backing a.fa).1) } : Dev).residueError t
      (Pg.RESIDUE_PORT (d.backing a.fa).1) (0x20 + (d.backing a.fa).1 / 4) 9 a.master a.fa 1).unlock (d.backing a.fa).1 a.id).later
        (.answer a { poison := true, ending := .residue }) := by
  have hread : ¬ (r.ending ≠ .done ∨ r.poison = true) := by simp [hr, hp]
  simp only [Dev.directAtomic, if_neg hread, Dev.aluWrong_found hf, if_true]

/-- An atomic that meets a failing ALU of its home ends with poison before its write. -/
theorem Dev.homeMemory_aluFails {tr : Tracker} {x : Line} {poison : Bool} {d : Dev} (hk : tr.acc.kind = .atomic)
    (hx : tr.data = some (x, poison)) (hf : d.flaws.contains (.homeAlu tr.slice) = true) (t : Nat) :
    d.homeMemory t tr = (({ d with flaws := d.flaws.erase (.homeAlu tr.slice) } : Dev).residueError t ChurnR.RESIDUE_HOME 5 9
      tr.acc.master tr.acc.fa 1).settleTracker t { tr with answer := { poison := true, ending := .residue } } := by
  simp only [Dev.homeMemory, hk, hx, Dev.aluWrong_found hf, if_true]

/-- A decode that meets a failing adder ends as a miss does, though the address is mapped. -/
theorem Dev.stage2_adderFails {t vi access master hpa : Nat} {d e : Dev} {x : Nat × Nat} (he : e = d.mon t 54 0x601 master hpa)
    (hx : e.decode vi hpa = some x) (hf : e.flaws.contains .adder = true) :
    d.stage2 t vi access master hpa true = ((({ e with flaws := e.flaws.erase .adder } : Dev).residueError t Ext.RESIDUE_DECODE 4 access
      master hpa 2).mon t 54 0x603 master hpa, none) := by
  subst he
  simp only [Dev.stage2, if_true, hx, Dev.addersWrong_found hf hx]

/-! ### Array errors (R194, R201, R524) -/

section
variable {t code unit source i b : Nat} {hit : Nat → Bool} {d : Dev}
  (hw : d.flaws.findSome? (Flaw.inRead code unit hit) = some (i, b))
include hw

/-- A correctable word is corrected. -/
theorem Dev.readArray_correctable (hb : b ≤ if code = 1 then 2 else 1) : d.readArray t code unit source hit =
    (({ d with flaws := d.flaws.erase (.word code unit i b) } : Dev).logCorrected t (code + 16 * unit) source i (code + 256 * b),
      false) := by
  simp only [Dev.readArray, hw, if_pos hb]

/-- An uncorrectable word of tier 1 is counted alone; R201 records its loss. -/
theorem Dev.readArray_tier1_uncorrectable (hc : code = 1) (hb : 2 < b) : d.readArray t code unit source hit =
    (({ d with flaws := d.flaws.erase (.word code unit i b) } : Dev).hbCount 4 1, true) := by
  subst hc
  simp only [Dev.readArray, hw, if_true, if_neg (Nat.not_le.mpr hb)]

/-- An uncorrectable word of another array is counted and recorded. -/
theorem Dev.readArray_uncorrectable (hc : code ≠ 1) (hb : 1 < b) : d.readArray t code unit source hit =
    ((({ d with flaws := d.flaws.erase (.word code unit i b) } : Dev).hbCount 4 1).logErr t
      { cls := 2, severity := if code = 9 ∨ code = 10 then 2 else 1, source, addr := i, detail := code }, true) := by
  simp only [Dev.readArray, hw, if_neg hc, if_neg (Nat.not_le.mpr hb)]

end

/-- A set with an uncorrectable way loses the way, and with it the directory state of every shared extent homed here (R201). -/
theorem Dev.readWays_uncorrectable {la i b : Nat} {d e : Dev}
    (hset : d.flaws.findSome? (Flaw.inRead 1 (sliceOf la) (fun k => k / 16 = setOf la)) = some (i, b))
    (hway : d.flaws.findSome? (Flaw.inRead 1 (sliceOf la) (fun k => k = i)) = some (i, b)) (hb : 2 < b)
    (he : e = ({ d with flaws := d.flaws.erase (.word 1 (sliceOf la) i b) } : Dev).hbCount 4 1) (t : Nat) :
    d.readWays t la = ({ e with chn := { e.chn with tier1 := Tab.erase e.chn.tier1 (wayKey (sliceOf la) (i / 16) (i % 16)) } } :
      Dev).directoryLost t 3 0 ((d.extents.filter (fun x => x.2.state = 4)).map (·.1)) := by
  subst he
  simp only [Dev.readWays, hset, Dev.readArray_tier1_uncorrectable hway rfl hb, if_true]
  rfl

/-- An entry of the error log as it reads once its word is uncorrectable. -/
def ErrorRec.damaged (x : ErrorRec) : ErrorRec :=
  { x with cls := 0xff, severity := 0, source := 0, access := 0, master := 0, rule := 0, addr := 0, time := 0, epoch := 0, detail := 0 }

/-- The entry that a number finds has that number. -/
theorem number_of_find? {l : List ErrorRec} {n : Nat} {x : ErrorRec} (hx : l.find? (fun y => decide (y.number = n)) = some x) :
    x.number = n := by
  simpa only [decide_eq_true_eq] using List.find?_some hx

/-- A change of the entries with a number, which keeps the number, is a change of the first of them. -/
theorem find?_map_numbered {f : ErrorRec → ErrorRec} (hf : ∀ x, (f x).number = x.number) {l : List ErrorRec} {n : Nat} {x : ErrorRec}
    (hx : l.find? (fun y => decide (y.number = n)) = some x) :
    (l.map (fun y => if y.number = n then f y else y)).find? (fun y => decide (y.number = n)) = some (f x) := by
  have hkeeps (y : ErrorRec) : (if y.number = n then f y else y).number = y.number := by split <;> simp only [hf]
  simp only [List.find?_map, Function.comp_def, hkeeps, hx, Option.map_some, if_pos (number_of_find? hx)]

/-- An entry whose word is uncorrectable is damaged from then on (R524). -/
theorem Dev.readLogEntry_uncorrectable {t b i : Nat} {r x : ErrorRec} {d : Dev}
    (hw : d.flaws.findSome? (Flaw.inRead 11 0 (fun k => k = r.number)) = some (i, b)) (hb : 1 < b)
    (hx : (d.readArray t 11 0 0xd (fun k => k = r.number)).1.errors.find? (fun y => y.number = r.number) = some x) :
    (d.readLogEntry t r).errors.find? (fun y => y.number = r.number) = some x.damaged := by
  have hread := Dev.readArray_uncorrectable (t := t) (source := 0xd) hw (by decide) hb
  rw [hread] at hx
  simp only [Dev.readLogEntry, hread]
  exact find?_map_numbered (f := ErrorRec.damaged) (fun _ => rfl) hx

/-! ### The statement on hardware errors -/

/-- Settles O58: each error is found by the unit or the array that meets it, and its meaning goes no further than what contains it. -/
theorem hardwareErrors : Obligations.HardwareErrors := by
  unfold Obligations.HardwareErrors
  refine ⟨?cxlCredit, ?qflCredit, ?portAlu, ?homeAlu, ?adder, ?tier1, ?array, ?logEntry⟩
  case cxlCredit =>
    rintro port tag hpa keep s _ f rfl hf hh hl hi hc
    subst hf
    exact congrArg (fun e => Host.Outcome.next (s.settledFrom (s.withDev e))) (Dev.arrive_creditFails rfl hh hl hi hc s.time.now)
  case qflCredit =>
    rintro port vc count crc s _ rfl hh hcrc hv hc
    exact s.next_congr ((Dev.wheyIn_intact hh hcrc _).trans (Dev.creditIn_fails hv count.isLt hc _))
  case portAlu =>
    rintro t a r d _ rfl hr hp hf
    exact Dev.directAtomic_aluFails hr hp hf t
  case homeAlu =>
    rintro t tr x poison d hk hx hf
    exact Dev.homeMemory_aluFails hk hx hf t
  case adder =>
    rintro t vi access master hpa d x e he hx hf
    exact Dev.stage2_adderFails he hx hf
  case tier1 =>
    rintro t _ la i d rfl hset hway
    exact ⟨_, rfl, Dev.readWays_uncorrectable hset hway (by decide) rfl t⟩
  case array =>
    rintro t code unit source i b hit d hc hw
    refine ⟨fun hb => Dev.readArray_correctable hw (by rwa [if_neg hc]), fun hb => ?_⟩
    rw [Dev.readArray_uncorrectable hw hc hb]
    exact ⟨rfl, rfl⟩
  case logEntry =>
    rintro t r x d b hw hb hx
    rw [Dev.readLogEntry_uncorrectable hw hb hx, Option.map_some, ErrorRec.damaged, number_of_find? hx]

end Sys2Proof.Machine
end

section
/-! SUPPORT. The residues of powers of two, of wrapped sums and differences and of the result of a failing unit, and the statement on them
(O60). -/
namespace Sys2Proof.Machine
open Sys2Proof

/-! ### Powers of two (R255) -/

/-- 2 is −1 modulo 3, so its powers alternate. -/
theorem residue_two_pow (k : Nat) : residue (2 ^ k) = powResidue k := by
  induction k with
  | zero => rfl
  | succ k ih =>
    simp only [residue, powResidue] at ih ⊢
    rw [Nat.pow_succ, Nat.mul_mod, ih]
    split <;> split <;> omega

/-! ### Wrapped sums and differences -/

/-- A wrapped sum and its carry out, which stands for `m`, make the sum. -/
theorem wrapped_add_carry {m a b : Nat} (ha : a < m) (hb : b < m) : (a + b) % m + (if m ≤ a + b then m else 0) = a + b := by
  rw [Nat.add_mod_eq_ite, Nat.mod_eq_of_lt ha, Nat.mod_eq_of_lt hb]
  split <;> omega

/-- A wrapped difference is the difference and its borrow, which stands for `m`. -/
theorem wrapped_sub_borrow {m a b : Nat} (ha : a < m) (hb : b < m) :
    (a + (m - b)) % m + b = a + (if a < b then m else 0) := by
  split
  case isTrue h => rw [Nat.mod_eq_of_lt (by omega)]; omega
  case isFalse h =>
    have hwrap : a + (m - b) = a - b + m := by omega
    rw [hwrap, Nat.add_mod_right, Nat.mod_eq_of_lt (by omega)]
    omega

/-! ### The predictions (R255), for every width -/

/-- A prediction for a sum, as R255 writes it: with a difference that may be negative. -/
theorem addResidue_int (n a b : Nat) : (addResidue n a b : Int) =
    ((residue a : Int) + residue b - (if 2 ^ n ≤ a + b then 1 else 0) * residue (2 ^ n)) % 3 := by
  have hr : residue (2 ^ n) < 3 := residue_lt _
  rw [addResidue, ← residue_two_pow]
  split <;> omega

/-- A prediction for a difference, as R255 writes it. -/
theorem subResidue_int (n a b : Nat) : (subResidue n a b : Int) =
    ((residue a : Int) - residue b + (if a < b then 1 else 0) * residue (2 ^ n)) % 3 := by
  have hr : residue b < 3 := residue_lt _
  rw [subResidue, ← residue_two_pow]
  split <;> omega

/-- The prediction for a sum is right: taking out the residue of the carry takes out the carry. -/
theorem addResidue_right {n a b : Nat} (ha : a < 2 ^ n) (hb : b < 2 ^ n) : addResidue n a b = residue ((a + b) % 2 ^ n) := by
  have hwrap := wrapped_add_carry ha hb
  rw [addResidue, ← residue_two_pow]
  simp only [residue]
  by_cases hcarry : 2 ^ n ≤ a + b
  · rw [if_pos hcarry] at hwrap ⊢
    omega
  · rw [if_neg hcarry] at hwrap ⊢
    omega

/-- The prediction for a difference is right: adding the residue of the borrow adds the borrow. -/
theorem subResidue_right {n a b : Nat} (ha : a < 2 ^ n) (hb : b < 2 ^ n) :
    subResidue n a b = residue ((a + (2 ^ n - b)) % 2 ^ n) := by
  have hwrap := wrapped_sub_borrow ha hb
  rw [subResidue, ← residue_two_pow]
  simp only [residue]
  by_cases hborrow : a < b
  · rw [if_pos hborrow] at hwrap ⊢
    omega
  · rw [if_neg hborrow] at hwrap ⊢
    omega

/-! ### The check of a unit (R254, log entry 176) -/

/-- A unit whose prediction is right is found wrong exactly when it fails. -/
theorem Dev.unitWrong_eq_residueFails {p r : Nat} (hp : p = residue r) (f : Flaw) (d : Dev) :
    d.unitWrong f p r = d.residueFails f := by
  cases hf : d.flaws.contains f with
  | true => rw [Dev.unitWrong_found hf hp, Dev.residueFails_found hf]
  | false =>
    have hsound : d.residueFails f = (d, false) := if_neg (ne_true_of_eq_false hf)
    simp [Dev.unitWrong, hsound, hp]

/-! ### The statement on residues -/

/-- Settles O60: powers of two alternate modulo 3, the predictions follow the wrapped results, and one wrong bit changes a residue. -/
theorem residues : Obligations.Residues := by
  unfold Obligations.Residues
  refine ⟨residue_two_pow, ?add, ?sub, ?check⟩
  case add => exact fun n a b ha hb => ⟨addResidue_right ha hb, addResidue_int n a b⟩
  case sub => exact fun n a b ha hb => ⟨subResidue_right ha hb, subResidue_int n a b⟩
  case check => exact fun f p r d hp => congrArg Prod.snd (Dev.unitWrong_eq_residueFails hp f d)

end Sys2Proof.Machine
end

section
/-! SUPPORT. Resets of the device: the warm reset and its drain, power fall, OM0 and the ways into and out of it, a boot whose self-test
fails, the TAP, and the statement on them (O12). -/
namespace Sys2Proof.Machine
open Sys2Proof

/-! ### Warm reset and its drain (R284, R498 to R500) -/

/-- WARM_RESET on the device (R431). -/
def Dev.warmReset (delay : Nat) (d : Dev) : Dev × Result :=
  if 1000 < delay then (d, .err .badParam)
  else if d.flag Glob.TRANSITION_BUSY then (d, .err .busy)
  else ({ d with rst := { d.rst with warmDelay := some (if d.mode = 11 then 5 else 3) } }, .final .ok [])

theorem exec_warmReset (h : SilekHdr) (delay : Nat) (s : State) :
    exec (.warmReset h delay) s = runSilek h (.of 0xa30 0 (.warmReset h.key delay)) (devBody fun _ d => d.warmReset delay) s := rfl

/-- Outside a transition the device replies and waits out the delay; it notes which cause the restart will show. -/
theorem Dev.warmReset_waits {d : Dev} {delay : Nat} (hd : delay ≤ 1000) (hb : d.flag Glob.TRANSITION_BUSY = false) :
    d.warmReset delay = ({ d with rst := { d.rst with warmDelay := some (if d.mode = 11 then 5 else 3) } }, .final .ok []) :=
  (if_neg (Nat.not_lt.mpr hd)).trans (if_neg (ne_true_of_eq_false hb))

/-- The delay's end starts the drain. -/
theorem exec_warmResetDelay_drains {s : State} {c : Nat} (hw : s.dev.rst.warmDelay = some c) (hm : 2 ≤ s.dev.mode)
    (hd : s.dev.rst.draining = none) : exec .warmResetDelay s = .next (s.withDev (s.dev.startWarm c)) := by
  refine congrArg (fun d => Host.Outcome.next (s.withDev d)) ?_
  simp [hw, hd, Nat.not_lt.mpr hm]

/-- The watchdog's expiry is recorded and, with the control processor's memory sound and no drain under way, starts a warm reset. -/
theorem exec_watchdogExpiry_drains {s : State} (hf : s.dev.flaws = []) (hm : 2 ≤ s.dev.mode)
    (hd : ((s.dev.raise1 Glob.WDT_EXPIRED_EVT).hbCount 10 1).rst.draining = none) :
    exec .watchdogExpiry s = .next (s.withDev (((s.dev.raise1 Glob.WDT_EXPIRED_EVT).hbCount 10 1).startWarm 4)) := by
  refine congrArg (fun d => Host.Outcome.next (s.withDev d)) ?_
  simp only [Nat.not_lt.mpr hm, Dev.readArray_of_sound hf, hd, Option.isSome_none, Bool.false_eq_true, if_false]

/-- The drain's limit with one write left: it is recorded with its target's address, dropped, and counted as discarded. -/
theorem exec_drainTimeout_one {s : State} {e : EgressEntry} {g : Dev}
    (hg : g = (s.dev.logErr s.time.now
      { cls := 9, severity := 1, source := 0x20 + e.port / 4, access := 8, addr := e.addr, detail := 1 }).dropWrites)
    (hd : s.dev.rst.draining.isSome = true) (hp : s.dev.rst.powerFall = false) (he : s.dev.buf.entries = [e])
    (hr : s.dev.buf.remote = []) (hw : e.writes.length = 1) :
    exec .drainTimeout s = .next (s.withDev (((g.raise1 Glob.LAST_DRAIN_INCOMPLETE).wr Glob.LAST_DRAIN_DISCARDS
      (saturate 16 1)).hbCount 11 1)) := by
  have hrun : ¬ (s.dev.rst.draining.isNone = true ∨ s.dev.rst.powerFall = true) := by simp [← Option.not_isSome, hd, hp]
  have htargets : (s.dev.buf.entries.map (fun e => (e.port, e.ld))).eraseDups = [(e.port, e.ld)] := by simp [he, List.eraseDups_cons]
  have howners : (s.dev.buf.remote.map (·.owner)).eraseDups = [] := by simp [hr]
  have hleft : s.dev.buf.entries.filter (fun x => x.port = e.port ∧ x.ld = e.ld) = [e] := by simp [he]
  refine congrArg (fun d => Host.Outcome.next (s.withDev d)) ?_
  simp only [hrun, htargets, howners, hleft, hg, if_false, List.foldl_cons, List.foldl_nil, List.map_cons, List.map_nil, hw,
    List.head?_cons, Option.map_some, Option.getD_some, Nat.zero_add, Nat.one_ne_zero]

/-- Once nothing is left to drain, the device restarts with FABRIC_TIME alone kept of the time unit. -/
theorem exec_warmResetDrainDone_restarts {s : State} {c : Nat} (hd : s.dev.rst.draining = some c) (ho : s.dev.drainOver = true) :
    exec .warmResetDrainDone s =
      .next { pending := s.pending, time := { now := s.time.now }, dev := s.dev.warmRestart s.time.now c } := by
  show execWarmResetDrainDone s = _
  simp only [execWarmResetDrainDone, hd, ho, not_true, if_false]

/-! ### Power fall (R285, R286, R543) -/

/-- A falling supply stops admission. -/
theorem exec_pwrfail_holds {s : State} (hm : s.dev.mode ≠ 0) :
    exec .pwrfail s =
      .next (s.withDev (({ s.dev with rst := { s.dev.rst with powerFall := true } } : Dev).raise1 Glob.PWRFAIL_HOLD)) :=
  congrArg (fun d => Host.Outcome.next (s.withDev d)) (if_neg hm)

/-- At the limit of a power fall that has drained everything, the record counts no discarded write at any port. -/
theorem exec_pwrfailDrainLimit_drained {s : State} (hp : s.dev.rst.powerFall = true) (he : s.dev.buf.entries = [])
    (hr : s.dev.buf.remote = []) :
    exec .pwrfailDrainLimit s = .next (s.withDev (({ s.dev with
      hbk := { s.dev.hbk with powerFail := some (s.dev.hbk.powerOns, s.time.now, 0, []) }
      rst := { s.dev.rst with powerFall := false } } : Dev).dropWrites)) := by
  have hports : ((List.range 64).map (fun p => (p, min 0xffff (s.dev.writesOf p).length))).filter (fun x => x.2 ≠ 0) = [] := by
    simp [Dev.writesOf, he]
  refine congrArg (fun d => Host.Outcome.next (s.withDev d)) ?_
  simp only [hp, hports, he, hr, not_true, if_false, List.map_nil, List.foldl_nil, List.length_nil]

/-! ### Through OM0 (R470, R480, R481, R490, R497) -/

/-- RST_N rises with the supplies in range and no zeroisation held: behind IDCODE, which is no scan instruction, the device boots. -/
theorem exec_rstNRise_boots {s : State} (straps : Straps) (ho : s.dev.rst.inOm0 = true) (hl : s.dev.rst.pinLow = true)
    (hj : s.dev.jtag.instruction = 1) :
    exec (.rstNRise straps true true) s =
      .next (s.withDev (({ s.dev with rst := { s.dev.rst with pinLow := false, straps } } : Dev).leaveOm0 s.time.now)) := by
  have hscan : scanInstrs.contains 1 = false := by decide
  refine congrArg (fun d => Host.Outcome.next (s.withDev d)) ?_
  simp only [ho, hl, hj, hscan, not_true, or_self, Bool.false_eq_true, if_false]

/-- RST_N low takes a running device to OM0, where the pin is known to be low. -/
theorem exec_rstNLow_running {s : State} (ho : s.dev.rst.inOm0 = false) :
    exec .rstNLow s = .next ((s.toOm0 1 0 false).withDev { s.dev.enterOm0 s.time.now 1 0 false with
      rst := { (s.dev.enterOm0 s.time.now 1 0 false).rst with pinLow := true } }) := by
  show execRstNLow s = _
  simp only [execRstNLow, ho, Bool.false_eq_true, if_false]
  rfl

/-- A supply fault takes a running device to OM0. -/
theorem exec_supplyFault_running {s : State} (rail : Fin 6) (ho : s.dev.rst.inOm0 = false) :
    exec (.supplyFault rail) s = .next (s.toOm0 2 (rail + 1) false) :=
  congrArg Host.Outcome.next (if_neg (ne_true_of_eq_false ho))

theorem exec_zeroizeN (s : State) : exec .zeroizeN s = .next (s.zeroise 2) := rfl

/-- ZEROIZE with its word, over MCTP and secured as the part asks: the answer goes out before the device zeroises, and none follows
(R480). -/
theorem exec_zeroize_fm {s : State} {h : SilekHdr} {a : Nat} (ha : s.admits h (.of 0x711 0 (.zeroize h.key 0x5a45524f)) = true)
    (hq : h.requester = .fm a) (hs : s.begun.dev.unsecured h.secured = false) :
    exec (.zeroize h 0x5a45524f) s =
      .next ((s.begun.answer h.requester 0x711 h.tag (min h.minor 3) h.src 1 .ok []).zeroise 1) := by
  refine runSilek_silent ha ?_
  simp only [hs, hq, Bool.false_eq_true, ne_eq, not_true, if_false]

/-! ### Boot (R34, R470) -/

/-- A failed self-test halts the boot in OM1; the transition's cause is 9 (log entry 154). -/
theorem exec_bootComplete_failed {s : State} {kat : Nat} (linear16 : Bool) (hm : s.dev.mode = 1) (hb : s.dev.rst.booting = true)
    (hk : kat ≠ 0) :
    exec (.bootComplete kat linear16) s = .next (s.settledFrom (s.withDev
      ((((({ s.dev with rst := { s.dev.rst with booting := false } } : Dev).raise1 Glob.HALTED).wr ScR.LAST_EVENT kat).raise1
        ScR.SEC_EVT).noteBoot.noteMode s.time.now 1 9))) := by
  have hrun : ¬ (s.dev.mode ≠ 1 ∨ ¬ s.dev.rst.booting = true) := by simp [hm, hb]
  exact congrArg (fun d => Host.Outcome.next (s.settledFrom (s.withDev d))) ((if_neg hrun).trans (if_pos hk))

/-! ### The TAP (R573, R576) -/

/-- IDCODE shifts out the identification register. -/
theorem exec_jtagInstructionLoad_idcode (s : State) :
    exec (.jtagInstructionLoad 1) s = .next (s.settledFrom (s.withDev
      (({ s.dev with jtag := { s.dev.jtag with instruction := 1 } } : Dev).emit (.jtag s.dev.idcode)))) := rfl

/-- Test-Logic-Reset selects IDCODE; a device that no scan instruction holds does nothing more. -/
theorem exec_testLogicReset_unheld {s : State} (hs : s.dev.rst.scanHold = false) :
    exec .testLogicReset s = .next (s.withDev { s.dev with jtag := { s.dev.jtag with instruction := 1 } }) :=
  congrArg (fun d => Host.Outcome.next (s.withDev d)) (if_neg fun hheld => ne_true_of_eq_false hs hheld.2)

/-! ### The statement -/

/-- Settles O12: each row at the case that its hypotheses single out. -/
theorem resetEvents : Obligations.ResetEvents := by
  unfold Obligations.ResetEvents
  refine ⟨?warm, ?delay, ?watchdog, ?limit, ?drained, ?fall, ?fallLimit, ?rise, ?low, ?supply, ?pin, ?command, ?boot, ?idcode, ?tap⟩
  case warm =>
    rintro h delay s d i rfl rfl ha hd hb
    rw [exec_warmReset]
    exact runSilek_dev ha (Dev.warmReset_waits hd hb)
  case delay =>
    rintro c s d rfl hw hm hd
    exact exec_warmResetDelay_drains hw hm hd
  case watchdog =>
    rintro s d rfl hf hm hd
    exact exec_watchdogExpiry_drains hf hm hd
  case limit =>
    rintro e s d g rfl hg hd hp he hr hw
    exact exec_drainTimeout_one hg hd hp he hr hw
  case drained =>
    intro s c hd ho
    exact exec_warmResetDrainDone_restarts hd ho
  case fall =>
    rintro s d rfl hm
    exact exec_pwrfail_holds hm
  case fallLimit =>
    rintro s d rfl hp he hr
    exact exec_pwrfailDrainLimit_drained hp he hr
  case rise =>
    rintro straps inRange zeroizeHigh s d f rfl rfl ho hl rfl rfl hj
    exact exec_rstNRise_boots straps ho hl hj
  case low =>
    intro s ho
    exact exec_rstNLow_running ho
  case supply =>
    intro s rail ho
    exact exec_supplyFault_running rail ho
  case pin => exact exec_zeroizeN
  case command =>
    rintro h word a s i rfl ha hq hs rfl
    exact exec_zeroize_fm ha hq hs
  case boot =>
    rintro kat linear16 s d rfl hm hb hk
    exact exec_bootComplete_failed linear16 hm hb hk
  case idcode =>
    rintro code s d rfl rfl
    exact exec_jtagInstructionLoad_idcode s
  case tap =>
    rintro s d rfl hs
    exact exec_testLogicReset_unheld hs

end Sys2Proof.Machine
end

section
/-! SUPPORT. The table of queue pairs, what the queue commands and LADLE_SUBMIT do to the pair they name, and the statements on enabling a
pair (O57) and on the queue commands (O6). -/
namespace Sys2Proof.Machine
open Sys2Proof

/-! ### The table of pairs -/

@[simp] theorem Dev.pair_setPair (d : Dev) (q : Nat) (x : Pair) : (d.setPair q x).pair q = x := Tab.getD_put_same ..
theorem Dev.pair_setPair_other (d : Dev) {q r : Nat} (x : Pair) (hr : r ≠ q) : (d.setPair q x).pair r = d.pair r :=
  Tab.getD_put_other _ _ _ _ hr
@[simp] theorem Dev.rd_setPair (d : Dev) (q : Nat) (x : Pair) (f : Field) : (d.setPair q x).rd f = d.rd f := rfl
@[simp] theorem Dev.pair_mon (d : Dev) (t m c a x q : Nat) : (d.mon t m c a x).pair q = d.pair q := by simp [Dev.pair]
theorem State.begun_pair (s : State) (q : Nat) : s.begun.dev.pair q = s.dev.pair q := by simp [State.begun_dev]

/-! ### A command on the pair that it names (R292) -/

theorem exec_queueAssign (h : SilekHdr) (pair owner index ladle : Nat) (s : State) :
    exec (.queueAssign h pair owner index ladle) s =
      runSettled h (.of 0x340 0 (.queueAssign h.key pair owner index ladle))
        (devBody fun _ d => d.queueAssign pair owner index ladle) s := rfl
theorem exec_queueSetup (h : SilekHdr) (pair log2 sq cq vector : Nat) (enable : Bool) (s : State) :
    exec (.queueSetup h pair log2 sq cq vector enable) s =
      runSettled h { CmdInfo.of 0x341 0 (.queueSetup h.key pair log2 sq cq vector enable) with hostMay := fun _ _ => true }
        (pairBody h pair fun _ q d => d.queueSetup q log2 sq cq vector enable) s := rfl
theorem exec_queueDisable (h : SilekHdr) (pair : Nat) (s : State) :
    exec (.queueDisable h pair) s =
      runSettled h { CmdInfo.of 0x342 0 (.queueDisable h.key pair) with hostMay := fun _ _ => true }
        (pairBody h pair fun t q d => d.queueDisable t q) s := rfl
theorem exec_queueReset (h : SilekHdr) (pair : Nat) (s : State) :
    exec (.queueReset h pair) s =
      runSettled h { CmdInfo.of 0x343 0 (.queueReset h.key pair) with hostMay := fun _ _ => true }
        (pairBody h pair fun t q d => d.queueReset t q) s := rfl
theorem exec_queueQuery (h : SilekHdr) (pair : Nat) (s : State) :
    exec (.queueQuery h pair) s =
      runSilek h { CmdInfo.of 0x344 0 (.queueQuery h.key pair) with hostMay := fun _ _ => true }
        (pairBody h pair fun _ q d => (d, .final .ok (leBytes 32 (d.pair q).bits))) s := rfl
theorem exec_ladleSubmit (h : SilekHdr) (pair : Nat) (ds : List (BitVec 512)) (s : State) :
    exec (.ladleSubmit h pair ds) s =
      runSettled h (.of 0x345 2 (.ladleSubmit h.key pair ds))
        (devBody fun _ d => ((d.ladleSubmit pair ds).1.later .recheck, (d.ladleSubmit pair ds).2)) s := rfl

/-- A queue command acts on the pair that the requester's number names. -/
theorem pairBody_named {h : SilekHdr} {pair q : Nat} {s : State} {f : Nat → Nat → Dev → Dev × Result} {e : Dev} {r : Result}
    (hq : s.begun.dev.namedPair h.requester pair = some q) (hf : f s.time.now q s.begun.dev = (e, r)) :
    pairBody h pair f s.begun = (s.withDev e, r) := by
  simp only [pairBody, devBody, hq, State.begun_time, hf]
  rfl

/-- An admitted command whose body acts on the whole state and goes on, with the work it hands on. -/
theorem runSettled_stateRun {s u : State} {h : SilekHdr} {i : CmdInfo} {body : State → State × Result} {w : Work}
    (ha : s.admits h i = true) (hf : body s.begun = (u, .run w)) :
    runSettled h i body s = .next (s.settledFrom (u.runs h i w)) := by
  unfold runSettled
  rw [runSilek_admits ha, start_run hf]
  rfl

/-! ### Assigning and setting up (R292, R295) -/

/-- An UNASSIGNED or DISABLED pair goes to a VI that has the local index and an allocation to spare. -/
theorem Dev.queueAssign_vi {q owner index ladle : Nat} {d : Dev} {mine : List (Nat × Pair)}
    (hm : mine = (d.ladles.pairs.filter (fun y => decide (y.1 ≠ q ∧ y.2.state ≠ 0))).filter
      (fun y => decide (¬ y.2.fm ∧ y.2.inst = owner)))
    (hq : q ≤ 8191) (ho : owner ≤ 63) (hi : index ≤ 1023) (hl : ladle ≤ 31) (hs : (d.pair q).state < 2)
    (hd : (d.pair q).disabling = false) (hfree : mine.any (fun y => decide (y.2.localIndex = index)) = false)
    (halloc : mine.length < d.rd (Vi.QUEUE_ALLOC owner)) :
    d.queueAssign q owner index ladle =
      (d.setPair q { state := 1, inst := owner, localIndex := index, ladle := ladle }, .final .ok []) := by
  have hrange : ¬ (8191 < q ∨ ¬ (owner ≤ 64 ∨ owner = 255) ∨ 1023 < index ∨ ¬ (ladle ≤ 31 ∨ ladle = 255)) := by omega
  have hbusy : ¬ (2 ≤ (d.pair q).state ∨ (d.pair q).disabling = true) := by simp [hd, hs]
  have hnone : ¬ owner = 255 := by omega
  have hfm : ¬ owner = 64 := by omega
  have hany : ¬ ladle = 255 := by omega
  subst hm
  simp only [Dev.queueAssign, if_neg hrange, if_neg hbusy, if_neg hnone, if_neg hfm, if_neg hany, if_neg (Nat.not_le.mpr halloc)]
  exact if_neg (ne_true_of_eq_false hfree)

/-- A pair as QUEUE_SETUP enables it: its rings and vector written, its indices at 0, its phase 1, and nothing of an earlier use left. -/
def Pair.enabledWith (x : Pair) (log2 sq cq vector : Nat) : Pair :=
  { x with
    log2Size := log2, sqBase := sq, cqBase := cq, vector := vector, errorCause := 0, state := 2, sqHead := 0, sqTail := 0, cqHead := 0
    cqTail := 0, cqUsed := 0, phase := true, doorbells := [], fetched := [], ready := [], fetching := none, lostWrite := false
    granted := false, heldError := 0 }

/-- A DISABLED pair with legal rings and a vector of its VI is enabled. -/
theorem Dev.queueSetup_enables {q log2 sq cq vector : Nat} {d : Dev} (hsq : sq % 4096 = 0) (hcq : cq % 4096 = 0) (h4 : 4 ≤ log2)
    (h12 : log2 ≤ 12) (hv : (d.pair q).fm = true ∨ vector < d.rd (Vi.MSIX_COUNT (d.pair q).inst)) (h1 : (d.pair q).state = 1)
    (hd : (d.pair q).disabling = false) :
    d.queueSetup q log2 sq cq vector true = (d.setPair q ((d.pair q).enabledWith log2 sq cq vector), .final .ok []) := by
  have hvector : ¬ (¬ (d.pair q).fm = true ∧ (d.pair q).state ≠ 0 ∧ d.rd (Vi.MSIX_COUNT (d.pair q).inst) ≤ vector) :=
    fun ⟨hfm, _, hle⟩ => hv.elim hfm (Nat.not_lt.mpr hle)
  have hlegal : ¬ (sq % 4096 ≠ 0 ∨ cq % 4096 ≠ 0 ∨ log2 < 4 ∨ 12 < log2 ∨
      (¬ (d.pair q).fm = true ∧ (d.pair q).state ≠ 0 ∧ d.rd (Vi.MSIX_COUNT (d.pair q).inst) ≤ vector)) := by
    simp only [hvector, or_false]; omega
  have hbusy : ¬ ((d.pair q).state ≠ 1 ∨ (d.pair q).disabling = true) := by simp [h1, hd]
  exact (if_neg hlegal).trans (if_neg hbusy)

/-! ### Disabling and resetting (R296) -/

/-- A DISABLED pair stays as it is. -/
theorem Dev.queueDisable_disabled {q : Nat} {d : Dev} (h1 : (d.pair q).state = 1) (t : Nat) : d.queueDisable t q = (d, .final .ok []) := by
  simp only [Dev.queueDisable, h1]

/-- A pair in use takes no more doorbells; the command ends at once when nothing of the pair is left, and goes on otherwise. -/
theorem Dev.queueDisable_inUse {q : Nat} {d f : Dev} (hf : f = d.setPair q { d.pair q with disabling := true, doorbells := [] })
    (h2 : 2 ≤ (d.pair q).state) (hd : (d.pair q).disabling = false) (t : Nat) :
    d.queueDisable t q =
      if ((f.pairIdle t q).pair q).disabling then (f, .run (.queueDisable q)) else (f.pairIdle t q, .final .ok []) := by
  obtain ⟨n, hn⟩ := Nat.exists_eq_add_of_le' h2
  subst hf
  simp only [Dev.queueDisable, hn]
  exact if_neg (ne_true_of_eq_false hd)

/-- A pair in ERROR is reset as it is disabled. -/
theorem Dev.queueReset_error {q : Nat} {d : Dev} (h4 : (d.pair q).state = 4) (t : Nat) : d.queueReset t q = d.queueDisable t q :=
  if_neg (not_not_intro h4)

/-! ### LADLE_SUBMIT (R293) -/

/-- Descriptors that find room on an ENABLED fabric-manager pair are fetched at once, and the command waits for all of them. -/
theorem Dev.ladleSubmit_takes {q : Nat} {ds : List (BitVec 512)} {d f : Dev} (hf : f = d.setPair q ((d.pair q).take (ds.map Desc.ofBits) 0))
    (hq : q ≤ 8191) (h1 : 1 ≤ ds.length) (h16 : ds.length ≤ 16) (hfm : d.fmPair q = true)
    (hroom : d.ringUsed q + d.ringKept q + ds.length ≤ 64) :
    d.ladleSubmit q ds =
      ({ f with
        silek := { f.silek with nextId := d.silek.nextId + 1 }
        ladles := { f.ladles with submits := f.ladles.submits ++ [
          { id := d.silek.nextId, pair := q, orders := (List.range ds.length).map (· + (d.pair q).nextOrder) }] } },
        .run (.fan d.silek.nextId)) := by
  have hrange : ¬ (8191 < q ∨ ds.length < 1 ∨ 16 < ds.length) := by omega
  subst hf
  exact (if_neg hrange).trans ((if_neg (not_not_intro hfm)).trans (if_neg (Nat.not_lt.mpr hroom)))

/-! ### The statements -/

/-- Settles O57: the pair is enabled in place, so every other pair and every register field is as before. -/
theorem pairEnable : Obligations.PairEnable := by
  unfold Obligations.PairEnable
  rintro h pair log2 sq cq vector q s _ rfl ha hq hsq hcq h4 h12 hv h1 hd
  rw [← State.begun_rd, ← State.begun_pair] at hv
  rw [← State.begun_pair] at h1 hd
  have hrun := runSettled_state ha (pairBody_named (f := fun _ q d => d.queueSetup q log2 sq cq vector true) hq
    (Dev.queueSetup_enables hsq hcq h4 h12 hv h1 hd))
  refine ⟨_, (exec_queueSetup ..).trans hrun, ?_⟩
  simp only [Dev.pair_setPair, Dev.rd_setPair, State.begun_pair, State.begun_rd, Pair.enabledWith, implies_true, and_true, true_and]
  exact fun r hr => (Dev.pair_setPair_other _ _ hr).trans (s.begun_pair r)

/-- Settles O6: the responder takes each command up, and its hypotheses single out what becomes of the pair. -/
theorem queueCommands : Obligations.QueueCommands := by
  unfold Obligations.QueueCommands
  refine ⟨?assign, ?setup, ?disabled, ?disable, ?reset, ?query, ?submit⟩
  case assign =>
    rintro h q owner index ladle s _ _ mine rfl rfl ha hm hq ho hi hl hs hd hfree halloc
    rw [exec_queueAssign]
    exact runSettled_dev ha (Dev.queueAssign_vi hm hq ho hi hl hs hd hfree halloc)
  case setup =>
    rintro h pair log2 sq cq vector _ q s _ _ rfl rfl ha hq hsq hcq h4 h12 hv h1 hd rfl
    rw [exec_queueSetup]
    exact runSettled_state ha (pairBody_named hq (Dev.queueSetup_enables hsq hcq h4 h12 (.inr hv) h1 hd))
  case disabled =>
    rintro h pair q s _ _ rfl rfl ha hq h1
    rw [exec_queueDisable]
    exact runSettled_state ha (pairBody_named hq (Dev.queueDisable_disabled h1 _))
  case disable =>
    rintro h pair q s _ _ f rfl rfl ha hf hq h2 hd hidle
    rw [exec_queueDisable]
    exact runSettled_state ha (pairBody_named hq
      ((Dev.queueDisable_inUse hf (by omega) hd _).trans (if_neg (ne_true_of_eq_false hidle))))
  case reset =>
    rintro h pair q s _ _ f rfl rfl ha hf hq h4 hd hidle
    rw [exec_queueReset]
    exact runSettled_stateRun ha (pairBody_named hq
      ((Dev.queueReset_error h4 _).trans ((Dev.queueDisable_inUse hf (by omega) hd _).trans (if_pos hidle))))
  case query =>
    rintro h pair q s _ _ rfl rfl ha hq
    rw [exec_queueQuery]
    exact runSilek_state ha (pairBody_named hq rfl)
  case submit =>
    rintro h q ds s _ _ f rfl rfl ha hf hq h1 h16 hfm hroom
    have htakes := Dev.ladleSubmit_takes hf hq h1 h16 hfm hroom
    rw [exec_ladleSubmit]
    exact runSettled_devRun ha (by rw [htakes])

end Sys2Proof.Machine
end

section
/-! SUPPORT. How the head descriptor of a pair starts, what doorbells, descriptor fetches and ended pieces do, how blocks sleep and wake,
and the statements on descriptors (O7) and on the events of the Ladles (O8). -/
namespace Sys2Proof.Machine
open Sys2Proof

/-! ### Starting the head of a pair (R302, R316) -/

/-- A turn at a Ladle changes its credits and the pair it served last, and no pair. -/
@[simp] theorem Dev.pair_takeTurn (d : Dev) (q : Nat) (credit : Tab Int) (r : Nat) : (d.takeTurn q credit).pair r = d.pair r := rfl

/-- Descriptor y of pair q, whose fields are x, becomes a run of the pair's Ladle and issues its first pieces (R306). -/
def Dev.beginRun (t q order purpose : Nat) (x : Pair) (y : Desc) (d : Dev) : Dev :=
  ({ d with ladles := { d.ladles with
    runs := d.ladles.runs ++ [{
      id := d.ladles.nextRun, pair := q, ladle := x.ladle, desc := y, order := order, crc := Nat.xor (y.opA % 2 ^ 32) 0xffffffff
      purpose := purpose }]
    nextRun := d.ladles.nextRun + 1 } } : Dev).issuePieces 33 t d.ladles.nextRun

/-- A head without FENCE that passes its checks leaves the head and runs. -/
theorem Dev.startHead_runs {t q order purpose : Nat} {y : Desc} {rest : List (Nat × Desc × Nat)} {d f : Dev}
    (hf : f = (d.setPair q { d.pair q with fetched := rest, granted := false }).mon t (48 + (d.pair q).ladle / 8) 0x301
      (d.pair q).master 0)
    (hx : (d.pair q).fetched = (order, y, purpose) :: rest) (hfence : y.fence = false)
    (hc : y.check (d.pair q).fm (decide (purpose ≠ 0)) = none)
    (hz : y.opcode = 6 → (f.ext (faExtent y.dst)).state = 7 ∧ f.isHome y.dst = true) :
    d.startHead t q = f.beginRun t q order purpose (d.pair q) y := by
  have hlost : ¬ (y.fence = true ∧ (d.pair q).lostWrite = true) := by simp [hfence]
  have hzero : ¬ (y.opcode = 6 ∧ ((f.ext (faExtent y.dst)).state ≠ 7 ∨ ¬ f.isHome y.dst = true)) :=
    fun ⟨h6, hn⟩ => hn.elim (· (hz h6).1) (· (hz h6).2)
  subst hf
  simp only [Dev.startHead, hx, hc, hfence, Bool.false_eq_true, false_and, if_false] at hzero ⊢
  exact if_neg hzero

/-- The head starts when the place is the pair's: kept since its ring read, or granted now. -/
theorem Dev.startTurn_starts {q : Nat} {credit : Tab Int} {d g : Dev} (hm : d.mayStart q = true)
    (hg : ((d.pair q).granted = true ∧ g = d) ∨ ((d.pair q).granted = false ∧ d.ladleTurn (d.pair q).ladle = some (q, credit) ∧
      g = d.takeTurn q credit)) (t : Nat) : d.startTurn t q = g.startHead t q := by
  refine (if_neg (not_not_intro hm)).trans ?_
  rcases hg with ⟨hkept, rfl⟩ | ⟨hnew, hturn, rfl⟩
  · exact if_pos hkept
  · rw [if_neg (ne_true_of_eq_false hnew), hturn]
    exact if_pos rfl

/-- A descriptor row whose opcode is that of the head, while the Ladles run. -/
theorem startDesc_runs {q order purpose op : Nat} {y : Desc} {rest : List (Nat × Desc × Nat)} {credit : Tab Int} {g f : Dev} {s : State}
    (hf : f = (g.setPair q { s.dev.pair q with fetched := rest, granted := false }).mon s.time.now (48 + (s.dev.pair q).ladle / 8)
      0x301 (s.dev.pair q).master 0)
    (hg : ((s.dev.pair q).granted = true ∧ g = s.dev) ∨ ((s.dev.pair q).granted = false ∧
      s.dev.ladleTurn (s.dev.pair q).ladle = some (q, credit) ∧ g = s.dev.takeTurn q credit))
    (hr : s.dev.ladlesRun = true) (hx : (s.dev.pair q).fetched = (order, y, purpose) :: rest) (hop : y.opcode = op)
    (hm : s.dev.mayStart q = true) (hfence : y.fence = false) (hc : y.check (s.dev.pair q).fm (decide (purpose ≠ 0)) = none)
    (hz : op = 6 → (f.ext (faExtent y.dst)).state = 7 ∧ f.isHome y.dst = true) :
    startDesc q op s =
      .next (s.settledFrom (s.withDev ((f.beginRun s.time.now q order purpose (s.dev.pair q) y).later .recheck))) := by
  have hpair : g.pair q = s.dev.pair q := by
    rcases hg with ⟨-, rfl⟩ | ⟨-, -, rfl⟩
    · rfl
    · exact Dev.pair_takeTurn ..
  have hstart : s.dev.startOpcode s.time.now q op = f.beginRun s.time.now q order purpose (s.dev.pair q) y := by
    simp only [Dev.startOpcode, hx, if_pos hop]
    rw [Dev.startTurn_starts hm hg, ← hpair]
    rw [← hpair] at hf hx hc
    exact Dev.startHead_runs hf hx hfence hc (fun h6 => hz (hop.symm.trans h6))
  rw [startDesc, onSettled_eq, if_pos (.inl hr), hstart]

/-- Settles O7: a ZERO_RELEASE finds its extent waiting for it, and the other opcodes have nothing more to find. -/
theorem descriptors : Obligations.Descriptors := by
  unfold Obligations.Descriptors
  refine ⟨?copy, ?fill, ?compare, ?crc32c, ?atomic, ?zeroRelease, ?migrate⟩
  case zeroRelease =>
    rintro q order purpose y rest credit g s _ f rfl hf hg hr hx hop hm hfence hc h7 hh
    exact startDesc_runs hf hg hr hx hop hm hfence hc fun _ => ⟨h7, hh⟩
  case copy | fill | compare | crc32c | atomic | migrate =>
    rintro q order purpose y rest credit g s _ f rfl hf hg hr hx hop hm hfence hc
    exact startDesc_runs hf hg hr hx hop hm hfence hc fun h6 => absurd h6 (by decide)

/-! ### Doorbells (R297) -/

/-- A doorbell that waits for no posted write reaches an ENABLED pair while the Ladles run. -/
theorem Dev.hostDoorbell_acts {t vi queue k v : Nat} {cq : Bool} {d : Dev} (hp : d.doorbellPort vi = none)
    (hm : d.flag (Mbx.DOORBELL vi) = false) (hk : d.localPair vi queue = some k) (h2 : (d.pair k).state = 2) (hr : d.ladlesRun = true) :
    d.hostDoorbell t vi queue cq v = d.actDoorbell t k cq v := by
  simp [Dev.hostDoorbell, Dev.doorbell, hp, hm, hk, h2, hr]

/-- SQ_TAIL that leaves an entry of the ring free moves the tail. -/
theorem Dev.actDoorbell_tail {t k v : Nat} {d : Dev} (h2 : (d.pair k).state = 2) (hv : v < (d.pair k).size)
    (hroom : ((d.pair k).sqTail + (d.pair k).size - (d.pair k).sqHead) % (d.pair k).size +
      (v + (d.pair k).size - (d.pair k).sqTail) % (d.pair k).size ≤ (d.pair k).size - 1) :
    d.actDoorbell t k false v = d.setPair k { d.pair k with sqTail := v } := by
  refine (if_neg (not_not_intro h2)).trans ((if_neg (Nat.not_le.mpr hv)).trans ((if_neg Bool.false_ne_true).trans ?_))
  exact if_neg (Nat.not_lt.mpr hroom)

/-- CQ_HEAD that passes no more than the records written frees their entries for those that wait. -/
theorem Dev.actDoorbell_head {t k v : Nat} {d : Dev} (h2 : (d.pair k).state = 2) (hv : v < (d.pair k).size)
    (hfreed : (v + (d.pair k).size - (d.pair k).cqHead) % (d.pair k).size ≤ (d.pair k).cqUsed) :
    d.actDoorbell t k true v = (((d.setPair k { d.pair k with
      cqHead := v, cqUsed := (d.pair k).cqUsed - (v + (d.pair k).size - (d.pair k).cqHead) % (d.pair k).size }).flushRecords 4096 t
        k).submitsDone t).pairIdle t k := by
  refine (if_neg (not_not_intro h2)).trans ((if_neg (Nat.not_le.mpr hv)).trans ((if_pos rfl).trans ?_))
  exact if_neg (Nat.not_lt.mpr hfreed)

/-! ### Descriptor fetches (R316, R340) -/

/-- With no fabric-manager pair ready, the place goes to the VI that the credits name, and to its next ready pair. -/
theorem Dev.ladleTurn_vi {l vi q : Nat} {credit : Tab Int} {d : Dev} {ready : List (Nat × Pair)}
    (hready : ready = d.ladles.pairs.filter (fun x => decide (x.2.ladle = l) && (d.mayStart x.1 || d.mayFetch x.1)))
    (hfm : ready.filter (fun x => x.2.fm) = [])
    (hcredit : grantCredits (Tab.getD d.ladles.credit l [])
      ((List.range 64).filter (fun vi => ready.any (fun x => decide (x.2.inst = vi)))) d.ladleWeight = some (vi, credit))
    (hnext : nextPair (Tab.getD d.ladles.lastPair (128 * l + vi) 8192)
      ((ready.filter (fun x => decide (x.2.inst = vi))).map (·.1)) = some q) : d.ladleTurn l = some (q, credit) := by
  have hnone (last : Nat) : nextPair last ((ready.filter (fun x => x.2.fm)).map (·.1)) = none := by rw [hfm]; rfl
  subst hready
  simp only [Dev.ladleTurn, hnone, hcredit, hnext, Option.map_some]

/-- A running Ladle's free place lets the pair whose turn it is read its ring. -/
theorem Dev.descriptorFetch_reads {t l q : Nat} {credit : Tab Int} {d : Dev} (hr : d.ladlesRun = true)
    (hg : d.flag (LadleR.GATED l) = false) (hs : d.stopped = false) (hp : d.placesUsed l < 8)
    (hturn : d.ladleTurn l = some (q, credit)) (hq : d.mayFetch q = true) :
    d.descriptorFetch t l = (d.takeTurn q credit).ringRead t q := by
  have hfree : ¬ (¬ d.ladlesRun = true ∨ d.flag (LadleR.GATED l) = true ∨ d.stopped = true ∨ 8 ≤ d.placesUsed l) := by
    simp [hr, hg, hs, hp]
  refine (if_neg hfree).trans ?_
  rw [hturn]
  exact if_pos hq

/-! ### The end of pieces (R308) -/

/-- A piece that is over leaves, and the run goes on with the pieces it has left. -/
theorem Dev.pieceDone_goesOn {t run piece : Nat} {r z : Run} {p : Piece} {d f : Dev} (hf : f = d.retirePiece t r p)
    (hr : d.run run = some r) (hp : r.pieces.find? (fun p => decide (p.index = piece)) = some p) (ho : p.over = true)
    (h7 : r.desc.opcode ≠ 7) (hz : f.run run = some z) (hleft : z.pieces ≠ []) : d.pieceDone t run piece = f := by
  subst hf
  simp only [Dev.pieceDone, hr, hp, ho, h7, false_and, not_true, if_false, hz]
  exact if_pos (.inl hleft)

/-- With its last piece the run leaves, and its descriptor completes. -/
theorem Dev.pieceDone_completes {t run piece : Nat} {r z : Run} {p : Piece} {d f : Dev} (hf : f = d.retirePiece t r p)
    (hr : d.run run = some r) (hp : r.pieces.find? (fun p => decide (p.index = piece)) = some p) (ho : p.over = true)
    (h7 : r.desc.opcode ≠ 7) (hz : f.run run = some z) (hnone : z.pieces = []) (hx : z.exhausted = true) (hs : z.silent = false)
    (hz7 : z.desc.opcode ≠ 7) :
    d.pieceDone t run piece =
      (((({ f with ladles := { f.ladles with runs := f.ladles.runs.filter (fun x => decide (x.id ≠ run)) } } : Dev).complete t
        z.pair z.order z.completion z.desc.irq).later (.descDone z.desc.opcode z.purpose z.completion.status z.desc.src z.desc.dst)).later
          .recheck) := by
  have hlast : ¬ (z.pieces ≠ [] ∨ ¬ z.exhausted = true) := by simp [hnone, hx]
  subst hf
  simp only [Dev.pieceDone, hr, hp, ho, h7, false_and, not_true, if_false, hz]
  exact (if_neg hlast).trans ((if_neg fun h => hz7 h.1).trans (if_neg (ne_true_of_eq_false hs)))

/-! ### Power (R38) -/

/-- A Ladle that serves no pair and runs no descriptor is gated. -/
theorem Dev.ladlePowerDown_idle {l : Nat} {d : Dev} (hr : d.ladles.runs.any (fun r => decide (r.ladle = l)) = false)
    (hp : d.ladles.pairs = []) : d.ladlePowerDown l = d.raise1 (LadleR.GATED l) := by
  simp [Dev.ladlePowerDown, hr, hp]

/-- A Ladle wakes. -/
theorem Dev.blockWake_ladle {b : Nat} {d : Dev} (hb : b < 32) : d.blockWake b = d.wrFlag (LadleR.GATED b) false := if_pos hb

/-- The Churn's slices wake. -/
theorem Dev.blockWake_churn (d : Dev) : d.blockWake 32 = d.wakeChurn := rfl

/-! ### The rows -/

theorem exec_sqTail (vi : Fin 64) (queue value : Nat) (s : State) :
    exec (.sqTail vi queue value) s =
      .next (s.settledFrom (s.withDev (s.dev.hostDoorbell s.time.now vi queue false value))) := rfl
theorem exec_cqHead (vi : Fin 64) (queue value : Nat) (s : State) :
    exec (.cqHead vi queue value) s =
      .next (s.settledFrom (s.withDev (s.dev.hostDoorbell s.time.now vi queue true value))) := rfl
theorem exec_descriptorFetch (ladle : Fin 32) (s : State) :
    exec (.descriptorFetch ladle) s = .next (s.settledFrom (s.withDev (s.dev.descriptorFetch s.time.now ladle))) := rfl
theorem exec_pieceDone (run piece : Nat) (s : State) :
    exec (.pieceDone run piece) s = .next (s.settledFrom (s.withDev (s.dev.pieceDone s.time.now run piece))) := rfl
theorem exec_ladlePowerDown (ladle : Fin 32) (s : State) :
    exec (.ladlePowerDown ladle) s = .next (s.withDev (s.dev.ladlePowerDown ladle)) := rfl
theorem exec_blockWake (block : Fin 33) (s : State) : exec (.blockWake block) s = .next (s.withDev (s.dev.blockWake block)) := rfl

/-! ### The statement on the events of the Ladles -/

/-- Settles O8: each event acts on the device, in the case that its hypotheses single out. The Churn wakes as one block (log entry 158). -/
theorem ladleEvents : Obligations.LadleEvents := by
  unfold Obligations.LadleEvents
  refine ⟨?tail, ?head, ?fetch, ?goesOn, ?completes, ?down, ?ladle, ?churn⟩
  case tail =>
    rintro vi queue value k s _ rfl hp hm hk h2 hr hv hroom
    rw [exec_sqTail, Dev.hostDoorbell_acts hp hm hk h2 hr, Dev.actDoorbell_tail h2 hv hroom]
  case head =>
    rintro vi queue value k s _ rfl hp hm hk h2 hr hv hfreed
    rw [exec_cqHead, Dev.hostDoorbell_acts hp hm hk h2 hr, Dev.actDoorbell_head h2 hv hfreed]
  case fetch =>
    rintro ladle vi q credit s _ ready rfl hready hr hg hs hp hfm hcredit hnext hq
    rw [exec_descriptorFetch, Dev.descriptorFetch_reads hr hg hs hp (Dev.ladleTurn_vi hready hfm hcredit hnext) hq]
  case goesOn =>
    rintro run piece r z p s _ f rfl hf hr hp ho h7 hz hleft
    rw [exec_pieceDone, Dev.pieceDone_goesOn hf hr hp ho h7 hz hleft]
  case completes =>
    rintro run piece r z p s _ f rfl hf hr hp ho h7 hz hnone hx hs hz7
    rw [exec_pieceDone, Dev.pieceDone_completes hf hr hp ho h7 hz hnone hx hs hz7]
  case down =>
    rintro ladle s _ rfl hr hp
    rw [exec_ladlePowerDown, Dev.ladlePowerDown_idle hr hp]
  case ladle =>
    rintro block s _ rfl hb
    rw [exec_blockWake, Dev.blockWake_ladle hb]
  case churn =>
    rintro block s _ rfl hb
    rw [exec_blockWake, hb, Dev.blockWake_churn, Dev.wakeChurn]

end Sys2Proof.Machine
end

section
/-! SUPPORT. What the commands on VIs do to the VI that they name, in the states that R325 to R345 single out, and the
statement on them (O4). -/
namespace Sys2Proof.Machine
open Sys2Proof

/-! ### The table of VIs -/

@[simp] theorem Dev.instOf_setInst (d : Dev) (vi : Nat) (x : Inst) : (d.setInst vi x).instOf vi = x := Tab.getD_put_same ..
@[simp] theorem Dev.instOf_wr (d : Dev) (f : Field) (v vi : Nat) : (d.wr f v).instOf vi = d.instOf vi := rfl

/-- A configuration that waits becomes the one that the host sees (R326). -/
theorem Dev.applyConfig_waiting {vi : Nat} {i : Inst} {c : InstCfg} {d : Dev} (hi : d.instOf vi = i) (hc : i.next = some c) :
    d.applyConfig vi = ((d.setInst vi { i with portA := c.portA, portB := c.portB, type2 := c.type2, next := none }).wr
      (Vi.MSIX_COUNT vi) c.msix).wrFlag (Vi.DUAL_PORT vi) c.portB.isSome := by
  simp only [Dev.applyConfig, hi, hc]

/-! ### INSTANCE_CONFIG (R325 to R327, R344) -/

/-- A configuration with one host port and no Type 2 device. -/
abbrev oneHostPort (a msix : Nat) : InstCfg := { portA := some a, portB := none, type2 := [], msix }
/-- The other VIs. -/
abbrev othersThan (vi : Nat) : List Nat := (List.range 64).filter (fun v => decide (v ≠ vi))
/-- The pairs allotted to the other VIs (R324). -/
abbrev Dev.pairsElsewhere (d : Dev) (vi : Nat) : Nat := ((othersThan vi).map (fun v => d.rd (Vi.QUEUE_ALLOC v))).foldl (· + ·) 0
/-- The Type 2 devices of the other VIs. -/
abbrev Dev.devicesElsewhere (d : Dev) (vi : Nat) : Nat := ((othersThan vi).map (fun v => (d.cfgOf v).type2.length)).foldl (· + ·) 0

/-- An UNCONFIGURED VI that was never enabled, with one host port and no Type 2 device, gets the lowest free run of vectors and 256
ingress entries, and its configuration takes effect at once. -/
theorem Dev.instanceConfig_allocates {vi a b msix queues base : Nat} {t2 : List Nat} {d f : Dev} {x : Inst}
    (hx : x = { d.instOf vi with
      msixBase := base, next := some (oneHostPort a msix), trackerMin := 0, trackerMax := 480
      accessWeight := 16, ladleWeight := 16, enabledBefore := true })
    (hf : f = (d.setInst vi x).wr (Vi.QUEUE_ALLOC vi) queues) (hv : vi ≤ 63) (h0 : d.viState vi = 0) (h1 : 1 ≤ msix)
    (h2048 : msix ≤ 2048) (hq : queues ≤ 1024) (ht : t2 = [255, 255, 255, 255, 255, 255, 255]) (ha : d.hostPortOk vi (some a) = true)
    (hb : b = 255) (hp : d.pairsOf vi ≤ queues) (hm : (d.cfgOf vi).msix ≠ msix)
    (hrun : lowestRun (d.runsOf (othersThan vi)) msix = some base) (hpairs : d.pairsElsewhere vi + queues + d.fmPairs ≤ 8192)
    (hdevs : d.devicesElsewhere vi ≤ 32) (hfree : 256 ≤ d.queueFree) (hnew : (d.instOf vi).enabledBefore = false) :
    d.instanceConfig vi a b t2 msix queues true =
      (((((f.setInst vi { x with portA := some a, portB := none, type2 := [], next := none }).wr (Vi.MSIX_COUNT vi) msix).wrFlag
        (Vi.DUAL_PORT vi) false).wr (Vi.STATE vi) 1).wr (Vi.REQ_QUEUE_LIMIT vi) 256, .final .ok []) := by
  have htype2 : (([255, 255, 255, 255, 255, 255, 255].zipIdx.filter (fun x => decide (x.1 ≠ 0xff))).map
    (fun x => (x.2 + 1, x.1)) : Tab Nat) = [] := by decide
  have hnone : orNone 255 = none := by decide
  have hranges : ¬ (msix < 1 ∨ 2048 < msix ∨ 1024 < queues ∨ [255, 255, 255, 255, 255, 255, 255].length ≠ 7) := by
    simp only [List.length_cons, List.length_nil]
    omega
  have hports : ¬ (¬ d.hostPortOk vi (some a) = true ∨ ¬ d.hostPortOk vi none = true ∨ none = some a ∨
      ([] : Tab Nat).any (fun x => decide ¬ d.type2Ok vi x.2 = true) = true ∨ ¬ (([] : Tab Nat).map (·.2)).Nodup) := by
    simp [ha, show d.hostPortOk vi none = true from rfl]
  have hpool : ¬ (8192 < d.pairsElsewhere vi + queues + d.fmPairs ∨ 32 < d.devicesElsewhere vi + ([] : Tab Nat).length) := by
    rw [List.length_nil]
    omega
  have hchanged : ¬ decide (d.cfgOf vi = oneHostPort a msix) = true :=
    fun h => hm (congrArg InstCfg.msix (of_decide_eq_true h))
  have hinst : f.instOf vi = x := by rw [hf, Dev.instOf_wr, Dev.instOf_setInst]
  have hnext : x.next = some (oneHostPort a msix) := by rw [hx]
  have happly := Dev.applyConfig_waiting hinst hnext
  subst ht hb
  simp only [Dev.instanceConfig, htype2, hnone]
  rw [if_neg (Nat.not_lt.mpr hv), if_neg (not_not_intro trivial), if_neg hranges, if_neg hports, if_neg (fun h => h.1 (.inl h0)),
    if_neg (fun h => h.1 rfl), if_neg (Nat.not_lt.mpr hp), if_neg hpool, if_neg hm, hrun]
  simp only [if_neg (fun h => Nat.not_lt.mpr hfree h.2 : ¬ (d.viState vi = 0 ∧ d.queueFree < 256))]
  rw [if_pos h0, if_neg (ne_true_of_eq_false hnew), if_neg hchanged, ← hx, ← hf, happly]
  rfl

/-- A QUIESCED VI without windows and pairs returns to its pools. -/
theorem Dev.instanceConfig_returns {vi : Nat} {d : Dev} (hv : vi ≤ 63) (h3 : d.viState vi = 3) (hw : d.windowsOf vi = [])
    (hp : d.pairsOf vi = 0) (a b : Nat) (t2 : List Nat) (msix queues : Nat) :
    d.instanceConfig vi a b t2 msix queues false = (d.unconfigure vi, .final .ok []) := by
  have hidle : ¬ (d.viState vi ≠ 3 ∨ d.windowsOf vi ≠ [] ∨ 0 < d.pairsOf vi) := by simp [h3, hw, hp]
  exact (if_neg (Nat.not_lt.mpr hv)).trans ((if_pos Bool.false_ne_true).trans (if_neg hidle))

/-! ### Quiesce, resume and reset (R331, R334, R335) -/

/-- The quiesce of an ACTIVE VI begins, forced at once or not. -/
theorem Dev.instanceQuiesce_active {vi timeout : Nat} {d : Dev} (hv : vi ≤ 63) (ht : timeout ≤ 65535) (h1 : d.viState vi = 1) (t : Nat)
    (force : Bool) :
    d.instanceQuiesce t vi force timeout =
      let q := (d.setInst vi { d.instOf vi with timed := decide (timeout ≠ 0), managed := true, resetKind := 0 }).beginQuiesce vi
      (if force then q.forceQuiesce t vi else q, .run (.quiesce vi)) := by
  refine (if_neg (by omega)).trans ?_
  rw [h1]
  rfl

/-- Pairs of the VI that are SUSPENDED become ENABLED, and the errors that they held come out (DEDUCED, log entry 177). -/
def Dev.resumePairs (vi : Nat) (d : Dev) : Dev :=
  let errors := d.ladles.pairs.filter (fun (x : Nat × Pair) => x.2.state = 3 ∧ ¬ x.2.fm ∧ x.2.inst = vi ∧ x.2.heldError ≠ 0)
  let pairs := d.ladles.pairs.map (fun (x : Nat × Pair) =>
    if x.2.state = 3 ∧ ¬ x.2.fm ∧ x.2.inst = vi then (x.1, { x.2 with state := 2 }) else x)
  errors.foldl (fun (d : Dev) x => (d.setPair x.1 { d.pair x.1 with heldError := 0 }).later (.pairError x.1 x.2.heldError))
    { d with ladles := { d.ladles with pairs } }

/-- A QUIESCED VI resumes: its pairs do, and its ports take what they held (R294, R331, R334). -/
theorem Dev.instanceResume_quiesced {t vi : Nat} {d f g : Dev} (hf : f = d.finish t (fun w => decide (w = .quiesce vi)) .aborted [])
    (hg : g = ((({ f with buf := { f.buf with
        barriers := f.buf.barriers.filter (fun (x : Barrier) => decide ¬ (x.scope = 4 ∧ x.id = vi)) } } : Dev).setInst vi
      { d.instOf vi with managed := false }).wr (Vi.STATE vi) 1)) (hv : vi ≤ 63) (h3 : d.viState vi = 3) :
    d.instanceResume t vi =
      (((d.instOf vi).portA.toList ++ (d.instOf vi).portB.toList).foldl (fun (d : Dev) p => d.later (.takeHeld p))
        ((g.resumePairs vi).later .recheck), .final .ok []) := by
  have hmay : ¬ ¬ (d.viState vi = 3 ∨ (d.viState vi = 2 ∧ (d.instOf vi).resetKind = 0)) := not_not_intro (.inl h3)
  subst hg hf
  exact (if_neg (Nat.not_lt.mpr hv)).trans (if_neg hmay)

/-- The reset of a QUIESCED VI begins (R335). -/
theorem Dev.instanceReset_quiesced {vi : Nat} {d : Dev} (hv : vi ≤ 63) (h3 : d.viState vi = 3) (t : Nat) :
    d.instanceReset t vi = (d.startReset t vi 1, .run (.instanceReset vi)) := by
  refine (if_neg (Nat.not_lt.mpr hv)).trans ?_
  rw [h3]
  rfl

/-! ### QOS_SET (R342, R343) -/

/-- With mask bit 3 alone, the access weight is set, and no request that waits for a weight is there to go on. -/
theorem Dev.qosSet_accessWeight {vi aw : Nat} {d : Dev} (hv : vi ≤ 63) (haw : aw ≤ 255)
    (ht : (d.instOf vi).trackerMin ≤ (d.instOf vi).trackerMax)
    (hmin : (d.setInst vi { d.instOf vi with accessWeight := aw }).minSum ≤ 480) (hs : d.chn.stalled = []) (limit tmin tmax lw : Nat) :
    d.qosSet vi 8 limit tmin tmax aw lw =
      ({ d.setInst vi { d.instOf vi with accessWeight := aw } with chn := { d.chn with stalled := [] } }, .final .ok []) := by
  have h255 : vi ≠ 255 := by omega
  have hinst : d.qosInstance vi 8 limit tmin tmax aw lw = (d.setInst vi { d.instOf vi with accessWeight := aw }, .final .ok []) := by
    refine (if_neg (Nat.not_lt.mpr ht)).trans ((if_neg (Nat.not_lt.mpr hmin)).trans ?_)
    rfl
  simp [Dev.qosSet, hv, h255, haw, hinst, hs, fieldOf]

/-! ### The rows -/

theorem exec_instanceConfig (h : SilekHdr) (vi a b : Nat) (t2 : List Nat) (msix queues : Nat) (enable : Bool) (s : State) :
    exec (.instanceConfig h vi a b t2 msix queues enable) s =
      runSettled h (.of 0x301 0 (.instanceConfig h.key vi a b t2 msix queues enable))
        (devBody fun _ d => d.instanceConfig vi a b t2 msix queues enable) s := rfl
theorem exec_instanceQuery (h : SilekHdr) (vi : Nat) (s : State) :
    exec (.instanceQuery h vi) s =
      runSilek h { CmdInfo.of 0x302 0 (.instanceQuery h.key vi) with hostMay := fun _ v => decide (v = vi) }
        (queryBody fun s => if 63 < vi then .err .badParam
          else .final .ok ((List.range 4).map (fun w => leBytes 8 (s.dev.instWord vi w))).flatten) s := rfl
theorem exec_instanceQuiesce (h : SilekHdr) (vi : Nat) (force : Bool) (timeout : Nat) (s : State) :
    exec (.instanceQuiesce h vi force timeout) s =
      runSettled h (.of 0x310 0 (.instanceQuiesce h.key vi force timeout))
        (devBody fun t d => d.instanceQuiesce t vi force timeout) s := rfl
theorem exec_instanceResume (h : SilekHdr) (vi : Nat) (s : State) :
    exec (.instanceResume h vi) s =
      runSettled h (.of 0x311 0 (.instanceResume h.key vi)) (devBody fun t d => d.instanceResume t vi) s := rfl
theorem exec_instanceReset (h : SilekHdr) (vi : Nat) (s : State) :
    exec (.instanceReset h vi) s =
      runSettled h (.of 0x312 0 (.instanceReset h.key vi)) (devBody fun t d => d.instanceReset t vi) s := rfl
theorem exec_qosSet (h : SilekHdr) (vi mask limit tmin tmax aw lw : Nat) (s : State) :
    exec (.qosSet h vi mask limit tmin tmax aw lw) s =
      runSettled h (.of 0x320 2 (.qosSet h.key vi mask limit tmin tmax aw lw))
        (devBody fun _ d => d.qosSet vi mask limit tmin tmax aw lw) s := rfl
theorem exec_qosQuery (h : SilekHdr) (vi : Nat) (s : State) :
    exec (.qosQuery h vi) s =
      runSilek h { CmdInfo.of 0x321 2 (.qosQuery h.key vi) with hostMay := fun _ v => decide (v = vi) }
        (queryBody fun s => if vi ≤ 63 ∨ vi = 0xff then .final .ok (s.dev.qosReport vi) else .err .badParam) s := rfl

/-! ### The statement on commands -/

/-- Settles O4: each command's body ends as its case above says. What comes of held pair errors is DEDUCED (log entry 177); the layout of
the QoS report is the model's (log entry 31). -/
theorem instanceCommands : Obligations.InstanceCommands := by
  unfold Obligations.InstanceCommands
  refine ⟨?allocate, ?free, ?query, ?quiesce, ?force, ?resume, ?reset, ?qos, ?report⟩
  case allocate =>
    rintro h vi a b t2 msix queues _ base s _ _ x f rfl rfl ha hx hf hv rfl h0 h1 h2048 hq ht hport hb hp hm hrun hpairs hdevs hfree hnew
    rw [exec_instanceConfig]
    exact runSettled_dev ha
      (Dev.instanceConfig_allocates hx hf hv h0 h1 h2048 hq ht hport hb hp hm hrun hpairs hdevs hfree hnew)
  case free =>
    rintro h vi a b t2 msix queues _ s _ _ rfl rfl ha hv rfl h3 hw hp
    rw [exec_instanceConfig]
    exact runSettled_dev ha (Dev.instanceConfig_returns hv h3 hw hp a b t2 msix queues)
  case query =>
    rintro h vi s _ _ rfl rfl ha hv
    rw [exec_instanceQuery]
    exact runSilek_query ha (if_neg (Nat.not_lt.mpr hv))
  case quiesce =>
    rintro h vi _ timeout s _ _ rfl rfl ha hv ht h1 rfl
    rw [exec_instanceQuiesce]
    exact runSettled_devRun ha (Dev.instanceQuiesce_active hv ht h1 _ false)
  case force =>
    rintro h vi _ timeout s _ _ rfl rfl ha hv ht h1 rfl
    rw [exec_instanceQuiesce]
    exact runSettled_devRun ha (Dev.instanceQuiesce_active hv ht h1 _ true)
  case resume =>
    rintro h vi s _ _ f g rfl rfl ha hf hg hv h3
    rw [exec_instanceResume]
    exact runSettled_dev ha (Dev.instanceResume_quiesced hf hg hv h3)
  case reset =>
    rintro h vi s _ _ rfl rfl ha hv h3
    rw [exec_instanceReset]
    exact runSettled_devRun ha (Dev.instanceReset_quiesced hv h3 _)
  case qos =>
    rintro h vi _ limit tmin tmax aw lw s _ _ rfl rfl ha hv rfl haw ht hmin hs
    rw [exec_qosSet]
    exact runSettled_dev ha (Dev.qosSet_accessWeight hv haw ht hmin hs limit tmin tmax lw)
  case report =>
    rintro h vi s _ _ rfl rfl ha hv
    rw [exec_qosQuery]
    exact runSilek_query ha (if_pos (.inl hv))

end Sys2Proof.Machine
end

section
/-! SUPPORT. What the ends of a quiesce and of a reset, the resets by a host and the interrupts do to a VI, and the statement
on them (O5). -/
namespace Sys2Proof.Machine
open Sys2Proof

/-! ### Quiesce (R333, R334) -/

/-- A quiesce that nothing stands before and that no reset waits for ends in QUIESCED, with its reply. -/
theorem Dev.quiesceComplete_ends {t vi : Nat} {b : Barrier} {d f : Dev}
    (hf : f = { d with buf := { d.buf with
      barriers := d.buf.barriers.filter (fun (x : Barrier) => decide ¬ (x.scope = 4 ∧ x.id = vi)) } })
    (h2 : d.viState vi = 2) (hr : d.quiesceReady vi = true) (hb : d.quiesceBarrier vi = some b) (hk : (d.instOf vi).resetKind = 0) :
    d.quiesceComplete t vi =
      ((f.flushVectors t vi).wr (Vi.STATE vi) 3).finish t (fun w => decide (w = .quiesce vi)) .ok
        (leBytes 4 b.covered ++ leBytes 4 b.discarded ++ leBytes 1 (flagBit (d.instOf vi).forced)) := by
  have hends : ¬ (d.viState vi ≠ 2 ∨ ¬ d.quiesceReady vi = true) := by simp [h2, hr]
  subst hf
  refine (if_neg hends).trans ((if_pos hk).trans ?_)
  rw [hb, Option.getD_some]

/-! ### Resets by the host (R335, R336, R338) -/

/-- The reset of a QUIESCED VI begins at once; the VI is then to stay QUIESCED (R337). -/
theorem Dev.hostReset_quiesced {vi : Nat} {d : Dev} (h3 : d.viState vi = 3) (t kind : Nat) :
    d.hostReset t vi kind =
      (d.setInst vi { d.instOf vi with managed := true, forced := false, aborted := [] }).startReset t vi kind := by
  simp only [Dev.hostReset, h3]

/-! ### The end of a reset (R337) -/

/-- The VI is ACTIVE after its reset, which is counted and told in its registers; its mailbox is idle and holds no reply. -/
def Dev.activeAfterReset (vi : Nat) (d : Dev) : Dev :=
  let e := d.clearRegs (0x4000000 + 0x100000 * vi + 0x1000) (0x4000000 + 0x100000 * vi + 0x2000)
  let e : Dev := { e with silek := { e.silek with mail := e.silek.mail.filter (fun x => decide (x.1 ≠ vi)) } }
  ((((e.raise1 (Vi.RESET_EVT vi)).wr (Vi.LAST_RESET vi) (d.instOf vi).resetKind).inc InstR.INSTANCE_RESETS).setInst vi
    { d.instOf vi with resetKind := 0, managed := false, aborted := [] }).wr (Vi.STATE vi) 1

/-- A managed reset of a VI without host ports leaves it ACTIVE, with its notices and its reply. -/
theorem Dev.resetComplete_managed {t vi : Nat} {d : Dev} (h4 : d.viState vi = 4) (hm : d.mailboxRuns vi = false)
    (hu : d.binder.unbindings = []) (hr : d.quiesceReady vi = true) (hk : (d.instOf vi).resetKind = 1) (ha : (d.instOf vi).portA = none)
    (hb : (d.instOf vi).portB = none) :
    d.resetComplete t vi =
      (((((d.activeAfterReset vi).irqEvent t vi 0 true).post t 7
        (vi + 2 ^ 8 * 1 + 2 ^ 16 * flagBit (d.instOf vi).forced + 2 ^ 32 * (d.instOf vi).aborted.length)).leaveReset t vi).finish t
          (fun w => decide (w = .instanceReset vi)) .ok []) := by
  have hover : ¬ (d.viState vi ≠ 4 ∨ d.mailboxRuns vi = true ∨
      d.binder.unbindings.any (fun u => decide (u.vi = vi ∧ u.finishing ≠ [])) = true ∨ ¬ d.quiesceReady vi = true) := by
    simp [h4, hm, hu, hr]
  have hstay (m : Bool) : (m && decide (1 ≠ 1)) = false := Bool.and_false m
  simp only [Dev.resetComplete]
  rw [if_neg hover]
  simp only [hk, hstay, ha, hb, Option.toList_none, List.append_nil, List.foldl_nil, Bool.false_eq_true, if_false, Dev.activeAfterReset]

/-! ### Hot-add (R178) -/

/-- The one change that waits for the virtual device takes effect, and the host sees the device again. -/
theorem Dev.hotAdd_one {vi : Nat} {x : Nat × List Nat × List Nat × Bool} {d : Dev}
    (hx : d.binder.hotPlug.filter (fun h => decide (h.1 = vi)) = [x]) (t : Nat) :
    d.hotAdd t vi =
      ((({ d with binder := { d.binder with hotPlug := d.binder.hotPlug.filter (fun h => decide (h.1 ≠ vi)) } } : Dev).applySlots t
        x).toHost vi (.slotPresence vi 0 true)) := by
  simp only [Dev.hotAdd, hx, List.cons_ne_nil, if_false, List.foldl_cons, List.foldl_nil]

/-! ### The rows -/

theorem exec_quiesceComplete (vi : Fin 64) (s : State) :
    exec (.quiesceComplete vi) s = .next (s.settledFrom (s.withDev (s.dev.quiesceComplete s.time.now vi))) := rfl
theorem exec_quiesceTimeout (vi : Fin 64) (s : State) :
    exec (.quiesceTimeout vi) s = .next (s.withDev (if (s.dev.instOf vi).timed = true
      then s.dev.finish s.time.now (fun w => decide (w = .quiesce vi)) .timeout [] else s.dev)) := rfl
theorem exec_vectorUnmask (vi : Fin 65) (vector : Fin 2048) (s : State) :
    exec (.vectorUnmask vi vector) s = .next (s.withDev (({ s.dev with irq := { s.dev.irq with
      table := Tab.set s.dev.irq.table (vecKey vi vector * 4 + 3) (Tab.getD s.dev.irq.table (vecKey vi vector * 4 + 3) 1 / 2 * 2) } } :
        Dev).sendUnmasked s.time.now vi)) := rfl
theorem exec_virtualHotAdd (vi : Fin 64) (s : State) :
    exec (.virtualHotAdd vi) s = .next (s.settledFrom (s.withDev (s.dev.hotAdd s.time.now vi))) := rfl
theorem exec_resetComplete (vi : Fin 64) (s : State) :
    exec (.resetComplete vi) s = .next (s.settledFrom (s.withDev (s.dev.resetComplete s.time.now vi))) := rfl

/-- A function reset reaches a configured VI. -/
theorem exec_functionLevelReset_configured {vi : Fin 64} {s : State} (h0 : s.dev.viState vi ≠ 0) :
    exec (.functionLevelReset vi) s = .next (s.settledFrom (s.withDev (s.dev.hostReset s.time.now vi 2))) :=
  congrArg (fun d => Host.Outcome.next (s.settledFrom (s.withDev d))) (if_neg h0)

/-- A reset of the virtual upstream port reaches a configured VI and its Type 2 devices. -/
theorem exec_secondaryBusReset_upstream {vi : Fin 64} {s : State} (h0 : s.dev.viState vi ≠ 0) :
    exec (.secondaryBusReset vi true) s =
      .next (s.settledFrom (s.withDev ((s.dev.hostReset s.time.now vi 2).resetType2 vi))) :=
  congrArg (fun d => Host.Outcome.next (s.settledFrom (s.withDev d))) (if_neg h0)

/-- A reset of a virtual downstream port reaches the Type 2 device behind it. -/
theorem exec_downstreamSecondaryBusReset_up {vi : Fin 64} {vport : Fin 8} {p : Nat} {s : State}
    (hp : Tab.get (s.dev.instOf vi).type2 vport = some p) (hu : s.dev.linkUp p = true) :
    exec (.downstreamSecondaryBusReset vi vport) s = .next (s.withDev (s.dev.emit (.device p .functionLevelReset))) := by
  change execDownstreamSecondaryBusReset vi vport s = _
  simp only [execDownstreamSecondaryBusReset, onDev_eq, hp, hu, if_true]

/-- A moderation timer that has started sends its vector (R329). -/
theorem exec_moderationTimer_started {vi : Fin 64} {vector : Fin 2048} {s : State}
    (h : s.dev.irq.timers.contains (vecKey vi vector) = true) :
    exec (.moderationTimer vi vector) s = .next (s.withDev (s.dev.sendVector s.time.now vi vector)) :=
  congrArg (fun d => Host.Outcome.next (s.withDev d)) (if_pos h)

/-! ### The statement on events -/

/-- Settles O5: each event acts on the device, in the case that its hypotheses single out. The payload of a quiesce's reply is DEDUCED (log
entry 47), number 64 for the management function a DESIGN CHOICE (log entry 10), and masked vectors at reset PRESUMED (log entry 11). -/
theorem instanceEvents : Obligations.InstanceEvents := by
  unfold Obligations.InstanceEvents
  refine ⟨?quiesced, ?untimed, ?timed, ?function, ?bus, ?downstream, ?unmask, ?moderation, ?hotAdd, ?reset⟩
  case quiesced =>
    rintro vi b s _ f rfl hf h2 hr hb hk
    rw [exec_quiesceComplete, Dev.quiesceComplete_ends hf h2 hr hb hk]
  case untimed =>
    rintro vi s _ rfl ht
    rw [exec_quiesceTimeout, if_neg (ne_true_of_eq_false ht)]
  case timed =>
    rintro vi s _ rfl ht
    rw [exec_quiesceTimeout, if_pos ht]
  case function =>
    rintro vi s _ rfl h3
    rw [exec_functionLevelReset_configured (by omega), Dev.hostReset_quiesced h3]
  case bus =>
    rintro vi _ s _ rfl h3 rfl
    rw [exec_secondaryBusReset_upstream (by omega), Dev.hostReset_quiesced h3]
  case downstream =>
    rintro vi vport p s _ rfl hp hu
    exact exec_downstreamSecondaryBusReset_up hp hu
  case unmask =>
    rintro vi vector s _ rfl
    exact exec_vectorUnmask vi vector s
  case moderation =>
    rintro vi vector s _ rfl h
    exact exec_moderationTimer_started h
  case hotAdd =>
    rintro vi x s _ rfl hx
    rw [exec_virtualHotAdd, Dev.hotAdd_one hx]
  case reset =>
    rintro vi s _ f g k rfl hf hg hk h4 hm hu hr hkind ha hb
    have hactive : s.dev.activeAfterReset vi = k := by rw [hk, hg, hf, Dev.activeAfterReset, hkind]
    rw [exec_resetComplete, Dev.resetComplete_managed h4 hm hu hr hkind ha hb, hactive]

end Sys2Proof.Machine
end

section
/-! SUPPORT. Every command completes: it answers a next state that keeps the queue and the invariant; what a step and a reset make of that;
and the statements on completion (O49) and on the invariant (O47, O48). -/
namespace Sys2Proof.Machine
open Sys2Proof

/-! ### The time unit (R55 to R61) -/

theorem State.keeps_correct (o : Int) (s : State) : s.Keeps (s.correct o) := s.keeps_time _ _
theorem State.keeps_setPps (v : Bool) (s : State) : s.Keeps (s.setPps v) := State.keeps_ite (.refl s) (s.keeps_time _ _)
theorem State.keeps_ppsEdge (s : State) : s.Keeps s.ppsEdge := by
  unfold State.ppsEdge
  exact (s.keeps_time _ s.dev).trans ((State.keeps_setPps _ _).trans (State.keeps_ite (.refl _) (State.keeps_correct _ _)))
theorem State.keeps_exchangeDone (e : TimeExchange) (s : State) : s.Keeps (s.exchangeDone e) := by
  unfold State.exchangeDone
  split
  · exact (s.keeps_time _ _).trans (State.keeps_ite (State.keeps_correct _ _) (.refl _))
  · exact s.keeps_time _ s.dev

/-- A time report leads to what its exchange makes of it, or to a count at most. -/
theorem State.keeps_timeIn (p op : Nat) (x : BitVec 48) (crc : BitVec 8) {f : TimeExchange → State → State}
    (hf : ∀ (e : TimeExchange) (s : State), s.Keeps (f e s)) (s : State) : s.Keeps (s.timeIn p op x crc f) := by
  unfold State.timeIn
  refine State.keeps_ite (.refl s) (State.keeps_ite (s.keeps_dev _) ?_)
  split
  · exact State.keeps_ite (hf _ s) (.refl s)
  · exact .refl s

theorem execTimeSyncPeriod_completes (s : State) : s.Completes (execTimeSyncPeriod s) := by
  refine State.Keeps.completes (State.keeps_ite (.refl s) ?_)
  split
  · exact .refl s
  · exact State.keeps_ite (.refl s) (s.keeps_time _ _)

/-! ### Resets -/

theorem State.keeps_toOm0 (cause rail : Nat) (zeroised : Bool) (s : State) : s.Keeps (s.toOm0 cause rail zeroised) := s.keeps_om0 _

theorem execRstNLow_completes (s : State) : s.Completes (execRstNLow s) :=
  State.Keeps.completes (State.Keeps.trans (State.keeps_ite (s.keeps_dev _) (s.keeps_toOm0 1 0 false)) (State.keeps_dev _ _))

/-- The restart in OM1 after a warm reset clears the mailbox memory and the guard, as OM0 does. -/
theorem State.keeps_warmRestart (c : Nat) (s : State) :
    s.Keeps { pending := s.pending, time := { now := s.time.now }, dev := s.dev.warmRestart s.time.now c } :=
  ⟨rfl, fun _ => ⟨rfl, by simp [State.GuardOk]⟩⟩

theorem execWarmResetDrainDone_completes (s : State) : s.Completes (execWarmResetDrainDone s) := by
  unfold execWarmResetDrainDone
  split
  · exact (State.Keeps.refl s).completes
  · exact completes_ite (State.Keeps.refl s).completes (s.keeps_warmRestart _).completes

/-! ### Commands of the FM API -/

theorem execIdentify_completes (eid tag : Nat) (s : State) : s.Completes (execIdentify eid tag s) :=
  fmRun_completes _ _ _ (fun h s => runSilek_completes (queryBody_keeps _) h _ s) s
theorem execIdentifySwitchDevice_completes (eid tag : Nat) (s : State) : s.Completes (execIdentifySwitchDevice eid tag s) :=
  fmRun_completes _ _ _ (fun h s => runSilek_completes (queryBody_keeps _) h _ s) s
theorem execGetPhysicalPortState_completes (eid tag first count : Nat) (s : State) :
    s.Completes (execGetPhysicalPortState eid tag first count s) :=
  fmRun_completes _ _ _ (fun h s => runSilek_completes (queryBody_keeps _) h _ s) s
theorem execGetVirtualCxlSwitchInfo_completes (eid tag vi : Nat) (s : State) :
    s.Completes (execGetVirtualCxlSwitchInfo eid tag vi s) :=
  fmRun_completes _ _ _ (fun h s => runSilek_completes (queryBody_keeps _) h _ s) s
theorem execGetDcdInfo_completes (eid tag : Nat) (s : State) : s.Completes (execGetDcdInfo eid tag s) :=
  fmRun_completes _ _ _ (fun h s => runSilek_completes (queryBody_keeps _) h _ s) s
theorem execGetHostDcRegionConfiguration_completes (eid tag host : Nat) (s : State) :
    s.Completes (execGetHostDcRegionConfiguration eid tag host s) :=
  fmRun_completes _ _ _ (fun h s => runSilek_completes (queryBody_keeps _) h _ s) s
theorem execGetDcRegionExtentLists_completes (eid tag host start count : Nat) (s : State) :
    s.Completes (execGetDcRegionExtentLists eid tag host start count s) :=
  fmRun_completes _ _ _ (fun h s => runSilek_completes (queryBody_keeps _) h _ s) s
theorem execSetDcRegionConfiguration_completes (eid tag w host region kind base count : Nat) (enable : Bool) (s : State) :
    s.Completes (execSetDcRegionConfiguration eid tag w host region kind base count enable s) :=
  fmRun_completes _ _ _ (fun h s => runSettled_completes (devBody_keeps _) h _ s) s

theorem execInitiateDynamicCapacityAdd_completes (eid tag host policy region : Nat) (extents : List (Nat × Nat)) (s : State) :
    s.Completes (execInitiateDynamicCapacityAdd eid tag host policy region extents s) := by
  unfold execInitiateDynamicCapacityAdd
  split
  · exact completes_ite (fmInvalid_completes _ _ s)
      (fmRun_completes _ _ _ (fun h s => runSettled_completes (devBody_keeps _) h _ s) s)
  · exact fmInvalid_completes _ _ s

theorem execInitiateDynamicCapacityRelease_completes (eid tag host : Nat) (forced : Bool) (region : Nat) (extents : List (Nat × Nat))
    (s : State) : s.Completes (execInitiateDynamicCapacityRelease eid tag host forced region extents s) := by
  unfold execInitiateDynamicCapacityRelease
  split
  · exact fmRun_completes _ _ _ (fun h s => runSettled_completes (devBody_keeps _) h _ s) s
  · exact fmInvalid_completes _ _ s

theorem execPhysicalPortControl_completes (eid tag port op : Nat) (s : State) : s.Completes (execPhysicalPortControl eid tag port op s) :=
  completes_ite (fmInvalid_completes _ _ s)
    (fmRun_completes _ _ _ (fun h s => runSettled_completes (i := .of 0xa11 0 (.portControl h.key port op)) (devBody_keeps _) h s) s)

theorem State.vppb_completes (h : SilekHdr) (vi vppb port : Nat) (s : State) : s.Completes (s.vppb h vi vppb port) := by
  unfold State.vppb execInstanceConfig
  exact runSettled_completes (devBody_keeps _) h _ s

theorem execBindVppb_completes (eid tag vi vppb port : Nat) (s : State) : s.Completes (execBindVppb eid tag vi vppb port s) :=
  completes_ite (fmInvalid_completes _ _ s) (fmRun_completes _ _ _ (fun h s => s.vppb_completes h vi vppb port) s)

theorem execUnbindVppb_completes (eid tag vi vppb : Nat) (s : State) : s.Completes (execUnbindVppb eid tag vi vppb s) :=
  completes_ite (fmInvalid_completes _ _ s) (fmRun_completes _ _ _ (fun h s => s.vppb_completes h vi vppb 0xff) s)

/-! ### Every command -/

/-- Every command completes, but for a segment that its carrier cannot hold. -/
theorem exec_completes {c : Instr} (hc : c.segmentOk = true) (s : State) : s.Completes (exec c s) := by
  cases c with
  | silekVersion | deviceInfo | portStatusQuery | commandSupport | deviceCapacityQuery | windowQuery | extentQuery | slotQuery |
  instanceQuery | qosQuery | gateRead | sharerSlotQuery | membershipQuery | fwQuery | securityStatus | rennetQuery | dirRead |
  monitorRead | herdbookRead | modeQuery =>
    exact runSilek_completes (queryBody_keeps _) _ _ s
  | eventRead | eventSubscribe | eventNotify | slotPowerOn | slotPowerConfig | slotPowerQuery | fwUpdateStart | fwUpdateData |
  fwUpdateVerify | fwActivate | selfTest | rennetClear | monitorConfig | skimmerConfig | skimmerStop | errorLogRead |
  errorLogClear | barrierCmd | warmReset | configSave =>
    exact runSilek_completes (devBody_keeps _) _ _ s
  | capacityAdd | capacityRemove | windowConfig | extentBind | extentUnbind | extentMigrate | extentMigrateAbort | extentZero |
  instanceConfig | instanceQuiesce | instanceResume | instanceReset | qosSet | queueAssign | ladleSubmit | gateWrite |
  gateCommit | gateDiscard | sharerSlotSet | membershipSet | memberJoin | memberRejoin | memberDeclareDead | epochAdvance |
  pairHeadSet | mirrorResync | replicaSet | slotPowerOff | modeSet | portConfig | portControl =>
    exact runSettled_completes (devBody_keeps _) _ _ s
  | eventNotifyPeriod | commitDrainDone | epochAdvanceResend | flashEraseDone | backgroundOperationStatus |
  getResponseMessageLimit | setResponseMessageLimit | setEndpointId | getEndpointId | getEndpointUuid | getMctpVersionSupport |
  getMessageTypeSupport | getVendorDefinedMessageSupport | setEventReceiver | getPdrRepositoryInfo | getPdr | getSensorReading |
  getStateSensorReadings | setNumericSensorEnable | requestUpdate | passComponentTable | updateComponent | requestFirmwareData |
  activateFirmware | getCertificate | challenge | getMeasurements | keyExchange | segmentTimeout | getDynamicCapacityExtentList
  | ptmRequest | downstreamSecondaryBusReset | quiesceTimeout | moderationTimer | vectorUnmask | ladlePowerDown |
  slotSettleExpiry | portAdmit | trainingRetry | perstRelease | receiverDetect | disabledHoldoff | ts1 | ts2 | skpOrderedSet |
  skpInterval | deskew | eios | loopbackEnter | activeEntry | electricalIdleDetect | train1Timeout | equaliseTimeout |
  train2Timeout | recoveryTimeout | eqRequestResend | eqEvaluationDone | lossOfLock | flit | ack | nak | credit | seqSync |
  widthReqMessage | widthAck | widthRefuse | widthReady | widthSwitch | widthMark | wakingLanesLocked | widthResponseTimeout |
  widthWakeTimeout | widthRetryDelay | ackTimer | nakTimer | replayTimer | linkHold | oldestFlitAge | routeReturn |
  seqSyncRepeat | creditRefresh | messageLifetime | keyRoll | encryptionSessionTimeout | qflSpdmMessage | timeReq | ppsOut |
  speedWindow | avsStep | pmbusRetry | vcoreMeasure | temperatureScan | histogramSample | laneHour | nakStormWindow |
  herdbookPeriodicWrite | herdbookFlush | herdbookWriteDone | skimmerInterval | gateScrub | arrayRewrite | recordSelect |
  clearMonitor | ovfClear | chainBreak | breakFrame | lineEndDetect | ringRestore | ringFrame | rstNRise | pwrfail |
  pwrfailDrainLimit | drainTimeout | watchdogExpiry | gateCharged | qualificationEnd | currentLimit | currentLimitEnd |
  cooldownEnd | laneDropExpiry | testPeriod | testMsg | testRsp | checkerSync | syncLoss | ideKeyManagement | testLogicReset |
  warmResetDelay | blockWake | flashProgramDone =>
    exact ⟨_, rfl, s.keeps_dev _⟩
  | joinTimeout | silekResend | silekSegAck | memrd | meminv | memclnevct | memwr | memspecrd | birsp | biconflict |
  snoopTimeout | mrd | mwr | atomicop | cxlIoCompletion | cxlCache | configurationWrite | cxlMemReadData | cxlMemWriteCompletion
  | hostWriteAck | nakRetry | ticketAdmission | ticketExpiry | churnWayWait | tier2BucketReadDone | qflRdNc | qflWrNc |
  qflAtomic | prdShared | prdOwn | pinvOwn | pflush | pevict | pwb | plost | recallInv | recallData | recallCur | cmp | qflNak |
  recallRsp | dataMsg | recallDataRsp | atomicRsp | msgError | transactionTimeout | mirEntry | mirState | mirBucket | mirClose |
  mirAck | resyncCopyDone | yokeTimeout | mirrorResyncDeadline | migrationComplete | unbindScanComplete | bindHostTimeout |
  releaseHostTimeout | addDynamicCapacityResponse | releaseDynamicCapacity | hdmDecoderCommit | virtualHotAdd |
  functionLevelReset | secondaryBusReset | hostPerst | quiesceComplete | resetComplete | memoryAgentGrant | sqTail | cqHead |
  descriptorFetch | pieceDone | targetTimeout | removal | presenceDebounce | reclaimDone | devicePortReclaimDone | cxlLinkUp |
  ideFailure | ideRefreshTimeout | tier2ZeroingDone | enumListenEnd | enumFrame | enumDone | enumTimeout | heartbeatPeriod |
  heartbeat | fenced | bootComplete | healthTestFailure | adcScan | pchgTimeout | powerGoodTimeout | faultTimer | fastTrip |
  stoppingEnd | exerciseInject | responderReply | jtagInstructionLoad | groupPowered | selfTestDone =>
    exact settled_completes ⟨_, rfl, s.keeps_dev _⟩
  | copyDesc | fillDesc | compareDesc | crc32cDesc | atomicDesc | zeroReleaseDesc | migrateDesc =>
    exact settled_completes ⟨_, rfl, s.keeps_dev _⟩
  | portDisable | retrain | fullRetrain | loopbackReq | genPattern | prbsClear | injectError | widthGo | tier2En | csrKey |
  pgConfig | arrayWindowWrite =>
    exact writeCmd_completes _ _ _ _ s
  | latchingRead | clearOnRead | arrayEntryRead =>
    exact readCmd_completes _ _ _ s
  | bitAliasWrite | registerWrite =>
    exact s.writePath_completes _ _ _ _
  | queueSetup => exact execQueueSetup_completes _ _ _ _ _ _ _ s
  | queueDisable => exact execQueueDisable_completes _ _ s
  | queueReset => exact execQueueReset_completes _ _ s
  | queueQuery => exact execQueueQuery_completes _ _ s
  | zeroize => exact execZeroize_completes _ _ s
  | regRead => exact execRegRead_completes _ _ _ s
  | regWrite => exact thenRing_completes _ (regWrite_completes _ _ _ s)
  | rennetSet => exact execRennetSet_completes _ _ _ _ s
  | doorbell => exact thenRing_completes _ (State.keeps_ringMark _ s).completes
  | interimReply => exact execInterimReply_completes _ _ s
  | silekSegment => exact execSilekSegment_completes _ _ s hc
  | identify => exact execIdentify_completes _ _ s
  | identifySwitchDevice => exact execIdentifySwitchDevice_completes _ _ s
  | getPhysicalPortState => exact execGetPhysicalPortState_completes _ _ _ _ s
  | getVirtualCxlSwitchInfo => exact execGetVirtualCxlSwitchInfo_completes _ _ _ s
  | getDcdInfo => exact execGetDcdInfo_completes _ _ s
  | getHostDcRegionConfiguration => exact execGetHostDcRegionConfiguration_completes _ _ _ s
  | getDcRegionExtentLists => exact execGetDcRegionExtentLists_completes _ _ _ _ _ s
  | setDcRegionConfiguration => exact execSetDcRegionConfiguration_completes _ _ _ _ _ _ _ _ _ s
  | physicalPortControl => exact execPhysicalPortControl_completes _ _ _ _ s
  | bindVppb => exact execBindVppb_completes _ _ _ _ _ s
  | unbindVppb => exact execUnbindVppb_completes _ _ _ _ s
  | initiateDynamicCapacityAdd => exact execInitiateDynamicCapacityAdd_completes _ _ _ _ _ _ s
  | initiateDynamicCapacityRelease => exact execInitiateDynamicCapacityRelease_completes _ _ _ _ _ _ s
  | timeSyncPeriod => exact execTimeSyncPeriod_completes s
  | timeRsp | timeT2 => exact (s.keeps_timeIn _ _ _ _ (fun _ _ => State.keeps_exchangeDone _ _)).completes
  | timeSyncAbandon => exact (s.keeps_time _ s.dev).completes
  | ppsEdge => exact (State.keeps_ite (.refl s) s.keeps_ppsEdge).completes
  | ppsTimeout => exact (State.keeps_ite (.refl s) ((s.keeps_time _ s.dev).trans (State.keeps_setPps _ _))).completes
  | tripleScrub => exact (s.keeps_dev _).completes
  | rstNLow => exact execRstNLow_completes s
  | supplyFault => exact (State.keeps_ite (s.keeps_dev _) (s.keeps_toOm0 _ _ _)).completes
  | zeroizeN => exact (s.keeps_zeroise 2).completes
  | warmResetDrainDone => exact execWarmResetDrainDone_completes s

/-- A segment that its carrier cannot hold stops with the model's own fault. -/
theorem exec_unfit {c : Instr} (hc : c.segmentOk = false) (s : State) : exec c s = .fault .illFormed := by
  cases c with
  | silekSegment => exact if_pos (by simpa [Instr.segmentOk] using hc)
  | _ => cases hc

/-- Whatever a command answers keeps the queue and the invariant. -/
theorem exec_keeps {c : Instr} {s t : State} (h : exec c s = .next t) : s.Keeps t := by
  cases hc : c.segmentOk with
  | true =>
    obtain ⟨u, hu, hk⟩ := exec_completes hc s
    cases hu.symm.trans h
    exact hk
  | false => rw [exec_unfit hc s] at h; cases h

/-! ### Steps -/

theorem State.keeps_tick (s : State) : s.Keeps s.tick := State.keeps_ite (.refl s) (s.keeps_time _ _)

/-- Whatever an idle step answers keeps the invariant. -/
theorem idle_keeps {s t : State} (h : idle s = .next t) : s.Keeps t := by
  unfold idle at h
  split at h
  · rename_i x _
    unfold State.startHeld at h
    cases hx : exec x.cmd (s.release x) with
    | next u =>
      rw [hx] at h
      cases h
      exact (s.keeps_dev _).trans ((exec_keeps hx).trans (State.keeps_dev _ _))
    | fault r => rw [hx] at h; cases h
    | refused r => rw [hx] at h; cases h
  · split at h
    · obtain ⟨u, hu, hk⟩ := State.submit_completes _ s
      cases hu.symm.trans h
      exact hk
    · split at h
      · obtain ⟨u, hu, hk⟩ := onSettled_completes (fun _ d => d.later _) s
        cases hu.symm.trans h
        exact hk
      · cases h
        exact s.keeps_tick

/-! ### The statements -/

/-- Settles O49: every command completes (`exec_completes`), and the fault of a segment that no carrier holds is the model's own. -/
theorem commandsComplete : Obligations.CommandsComplete := by
  unfold Obligations.CommandsComplete
  refine ⟨fun c s hc => ?_, fun c s hc => exec_unfit hc s⟩
  obtain ⟨t, ht, hk⟩ := exec_completes hc s
  exact ⟨t, ht, hk.1⟩

/-- Settles O47: nothing is written and the guard is as new. -/
theorem resetInv : Obligations.ResetInv := by
  unfold Obligations.ResetInv
  exact ⟨Memory.wf_reset, fun h => absurd h (by decide), fun _ => by decide⟩

/-- Settles O48: a step runs the front of the queue or idles, and either keeps the invariant. -/
theorem invKept : Obligations.InvKept := by
  unfold Obligations.InvKept
  intro s t hs ht
  unfold step at ht
  split at ht
  · rename_i c rest _
    exact (exec_keeps (s := { s with pending := rest }) ht).2 hs
  · exact (idle_keeps ht).2 hs

end Sys2Proof.Machine
end

section
/-! SUPPORT. What the Gate commands, the end of a commit's drain and the scrub do in the cases that R355 to R365 single out, and the
statement on them (O9). -/
namespace Sys2Proof.Machine
open Sys2Proof

/-! ### The rows -/

theorem exec_gateWrite (h : SilekHdr) (addr first : Nat) (rules : List (BitVec 256)) (s : State) :
    exec (.gateWrite h addr first rules) s = runSettled h (.of 0x401 0 (.gateWrite h.key addr first rules))
      (devBody fun t d => d.gateWrite t addr first rules) s := rfl
theorem exec_gateCommit (h : SilekHdr) (expected : Nat) (s : State) :
    exec (.gateCommit h expected) s =
      runSettled h (.of 0x402 0 (.gateCommit h.key expected)) (devBody fun t d => d.gateCommit t expected) s := rfl
theorem exec_gateRead (h : SilekHdr) (addr sel first count : Nat) (s : State) :
    exec (.gateRead h addr sel first count) s = runSilek h (.of 0x403 0 (.gateRead h.key addr sel first count))
      (queryBody fun s => s.dev.gateRead addr sel first count) s := rfl
theorem exec_gateDiscard (h : SilekHdr) (addr : Nat) (s : State) :
    exec (.gateDiscard h addr) s =
      runSettled h (.of 0x404 0 (.gateDiscard h.key addr)) (devBody fun t d => d.gateDiscard t addr) s := rfl

/-! ### This device's own tables (R361) -/

/-- Address 0 names the device that takes the command. -/
theorem Dev.gateTarget_zero (d : Dev) : d.gateTarget 0 = .own := if_pos (.inl rfl)

/-- Rules of legal form and place are staged. That a rejoining device takes them in both tables is the model's choice (log entry 150). -/
theorem Dev.gateWrite_own {first : Nat} {rules : List (BitVec 256)} {d : Dev} (h1 : 1 ≤ rules.length) (h64 : rules.length ≤ 64)
    (hf : first + rules.length ≤ 4096) (hb : rules.any ruleBad = false) (t : Nat) :
    d.gateWrite t 0 first rules = (d.loadRules first rules, .final .ok []) := by
  have hok : ¬ (rules.length < 1 ∨ 64 < rules.length ∨ 4096 < first + rules.length ∨ rules.any ruleBad = true) := by
    rw [hb]; simp only [Bool.false_eq_true, or_false]; omega
  simp only [Dev.gateWrite, if_neg hok, Dev.gateTarget_zero]

/-- Rules of either table are read in the form of GATE_WRITE. -/
theorem Dev.gateRead_own {sel first count : Nat} {d : Dev} (hs : sel ≤ 1) (h1 : 1 ≤ count) (h64 : count ≤ 64)
    (hf : first + count ≤ 4096) :
    d.gateRead 0 sel first count = .final .ok ((List.range count).map (fun k =>
      leBytes 32 (Tab.getD (if sel = 0 then d.gate.active else d.gate.staging) (first + k) {}).bits)).flatten := by
  have hok : ¬ (1 < sel ∨ count < 1 ∨ 64 < count ∨ 4096 < first + count) := by omega
  simp only [Dev.gateRead, if_neg hok, Dev.gateTarget_zero]

theorem Dev.gateDiscard_own (d : Dev) (t : Nat) :
    d.gateDiscard t 0 = ({ d with gate := { d.gate with staging := d.gate.active } }, .final .ok []) := by
  simp only [Dev.gateDiscard, Dev.gateTarget_zero]

/-! ### The commit and its drain (R362, R365) -/

/-- GATE_COMMIT at a member other than this one: the primary switches its copy of the member's tables and sends the command on. -/
def Dev.commitAt (t expected : Nat) (d : Dev) (a : Nat) : Dev :=
  (d.setCopy a { d.copyOf a with gate := { (d.copyOf a).gate with
    active := commitTable (d.copyOf a).gate.active (d.copyOf a).gate.staging } }).sendCommand t a 0x402 0 (leBytes 4 expected)

/-- A commit of the present RULE_EPOCH, with none under way, switches the tables here and at the other members, and goes on. -/
theorem Dev.gateCommit_switches {expected : Nat} {d : Dev} (hr : d.memb.rejoining = false) (hb : d.flag GateR.COMMIT_BUSY = false)
    (hc : d.silek.running.any (fun r => decide (r.work = .commit)) = false) (he : expected = d.rd GateR.RULE_EPOCH) (t : Nat) :
    d.gateCommit t expected = (((d.raise1 GateR.COMMIT_BUSY).switchRules).otherMembers.foldl (Dev.commitAt t expected)
      ((d.raise1 GateR.COMMIT_BUSY).switchRules), .run .commit) := by
  subst he
  simp only [Dev.gateCommit, hr, hb, hc, Bool.false_eq_true, or_self, if_false, ne_eq, not_true]
  rfl

theorem exec_commitDrainDone_drained {s : State} (hb : s.dev.flag GateR.COMMIT_BUSY = true) (h0 : s.dev.inFlightOld = 0) :
    exec .commitDrainDone s = .next (s.withDev ((s.dev.wrFlag GateR.COMMIT_BUSY false).commitReply s.time.now)) :=
  congrArg (fun d => Host.Outcome.next (s.withDev d)) (if_pos ⟨hb, h0⟩)

/-! ### The scrub (R355, R524) -/

/-- A word beyond correction in the active table: the rule is damaged, the error is logged and RULE_ECC_EVT sets. -/
theorem exec_gateScrub_active {s : State} {fixed : Nat} (index : Fin 4096) (hm : s.dev.mode ≠ 0) (hf : 2 ≤ fixed) {f : Dev}
    (hd : f = ((s.dev.hbCount 4 1).logErr s.time.now { cls := 2, severity := 1, source := 8, addr := 32 * (index : Nat), detail := 7 }).raise1
      GateR.RULE_ECC_EVT) :
    exec (.gateScrub false index fixed) s = .next (s.withDev { f with gate := { f.gate with
      active := Tab.set f.gate.active index { Tab.getD f.gate.active index {} with damaged := true } } }) := by
  subst hd
  refine congrArg (fun d => Host.Outcome.next (s.withDev d)) ?_
  exact (if_neg hm).trans ((if_neg (by omega)).trans (if_neg (by omega)))

/-! ### The statement -/

/-- Settles O9: the responder takes each command up, and its hypotheses single out the case in which the device does what was asked. -/
theorem gateCommands : Obligations.GateCommands := by
  unfold Obligations.GateCommands
  refine ⟨?write, ?commit, ?drained, ?read, ?discard, ?scrub⟩
  case write =>
    rintro h _ first rules s d i rfl rfl ha h1 h64 hf hb rfl
    rw [exec_gateWrite]
    exact runSettled_dev ha (Dev.gateWrite_own h1 h64 hf hb _)
  case commit =>
    rintro h expected s d i rfl rfl ha hr hb hc he
    rw [exec_gateCommit]
    exact runSettled_devRun ha (Dev.gateCommit_switches hr hb hc he _)
  case drained =>
    rintro s d rfl hb h0
    exact exec_commitDrainDone_drained hb h0
  case read =>
    rintro h _ sel first count s d i rfl rfl ha hs h1 h64 hf rfl
    rw [exec_gateRead]
    exact runSilek_query ha (Dev.gateRead_own hs h1 h64 hf)
  case discard =>
    rintro h _ s d i rfl rfl ha rfl
    rw [exec_gateDiscard]
    exact runSettled_dev ha (Dev.gateDiscard_own _ _)
  case scrub =>
    rintro _ index fixed s d f rfl hd hm hf rfl
    exact exec_gateScrub_active index hm hf hd

end Sys2Proof.Machine
end

section
/-! SUPPORT. What the commands of group 0x05xx do to the membership, the epoch, the pair heads, the mirror and the sharer slots, and the
statement on them (O10). -/
namespace Sys2Proof.Machine
open Sys2Proof

/-! ### The rows -/

theorem exec_membershipSet (h : SilekHdr) (bitmap : Nat) (s : State) :
    exec (.membershipSet h bitmap) s =
      runSettled h (.of 0x501 0 (.membershipSet h.key bitmap)) (devBody fun t d => d.membershipSet t bitmap) s := rfl
theorem exec_membershipQuery (h : SilekHdr) (s : State) :
    exec (.membershipQuery h) s = runSilek h (.of 0x502 0 (.membershipQuery h.key))
      (queryBody fun s => if s.dev.acting then .final .ok s.dev.membershipReport else .err .notPermitted) s := rfl
theorem exec_memberDeclareDead (h : SilekHdr) (a : Nat) (s : State) :
    exec (.memberDeclareDead h a) s =
      runSettled h (.of 0x505 0 (.memberDeclareDead h.key a)) (devBody fun t d => d.memberDeclareDead t a) s := rfl
theorem exec_pairHeadSet (h : SilekHdr) (n a port ld : Nat) (s : State) :
    exec (.pairHeadSet h n a port ld) s =
      runSettled h (.of 0x507 3 (.pairHeadSet h.key n a port ld)) (devBody fun _ d => d.pairHeadSet n a port ld) s := rfl
theorem exec_mirrorResync (h : SilekHdr) (s : State) :
    exec (.mirrorResync h) s = runSettled h (.of 0x508 3 (.mirrorResync h.key)) (devBody fun t d => d.mirrorResync t) s := rfl
theorem exec_sharerSlotSet (h : SilekHdr) (k : Nat) (valid : Bool) (kind port chain : Nat) (s : State) :
    exec (.sharerSlotSet h k valid kind port chain) s = runSettled h (.of 0x510 0 (.sharerSlotSet h.key k valid kind port chain))
      (devBody fun _ d => d.sharerSlotSet k valid kind port chain) s := rfl
theorem exec_sharerSlotQuery (h : SilekHdr) (s : State) :
    exec (.sharerSlotQuery h) s = runSilek h (.of 0x511 3 (.sharerSlotQuery h.key))
      (queryBody fun s => .final .ok ((List.range 64).map (fun k => leBytes 8 (s.dev.sharerBits k))).flatten) s := rfl
theorem exec_joinTimeout (s : State) :
    exec .joinTimeout s = .next (s.settledFrom (s.withDev (s.dev.joinTimeout s.time.now))) := rfl
theorem exec_epochAdvanceResend (s : State) :
    exec .epochAdvanceResend s = .next (s.withDev (s.dev.resendAdvance s.time.now)) := rfl

/-! Four commands ask who sent them: a member, or the fabric manager (R389, R398 to R400). -/

theorem exec_memberJoin_member {h : SilekHdr} {a : Nat} (hq : h.requester = .member a) (role : Nat) (s : State) :
    exec (.memberJoin h role) s = runSettled h (.of 0x503 0 (.memberJoin h.key role))
      (devBody fun t d => if role = 2 ∨ role = 3 then d.memberJoin t a (role + 4) else (d, .err .badParam)) s := by
  show execMemberJoin h role s = _
  simp only [execMemberJoin, hq]
  rfl
theorem exec_memberRejoin_member {h : SilekHdr} {a : Nat} (hq : h.requester = .member a) (addr role mode : Nat) (s : State) :
    exec (.memberRejoin h addr role mode) s = runSettled h (.of 0x504 0 (.memberRejoin h.key addr role mode))
      (devBody fun t d => if d.mode = 9 ∧ addr = d.chainAddr then d.rejoinHere t mode else (d, .err .notPermitted)) s := by
  show execMemberRejoin h addr role mode s = _
  simp only [execMemberRejoin, hq]
  rfl
theorem exec_memberRejoin_fm {h : SilekHdr} {e : Nat} (hq : h.requester = .fm e) (addr role mode : Nat) (s : State) :
    exec (.memberRejoin h addr role mode) s = runSettled h (.of 0x504 0 (.memberRejoin h.key addr role mode))
      (devBody fun t d => d.actingOnly (if addr < 1 ∨ 16 < addr then (d, .err .badParam) else d.rejoinAt t addr role mode)) s := by
  show execMemberRejoin h addr role mode s = _
  simp only [execMemberRejoin, hq]
  rfl
theorem exec_epochAdvance_member {h : SilekHdr} {a : Nat} (hq : h.requester = .member a)
    (epoch prev configured alive primary mirror pair : Nat) (failover kept : Bool) (s : State) :
    exec (.epochAdvance h epoch prev configured alive primary mirror pair failover kept) s =
      runSettled h (.of 0x506 0 (.epochAdvance h.key epoch prev configured alive primary mirror pair failover kept))
        (devBody fun t d => d.adopt t a { epoch, prev, configured, alive, primary, mirror, pair, failover, kept }) s := by
  show execEpochAdvance h epoch prev configured alive primary mirror pair failover kept s = _
  simp only [execEpochAdvance, hq]
  rfl
theorem exec_replicaSet_member {h : SilekHdr} {m : Nat} (hq : h.requester = .member m) (a port ld unit : Nat) (s : State) :
    exec (.replicaSet h a port ld unit) s = runSettled h (.of 0x509 3 (.replicaSet h.key a port ld unit))
      (devBody fun _ d => d.replicaHere port ld unit) s := by
  show execReplicaSet h a port ld unit s = _
  simp only [execReplicaSet, hq]
  rfl

/-! ### The acting primary (R376, R388, R389) -/

theorem Dev.actingOnly_acting {d : Dev} (h : d.acting = true) (k : Dev × Result) : d.actingOnly k = k := if_pos h

/-- A change of the configured membership that no member must take up ends at once. -/
theorem Dev.membershipSet_ends {t bitmap : Nat} {d f : Dev} (hf : f = d.advance t { d.epochArgs with configured := bitmap })
    (hp : d.acting = true) (hb : bitmap < 2 ^ 16) (hh : hasAddr bitmap d.epochArgs.primary = true) (hm : d.epochArgs.mirror = 0)
    (ha : f.memb.advancing = none) : d.membershipSet t bitmap = (f, .final .ok []) := by
  have hok : ¬ (2 ^ 16 ≤ bitmap ∨ ¬ hasAddr bitmap d.epochArgs.primary = true ∨
      (d.epochArgs.mirror ≠ 0 ∧ ¬ hasAddr bitmap d.epochArgs.mirror = true)) := by
    simp only [hh, hm, ne_eq, not_true, false_and, or_false]; omega
  have hs : ¬ f.memb.advancing.isSome = true := by simp [ha]
  subst hf
  rw [Dev.membershipSet, Dev.actingOnly_acting hp]
  simp only [if_neg hok, if_neg hs]

/-- A member that is alive is declared dead; the command goes on until its death is over (R388). -/
theorem Dev.memberDeclareDead_alive {t a : Nat} {d f : Dev} (hf : f = d.declareDead t [a]) (hp : d.acting = true) (hc : a ≠ d.chainAddr)
    (h1 : 1 ≤ a) (h16 : a ≤ 16) (hl : d.alive a = true) :
    d.memberDeclareDead t a = if f.deathOver a = true then (f, .final .ok []) else (f, .run (.declareDead a)) := by
  have hok : ¬ (a = d.chainAddr ∨ a < 1 ∨ 16 < a) := by simp only [hc, false_or]; omega
  subst hf
  rw [Dev.memberDeclareDead, Dev.actingOnly_acting hp]
  simp only [if_neg hok, hl, not_true, if_false, ite_not]

/-- A member that is not alive has been declared already. -/
theorem Dev.memberDeclareDead_dead {a : Nat} {d : Dev} (hp : d.acting = true) (hc : a ≠ d.chainAddr) (h1 : 1 ≤ a) (h16 : a ≤ 16)
    (hl : d.alive a = false) (t : Nat) : d.memberDeclareDead t a = (d, .final .ok []) := by
  have hok : ¬ (a = d.chainAddr ∨ a < 1 ∨ 16 < a) := by simp only [hc, false_or]; omega
  rw [Dev.memberDeclareDead, Dev.actingOnly_acting hp, if_neg hok, if_pos (by simp [hl])]

/-! ### Joining and rejoining (R398, R399) -/

/-- The primary admits a configured member while no other joins. -/
theorem Dev.memberJoin_admits {a role : Nat} {d : Dev} (hp : d.acting = true) (hj : d.mayJoin a role = true)
    (hn : d.memb.joining = none) (t : Nat) : d.memberJoin t a role = (d.admitMember t a role false, .run (.join a)) := by
  simp only [Dev.memberJoin, hp, hj, hn, not_true, or_self, if_false, Option.isSome_none, Bool.false_eq_true]

/-- A device whose directory is being discarded already awaits the transfers of its primary. -/
theorem Dev.rejoinHere_discarding {d : Dev} (h : d.memb.discarding = true) (t mode : Nat) :
    d.rejoinHere t mode = ({ d with
      memb := { d.memb with rejoining := true, joinRole := mode }, fab := { d.fab with filters := [], e2e := [] } }, .final .ok []) := by
  simp only [Dev.rejoinHere, h, if_true]

/-- The primary sends a worker in OM9 its MEMBER_REJOIN, and the command goes on. -/
theorem Dev.rejoinAt_worker {a : Nat} {d : Dev} (hj : d.mayJoin a 7 = true) (hs : d.silentAt a = false)
    (h9 : d.rd (Memb.peer_MODE_SEEN (a - 1)) = 9) (hn : d.memb.joining = none) (t : Nat) :
    d.rejoinAt t a 3 7 = ((({ d with memb := { d.memb with joining := some (a, 1, true), joinRole := 7 } } : Dev).sendCommand t a 0x504 0
      (leBytes 1 a ++ leBytes 1 3 ++ leBytes 1 7)), .run (.join a)) := by
  simp [Dev.rejoinAt, hj, hs, h9, hn]

/-- No answer to MEMBER_JOIN: the device stays in OM3 (R399). -/
theorem Dev.joinTimeout_joining {d : Dev} (hr : d.memb.rejoining = true) (hm : d.mode = 3) (t : Nat) :
    d.joinTimeout t = ((({ d with
      memb := { d.memb with rejoining := false, autostart := false }
      silek := { d.silek with sent := d.silek.sent.filter (fun c => decide (c.opcode ≠ 0x503)) } } : Dev).wrFlag Glob.TRANSITION_BUSY
        false).finish t Work.isModeSet .timeout []) := by
  simp only [Dev.joinTimeout, hr, hm, not_true, ne_eq, or_self, if_false]

/-! ### Epochs at a member (R389, R390) -/

/-- A member adopts the epoch that follows its own from its primary. -/
theorem Dev.adopt_next {src : Nat} {e : EpochArgs} {d : Dev} (hr : d.memb.rejoining = false) (hs : src = d.rd Memb.PRIMARY_ADDR)
    (h0 : src ≠ 0) (hp : e.prev = d.epoch) (he : d.epoch ≠ 0) (hm : 5 ≤ d.mode) (hf : e.failover = false) (t : Nat) :
    d.adopt t src e = (d.takeEpoch t e, .final .ok []) := by
  subst hs
  simp [Dev.adopt, hr, h0, hp, he, hm, hf]

/-- EPOCH_ADVANCE goes again to each member that has not replied. -/
theorem Dev.resendAdvance_waiting {l : List Nat} {d : Dev} (h : d.memb.advancing = some l) (t : Nat) :
    d.resendAdvance t = (d.silek.sent.filter (fun c => decide (c.opcode = 0x506) && l.contains c.dst)).foldl
      (fun (e : Dev) (c : SentCommand) => e.sendOne t c) d := by
  simp only [Dev.resendAdvance, h]

/-! ### Pair heads, mirror and replica (R378, R381, R400, R404) -/

/-- A pair head at another member: its ports are not known here (log entry 88). -/
theorem Dev.pairHeadSet_member {n a port ld : Nat} {d : Dev} (hp : d.acting = true) (hn : n ≤ 31) (h1 : 1 ≤ a) (h16 : a ≤ 16)
    (hport : port ≤ 63) (hl : ld ≤ 15) (hc : a ≠ d.chainAddr) :
    d.pairHeadSet n a port ld =
      ({ d with memb := { d.memb with headMap := Tab.set d.memb.headMap (32 * a + n) (port, ld) } }, .final .ok []) := by
  have hok : ¬ (31 < n ∨ a < 1 ∨ 16 < a ∨ 63 < port ∨ 15 < ld ∨ (a = d.chainAddr ∧ ¬ d.isDevicePort port = true)) := by
    simp only [hc, false_and, or_false]; omega
  rw [Dev.pairHeadSet, Dev.actingOnly_acting hp, if_neg hok]

/-- A mirror in OM6 is resynchronised from the start. -/
theorem Dev.mirrorResync_starts {d : Dev} (hp : d.acting = true) (hm : d.rd Memb.MIRROR_ADDR ≠ 0)
    (h6 : d.rd (Memb.peer_MODE_SEEN (d.rd Memb.MIRROR_ADDR - 1)) = 6) (t : Nat) :
    d.mirrorResync t = ((d.abandonResync t).startResync, .run .resync) := by
  simp only [Dev.mirrorResync, hp, hm, h6, not_true, ne_eq, or_self, if_false]

/-- A replica region inside the capacity of a device port, where no extent lies. Its length is DEDUCED (log entry 42). -/
theorem Dev.replicaHere_fits {port ld unit : Nat} {d : Dev} (hd : d.isDevicePort port = true) (hl : ld ≤ 15)
    (hc : unit + (1 + d.rd ChurnR.T2_UNITS) ≤ (d.port port).capacity.getD ld 0)
    (hx : d.extents.any (fun x => decide (x.2.state ≠ 0) && decide (x.2.port = port) && decide (x.2.ld = ld) &&
      decide (unit ≤ x.2.dpaUnit) && decide (x.2.dpaUnit < unit + (1 + d.rd ChurnR.T2_UNITS))) = false) :
    d.replicaHere port ld unit = ((((d.wr Memb.REPLICA_PORT port).wr Memb.REPLICA_LD ld).wr Memb.REPLICA_DPA_UNIT unit).wr
      Memb.REPLICA_UNITS (1 + d.rd ChurnR.T2_UNITS), .final .ok []) := by
  rw [Dev.replicaHere, hd, hx, if_neg (by simp only [not_true, Bool.false_eq_true, false_or, or_false]; omega)]

/-! ### Sharer slots (R221) -/

/-- A free slot takes a host port that no other slot names. -/
theorem Dev.sharerSlotSet_host {k port chain : Nat} {d : Dev} (hk : k ≤ 63) (hp : d.isHostPort port = true)
    (hu : d.chn.slots.any (fun y => decide (y.1 ≠ k ∧ y.2.valid ∧ y.2.kind = 0 ∧ y.2.port = port ∧ y.2.chain = 0)) = false)
    (hr : d.refs k = 0) (hs : d.sharer k = {}) :
    d.sharerSlotSet k true 0 port chain = ({ d with chn := { d.chn with
      slots := Tab.put d.chn.slots k { valid := true, kind := 0, port := port, chain := 0 } {} } }, .final .ok []) := by
  have hn : d.slotNeeded {} = false := by simp [Dev.slotNeeded]
  have hok : ¬ (63 < k ∨ 1 < 0) := by omega
  simp only [Dev.sharerSlotSet, if_true, if_neg hok, hp, hu, hr, hs, hn, not_true, and_false, Bool.false_eq_true, if_false,
    ne_eq, or_self, false_and, Nat.zero_ne_one]

/-! ### The statement -/

/-- Settles O10: the responder takes each command up, and its hypotheses single out the case in which the device does what was asked.
The length of a replica is DEDUCED (log entry 42), as is the check of a pair head's ports (log entry 88). -/
theorem membershipCommands : Obligations.MembershipCommands := by
  unfold Obligations.MembershipCommands
  refine ⟨?set, ?query, ?join, ?timeout, ?rejoinHere, ?rejoinAt, ?declare, ?declareOver, ?declared, ?epoch, ?resend, ?head, ?resync,
    ?replica, ?slot, ?slots⟩
  case set =>
    rintro h bitmap s d i f rfl rfl ha hf hp hb hh hm hn
    rw [exec_membershipSet]
    exact runSettled_dev ha (Dev.membershipSet_ends hf hp hb hh hm hn)
  case query =>
    rintro h s d i rfl rfl ha hp
    rw [exec_membershipQuery]
    exact runSilek_query ha (if_pos hp)
  case join =>
    rintro h _ a s d i rfl rfl ha hq rfl hp hj hn
    rw [exec_memberJoin_member hq]
    exact runSettled_devRun ha (Dev.memberJoin_admits hp hj hn _)
  case timeout =>
    rintro s d rfl hr hm
    rw [exec_joinTimeout, Dev.joinTimeout_joining hr hm]
  case rejoinHere =>
    rintro h addr role mode a s d i rfl rfl ha hq hm hc hd
    rw [exec_memberRejoin_member hq]
    exact runSettled_dev ha ((if_pos ⟨hm, hc⟩).trans (Dev.rejoinHere_discarding hd _ _))
  case rejoinAt =>
    rintro h addr _ _ e s d i rfl rfl ha hq hp h1 h16 rfl rfl hj hs h9 hn
    rw [exec_memberRejoin_fm hq]
    refine runSettled_devRun ha ?_
    rw [Dev.actingOnly_acting hp, if_neg (by omega), Dev.rejoinAt_worker hj hs h9 hn]
  case declare =>
    rintro h a s d i f rfl rfl ha hf hp hc h1 h16 hl ho
    rw [exec_memberDeclareDead]
    exact runSettled_devRun ha ((Dev.memberDeclareDead_alive hf hp hc h1 h16 hl).trans (if_neg (Bool.eq_false_iff.mp ho)))
  case declareOver =>
    rintro h a s d i f rfl rfl ha hf hp hc h1 h16 hl ho
    rw [exec_memberDeclareDead]
    exact runSettled_dev ha ((Dev.memberDeclareDead_alive hf hp hc h1 h16 hl).trans (if_pos ho))
  case declared =>
    rintro h a s d i rfl rfl ha hp hc h1 h16 hl
    rw [exec_memberDeclareDead]
    exact runSettled_dev ha (Dev.memberDeclareDead_dead hp hc h1 h16 hl _)
  case epoch =>
    rintro h epoch prev configured alive primary mirror pair _ kept a s d i rfl rfl ha hq hr hs h0 hp he hm rfl
    rw [exec_epochAdvance_member hq]
    exact runSettled_dev ha (Dev.adopt_next hr hs h0 hp he hm rfl _)
  case resend =>
    rintro l s d rfl hl
    rw [exec_epochAdvanceResend, Dev.resendAdvance_waiting hl]
  case head =>
    rintro h n a port ld s d i rfl rfl ha hp hn h1 h16 hport hl hc
    rw [exec_pairHeadSet]
    exact runSettled_dev ha (Dev.pairHeadSet_member hp hn h1 h16 hport hl hc)
  case resync =>
    rintro h s d i rfl rfl ha hp hm h6
    rw [exec_mirrorResync]
    exact runSettled_devRun ha (Dev.mirrorResync_starts hp hm h6 _)
  case replica =>
    rintro h a port ld unit m s d i rfl rfl ha hq hd hl hc hx
    rw [exec_replicaSet_member hq]
    exact runSettled_dev ha (Dev.replicaHere_fits hd hl hc hx)
  case slot =>
    rintro h k _ _ port chain s d i rfl rfl ha hk rfl rfl hp hu hr hs
    rw [exec_sharerSlotSet]
    exact runSettled_dev ha (Dev.sharerSlotSet_host hk hp hu hr hs)
  case slots =>
    rintro h s d i rfl rfl ha
    rw [exec_sharerSlotQuery]
    exact runSilek_query ha rfl

end Sys2Proof.Machine
end

section
/-! SUPPORT. What the messages of the mirror channel do at their receiver, how a resynchronisation ends, and the statement on them
(O30). -/
namespace Sys2Proof.Machine
open Sys2Proof

/-! ### At the mirror (R382 to R384) -/

/-- A message of the mirror channel that passes its filter acts on a device in OM6. -/
theorem Dev.mirIn_mirror {t op : Nat} {h : QflHdr} {apply : Dev → Dev} {d f : Dev} (hf : f = (d.receiveFiltered t 4 op h).1)
    (hr : (d.receiveFiltered t 4 op h).2 = true) (hm : f.mode = 6) : d.mirIn t op h apply = apply f := by
  subst hf
  simp only [Dev.mirIn]
  exact if_pos ⟨hr, hm⟩

/-! ### The rows -/

theorem exec_mirEntry (h : QflHdr) (location : BitVec 64) (entry : BitVec 128) (s : State) :
    exec (.mirEntry h location entry) s = .next (s.settledFrom (s.withDev (s.dev.mirIn s.time.now 1 h (fun d =>
      d.mirEntryIn s.time.now h location.toNat entry.toNat)))) := rfl
theorem exec_mirState (h : QflHdr) (word : BitVec 64) (units : List (BitVec 64)) (s : State) :
    exec (.mirState h word units) s = .next (s.settledFrom (s.withDev (s.dev.mirIn s.time.now 2 h (fun d =>
      (d.mirRecord (fieldOf word.toNat 0 8) (fieldOf word.toNat 27 5) (fieldOf word.toNat 8 19)
        (units.foldr (fun (u : BitVec 64) v => u.toNat + 2 ^ 64 * v) 0)).mirAck s.time.now h)))) := rfl
theorem exec_mirBucket (h : QflHdr) (location : BitVec 64) (data : Line) (s : State) :
    exec (.mirBucket h location data) s = .next (s.settledFrom (s.withDev (s.dev.mirIn s.time.now 4 h (fun d =>
      d.mirBucketIn s.time.now h location.toNat data)))) := rfl
theorem exec_mirClose (h : QflHdr) (count : Nat) (s : State) :
    exec (.mirClose h count) s = .next (s.settledFrom (s.withDev (s.dev.mirIn s.time.now 5 h (fun d =>
      (({ d with memb := { d.memb with synced := true } } : Dev).wr Memb.RESYNC_COPIED (min 2097152 count)).mirAck s.time.now h)))) := rfl
theorem exec_mirAck (h : QflHdr) (s : State) :
    exec (.mirAck h) s = .next (s.settledFrom (s.withDev (s.dev.responseIn s.time.now 4 3 h {}))) := rfl
theorem exec_resyncCopyDone (s : State) :
    exec .resyncCopyDone s = .next (s.settledFrom (s.withDev (s.dev.copyDone s.time.now))) := rfl
theorem exec_yokeTimeout (s : State) :
    exec .yokeTimeout s = .next (s.settledFrom (s.withDev (s.dev.yokeTimeout s.time.now))) := rfl

/-! ### At the primary (R379, R381, R385) -/

/-- A sound tier 1 is scanned as written. -/
theorem Dev.scanWays_of_sound {d : Dev} (h : d.flaws = []) (t : Nat) : d.scanWays t = d := by
  simp only [Dev.scanWays, h, List.foldl_nil]

/-- The copy of an empty directory is over at once: MIR_CLOSE of a count of 0 goes to the mirror. -/
theorem Dev.copyDone_empty {t : Nat} {d f : Dev} (hf : f = (d.wr Memb.RESYNC_COPIED 0).wr Memb.RESYNC_PHASE 3) (hp : d.acting = true)
    (h2 : d.rd Memb.RESYNC_PHASE = 2) (h1 : d.chn.tier1 = []) (ht : d.chn.tier2 = []) (hi : d.chn.image = []) (hs : d.flaws = []) :
    d.copyDone t = f.qflSend t 4 5 (f.rd Memb.MIRROR_ADDR) (masterFabric f.chainAddr 2) true [0] .mirrorClose := by
  subst hf
  have hgo : ¬ (¬ d.acting = true ∨ d.rd Memb.RESYNC_PHASE ≠ 2 ∨ d.chn.image ≠ []) := by simp [hp, h2, hi]
  rw [Dev.copyDone, if_neg hgo]
  simp only [Dev.scanWays_of_sound hs, h1, ht, List.filter_nil, List.map_nil, List.foldl_nil, List.length_nil, Nat.min_zero]
  rfl

/-- A waiting mirror whose heartbeats still arrive leaves the alive set by an epoch advance. -/
theorem Dev.yokeTimeout_leaves {t m : Nat} {d : Dev} (hm : m = d.rd Memb.MIRROR_ADDR) (h5 : d.mode = 5) (h0 : m ≠ 0)
    (hw : d.chn.mirrorWaits.isEmpty = false) (hs : d.silentAt m = false) :
    d.yokeTimeout t = ({ d with memb := { d.memb with yokeWait := some m } } : Dev).advance t
      { d.epochArgs with alive := dropAddr d.epochArgs.alive m, mirror := 0 } := by
  subst hm
  simp only [Dev.yokeTimeout, h5, h0, hw, hs, ne_eq, not_true, Bool.false_eq_true, or_self, if_false]

/-- 60 s in OM5 without a resynchronised mirror lead to OM8. -/
theorem exec_mirrorResyncDeadline_alone {s : State} (h5 : s.dev.mode = 5) (hs : s.dev.memb.synced = false) :
    exec .mirrorResyncDeadline s = .next (s.settledFrom (s.withDev (s.dev.enterMode s.time.now 8 12))) :=
  s.next_settled_congr (if_pos ⟨h5, by simp [hs]⟩)

/-! ### The statement -/

/-- Settles O30: each row at the case that its hypotheses single out. That INDEX holds the member in its upper bits is the model's choice
(log entry 40). -/
theorem mirrorChannel : Obligations.MirrorChannel := by
  unfold Obligations.MirrorChannel
  refine ⟨?entry, ?record, ?bucket, ?close, ?ack, ?copyDone, ?yoke, ?deadline⟩
  case entry =>
    rintro h location entry s d f rfl hf hr hm
    rw [exec_mirEntry, Dev.mirIn_mirror hf hr hm]
  case record =>
    rintro h word units s d f rfl hf hr hm
    rw [exec_mirState, Dev.mirIn_mirror hf hr hm]
  case bucket =>
    rintro h location data s d f rfl hf hr hm
    rw [exec_mirBucket, Dev.mirIn_mirror hf hr hm]
  case close =>
    rintro h count s d f rfl hf hr hm
    rw [exec_mirClose, Dev.mirIn_mirror hf hr hm]
  case ack =>
    rintro h o s d f rfl hf ho
    rw [exec_mirAck, Dev.responseIn_matched (Prod.ext hf.symm ho)]
  case copyDone =>
    rintro s d f rfl hf hp h2 h1 ht hi hs
    rw [exec_resyncCopyDone, Dev.copyDone_empty hf hp h2 h1 ht hi hs]
  case yoke =>
    rintro s d m rfl hm h5 h0 hw hs
    rw [exec_yokeTimeout, Dev.yokeTimeout_leaves hm h5 h0 hw hs]
  case deadline =>
    rintro s d rfl h5 hs
    exact exec_mirrorResyncDeadline_alone h5 hs

end Sys2Proof.Machine
end

section
/-! SUPPORT. How the rows of the Milold chain hand a frame to its body, what breaks, rings and enumeration make of the device, what
heartbeats and FENCED notices do, and the statements on them (O40, O41, O42). -/
namespace Sys2Proof.Machine
open Sys2Proof

/-! ### The rows -/

theorem exec_breakFrame (rx : ChainRx) (s : State) :
    exec (.breakFrame rx) s = .next (s.withDev (s.dev.chainTake s.time.now rx (.breakMark rx.src) (fun d => d.enterLine rx.src))) := rfl
theorem exec_ringFrame (rx : ChainRx) (s : State) :
    exec (.ringFrame rx) s = .next (s.withDev (s.dev.chainTake s.time.now rx .ring (fun d => d.enterRing))) := rfl
theorem exec_enumListenEnd (s : State) :
    exec .enumListenEnd s = .next (s.settledFrom (s.withDev (s.dev.listenEnd s.time.now))) := rfl
theorem exec_heartbeatPeriod (s : State) :
    exec .heartbeatPeriod s = .next (s.settledFrom (s.withDev (s.dev.heartbeatPeriod s.time.now))) := rfl

/-- What an ENUM that is taken in leads to: its epoch decides whether it acts (R390). -/
def Dev.enumArrives (t : Nat) (rx : ChainRx) (f : ChainFrame) (next turns : Nat) (own : Bool) (d : Dev) : Dev :=
  if (d.chainEpoch t rx.src rx.epoch).2 = true then (d.chainEpoch t rx.src rx.epoch).1.enumIn t f next turns own
  else (d.chainEpoch t rx.src rx.epoch).1
/-- What an ENUM_DONE that is taken in leads to: it goes on first. -/
def Dev.enumDoneArrives (t : Nat) (rx : ChainRx) (f : ChainFrame) (count : Nat) (shape : EnumShape) (d : Dev) : Dev :=
  if ((d.passFrame f).chainEpoch t rx.src rx.epoch).2 = true then ((d.passFrame f).chainEpoch t rx.src rx.epoch).1.enumDone t count shape
  else ((d.passFrame f).chainEpoch t rx.src rx.epoch).1

theorem exec_enumFrame (rx : ChainRx) (next turns : Nat) (own : Bool) (s : State) :
    exec (.enumFrame rx next turns own) s = .next (s.settledFrom (s.withDev (s.dev.chainIn rx.line
      (chainFrameOf rx.line 0 rx.src rx.epoch (.enum next turns)) (Dev.enumArrives s.time.now rx
        (chainFrameOf rx.line 0 rx.src rx.epoch (.enum next turns)) next turns own)))) := by
  refine s.next_settled_congr (congrArg (fun k => Dev.chainIn _ _ k _) (funext fun d => ?_))
  unfold Dev.enumArrives
  generalize d.chainEpoch s.time.now rx.src rx.epoch = r
  obtain ⟨e, b⟩ := r
  cases b <;> rfl
theorem exec_enumDone (rx : ChainRx) (count : Nat) (shape : EnumShape) (s : State) :
    exec (.enumDone rx count shape) s = .next (s.settledFrom (s.withDev (s.dev.chainIn rx.line
      (chainFrameOf rx.line 0 rx.src rx.epoch (.enumDone count shape.mode shape.overflow)) (Dev.enumDoneArrives s.time.now rx
        (chainFrameOf rx.line 0 rx.src rx.epoch (.enumDone count shape.mode shape.overflow)) count shape)))) := by
  refine s.next_settled_congr (congrArg (fun k => Dev.chainIn _ _ k _) (funext fun d => ?_))
  unfold Dev.enumDoneArrives
  generalize (d.passFrame _).chainEpoch s.time.now rx.src rx.epoch = r
  obtain ⟨e, b⟩ := r
  cases b <;> rfl
theorem exec_heartbeat_chain (l : ChainLine) (src epoch : Nat) (word : BitVec 64) (s : State) :
    exec (.heartbeat (.chain l) src epoch word) s = .next (s.settledFrom (s.withDev (s.dev.chainIn l
      (chainFrameOf l 0 src epoch (.heartbeat word.toNat)) (fun d =>
        (d.passFrame (chainFrameOf l 0 src epoch (.heartbeat word.toNat))).heartbeatIn s.time.now src epoch word.toNat)))) := rfl
theorem exec_fenced_chain (l : ChainLine) (src dst notice : Nat) (s : State) :
    exec (.fenced (.chain l) src dst notice) s = .next (s.settledFrom (s.withDev (s.dev.chainIn l
      (chainFrameOf l dst src notice (.fenced notice)) (fun d =>
        if dst = d.chainAddr then d.fencedNoticeIn s.time.now notice
        else d.passFrame (chainFrameOf l dst src notice (.fenced notice)))))) := rfl

/-! ### A frame taken in (R370, R371, R390) -/

/-- An intact frame of the device's own epoch acts and goes on. -/
theorem Dev.chainTake_own {t : Nat} {rx : ChainRx} {body : ChainBody} {k : Dev → Dev} {d : Dev} {f : ChainFrame}
    (hf : f = chainFrameOf rx.line 0 rx.src rx.epoch body) (h0 : d.mode ≠ 0) (hc : rx.line.crc = f.crc rx.line.type.toNat)
    (ht : rx.line.type.toNat = f.body.type) (he : rx.epoch = d.epoch) : d.chainTake t rx body k = (k d).passFrame f := by
  subst hf
  rw [Dev.chainTake, Dev.chainIn_intact _ h0 hc ht]
  simp only [Dev.chainEpoch_own (.inl he), if_true]

/-- A damaged frame is dropped and counted. -/
theorem Dev.chainTake_damaged {t : Nat} {rx : ChainRx} {body : ChainBody} {d : Dev} {f : ChainFrame}
    (hf : f = chainFrameOf rx.line 0 rx.src rx.epoch body) (h0 : d.mode ≠ 0) (hc : rx.line.crc ≠ f.crc rx.line.type.toNat)
    (k : Dev → Dev) :
    d.chainTake t rx body k = { d with memb := { d.memb with crcDrops := d.memb.crcDrops + 1 } } := by
  subst hf
  rw [Dev.chainTake, Dev.chainIn_damaged _ h0 hc]

/-! ### Breaks and the return to ring mode (R372) -/

/-- The first break of MCH_IN sends BREAK on MCH_OUT, and the device enters line mode. -/
theorem exec_chainBreak_ring {s : State} {f : Dev} (hf : f = s.dev.raise1 Memb.IN_LOS) (h0 : s.dev.mode ≠ 0)
    (hl : f.lineMode = false) :
    exec .chainBreak s = .next (s.withDev ((f.emit (.chain
      { bcast := true, reverse := false, dst := 0, src := f.chainAddr, hops := 0, epoch := f.epoch, body := .breakMark f.chainAddr })).enterLine
        f.chainAddr)) := by
  subst hf
  refine s.next_congr ((if_neg h0).trans ((if_neg (Bool.eq_false_iff.mp hl)).trans ?_))
  rw [Dev.chainSend_ring hl]

/-- In line mode a silent pair makes a line end. -/
theorem exec_lineEndDetect_out {s : State} (h0 : s.dev.mode ≠ 0) (hl : s.dev.lineMode = true) :
    exec (.lineEndDetect 1) s = .next (s.withDev (({ s.dev with memb := { s.dev.memb with
      silent := s.dev.memb.silent.filter (fun x => x ≠ 1) ++ [1] } } : Dev).raise1 Memb.LINE_END)) :=
  s.next_congr ((if_neg (by simp [h0, hl])).trans (if_neg (by decide)))

/-- A line end whose pairs are back sends RING in ring mode. -/
theorem exec_ringRestore_end {s : State} {f : Dev} (hf : f = s.dev.enterRing) (h0 : s.dev.mode ≠ 0) (hl : s.dev.lineMode = true)
    (he : s.dev.flag Memb.LINE_END = true) (hr : f.lineMode = false) :
    exec .ringRestore s = .next (s.withDev (f.emit (.chain
      { bcast := true, reverse := false, dst := 0, src := f.chainAddr, hops := 0, epoch := s.dev.epoch, body := .ring }))) := by
  subst hf
  refine s.next_congr ((if_neg (by simp [h0, hl, he])).trans ?_)
  rw [Dev.chainSend_ring hr]

/-! ### Enumeration (R373, R374) -/

/-- A device without an address that awaits the token takes the one offered. -/
theorem Dev.enumIn_takes {t next turns : Nat} {f : ChainFrame} {own : Bool} {d : Dev} (hm : d.mode = 2) (ha : d.chainAddr = 0)
    (h1 : d.memb.enumState = 1) (hn : next ≤ 16) :
    d.enumIn t f next turns own = (({ d with memb := { d.memb with enumState := 3 } } : Dev).wr Glob.CHAIN_ADDRESS next).passEnum f next
      turns (next + 1) := by
  simp [Dev.enumIn, Dev.takeEnum, hm, ha, h1, hn]

/-- Away from a line end the token goes on with the next address. -/
theorem Dev.passEnum_on {f : ChainFrame} {next : Nat} {g : Dev} (he : g.atEnd f.reverse = false) (turns : Nat) :
    g.passEnum f next turns (next + 1) =
      g.emit (.chain { f with src := g.chainAddr, hops := 0, epoch := g.epoch, body := .enum (next + 1) turns }) := by
  simp [Dev.passEnum, he]

/-- A line end turns the token round and counts the turn. -/
theorem Dev.passEnum_turn {f : ChainFrame} {next : Nat} {g : Dev} (he : g.atEnd f.reverse = true) (turns : Nat) :
    g.passEnum f next turns (next + 1) = g.emit (.chain { f with
      reverse := !f.reverse, src := g.chainAddr, hops := 0, epoch := g.epoch, body := .enum (next + 1) (turns + 1) }) := by
  simp [Dev.passEnum, he]

/-- Before the device has an epoch, an intact ENUM gives it the address offered, and goes on. -/
theorem exec_enumFrame_takes {s : State} {rx : ChainRx} {next turns : Nat} {own : Bool} {f : ChainFrame} {g : Dev}
    (hf : f = chainFrameOf rx.line 0 rx.src rx.epoch (.enum next turns)) (h0 : s.dev.mode ≠ 0)
    (hc : rx.line.crc = f.crc rx.line.type.toNat) (ht : rx.line.type.toNat = f.body.type) (he : s.dev.epoch = 0) (hm : s.dev.mode = 2)
    (ha : s.dev.chainAddr = 0) (h1 : s.dev.memb.enumState = 1) (hn : next ≤ 16)
    (hg : g = ({ s.dev with memb := { s.dev.memb with enumState := 3 } } : Dev).wr Glob.CHAIN_ADDRESS next) :
    exec (.enumFrame rx next turns own) s = .next (s.settledFrom (s.withDev (g.passEnum f next turns (next + 1)))) := by
  subst hf hg
  rw [exec_enumFrame, Dev.chainIn_intact _ h0 hc ht, Dev.enumArrives]
  simp only [Dev.chainEpoch_own (.inr (.inr he)), if_true, Dev.enumIn_takes hm ha h1 hn]

/-- The head that heard nobody takes address 1 and starts the token. -/
theorem Dev.listenEnd_head {t : Nat} {d f : Dev} (hf : f = ({ d with memb := { d.memb with enumState := 2 } } : Dev).wr Glob.CHAIN_ADDRESS 1)
    (hm : d.mode = 2) (h1 : d.memb.enumState = 1) (hp : d.memb.peers.filter (fun x => x.2.ever) = []) (hh : d.rst.straps.head = true)
    (hr : f.lineMode = false) :
    d.listenEnd t = f.emit (.chain
      { bcast := false, reverse := false, dst := 0, src := f.chainAddr, hops := 0, epoch := f.epoch, body := .enum 2 0 }) := by
  subst hf
  simp only [Dev.listenEnd, hm, h1, hp, hh, List.map_nil, ne_eq, not_true, or_self, if_false, if_true, Dev.chainSend_ring hr]

/-- ENUM_DONE brings the count and shape of the chain, and OM3. -/
theorem exec_enumDone_ends {s : State} {rx : ChainRx} {count : Nat} {shape : EnumShape} {f : ChainFrame} {g k : Dev}
    (hf : f = chainFrameOf rx.line 0 rx.src rx.epoch (.enumDone count shape.mode shape.overflow)) (h0 : s.dev.mode ≠ 0)
    (hc : rx.line.crc = f.crc rx.line.type.toNat) (ht : rx.line.type.toNat = f.body.type) (hg : g = s.dev.passFrame f) (he : g.epoch = 0)
    (hm : g.mode = 2)
    (hk : k = ((g.wr Memb.CHAIN_COUNT count).wr Memb.CHAIN_MODE shape.mode).wrFlag Memb.OVERFLOW shape.overflow) :
    exec (.enumDone rx count shape) s = .next (s.settledFrom (s.withDev
      (({ k with memb := { k.memb with enumState := 0 } } : Dev).toStandby s.time.now 14))) := by
  subst hf
  rw [exec_enumDone, Dev.chainIn_intact _ h0 hc ht, Dev.enumDoneArrives, ← hg]
  subst hk
  simp only [Dev.chainEpoch_own (.inr (.inr he)), if_true, Dev.enumDone, hm, ne_eq, not_true, if_false]

theorem exec_enumTimeout_listening {s : State} (hm : s.dev.mode = 2) :
    exec .enumTimeout s = .next (s.settledFrom (s.withDev
      ((({ s.dev with memb := { s.dev.memb with enumState := 0 } } : Dev).wr Glob.CHAIN_ADDRESS 0).toStandby s.time.now 14))) :=
  s.next_settled_congr (if_neg (not_not_intro hm))

/-! ### Heartbeats and FENCED notices (R385 to R392) -/

/-- A member sends its heartbeat, counts the silent addresses, handles those that have become silent and counts its lease. -/
theorem Dev.heartbeatPeriod_member {t : Nat} {d f g : Dev} (hm : 3 ≤ d.mode) (ha : d.chainAddr ≠ 0) (hf : f = d.sendHeartbeat t)
    (hg : g = (((List.range 16).map (· + 1)).filter (fun a => a ≠ f.chainAddr)).foldl (fun (x : Dev) a => x.countMissed t a) f) :
    d.heartbeatPeriod t = ((g.newlySilent f).foldl (fun (x : Dev) a => x.onSilence t a) g).leasePeriod := by
  subst hf hg
  exact if_neg (not_or.mpr ⟨Nat.not_lt.mpr hm, ha⟩)

/-- A heartbeat of the device's own epoch is heard. -/
theorem Dev.heartbeatIn_heard {t src epoch w : Nat} {d : Dev} (h1 : 1 ≤ src) (h16 : src ≤ 16) (ho : src ≠ d.chainAddr)
    (hy : d.memb.yokeWait = none) (he : epoch = d.epoch) : d.heartbeatIn t src epoch w = d.heard t src epoch w := by
  have hsrc : ¬ (src < 1 ∨ 16 < src ∨ src = d.chainAddr) := by simp only [ho, or_false]; omega
  simp only [Dev.heartbeatIn, if_neg hsrc, hy, reduceCtorEq, false_and, if_false, Dev.chainEpoch_own (.inl he)]

/-- A frame of an older epoch is counted and answered with a FENCED notice (R390). -/
theorem Dev.chainEpoch_stale {t src epoch : Nat} {d : Dev} (hd : d.epoch ≠ 0) (h0 : epoch ≠ 0) (hne : epoch ≠ d.epoch)
    (hl : d.lateEpoch t src epoch = false) (hn : newerEpoch epoch d.epoch = false) :
    d.chainEpoch t src epoch = (((d.inc Memb.STALE_DROPS).fencedNotice t src).mon t 0x37 0x703 0xffff src, false) := by
  simp [Dev.chainEpoch, hd, h0, hne, hl, hn]

/-- A heartbeat of an older epoch is dropped. -/
theorem Dev.heartbeatIn_stale {t src epoch w : Nat} {d : Dev} (h1 : 1 ≤ src) (h16 : src ≤ 16) (ho : src ≠ d.chainAddr)
    (hy : d.memb.yokeWait = none) (hd : d.epoch ≠ 0) (h0 : epoch ≠ 0) (hne : epoch ≠ d.epoch) (hl : d.lateEpoch t src epoch = false)
    (hn : newerEpoch epoch d.epoch = false) :
    d.heartbeatIn t src epoch w = ((d.inc Memb.STALE_DROPS).fencedNotice t src).mon t 0x37 0x703 0xffff src := by
  have hsrc : ¬ (src < 1 ∨ 16 < src ∨ src = d.chainAddr) := by simp only [ho, or_false]; omega
  simp only [Dev.heartbeatIn, if_neg hsrc, hy, reduceCtorEq, false_and, if_false, Dev.chainEpoch_stale hd h0 hne hl hn]

theorem exec_heartbeat_vc5 {s : State} (h : QflHdr) (src epoch : Nat) (word : BitVec 64) (h0 : s.dev.mode ≠ 0) :
    exec (.heartbeat (.vc5 h) src epoch word) s = .next (s.settledFrom (s.withDev ((s.dev.takeRx
      { vc := 5, opcode := 0x10, src := h.src, dst := h.dst, tag := h.tag, e2e := h.e2e }).heartbeatIn s.time.now h.src h.epoch
        word.toNat))) := s.next_settled_congr (if_neg h0)

theorem exec_fenced_vc5 {s : State} (h : QflHdr) (src dst notice : Nat) (h0 : s.dev.mode ≠ 0) :
    exec (.fenced (.vc5 h) src dst notice) s = .next (s.settledFrom (s.withDev ((s.dev.takeRx
      { vc := 5, opcode := 0x11, src := h.src, dst := h.dst, tag := h.tag, e2e := h.e2e }).fencedNoticeIn s.time.now notice))) :=
  s.next_settled_congr (if_neg h0)

/-- A notice for another device goes on. -/
theorem exec_fenced_passes {s : State} {l : ChainLine} {src dst notice : Nat} {f : ChainFrame}
    (hf : f = chainFrameOf l dst src notice (.fenced notice)) (h0 : s.dev.mode ≠ 0) (hc : l.crc = f.crc l.type.toNat)
    (ht : l.type.toNat = f.body.type) (hd : dst ≠ s.dev.chainAddr) :
    exec (.fenced (.chain l) src dst notice) s = .next (s.settledFrom (s.withDev (s.dev.passFrame f))) := by
  subst hf
  rw [exec_fenced_chain, Dev.chainIn_intact _ h0 hc ht, if_neg hd]

/-! ### The statements -/

/-- Settles O40: each row at the case that its hypotheses single out. That a token which changes leaves with HOPS 0 as the device's own
frame is the model's choice (log entry 183), as is line mode from CHAIN_MODE 0 (log entry 86). -/
theorem chainEvents : Obligations.ChainEvents := by
  unfold Obligations.ChainEvents
  refine ⟨?inBreak, ?breakIn, ?lineEnd, ?restore, ?ring, ?ringOwn, ?enum, ?enumTurn, ?listen, ?done, ?timeout⟩
  case inBreak =>
    rintro s d f rfl hf h0 _ hl
    exact exec_chainBreak_ring hf h0 hl
  case breakIn =>
    rintro rx g s d f rfl hf h0 hc ht he rfl ha hh
    rw [exec_breakFrame, Dev.chainTake_own hf h0 hc ht he,
      Dev.passFrame_on (.inl (Dev.enterLine_lineMode _ _)) (by rw [hf]; exact ha) hh]
  case lineEnd =>
    rintro _ s d rfl h0 hl rfl
    exact exec_lineEndDetect_out h0 hl
  case restore =>
    rintro s d f rfl hf h0 hl he hr
    exact exec_ringRestore_end hf h0 hl he hr
  case ring =>
    rintro rx g s d f rfl hf h0 hc ht he rfl hs ha hh
    have ho : f.src ≠ s.dev.enterRing.chainAddr := by rw [hf]; exact hs
    rw [exec_ringFrame, Dev.chainTake_own hf h0 hc ht he,
      Dev.passFrame_on (.inr (.inr (.inr ho))) (by rw [hf]; exact ha) hh]
  case ringOwn =>
    rintro rx s d f g rfl hf rfl h0 hc ht he hl hb hs ho
    rw [exec_ringFrame, Dev.chainTake_own hf h0 hc ht he, Dev.passFrame_own hl (by rw [hf]; exact hb) (by rw [hf]; exact hs)
      (by rw [hf]; exact ho)]
  case enum =>
    rintro rx next turns own g s d f rfl hf h0 hc ht he hm ha h1 hn hg hend
    rw [exec_enumFrame_takes hf h0 hc ht he hm ha h1 hn hg, Dev.passEnum_on (by rw [hf]; exact hend)]
  case enumTurn =>
    rintro rx next turns own g s d f rfl hf h0 hc ht he hm ha h1 hn hg hend
    rw [exec_enumFrame_takes hf h0 hc ht he hm ha h1 hn hg, Dev.passEnum_turn (by rw [hf]; exact hend), hf]
    rfl
  case listen =>
    rintro s d f rfl hf hm h1 hp hh hr
    rw [exec_enumListenEnd, Dev.listenEnd_head hf hm h1 hp hh hr]
  case done =>
    rintro rx count shape g k s d f rfl hf h0 hc ht hg he hm hk
    exact exec_enumDone_ends hf h0 hc ht hg he hm hk
  case timeout =>
    rintro s d rfl hm
    exact exec_enumTimeout_listening hm

/-- Settles O41: a frame is dropped at the check that it fails (R370), and one that goes on meets HOPS and the line ends (R371, R372).
That a listed TYPE other than the body's is dropped too is the model's choice (log entry 183). -/
theorem chainFrames : Obligations.ChainFrames := by
  unfold Obligations.ChainFrames
  refine ⟨?breakCrc, ?ringCrc, ?enumCrc, ?doneType, ?heartbeatType, ?far, ?turned, ?spent⟩
  case breakCrc =>
    rintro rx s d f rfl hf h0 hc
    rw [exec_breakFrame, Dev.chainTake_damaged hf h0 hc]
  case ringCrc =>
    rintro rx s d f rfl hf h0 hc
    rw [exec_ringFrame, Dev.chainTake_damaged hf h0 hc]
  case enumCrc =>
    rintro rx next turns own s d f rfl rfl h0 hc
    rw [exec_enumFrame, Dev.chainIn_damaged _ h0 hc]
  case doneType =>
    rintro rx count shape s d f rfl rfl h0 hc ht
    rw [exec_enumDone, Dev.chainIn_unlisted _ h0 hc ht]
  case heartbeatType =>
    rintro _ src epoch word l s d f rfl rfl rfl h0 hc ht
    rw [exec_heartbeat_chain, Dev.chainIn_unlisted _ h0 hc ht]
  case far =>
    rintro _ src dst notice l s d f rfl hf rfl h0 hc ht hd hh
    rw [exec_fenced_passes hf h0 hc ht hd, Dev.passFrame_far (by rw [hf]; exact hh.ge)]
  case turned =>
    rintro _ src dst notice l s d f rfl hf rfl h0 hc ht hd hl he hb hh
    rw [exec_fenced_passes hf h0 hc ht hd, Dev.passFrame_turn hl (by rw [hf]; exact he) (.inl (by rw [hf]; exact hb))
      (by rw [hf]; exact hh)]
  case spent =>
    rintro rx s d f g rfl hf rfl h0 hc ht he hend hb hr
    rw [exec_breakFrame, Dev.chainTake_own hf h0 hc ht he, Dev.passFrame_spent (Dev.enterLine_lineMode _ _) (by rw [hf]; exact hend)
      (by rw [hf]; exact hb) (by rw [hf]; exact hr)]

/-- Settles O42: each row at the case that its hypotheses single out. That every address but the device's own is counted is DEDUCED (log
entry 75), as is that no epoch check holds back a FENCED notice (log entry 84). -/
theorem heartbeats : Obligations.Heartbeats := by
  unfold Obligations.Heartbeats
  refine ⟨?period, ?heard, ?stale, ?taken, ?passed, ?takenVc5⟩
  case period =>
    rintro f g s d rfl hm ha hf hg
    rw [exec_heartbeatPeriod, Dev.heartbeatPeriod_member hm ha hf hg]
  case heard =>
    rintro _ src epoch word l g s d f rfl rfl rfl h0 hc ht hg h1 h16 ho hy he
    rw [exec_heartbeat_chain, Dev.chainIn_intact _ h0 hc ht, ← hg, Dev.heartbeatIn_heard h1 h16 ho hy he]
  case stale =>
    rintro _ src epoch word h f s d rfl rfl h0 hf h1 h16 ho hy hd he hne hl hn
    rw [exec_heartbeat_vc5 h src epoch word h0, ← hf, Dev.heartbeatIn_stale h1 h16 ho hy hd he hne hl hn]
  case taken =>
    rintro _ src dst notice l s d f rfl rfl rfl h0 hc ht rfl
    rw [exec_fenced_chain, Dev.chainIn_intact _ h0 hc ht, if_pos rfl]
  case passed =>
    rintro _ src dst notice l s d f rfl hf rfl h0 hc ht hd hb he hh
    rw [exec_fenced_passes hf h0 hc ht hd, Dev.passFrame_on (.inr (.inl (by rw [hf]; exact hb))) (by rw [hf]; exact he)
      (by rw [hf]; exact hh)]
  case takenVc5 =>
    rintro _ src dst notice h s d rfl rfl h0
    exact exec_fenced_vc5 h src dst notice h0

end Sys2Proof.Machine
end

section
/-! SUPPORT. What the responder answers to a tag that is in use or whose reply it keeps, what the cache holds after a reply, and the
statement on repeated tags (O51). -/
namespace Sys2Proof.Machine
open Sys2Proof

/-! ### A tag that is in use (R421) -/

section
variable {s : State} {h : SilekHdr} {i : CmdInfo} {body : State → State × Result} {e : Nat}
variable (hq : h.requester = .fm e) (hr : s.dev.silek.releasing = none) (hm : 1 < s.dev.mode) (hb : h.broadcast = false)
variable (he : h.epoch = 0 ∨ h.epoch = s.dev.epoch) (hv : i.opcode = 0x101 ∨ h.major = 2) (hn : i.minMinor ≤ i.minorOf h)
include hq hr hm hb he hv hn

/-- A command whose requester has the same one running or held under its tag is in progress. -/
theorem runSilek_fm_repeated (hl : s.dev.lookupTag s.time.now h i = .repeatRunning) :
    runSilek h i body s = .next (s.answer (.fm e) i.opcode h.tag (i.minorOf h) h.src 3 .inProgress []) := by
  have hver : ¬ (i.opcode ≠ 0x101 ∧ h.major ≠ 2) := fun ⟨ho, hj⟩ => hv.elim ho hj
  have hmin : ¬ (if i.opcode = 0x101 then 3 else min h.minor 3) < i.minMinor := Nat.not_lt.mpr hn
  simp only [runSilek, Nat.not_le.mpr hm, hb, Dev.checkEpoch_fm hq hr he, if_neg hver, if_neg hmin, hl, hq, if_false,
    Bool.false_eq_true, false_and, CmdInfo.minorOf]

/-- A command whose requester has another one running or held under its tag is refused. -/
theorem runSilek_fm_clash (hl : s.dev.lookupTag s.time.now h i = .clash) :
    runSilek h i body s = .next (s.answer (.fm e) i.opcode h.tag (i.minorOf h) h.src 1 .badParam []) := by
  have hver : ¬ (i.opcode ≠ 0x101 ∧ h.major ≠ 2) := fun ⟨ho, hj⟩ => hv.elim ho hj
  have hmin : ¬ (if i.opcode = 0x101 then 3 else min h.minor 3) < i.minMinor := Nat.not_lt.mpr hn
  simp only [runSilek, Nat.not_le.mpr hm, hb, Dev.checkEpoch_fm hq hr he, if_neg hver, if_neg hmin, hl, hq, if_false,
    Bool.false_eq_true, false_and, CmdInfo.minorOf]

/-- A command whose reply is kept has that reply sent again. -/
theorem runSilek_fm_cached {x : CachedReply} (hl : s.dev.lookupTag s.time.now h i = .cached x) :
    runSilek h i body s = .next (s.answer (.fm e) x.opcode h.tag x.minor h.src 1 x.status x.payload) := by
  have hver : ¬ (i.opcode ≠ 0x101 ∧ h.major ≠ 2) := fun ⟨ho, hj⟩ => hv.elim ho hj
  have hmin : ¬ (if i.opcode = 0x101 then 3 else min h.minor 3) < i.minMinor := Nat.not_lt.mpr hn
  simp only [runSilek, Nat.not_le.mpr hm, hb, Dev.checkEpoch_fm hq hr he, if_neg hver, if_neg hmin, hl, hq, if_false,
    Bool.false_eq_true, false_and]
end

/-- What the lookup finds under a running command's tag. -/
theorem Dev.lookupTag_running {d : Dev} {t : Nat} {h : SilekHdr} {i : CmdInfo} {r : Running}
    (hx : (d.runningOf h.requester).find? (fun x => x.tag = h.tag) = some r) :
    d.lookupTag t h i = if r.cmd = i.key then .repeatRunning else .clash := by simp only [Dev.lookupTag, hx]

/-- What the lookup finds under a held command's tag. -/
theorem Dev.lookupTag_held {d : Dev} {t : Nat} {h : SilekHdr} {i : CmdInfo} {x : HeldCommand}
    (hr : (d.runningOf h.requester).find? (fun x => x.tag = h.tag) = none)
    (hx : d.silek.held.find? (fun x => x.req = h.requester ∧ x.tag = h.tag) = some x) :
    d.lookupTag t h i = if x.cmd = i.key then .repeatRunning else .clash := by simp only [Dev.lookupTag, hr, hx]

/-- What the lookup finds under the tag of a reply of the last 10 s. -/
theorem Dev.lookupTag_cached {d : Dev} {t : Nat} {h : SilekHdr} {i : CmdInfo} {x : CachedReply}
    (hr : (d.runningOf h.requester).find? (fun x => x.tag = h.tag) = none)
    (hh : d.silek.held.find? (fun x => x.req = h.requester ∧ x.tag = h.tag) = none)
    (hx : d.silek.cache.find? (fun x => x.req = h.requester ∧ x.tag = h.tag) = some x) (hc : x.cmd = i.key)
    (ht : t ≤ x.time + 10000000000) : d.lookupTag t h i = .cached x := by
  simp only [Dev.lookupTag, hr, hh, hx, hc, ht, and_self, if_true]

/-- The operating minor version of a command is that of its own tables (R412). -/
theorem CmdInfo.Of.minorOf {i : CmdInfo} {c : Instr} (hi : i.Of c) (h : SilekHdr) :
    i.minorOf h = (CmdInfo.of c.opcode c.minMinor c.keyed).minorOf h := by
  rw [CmdInfo.minorOf, hi.1]
  rfl

/-! ### The cache (R421) -/

/-- The replies to other requesters, or of FM API commands, stay. -/
def cacheOthers (c : List CachedReply) (r : CachedReply) : List CachedReply :=
  c.filter (fun x => x.req ≠ r.req ∨ 65536 ≤ x.tag)
/-- The latest 31 replies to the requester under other tags stay. -/
def cacheLatest (c : List CachedReply) (r : CachedReply) : List CachedReply :=
  let mine := c.filter (fun x => x.req = r.req ∧ x.tag ≠ r.tag ∧ x.tag < 65536)
  mine.drop (mine.length - 31)

theorem cacheInsert_silek {r : CachedReply} (ht : r.tag < 65536) (c : List CachedReply) :
    cacheInsert c r = cacheOthers c r ++ cacheLatest c r ++ [r] := if_neg (Nat.not_le.mpr ht)

theorem of_mem_cacheOthers {c : List CachedReply} {r x : CachedReply} (hx : x ∈ cacheOthers c r) : x.req ≠ r.req ∨ 65536 ≤ x.tag :=
  of_decide_eq_true (List.mem_filter.mp hx).2
theorem tag_ne_of_mem_cacheLatest {c : List CachedReply} {r x : CachedReply} (hx : x ∈ cacheLatest c r) : x.tag ≠ r.tag :=
  (of_decide_eq_true (List.mem_filter.mp (List.mem_of_mem_drop hx)).2).2.1
theorem length_cacheLatest_le (c : List CachedReply) (r : CachedReply) : (cacheLatest c r).length ≤ 31 := by
  simp only [cacheLatest, List.length_drop]
  omega

/-- A reply that was just put in is found under its tag. -/
theorem find?_cacheInsert {r : CachedReply} (ht : r.tag < 65536) (c : List CachedReply) :
    (cacheInsert c r).find? (fun x => x.req = r.req ∧ x.tag = r.tag) = some r := by
  have ho : (cacheOthers c r).find? (fun x => x.req = r.req ∧ x.tag = r.tag) = none := by
    refine List.find?_eq_none.mpr fun x hx hf => ?_
    obtain ⟨hq, hg⟩ := of_decide_eq_true hf
    rcases of_mem_cacheOthers hx with hn | hn
    · exact hn hq
    · omega
  have hl : (cacheLatest c r).find? (fun x => x.req = r.req ∧ x.tag = r.tag) = none :=
    List.find?_eq_none.mpr fun x hx hf => tag_ne_of_mem_cacheLatest hx (of_decide_eq_true hf).2
  rw [cacheInsert_silek ht, List.find?_append, List.find?_append, ho, hl]
  simp

/-- The cache holds at most 32 replies to the requester. -/
theorem length_filter_cacheInsert_le {r : CachedReply} (ht : r.tag < 65536) (c : List CachedReply) :
    ((cacheInsert c r).filter (fun x => x.req = r.req ∧ x.tag < 65536)).length ≤ 32 := by
  have ho : (cacheOthers c r).filter (fun x => x.req = r.req ∧ x.tag < 65536) = [] := by
    refine List.filter_eq_nil_iff.mpr fun x hx hf => ?_
    obtain ⟨hq, hg⟩ := of_decide_eq_true hf
    rcases of_mem_cacheOthers hx with hn | hn
    · exact hn hq
    · omega
  have hl := (List.length_filter_le (fun x : CachedReply => decide (x.req = r.req ∧ x.tag < 65536)) (cacheLatest c r)).trans
    (length_cacheLatest_le c r)
  have h1 := List.length_filter_le (fun x : CachedReply => decide (x.req = r.req ∧ x.tag < 65536)) [r]
  rw [cacheInsert_silek ht, List.filter_append, List.filter_append, ho, List.nil_append, List.length_append]
  simp only [List.length_singleton] at h1
  omega

/-- A final reply to a fabric manager is put into the cache. -/
theorem State.answered_cache {s : State} {h : SilekHdr} {e : Nat} (hq : h.requester = .fm e) (hr : s.dev.silek.releasing = none)
    (i : CmdInfo) (st : Status) (p : List Byte) :
    (s.answered h i st p).dev.silek.cache = cacheInsert s.dev.silek.cache {
      req := h.requester, tag := h.tag, cmd := i.key, opcode := i.opcode, minor := i.minorOf h, src := h.src, status := st
      payload := p, time := s.time.now } := by
  simp only [State.answered, State.finalReply, hr, reduceCtorEq, if_false, State.directReply, hq, State.answer_fm]
  rfl

/-! ### The statement -/

/-- Settles O51: a command that passes the checks before it is looked up under its tag, and what the lookup finds is the answer. -/
theorem repeatedTags : Obligations.RepeatedTags := by
  unfold Obligations.RepeatedTags
  refine ⟨?running, ?clash, ?held, ?cached, ?found, ?bounded⟩
  case running =>
    intro c h s e r hc hs hd hq hr hm hb he hv hn hx hk
    obtain ⟨i, body, hf, hof⟩ := silekForm_of_header hc
    have hmin := hof.minorOf h
    obtain ⟨ho, hi, hkey⟩ := hof
    rw [← hmin, ← ho]
    rw [← hmin, ← hi] at hn
    rw [← ho] at hv
    exact hf.exec_still (runSilek_fm_repeated hq hr hm hb he hv hn ((Dev.lookupTag_running hx).trans (if_pos (hk.trans hkey.symm))))
      hs hd
  case clash =>
    intro c h s e r hc hs hd hq hr hm hb he hv hn hx hk
    obtain ⟨i, body, hf, hof⟩ := silekForm_of_header hc
    have hmin := hof.minorOf h
    obtain ⟨ho, hi, hkey⟩ := hof
    rw [← hmin, ← ho]
    rw [← hmin, ← hi] at hn
    rw [← ho] at hv
    exact hf.exec_still (runSilek_fm_clash hq hr hm hb he hv hn
      ((Dev.lookupTag_running hx).trans (if_neg fun hg => hk (hg.trans hkey)))) hs hd
  case held =>
    intro c h s e r hc hs hd hq hr hm hb he hv hn hx hy
    obtain ⟨i, body, hf, hof⟩ := silekForm_of_header hc
    have hmin := hof.minorOf h
    obtain ⟨ho, hi, hkey⟩ := hof
    rw [← hmin, ← ho]
    rw [← hmin, ← hi] at hn
    rw [← ho] at hv
    by_cases hk : r.cmd = c.keyed
    · rw [if_pos hk, if_pos hk]
      exact hf.exec_still (runSilek_fm_repeated hq hr hm hb he hv hn
        ((Dev.lookupTag_held hx hy).trans (if_pos (hk.trans hkey.symm)))) hs hd
    · rw [if_neg hk, if_neg hk]
      exact hf.exec_still (runSilek_fm_clash hq hr hm hb he hv hn
        ((Dev.lookupTag_held hx hy).trans (if_neg fun hg => hk (hg.trans hkey)))) hs hd
  case cached =>
    intro c h s e r hc hs hd hq hr hm hb he hv hn hx hy hz hk ht
    obtain ⟨i, body, hf, hof⟩ := silekForm_of_header hc
    have hmin := hof.minorOf h
    obtain ⟨ho, hi, hkey⟩ := hof
    rw [← hmin, ← hi] at hn
    rw [← ho] at hv
    exact hf.exec_still (runSilek_fm_cached hq hr hm hb he hv hn (Dev.lookupTag_cached hx hy hz (hk.trans hkey.symm) ht)) hs hd
  case found =>
    intro h i st p s e hq hr ht
    rw [State.answered_cache hq hr]
    exact find?_cacheInsert (r := { req := h.requester, tag := h.tag, .. }) ht _
  case bounded =>
    intro h i st p s e hq hr ht
    rw [State.answered_cache hq hr]
    exact length_filter_cacheInsert_le (r := { req := h.requester, tag := h.tag, .. }) ht _

end Sys2Proof.Machine
end

section
/-! SUPPORT. What a write of a word of a mailbox buffer stores, what a final reply leaves in the mailbox, and the statement on the mailbox
memory (O52). -/
namespace Sys2Proof.Machine
open Sys2Proof

/-! ### A word written into a mailbox buffer (R417) -/

/-- The four bytes of a word, low byte first, stored one by one. -/
theorem Memory.foldl_write_word (m : Memory) (a v : Nat) :
    (List.range 4).foldl (fun (x : Memory) k => Memory.write x (a + k) (BitVec.ofNat 8 (v / 2 ^ (8 * k)))) m
      = Memory.writeBytes m a (leBytes 4 v) := by
  simp [List.range, List.range.loop, leBytes, Memory.writeBytes, Nat.div_div_eq_div_mul, Nat.add_assoc]

/-- A whole word written into the buffer of an idle mailbox. -/
theorem State.writeBuffer_idle {s : State} {mb : Nat} (o v : Nat) (h : s.dev.flag (Mbx.BUSY mb) = false) :
    s.writeBuffer mb o 15 v = { s with mem := Memory.writeBytes s.mem (Mailbox.cell mb o) (leBytes 4 v) } := by
  rw [State.writeBuffer, if_neg (by simp [h]), ← Memory.foldl_write_word]
  rfl

/-- A write into the buffer of a busy mailbox is ignored and counted. -/
theorem State.writeBuffer_busy {s : State} {mb : Nat} (o m v : Nat) (h : s.dev.flag (Mbx.BUSY mb) = true) :
    s.writeBuffer mb o m v = s.withDev (s.dev.inc (Mbx.WRITES_IGNORED mb)) := if_pos h

/-- No buffer lies among the words that stand for one bit (R439, R446). -/
theorem bufferAt_alias {off : Nat} (h0 : 0x2000000 ≤ off) (h1 : off < 0x4000000) : bufferAt off = none :=
  bufferAt_outside (by omega) h1

/-- A word write in a mailbox buffer is one of that buffer. -/
theorem State.writeAccess_buffer {ring : Nat → State → State} {path : AccessPath} {off v mb o : Nat} {s : State} (ho : off % 4 = 0)
    (hb : bufferAt off = some (mb, o)) : s.writeAccess ring path off 4 v = s.writeBuffer mb o 15 (v % 2 ^ 32) := by
  have hn : ¬ (0x2000000 ≤ off ∧ off < 0x4000000) := fun ⟨h0, h1⟩ => by simp [bufferAt_alias h0 h1] at hb
  simp [State.writeAccess, okAccess_word ho, if_neg hn, word_of_aligned ho, State.writeWord, hb]

theorem exec_registerWrite (path : AccessPath) (off size : Nat) (v : BitVec 64) (s : State) :
    exec (.registerWrite path off size v) s = s.writePath path off size v.toNat := rfl

/-- A write over an open path that leaves no doorbell to take is made, and what it sets off is done. -/
theorem State.writePath_open {path : AccessPath} {off size v : Nat} {s u : State} (h : s.dev.pathOpen path = true)
    (hu : u = s.settledFrom (s.writeAccess State.ringMark path off size v)) (hr : u.dev.ringFree (mailboxAt off) = false) :
    s.writePath path off size v = .next u := by
  subst hu
  rw [State.writePath, if_neg (not_not_intro h)]
  exact if_neg (ne_true_of_eq_false hr)

/-- Bytes stored on a calm device set nothing else off. -/
theorem State.settledFrom_stored {x s : State} (m : Memory) (h : s.dev.calm = true) :
    x.settledFrom { s with mem := m } = { s with mem := m } := State.settledFrom_calm (s := { s with mem := m }) h

/-! ### The reply a mailbox takes -/

/-- A final reply to a mailbox requester stands in the mailbox and in the cache. -/
theorem State.answered_mailbox {h : SilekHdr} {mb : Nat} {s : State} (i : CmdInfo) (st : Status) (p : List Byte)
    (hm : h.requester.mailbox = some mb) (hr : s.dev.silek.releasing = none) :
    ∃ u c, u = s.mailReply mb (silekMessage s.dev i.opcode (i.minorOf h) 1 st.code h.tag h.src s.dev.epoch p) ∧
      s.answered h i st p = { u with dev := { u.dev with silek := c } } := by
  have hn : ¬ s.dev.silek.releasing = some true := by simp [hr]
  rw [State.answered, State.finalReply, if_neg hn, State.directReply]
  simp only [State.answer, hm]
  exact ⟨_, _, rfl, rfl⟩

/-- Without REPLY_IRQ_EN a mailbox that takes a reply clears BUSY and sets REPLY_READY, no more. -/
theorem State.mailReply_silent {s : State} {mb : Nat} (bs : List Byte) (h : s.dev.flag (Mbx.REPLY_IRQ_EN mb) = false) :
    (s.mailReply mb bs).dev = (s.dev.wr (Mbx.BUSY mb) 0).wr (Mbx.REPLY_READY mb) 1 := by
  have hk : (((s.dev.wrFlag (Mbx.BUSY mb) false).raise1 (Mbx.REPLY_READY mb)).flag (Mbx.REPLY_IRQ_EN mb)) = false := by
    rw [← h, Dev.flag, Dev.flag, Dev.raise1, Dev.wrFlag, Dev.rd_wr_other _ _ (by simp only [Mbx.REPLY_IRQ_EN, Mbx.REPLY_READY]; omega),
      Dev.rd_wr_other _ _ (by simp only [Mbx.REPLY_IRQ_EN, Mbx.BUSY]; omega)]
  simp only [State.mailReply, hk]
  rfl

/-- Settles O52. That BUSY and REPLY_READY are fields of the mailbox's own registers and that the buffer's cells are those of
`Mailbox.cell` is how the model lays out R417. -/
theorem mailboxMemory : Obligations.MailboxMemory := by
  unfold Obligations.MailboxMemory
  refine ⟨?stored, ?ignored, ?reply, ?flags⟩
  case stored =>
    intro path off value mb o s hp hc hb ho hi hr
    have hw : s.writeAccess State.ringMark path off 4 value.toNat
        = { s with mem := Memory.writeBytes s.mem (Mailbox.cell mb o) (leBytes 4 value.toNat) } := by
      rw [State.writeAccess_buffer ho hb, State.writeBuffer_idle _ _ hi, leBytes_mod 4]
    refine ⟨{ s with mem := Memory.writeBytes s.mem (Mailbox.cell mb o) (leBytes 4 value.toNat) }, State.writePath_open hp ?_ hr, rfl,
      Memory.readBytes_writeBytes s.mem _ (leBytes 4 value.toNat), fun a ha => Memory.read_writeBytes_other s.mem (leBytes 4 value.toNat) ha⟩
    rw [hw]
    exact (State.settledFrom_stored _ hc).symm
  case ignored =>
    rintro path off value mb o s e hp hb ho hi rfl hc hr
    refine State.writePath_open hp ?_ hr
    rw [State.writeAccess_buffer ho hb, State.writeBuffer_busy _ _ _ hi]
    exact (State.settledFrom_calm hc).symm
  case reply =>
    rintro h i st p s mb t bs hm hr rfl rfl
    obtain ⟨u, c, rfl, hc⟩ := State.answered_mailbox i st p hm hr
    rw [hc]
    exact ⟨Memory.readBytes_writeBytes .., fun a ha => Memory.read_writeBytes_other _ _ ha⟩
  case flags =>
    rintro h i st p s mb t hm hr rfl hn
    obtain ⟨u, c, hu, hc⟩ := State.answered_mailbox i st p hm hr
    have hd : u.dev = (s.dev.wr (Mbx.BUSY mb) 0).wr (Mbx.REPLY_READY mb) 1 := hu ▸ State.mailReply_silent _ hn
    have hk : (Mbx.BUSY mb).key ≠ (Mbx.REPLY_READY mb).key := by simp [Mbx.BUSY, Mbx.REPLY_READY]
    rw [hc, hd]
    refine ⟨?_, ?_, fun f hf => ?_, rfl, rfl⟩
    · exact decide_eq_false (not_not_intro ((Dev.rd_wr_other (s.dev.wr (Mbx.BUSY mb) 0) 1 hk).trans (Dev.rd_wr ..)))
    · exact decide_eq_true (ne_of_eq_of_ne (Dev.rd_wr (s.dev.wr (Mbx.BUSY mb) 0) (Mbx.REPLY_READY mb) 1) (by simp [Mbx.REPLY_READY]))
    · simp only [List.mem_cons, List.not_mem_nil, or_false, not_or] at hf
      exact (Dev.rd_wr_other (s.dev.wr (Mbx.BUSY mb) 0) 1 hf.2).trans (Dev.rd_wr_other _ _ hf.1)

end Sys2Proof.Machine
end

section
/-! SUPPORT. The registers by command and the statement on them (O21). -/
namespace Sys2Proof.Machine
open Sys2Proof

/-- Below the BAR0 spaces of the VIs every DOORBELL is the management mailbox's (R417). -/
theorem mailboxAt_below {off : Nat} (h : off < instBase) : mailboxAt off = 64 := if_pos h

/-- Page 0x0A from 0x100 on is the management mailbox's buffer (R417). -/
theorem bufferAt_management {off : Nat} (h0 : 0xa100 ≤ off) (h1 : off < 0xb000) : bufferAt off = some (64, off - 0xa000) :=
  if_pos ⟨h0, h1⟩

/-- An aligned write of a word that stands for one bit writes that bit (R446). -/
theorem State.writeAccess_alias {ring : Nat → State → State} {path : AccessPath} {off v : Nat} {s : State} (ho : off % 4 = 0)
    (h0 : 0x2000000 ≤ off) (h1 : off < 0x4000000) :
    s.writeAccess ring path off 4 v = s.aliasWrite ring path (aliasOf off).1 (aliasOf off).2 (v % 2) := by
  simp [State.writeAccess, okAccess_word ho, h0, h1]

theorem exec_regRead (h : SilekHdr) (off count : Nat) (s : State) : exec (.regRead h off count) s =
    runSettled h (.of 0x801 0 (.regRead h.key off count)) (fun s =>
      if ¬ h.padOk ∨ count < 1 ∨ 256 < count ∨ off % 4 ≠ 0 ∨ instBase < off + 4 * count then (s, .err .badParam)
      else ((State.regWords count off s).2, .final .ok (State.regWords count off s).1)) s := rfl

theorem exec_regWrite (h : SilekHdr) (off value : Nat) (s : State) : exec (.regWrite h off value) s =
    thenRing 64 (runSettled h (.of 0x802 0 (.regWrite h.key off value)) (fun s =>
      if off % 4 ≠ 0 ∨ instBase ≤ off ∨ 2 ^ 32 ≤ value ∨ s.dev.badRoute off (2 ^ 32 - 1) value then (s, .err .badParam)
      else (s.writeAccess State.ringMark .reg off 4 value, .final .ok [])) s) := rfl

/-- A command that leaves the management mailbox no message to take ends with its own effect. -/
theorem thenRing_idle {mb : Nat} {u : State} (h : u.dev.ringFree mb = false) : thenRing mb (.next u) = .next u :=
  if_neg (ne_true_of_eq_false h)

theorem exec_dirRead (h : SilekHdr) (slice set : Nat) (s : State) : exec (.dirRead h slice set) s =
    runSilek h (.of 0x820 0 (.dirRead h.key slice set)) (queryBody fun s => s.dev.dirRead slice set) s := rfl

theorem exec_securityStatus (h : SilekHdr) (s : State) : exec (.securityStatus h) s =
    runSilek h (.of 0x720 0 (.securityStatus h.key))
      (queryBody fun s => .final .ok ((List.range 8).map (fun w => leBytes 4 (s.plainWord (0xc000 + 4 * w)))).flatten) s := rfl

/-- A slice number below 32 names a set of that slice of the directory (R535). -/
theorem Dev.dirRead_slice {d : Dev} {slice set : Nat} (h : slice ≤ 31) (hs : set ≤ 4095) :
    d.dirRead slice set = .final .ok (d.dirWays slice set) := by
  rw [Dev.dirRead, if_pos (by omega), if_neg (by omega)]

/-- Settles O21: each row at the case that its hypotheses single out; a doorbell that the write sets is O22's. -/
theorem registerCommands : Obligations.RegisterCommands := by
  unfold Obligations.RegisterCommands
  refine ⟨?status, ?read, ?write, ?dir, ?buffer, ?aliasBit⟩
  case status =>
    rintro h s d i rfl rfl ha
    rw [exec_securityStatus]
    exact runSilek_query ha rfl
  case read =>
    rintro h off count s u i rfl ha h1 h256 ho hb rfl
    rw [exec_regRead]
    refine runSettled_state ha (if_neg ?_)
    simp only [State.padOk_of_admits ha, not_true_eq_false, instBase, false_or]
    omega
  case write =>
    rintro h off value s u i rfl ha ho hb hv hr rfl hf
    have hn : ¬ (off % 4 ≠ 0 ∨ instBase ≤ off ∨ 2 ^ 32 ≤ value ∨ s.begun.dev.badRoute off (2 ^ 32 - 1) value = true) := by
      simp only [hr, instBase, Bool.false_eq_true, or_false]
      omega
    rw [exec_regWrite, runSettled_state ha (if_neg hn), thenRing_idle hf]
  case dir =>
    rintro h slice set s d i rfl rfl ha hsl hse
    rw [exec_dirRead]
    exact runSilek_query ha (Dev.dirRead_slice hsl hse)
  case buffer =>
    rintro path off _ value s u hp h0 h1 ho rfl hi hc hr rfl
    rw [Memory.foldl_write_word, exec_registerWrite]
    refine State.writePath_open hp ?_ ?_
    · rw [State.writeAccess_buffer ho (bufferAt_management h0 h1), State.writeBuffer_idle _ _ hi]
    · rw [mailboxAt_below (by rw [instBase]; omega), State.settledFrom_stored _ hc]
      exact hr
  case aliasBit =>
    rintro path off _ _ value s u hp h0 h1 ho rfl rfl rfl hr
    refine State.writePath_open hp ?_ ?_
    · rw [State.writeAccess_alias ho h0 h1]
    · rw [mailboxAt_below h1]
      exact hr

end Sys2Proof.Machine
end

section
/-! SUPPORT. The commands of group 0x01xx and the statement on them (O1). -/
namespace Sys2Proof.Machine
open Sys2Proof

theorem exec_silekVersion (h : SilekHdr) (s : State) : exec (.silekVersion h) s =
    runSilek h (.of 0x101 0 (.silekVersion h.key)) (queryBody fun _ => .final .ok versionPayload) s := rfl

theorem exec_deviceInfo (h : SilekHdr) (s : State) : exec (.deviceInfo h) s =
    runSilek h (.of 0x102 0 (.deviceInfo h.key)) (queryBody fun s => .final .ok s.dev.deviceInfo) s := rfl

theorem exec_portStatusQuery (h : SilekHdr) (first count : Nat) (s : State) : exec (.portStatusQuery h first count) s =
    runSilek h (.of 0x103 0 (.portStatusQuery h.key first count)) (queryBody fun s => s.portStatuses first count) s := rfl

theorem exec_commandSupport (h : SilekHdr) (group : Nat) (s : State) : exec (.commandSupport h group) s =
    runSilek h (.of 0x104 0 (.commandSupport h.key group)) (queryBody fun _ => if group < 1 ∨ 10 < group then .err .badParam
      else .final .ok (leBytes 32 (supportMap group (min h.minor 3)))) s := rfl

theorem exec_eventRead (h : SilekHdr) (first count ack : Nat) (s : State) : exec (.eventRead h first count ack) s =
    runSilek h (.of 0x105 0 (.eventRead h.key first count ack)) (devBody fun t d => d.eventRead t first count ack) s := rfl

theorem exec_eventSubscribe (h : SilekHdr) (cls eid : Nat) (s : State) : exec (.eventSubscribe h cls eid) s =
    runSilek h (.of 0x106 1 (.eventSubscribe h.key cls eid)) (devBody fun t d => d.eventSubscribe t cls eid) s := rfl

theorem exec_eventNotify (h : SilekHdr) (count : Nat) (records : List (BitVec 256)) (s : State) :
    exec (.eventNotify h count records) s =
      runSilek h (.of 0x107 1 (.eventNotify h.key count records)) (devBody fun t d => d.eventNotify t count records) s := rfl

theorem exec_eventNotifyPeriod (s : State) : exec .eventNotifyPeriod s = .next (s.withDev (s.dev.notifyPeriod s.time.now)) := rfl

/-- Up to 64 port status words are read (R430). -/
theorem State.portStatuses_within {s : State} {first count : Nat} (h1 : 1 ≤ count) (h : count ≤ 64) (hf : first + count ≤ 64) :
    s.portStatuses first count = .final .ok (((List.range count).map (fun k => leBytes 4 (s.portStatus (first + k)))).flatten) := by
  rw [State.portStatuses, if_neg (by omega)]

/-- EVENT_READ that acknowledges nothing leaves the queue. -/
theorem Dev.eventRead_keeps {t first count : Nat} {d : Dev} (h : count ≤ 64) : d.eventRead t first count 0 =
    (d.syncEventPending t, .final .ok (leBytes 2 ((d.events.queue.dropWhile (fun r => r.seq < first)).take count).length ++ zeros 2 ++
      (((d.events.queue.dropWhile (fun r => r.seq < first)).take count).map EventRec.bytes).flatten)) := by
  rw [Dev.eventRead, if_neg (Nat.not_lt.mpr h)]
  rfl

/-- A device that is neither worker nor mirror takes a subscription of a class there is (R429). -/
theorem Dev.eventSubscribe_taken {t cls eid : Nat} {d : Dev} (h6 : d.mode ≠ 6) (h7 : d.mode ≠ 7) (hc : cls ≤ 2) :
    d.eventSubscribe t cls eid =
      (({ d with
        events := { d.events with cls := cls, eid := eid, notified := [] }
        silek := { d.silek with sent := d.silek.sent.filter (fun c => c.opcode ≠ 0x107) } }).syncEventPending t,
        .final .ok []) := by
  rw [Dev.eventSubscribe, if_neg (not_or.mpr ⟨h6, h7⟩), if_neg (Nat.not_lt.mpr hc)]

/-- A batch of 1 to 16 records, as many as it says, joins the queue (R429). -/
theorem Dev.eventNotify_batch {t count : Nat} {records : List (BitVec 256)} {d : Dev} (h1 : 1 ≤ count) (h : count ≤ 16)
    (hl : records.length = count) : d.eventNotify t count records =
      (records.foldl (fun (d : Dev) r => if (EventRec.ofBits r).code = 3 then
        (d.queueEvent t (EventRec.ofBits r)).noticeRelease t (EventRec.ofBits r).source (EventRec.ofBits r).data
        else d.queueEvent t (EventRec.ofBits r)) d, .final .ok []) := by
  rw [Dev.eventNotify, if_neg (by omega)]

/-- The records of a device with an MCTP subscriber go to it (R429). -/
theorem Dev.eventTarget_subscriber {d : Dev} (hm : 2 ≤ d.mode) (h6 : d.mode ≠ 6) (h7 : d.mode ≠ 7) (hc : d.events.cls = 1) :
    d.eventTarget = some (256 + d.events.eid) := by
  rw [Dev.eventTarget, if_neg (not_or.mpr ⟨h6, h7⟩), if_neg (Nat.not_le.mpr hm), if_pos hc]

/-- An MCTP subscriber is sent the first 16 records. -/
theorem Dev.notifyPeriod_subscriber {t : Nat} {d : Dev} (ht : d.eventTarget = some (256 + d.events.eid)) (hq : d.events.queue ≠ []) :
    d.notifyPeriod t =
      ({ d with
        events := { d.events with notified := d.events.queue.take 16 }
        silek := { d.silek with sent := d.silek.sent.filter (fun c => c.opcode ≠ 0x107) } }).sendCommand
        t (256 + d.events.eid) 0x107 0
        (leBytes 2 (d.events.queue.take 16).length ++ ((d.events.queue.take 16).map EventRec.bytes).flatten) := by
  have hn : ¬ (d.events.queue = [] ∨ (256 + d.events.eid < 256 ∧ d.events.notified ≠ [])) := by
    rintro (hc | ⟨hl, -⟩)
    · exact hq hc
    · omega
  simp only [Dev.notifyPeriod, ht, if_neg hn]

/-- Settles O1: each row at the case that its hypotheses single out. What EVENT_NOTIFY does on the record of a release its host began is
DEDUCED (log entry 171). -/
theorem generalCommands : Obligations.GeneralCommands := by
  unfold Obligations.GeneralCommands
  refine ⟨?version, ?info, ?ports, ?support, ?read, ?subscribe, ?notify, ?period⟩
  case version =>
    rintro h s d i rfl rfl ha
    rw [exec_silekVersion]
    exact runSilek_query ha rfl
  case info =>
    rintro h s d i rfl rfl ha
    rw [exec_deviceInfo]
    exact runSilek_query ha rfl
  case ports =>
    rintro h first count s d i rfl rfl ha h1 h64 hf
    rw [exec_portStatusQuery]
    exact runSilek_query ha (State.portStatuses_within h1 h64 hf)
  case support =>
    rintro h group s d i rfl rfl ha h1 h10
    rw [exec_commandSupport]
    exact runSilek_query ha (if_neg (by omega))
  case read =>
    rintro h first count _ s d i rfl rfl ha hc rfl
    rw [exec_eventRead]
    exact runSilek_dev ha (Dev.eventRead_keeps hc)
  case subscribe =>
    rintro h cls eid s d i rfl rfl ha h6 h7 hc
    rw [exec_eventSubscribe]
    exact runSilek_dev ha (Dev.eventSubscribe_taken h6 h7 hc)
  case notify =>
    rintro h count records s d i rfl rfl ha h1 h16 hl
    rw [exec_eventNotify]
    exact runSilek_dev ha (Dev.eventNotify_batch h1 h16 hl)
  case period =>
    rintro s d rfl hm h6 h7 hc hq
    rw [exec_eventNotifyPeriod, Dev.notifyPeriod_subscriber (Dev.eventTarget_subscriber hm h6 h7 hc) hq]

end Sys2Proof.Machine
end

section
/-! SUPPORT. Doorbells, segments, resending and interim replies, and the statement on them (O22). -/
namespace Sys2Proof.Machine
open Sys2Proof

/-! ### The mailbox doorbell (R417) -/

theorem exec_doorbell (mb : Fin 65) (s : State) : exec (.doorbell mb) s = thenRing mb (.next (s.ringMark mb)) := rfl

/-- Once boot has begun, the DOORBELL of an idle mailbox is set. -/
theorem State.ringMark_idle {mb : Nat} {s : State} (hm : 2 ≤ s.dev.mode) (hb : s.dev.flag (Mbx.BUSY mb) = false) :
    s.ringMark mb = s.withDev (s.dev.raise1 (Mbx.DOORBELL mb)) := by
  rw [State.ringMark, if_neg (Nat.not_le.mpr hm), if_neg (ne_true_of_eq_false hb)]
  rfl

/-- A mailbox whose DOORBELL may be taken takes its message. -/
theorem thenRing_free {mb : Nat} {u : State} (h : u.dev.ringFree mb = true) : thenRing mb (.next u) = u.submit mb := if_pos h

/-- A message that is the whole of SILEK_VERSION is that command. -/
theorem runOpcode_silekVersion {h : SilekHdr} (s : State) (hp : h.payload = []) : runOpcode h 0x101 s = exec (.silekVersion h) s := by
  have hr : runOpcode h 0x101 s = exec (.silekVersion { h with padOk := h.padOk && payloadFits 0 h.payload && true }) s := rfl
  have hf : (h.padOk && payloadFits 0 h.payload && true) = h.padOk := by simp [hp, payloadFits]
  rw [hr, hf]

/-- A mailbox message without a payload, which is no reply, runs as the command its OPCODE names. -/
theorem State.submit_bare {mb : Nat} {s : State} {bs : List Byte} (hb : bs = Memory.readBytes s.mem (Mailbox.cell mb 0x100) 16)
    (hl : leNat (Memory.readBytes s.mem (Mailbox.cell mb 0x10a) 2) = 0) (hr : isReplyMessage bs = false) :
    s.submit mb = runOpcode (headerOf (if mb = 64 then .mgmt else .host mb) false false bs) (byteField bs 2 2)
      (s.withDev ((s.dev.wrFlag (Mbx.DOORBELL mb) false).raise1 (Mbx.BUSY mb))) := by
  subst hb
  simp only [State.submit, hl, Nat.min_zero, Nat.add_zero, hr, Bool.not_false, Bool.and_true]
  rfl

/-! ### Segments (R414, R415) -/

theorem exec_silekSegment (via : SegPath) (tag index last : Nat) (reply : Bool) (bytes : List Byte) (s : State) :
    exec (.silekSegment via tag index last reply bytes) s = execSilekSegment via tag index last reply bytes s := rfl

/-- A segment that its carrier holds is taken from the chain. -/
theorem execSilekSegment_chain {l : ChainLine} {tag index last src dst epoch : Nat} {reply : Bool} {bytes : List Byte} {s : State}
    (hf : segmentFits (.chain l src dst epoch) index last bytes = true) (h0 : s.dev.mode ≠ 0) :
    execSilekSegment (.chain l src dst epoch) tag index last reply bytes s = s.chainFrame l src dst epoch tag index last reply bytes := by
  rw [execSilekSegment, if_neg (not_not_intro hf), if_neg h0]

section
variable {l : ChainLine} {tag index last src dst epoch : Nat} {reply : Bool} {bytes : List Byte} {s : State} {f : ChainFrame}
variable (hf : f = chainFrameOf l dst src epoch (.silek (chainSegment index last tag reply bytes)))
include hf

/-- A damaged segment is dropped and counted. -/
theorem State.chainFrame_damaged (h0 : s.dev.mode ≠ 0) (hc : l.crc ≠ f.crc l.type.toNat) :
    s.chainFrame l src dst epoch tag index last reply bytes =
      .next (s.withDev { s.dev with memb := { s.dev.memb with crcDrops := s.dev.memb.crcDrops + 1 } }) := by
  subst hf
  simp only [State.chainFrame, Dev.chainIn_damaged _ h0 hc, hc, decide_false, Bool.false_and, Bool.false_eq_true, if_false]
  rfl

/-- A segment for another device goes on. -/
theorem State.chainFrame_passes (h0 : s.dev.mode ≠ 0) (hc : l.crc = f.crc l.type.toNat) (ht : l.type = 5) (hb : l.bcast = false)
    (hd : dst ≠ s.dev.chainAddr) :
    s.chainFrame l src dst epoch tag index last reply bytes = .next (s.withDev (s.dev.passFrame f)) := by
  subst hf
  simp only [State.chainFrame, Dev.chainIn_intact _ h0 hc (congrArg BitVec.toNat ht), hb, hd, decide_false, Bool.and_false,
    Bool.false_eq_true, if_false, ne_eq, not_false_eq_true, or_true, if_true]
  rfl

/-- A segment for this device is taken. -/
theorem State.chainFrame_taken (h0 : s.dev.mode ≠ 0) (hc : l.crc = f.crc l.type.toNat) (ht : l.type = 5) (hb : l.bcast = false)
    (hd : dst = s.dev.chainAddr) : s.chainFrame l src dst epoch tag index last reply bytes =
      s.segment src tag index last reply false false (decide (bytes.length = 1020)) bytes := by
  subst hf
  have ht5 : l.type.toNat = 5 := by rw [ht]; rfl
  subst hd
  simp only [State.chainFrame, Dev.chainIn_intact _ h0 hc ht5]
  simp only [decide_eq_true hc, decide_eq_true ht5, hb, ne_eq, not_true_eq_false, or_self, decide_true, Bool.and_self, Bool.false_eq_true,
    if_false, if_true]
end

/-- The first of several segments of a source that has no other message underway. -/
theorem takeSegment_first {src tag last : Nat} {reply vc5 : Bool} {bytes : List Byte} (hl : 1 ≤ last) :
    takeSegment [] src tag reply vc5 0 last true bytes =
      ([{ src := src, tag := tag, reply := reply, vc5 := vc5, next := 1, last := last, bytes := bytes }], 0, none) := by
  have hn : ¬ 0 = last := by omega
  simp [takeSegment, hn]

/-- The first of several full segments is kept. -/
theorem State.segment_first {src tag last : Nat} {reply broadcast : Bool} {bytes : List Byte} {s : State}
    (hl : 1 ≤ last) (hp : s.dev.silek.partials = []) : s.segment src tag 0 last reply false broadcast true bytes =
      .next (s.withDev { s.dev with silek := { s.dev.silek with
        partials := [{ src := src, tag := tag, reply := reply, vc5 := false, next := 1, last := last, bytes := bytes }] } }) := by
  simp only [State.segment, hp, takeSegment_first hl]
  rfl

theorem exec_segmentTimeout (src : Nat) (vc5 : Bool) (s : State) : exec (.segmentTimeout src vc5) s =
    .next (s.withDev { s.dev with silek := { s.dev.silek with
      partials := s.dev.silek.partials.filter (fun p => decide ¬ (p.src = src ∧ p.vc5 = vc5))
      segmentDrops := s.dev.silek.segmentDrops +
        (s.dev.silek.partials.filter (fun p => decide (p.src = src ∧ p.vc5 = vc5))).length } }) := rfl

/-! ### Resending, the acknowledgement of a segment, the interim reply (R413, R422, R426) -/

theorem exec_silekResend (id : Nat) (s : State) :
    exec (.silekResend id) s = .next (s.settledFrom (s.withDev (s.dev.resend s.time.now id))) := rfl

/-- A command to a member that was sent again less than three times goes out again. -/
theorem Dev.resend_again {t : Nat} {c : SentCommand} {d : Dev} (hs : d.silek.sent = [c]) (ho : c.opcode ≠ 0x506) (hd : c.dst < 256)
    (hr : c.resends < 3) : d.resend t c.id =
      Dev.sendOne t c { d with silek := { d.silek with sent := [{ c with resends := c.resends + 1, time := t }] } } := by
  have h1 : ¬ (c.opcode = 0x506 ∨ 256 ≤ c.dst) := fun h => h.elim ho (Nat.not_le.mpr hd)
  have h2 : ¬ (3 ≤ c.resends ∧ c.opcode ≠ 0x503) := fun ⟨h, _⟩ => Nat.not_le.mpr hr h
  simp [Dev.resend, hs, h1, h2]

theorem exec_silekSegAck_matched {q : QflHdr} {o : Outst} {s : State} (hm : (s.dev.matchResponse s.time.now 5 3 q).2 = some o) :
    exec (.silekSegAck q) s = .next (s.settledFrom (s.withDev ((s.dev.matchResponse s.time.now 5 3 q).1.closeOutst o {}))) := by
  show execSilekSegAck q s = _
  rcases hx : s.dev.matchResponse s.time.now 5 3 q with ⟨e, x⟩
  rw [hx] at hm
  obtain rfl : x = some o := hm
  simp only [execSilekSegAck, onSettled, onDev, hx]
  rfl

/-- A command that still runs after 1 ms, of a requester that is no mailbox, sends its interim reply. -/
theorem exec_interimReply_running {req : Requester} {s : State} {r : Running} (hr : s.dev.runningOf req = [r]) (hi : r.interim = false)
    (ht : r.tag < 65536) (hm : req.mailbox = none) : exec (.interimReply req r.tag) s =
      .next (({ s with dev := { s.dev with silek := { s.dev.silek with
        running := s.dev.silek.running.map (fun x => if x = r then { r with interim := true } else x) } } }).answer
        req r.opcode r.tag r.minor r.src 3 .inProgress []) := by
  have hn : ¬ (r.interim = true ∨ 65536 ≤ r.tag) := fun h => h.elim (ne_true_of_eq_false hi) (Nat.not_le.mpr ht)
  show execInterimReply req r.tag s = _
  simp [execInterimReply, hr, if_neg hn, hm]

/-- Settles O22. The fault of a segment that no carrier holds is the model's own stop, no state of the device; what a source's partial
messages are dropped for is DEDUCED (log entry 136). -/
theorem messageEvents : Obligations.MessageEvents := by
  unfold Obligations.MessageEvents
  refine ⟨?bell, ?passed, ?damaged, ?first, ?illFormed, ?timeout, ?resent, ?acked, ?interim⟩
  case bell =>
    rintro mb bs s u h i hbs hm hb hr hl hn ho rfl hh rfl ha
    have hp : h.payload = [] := by
      rw [hh, hbs]
      rfl
    rw [exec_doorbell, State.ringMark_idle hm hb, thenRing_free hr,
      State.submit_bare (s := s.withDev (s.dev.raise1 (Mbx.DOORBELL mb))) hbs hl hn, ho, ← hh, State.withDev_withDev,
      runOpcode_silekVersion _ hp, exec_silekVersion]
    exact runSilek_query ha rfl
  case passed =>
    rintro l f tag index last src dst epoch reply bytes s hf hfit h0 hc ht hb hd he hh
    rw [exec_silekSegment, execSilekSegment_chain hfit h0, State.chainFrame_passes hf h0 (by rw [hc, ht]; rfl) ht hb hd, Dev.passFrame_on
      (.inr (.inl (by rw [hf]; exact hb))) (by rw [hf]; exact he) (by rw [hf]; exact hh)]
  case damaged =>
    rintro l f tag index last src dst epoch reply bytes s hf hfit h0 hc
    rw [exec_silekSegment, execSilekSegment_chain hfit h0, State.chainFrame_damaged hf h0 hc]
  case first =>
    rintro l f tag last src dst epoch reply bytes s _ hf hc ht hb rfl h1 h3 hlen h0 hd hp
    have hfit : segmentFits (.chain l src dst epoch) 0 last bytes = true := by simp [segmentFits, h3, hlen]
    rw [exec_silekSegment, execSilekSegment_chain hfit h0, State.chainFrame_taken hf h0 (by rw [hc, ht]; rfl) ht hb hd, hlen]
    exact State.segment_first h1 hp
  case illFormed =>
    rintro via tag index last reply bytes s hf
    exact if_pos (ne_true_of_eq_false hf)
  case timeout =>
    rintro src vc5 s _ _ rfl rfl
    exact exec_segmentTimeout src vc5 s
  case resent =>
    rintro _ c s _ rfl hs rfl ho hd hr
    rw [exec_silekResend, Dev.resend_again hs ho hd hr]
  case acked =>
    rintro q o s _ _ rfl rfl hm
    exact exec_silekSegAck_matched hm
  case interim =>
    rintro req _ s _ r rfl hr rfl hi ht hm
    exact exec_interimReply_running hr hi ht hm

end Sys2Proof.Machine
end

section
/-! SUPPORT. The rows of the FM API and the statements on its questions and changes (O38, O39). -/
namespace Sys2Proof.Machine
open Sys2Proof

/-! ### The rows (R433 to R435) -/

theorem exec_identify (eid tag : Nat) (s : State) :
    exec (.identify eid tag) s = s.fmRun eid 0x0001 tag fun h => exec (.deviceInfo h) := rfl

theorem exec_identifySwitchDevice (eid tag : Nat) (s : State) :
    exec (.identifySwitchDevice eid tag) s = s.fmRun eid 0x5100 tag fun h =>
      runSilek h (.of 0x103 0 (.identifySwitchDevice eid tag)) (queryBody fun s =>
        .final .ok (s.dev.deviceInfo ++ (s.dev.ports.map (fun p => leBytes 4 (s.portStatus p))).flatten)) := rfl

theorem exec_getPhysicalPortState (eid tag first count : Nat) (s : State) :
    exec (.getPhysicalPortState eid tag first count) s = s.fmRun eid 0x5101 tag fun h => exec (.portStatusQuery h first count) := rfl

theorem exec_getVirtualCxlSwitchInfo (eid tag vi : Nat) (s : State) :
    exec (.getVirtualCxlSwitchInfo eid tag vi) s = s.fmRun eid 0x5200 tag fun h => exec (.instanceQuery h vi) := rfl

theorem exec_getDcdInfo (eid tag : Nat) (s : State) :
    exec (.getDcdInfo eid tag) s = s.fmRun eid 0x5600 tag fun h =>
      runSilek h (.of 0x102 0 (.getDcdInfo eid tag)) (queryBody fun s =>
        .final .ok (s.dev.deviceInfo ++ leBytes 2 s.dev.freeWindows)) := rfl

theorem exec_getHostDcRegionConfiguration (eid tag host : Nat) (s : State) :
    exec (.getHostDcRegionConfiguration eid tag host) s = s.fmRun eid 0x5601 tag fun h =>
      runSilek h (.of 0x211 3 (.getHostDcRegionConfiguration eid tag host)) (queryBody fun s =>
        if 63 < host then .err .badParam
        else .final .ok ((s.dev.windowsOf host).map (fun x => leBytes 16 x.2.bits)).flatten) := rfl

theorem exec_getDcRegionExtentLists (eid tag host start count : Nat) (s : State) :
    exec (.getDcRegionExtentLists eid tag host start count) s = s.fmRun eid 0x5603 tag fun h =>
      runSilek h (.of 0x241 0 (.getDcRegionExtentLists eid tag host start count)) (queryBody fun s =>
        if 63 < host ∨ 768 < count then .err .badParam
        else .final .ok ((((s.dev.hostExtents host).drop start).take count).map (fun b => leBytes 4 b.bits)).flatten) := rfl

theorem exec_setDcRegionConfiguration (eid tag w host region kind base count : Nat) (enable : Bool) (s : State) :
    exec (.setDcRegionConfiguration eid tag w host region kind base count enable) s = s.fmRun eid 0x5602 tag fun h =>
      runSettled h (.of 0x210 0 (.windowConfig h.key w host region kind base count enable))
        (devBody fun t d => d.windowConfigAt t w host region kind base count enable) := rfl

/-- A port control of an action there is runs PORT_CONTROL. -/
theorem exec_physicalPortControl {op : Nat} (h : op ≤ 2) (eid tag port : Nat) (s : State) :
    exec (.physicalPortControl eid tag port op) s = s.fmRun eid 0x5102 tag fun h => exec (.portControl h port op) :=
  if_neg (Nat.not_lt.mpr h)

/-- Bind vPPB of a virtual downstream port of a VI in use configures the VI with that port (log entry 127). -/
theorem exec_bindVppb {vi vppb port : Nat} {s : State} (h1 : 1 ≤ vppb) (h7 : vppb ≤ 7) (hv : vi ≤ 63) (hp : port ≤ 63)
    (h0 : s.dev.viState vi ≠ 0) (eid tag : Nat) :
    exec (.bindVppb eid tag vi vppb port) s = s.fmRun eid 0x5201 tag fun h s => s.vppb h vi vppb port :=
  if_neg (by simp only [h0, or_false]; omega)

/-- Unbind vPPB configures the VI without that port. -/
theorem exec_unbindVppb {vi vppb : Nat} {s : State} (h1 : 1 ≤ vppb) (h7 : vppb ≤ 7) (hv : vi ≤ 63) (h0 : s.dev.viState vi ≠ 0)
    (eid tag : Nat) : exec (.unbindVppb eid tag vi vppb) s = s.fmRun eid 0x5202 tag fun h s => s.vppb h vi vppb 0xff :=
  if_neg (by simp only [h0, or_false]; omega)

/-- Add binds the extents to the lowest free slots of the region's window. -/
theorem exec_initiateDynamicCapacityAdd {host region w : Nat} {extents : List (Nat × Nat)} {xs : List Nat} {x : Window} {s : State}
    (hx : s.dev.fmExtents extents = some xs) (hw : s.dev.regionWindow host region = some (w, x)) (eid tag : Nat) :
    exec (.initiateDynamicCapacityAdd eid tag host 2 region extents) s = s.fmRun eid 0x5604 tag fun h =>
      runSettled h (.of 0x220 0 (.initiateDynamicCapacityAdd eid tag host 2 region extents)) (devBody fun t d =>
        if (d.freeSlots x xs.length).length < xs.length then (d, .err .noResource)
        else d.bindSlots t w (d.freeSlots x xs.length) (x.kind + 1) xs) := by
  show execInitiateDynamicCapacityAdd eid tag host 2 region extents s = _
  simp only [execInitiateDynamicCapacityAdd, hx, hw]
  rfl

/-- Release unbinds the slots of the region's window that hold the extents. -/
theorem exec_initiateDynamicCapacityRelease {host region w : Nat} {extents : List (Nat × Nat)} {xs : List Nat} {x : Window} {s : State}
    (hx : s.dev.fmExtents extents = some xs) (hw : s.dev.regionWindow host region = some (w, x)) (eid tag : Nat) (forced : Bool) :
    exec (.initiateDynamicCapacityRelease eid tag host forced region extents) s = s.fmRun eid 0x5605 tag fun h =>
      runSettled h (.of 0x221 0 (.initiateDynamicCapacityRelease eid tag host forced region extents)) (devBody fun t d =>
        if (xs.filterMap (fun y => x.slots.find? (fun k => (d.slot k).valid ∧ (d.slot k).fx = y))).length < xs.length
        then (d, .err .badParam)
        else d.unbindSlots t w (xs.filterMap (fun y => x.slots.find? (fun k => (d.slot k).valid ∧ (d.slot k).fx = y))) forced false) := by
  show execInitiateDynamicCapacityRelease eid tag host forced region extents s = _
  simp only [execInitiateDynamicCapacityRelease, hx, hw]
  rfl

theorem exec_backgroundOperationStatus_none {s : State} (hm : 1 < s.dev.mode) (hb : s.dev.silek.fmBackground = none) (eid tag : Nat) :
    exec (.backgroundOperationStatus eid tag) s = .next (s.withDev (s.dev.fmAnswer 0x0002 tag .ok [])) := by
  show execBackgroundOperationStatus eid tag s = _
  simp only [execBackgroundOperationStatus, onDev, if_neg (Nat.not_le.mpr hm), hb]
  rfl

theorem exec_getResponseMessageLimit {s : State} (hm : 1 < s.dev.mode) (tag : Nat) :
    exec (.getResponseMessageLimit tag) s = .next (s.withDev (s.dev.fmAnswer 0x0003 tag .ok (leBytes 1 11))) :=
  congrArg (fun d => Host.Outcome.next (s.withDev d)) (if_neg (Nat.not_le.mpr hm))

theorem exec_setResponseMessageLimit {exponent : Nat} {s : State} (hm : 1 < s.dev.mode) (h8 : 8 ≤ exponent) (h11 : exponent ≤ 11)
    (tag : Nat) : exec (.setResponseMessageLimit tag exponent) s = .next (s.withDev
      (({ s.dev with silek := { s.dev.silek with responseLimit := exponent } } : Dev).fmAnswer 0x0004 tag .ok (leBytes 1 exponent))) := by
  have hn : ¬ (exponent < 8 ∨ 11 < exponent) := by omega
  exact congrArg (fun d => Host.Outcome.next (s.withDev d)) ((if_neg (Nat.not_le.mpr hm)).trans (if_neg hn))

/-- Settles O38. The limit of 2^11 bytes is DEDUCED (log entry 51), as are the forms of the answers (log entries 50, 122 and 127). -/
theorem fmApiQueries : Obligations.FmApiQueries := by
  unfold Obligations.FmApiQueries
  refine ⟨?identify, ?status, ?limit, ?setLimit, ?switch, ?ports, ?vcs, ?info, ?windows, ?extents⟩
  case identify =>
    rintro eid tag s h d i rfl rfl rfl hf ha
    rw [exec_identify]
    exact fmRun_query hf (runSilek_query ha rfl)
  case status =>
    rintro eid tag s d rfl hm hb
    exact exec_backgroundOperationStatus_none hm hb eid tag
  case limit =>
    rintro tag s d rfl hm
    exact exec_getResponseMessageLimit hm tag
  case setLimit =>
    rintro tag exponent s d rfl hm h8 h11
    exact exec_setResponseMessageLimit hm h8 h11 tag
  case switch =>
    rintro eid tag s h d i rfl rfl rfl hf ha
    rw [exec_identifySwitchDevice]
    exact fmRun_query hf (runSilek_query ha rfl)
  case ports =>
    rintro eid tag first count s h d i rfl rfl rfl hf ha h1 h64 hc
    rw [exec_getPhysicalPortState]
    exact fmRun_query hf (runSilek_query ha (State.portStatuses_within h1 h64 hc))
  case vcs =>
    rintro eid tag vi s h d i rfl rfl rfl hf ha hv
    rw [exec_getVirtualCxlSwitchInfo]
    exact fmRun_query hf (runSilek_query ha (if_neg (Nat.not_lt.mpr hv)))
  case info =>
    rintro eid tag s h d i rfl rfl rfl hf ha
    rw [exec_getDcdInfo]
    exact fmRun_query hf (runSilek_query ha rfl)
  case windows =>
    rintro eid tag host s h d i rfl rfl rfl hf ha hv
    rw [exec_getHostDcRegionConfiguration]
    exact fmRun_query hf (runSilek_query ha (if_neg (Nat.not_lt.mpr hv)))
  case extents =>
    rintro eid tag host start count s h d i rfl rfl rfl hf ha hv hc
    rw [exec_getDcRegionExtentLists]
    exact fmRun_query hf (runSilek_query ha (if_neg (by omega)))

/-- Settles O39. The field by field reading of Bind and Unbind vPPB and of the answers is DEDUCED (log entries 50, 122 and 127). -/
theorem fmApiChanges : Obligations.FmApiChanges := by
  unfold Obligations.FmApiChanges
  refine ⟨?control, ?bind, ?unbind, ?region, ?add, ?release⟩
  case control =>
    rintro eid tag port _ e s h d i rfl rfl rfl hf ha hp rfl hpr hpe rfl hc
    rw [exec_physicalPortControl (by decide)]
    exact fmRun_settled hf (Dev.mon_out ..) rfl hc (runSettled_dev ha (Dev.portControl_qfl hp (by decide) hpr hpe _))
  case bind =>
    rintro eid tag vi vppb port x a b t2 m q e s h d i rfl rfl rfl hf ha h1 h7 hv hp h0 rfl rfl rfl rfl rfl rfl rfl hr ho he hc
    rw [exec_bindVppb h1 h7 hv hp h0]
    exact fmRun_settled hf ho he hc (runSettled_dev ha (Prod.ext rfl hr))
  case unbind =>
    rintro eid tag vi vppb x a b t2 m q e s h d i rfl rfl rfl hf ha h1 h7 hv h0 rfl rfl rfl rfl rfl rfl rfl hr ho he hc
    rw [exec_unbindVppb h1 h7 hv h0]
    exact fmRun_settled hf ho he hc (runSettled_dev ha (Prod.ext rfl hr))
  case region =>
    rintro eid tag w host region kind base count _ e s h d i rfl rfl rfl hf ha hw hv hr hk rfl hm hs rfl hc
    rw [exec_setDcRegionConfiguration]
    exact fmRun_settled hf (Dev.mon_out ..) rfl hc (runSettled_dev ha
      ((Dev.windowConfigAt_own hw hm ..).trans (Dev.windowConfig_clears hw hv hr hk hs ..)))
  case add =>
    rintro eid tag host _ region extents xs w x ks e job s h d i u rfl rfl rfl hm ha hx hw rfl rfl hl rfl hr hb rfl ho
    rw [exec_initiateDynamicCapacityAdd hx hw]
    exact fmRun_starts hm (runSettled_devRun ha ((if_neg (Nat.not_lt.mpr hl)).trans (Prod.ext rfl hr))) hb ho
  case release =>
    rintro eid tag host forced region extents xs w x ks e job s h d i u rfl rfl rfl hm ha hx hw rfl hl rfl hr hb rfl ho
    rw [exec_initiateDynamicCapacityRelease hx hw]
    exact fmRun_starts hm (runSettled_devRun ha ((if_neg (Nat.not_lt.mpr hl)).trans (Prod.ext rfl hr))) hb ho

end Sys2Proof.Machine
end

section
/-! SUPPORT. A write of CSR_KEY and the statements on the key guard (O19, O20). -/
namespace Sys2Proof.Machine
open Sys2Proof

/-! ### What a write of the key does (R448, R450) -/

/-- The key unlocks the guard. -/
theorem State.keyWrite_key {s : State} (hl : s.guard.lockedOut = false) :
    s.keyWrite 0x4d494c4b = { s with guard := { s.guard with unlocked := true, wrongRun := 0 } } := by
  simp [State.keyWrite, hl]

/-- A wrong key before the eighth in a row locks and is counted. -/
theorem State.keyWrite_wrong {s : State} {v : Nat} (hl : s.guard.lockedOut = false) (hv : v ≠ 0x4d494c4b) (hr : s.guard.wrongRun < 7) :
    s.keyWrite v =
      { s with
        guard := { s.guard with
          unlocked := false, wrongRun := s.guard.wrongRun + 1, wrongKeys := saturate 16 (s.guard.wrongKeys + 1) }
        dev := s.dev.hbCount 7 1 } := by
  have hn : ¬ 8 ≤ s.guard.wrongRun + 1 := by omega
  have hm : min 8 (s.guard.wrongRun + 1) = s.guard.wrongRun + 1 := by omega
  simp only [State.keyWrite, hl, Bool.false_eq_true, if_false, if_neg hv, hn, decide_false, Bool.or_false, hm]

/-- The eighth wrong key in a row locks the guard out. -/
theorem State.keyWrite_eighth {s : State} {v : Nat} (hl : s.guard.lockedOut = false) (hv : v ≠ 0x4d494c4b) (hr : s.guard.wrongRun = 7) :
    s.keyWrite v =
      { s with
        guard := {
          unlocked := false, lockedOut := true, wrongRun := 8, lockoutEvt := true, wrongKeys := saturate 16 (s.guard.wrongKeys + 1) }
        dev := ((s.dev.hbCount 7 1).hbCount 8 1).secEvent s.time.now 1 } := by
  simp [State.keyWrite, hl, if_neg hv, hr]

/-- A guard that is locked out takes no key. -/
theorem State.keyWrite_lockedOut {s : State} {v : Nat} (hl : s.guard.lockedOut = true) : s.keyWrite v = s := if_pos hl

/-! ### The row of CSR_KEY -/

/-- The whole word of a register written. -/
theorem land_wholeWord {v : Nat} (h : v < 2 ^ 32) : Nat.land v (byteMask 15) = v := by
  have hm : byteMask 15 = 2 ^ 32 - 1 := by decide
  rw [hm]
  exact (Nat.and_two_pow_sub_one_eq_mod v 32).trans (Nat.mod_eq_of_lt h)

/-- A 4-byte write of CSR_KEY reaches the guard over the paths that are subject to it, and nothing over the others (R441). -/
theorem State.writeAccess_key {ring : Nat → State → State} {path : AccessPath} {v : Nat} {s : State} (h : v < 2 ^ 32) :
    s.writeAccess ring path 0xff0 4 v = if guardedPath path then s.keyWrite v else s := by
  have hb : bufferAt 0xff0 = none := bufferAt_outside (by decide) (by decide)
  have hc : canonical 0xff0 = 0xff0 := by decide
  rw [State.writeAccess_word (by decide) (by decide), State.writeWord_ctl hb (by decide), Nat.mod_eq_of_lt h]
  simp only [State.writeCtl, hc, land_wholeWord h, if_true]

/-- CSR_KEY over an open path. -/
theorem exec_csrKey_open {path : AccessPath} {value : BitVec 32} {s : State} (h : s.dev.pathOpen path = true) :
    exec (.csrKey path value) s = .next (s.settledFrom (if guardedPath path then s.keyWrite value.toNat else s)) := by
  have hr : exec (.csrKey path value) s = writeCmd path 0xff0 4 value.toNat s := rfl
  rw [hr, writeCmd_open h, State.writeAccess_key value.isLt]

/-- Outside OM0, CSR_KEY over the paths that are subject to the guard. -/
theorem exec_csrKey_guarded {path : AccessPath} {value : BitVec 32} {s : State} (h0 : s.dev.mode ≠ 0) (hp : path = .bar0 ∨ path = .reg) :
    exec (.csrKey path value) s = .next (s.settledFrom (s.keyWrite value.toNat)) := by
  obtain rfl | rfl := hp
  · exact exec_csrKey_open (by simp [Dev.pathOpen, h0])
  · exact exec_csrKey_open (by simp [Dev.pathOpen, h0])

/-- A word whose fields are all write-only reads zero. -/
theorem State.plainWord_writeOnly {s : State} {a : Nat} (h : ∀ l ∈ wordSlots a, l.acc = .wo) : s.plainWord a = 0 := by
  have hz : ∀ l ∈ wordSlots a, s.slotValue a l = 0 := fun l hl => if_pos (.inl (h l hl))
  rw [State.plainWord, List.foldl_ext _ (fun n _ => n) 0 (fun n l hl => by rw [hz l hl, Nat.mul_zero, Nat.add_zero])]
  exact List.foldl_fixed ..

theorem toNat_ne_key {value : BitVec 32} (h : value ≠ 0x4d494c4b) : value.toNat ≠ 0x4d494c4b :=
  fun e => h (BitVec.eq_of_toNat_eq e)

/-- Settles O19. -/
theorem keyGuard : Obligations.KeyGuard := by
  unfold Obligations.KeyGuard
  refine ⟨?key, ?wrong, ?eighth, ?read⟩
  case key =>
    rintro path _ s h0 hp hl rfl
    rw [exec_csrKey_guarded h0 hp, ← State.keyWrite_key hl]
    rfl
  case wrong =>
    rintro path value s h0 hp hl hv hr
    rw [exec_csrKey_guarded h0 hp, State.keyWrite_wrong hl (toNat_ne_key hv) hr]
  case eighth =>
    rintro path value s h0 hp hl hv hr
    rw [exec_csrKey_guarded h0 hp, State.keyWrite_eighth hl (toNat_ne_key hv) hr]
  case read =>
    exact fun s => State.plainWord_writeOnly (by decide)

/-- Settles O20. -/
theorem keyLockOut : Obligations.KeyLockOut := by
  unfold Obligations.KeyLockOut
  refine ⟨?eighth, ?lockedOut, ?otherPaths⟩
  case eighth =>
    rintro path value s h0 hp hl hv hr
    rw [exec_csrKey_guarded h0 hp, State.keyWrite_eighth hl (toNat_ne_key hv) hr]
  case lockedOut =>
    rintro path value s h0 hp hl
    rw [exec_csrKey_guarded h0 hp, State.keyWrite_lockedOut hl]
  case otherPaths =>
    rintro path value s ho hp
    obtain rfl | rfl := hp
    · exact exec_csrKey_open ho
    · exact exec_csrKey_open ho

end Sys2Proof.Machine
end

section
/-! SUPPORT. The entry to OM0 and the machine after reset, and the statements on them (O53, O46). -/
namespace Sys2Proof.Machine
open Sys2Proof

/-! ### The outputs that fall -/

/-- Commands to pins go out one after another and change nothing else. -/
theorem Dev.foldl_emit_pins (l : List Pin) (d : Dev) :
    l.foldl (fun (x : Dev) p => x.emit (.pin p false)) d = { d with out := d.out ++ l.map (fun p => Out.pin p false) } := by
  induction l generalizing d with
  | nil => simp
  | cons p l ih =>
    rw [List.foldl_cons, ih]
    simp [Dev.emit]

/-- The outputs that are high: the slot channels' gates, pre-charge switches and power-good pins, and the PERST pins. -/
def Dev.pinsHigh (d : Dev) : List Pin :=
  ((List.range 16).filter (fun c => d.flag (Spc.ch_GATE_ON c))).map Pin.spcGate ++
    ((List.range 16).filter (fun c => d.flag (Spc.ch_PCHG_ON c))).map Pin.spcPchg ++
    ((List.range 16).filter (fun c => d.flag (Spc.ch_PG c))).map Pin.spcPg ++
    ((List.range 64).filter (fun p => (d.port p).perstHigh)).map Pin.perst

/-- The slot power outputs that are high are among them. -/
theorem Dev.mem_pinsHigh_slot (d : Dev) (c : Nat) (hc : c < 16) :
    (d.flag (Spc.ch_GATE_ON c) = true → Pin.spcGate c ∈ d.pinsHigh) ∧
      (d.flag (Spc.ch_PCHG_ON c) = true → Pin.spcPchg c ∈ d.pinsHigh) :=
  ⟨fun h => by simp [Dev.pinsHigh, hc, h], fun h => by simp [Dev.pinsHigh, hc, h]⟩

/-! ### What is lost and what is kept (R480, R481, R490, R497) -/

/-- The reset logic on entry to OM0. -/
def Dev.om0Reset (t cause rail : Nat) (zeroised : Bool) (d : Dev) : ResetLogic where
  cause := cause
  rail := rail
  inOm0 := true
  scanHold := false
  zeroisedLast := d.rst.zeroisedLast || zeroised
  straps := d.rst.straps
  pinLow := d.rst.pinLow
  left := if d.rst.inOm0 then d.rst.left else some (d.mode, if zeroised then 8 else 0, t)
  booting := false

/-- The Herdbook on entry to OM0: what its flash holds. -/
def Dev.om0Herdbook (d : Dev) : Herdbook :=
  { d.hbkFlash.getD {} with powerFail := d.hbk.powerFail, nakWindow := [], writing := none }

/-- Entry to OM0 keeps what lies in flash, fuses, TAP and straps; the rest is at its initial value, and the outputs fall. -/
theorem Dev.enterOm0_eq (t cause rail : Nat) (zeroised : Bool) (d : Dev) : d.enterOm0 t cause rail zeroised =
    {
      banks := d.banks, fuses := d.fuses, flash := d.flash, hbk := d.om0Herdbook, hbkFlash := d.hbkFlash, jtag := d.jtag
      rst := d.om0Reset t cause rail zeroised, sc := { zeroisedBy := d.sc.zeroisedBy }, freeCtr := d.freeCtr
      out := d.out ++ d.pinsHigh.map (fun p => Out.pin p false) } :=
  Dev.foldl_emit_pins _ _

theorem Dev.enterOm0_rst (t cause rail : Nat) (zeroised : Bool) (d : Dev) :
    (d.enterOm0 t cause rail zeroised).rst = d.om0Reset t cause rail zeroised := by rw [Dev.enterOm0_eq]

theorem Dev.enterOm0_inOm0 (t cause rail : Nat) (zeroised : Bool) (d : Dev) : (d.enterOm0 t cause rail zeroised).rst.inOm0 = true := by
  rw [Dev.enterOm0_rst]
  rfl

theorem Dev.enterOm0_straps (t cause rail : Nat) (zeroised : Bool) (d : Dev) :
    (d.enterOm0 t cause rail zeroised).rst.straps = d.rst.straps := by
  rw [Dev.enterOm0_rst]
  rfl

/-- The outputs that fell, the slot power outputs among them. -/
def Dev.OutputsFell (d : Dev) (out : List Out) : Prop :=
  ∃ l : List Pin, out = d.out ++ l.map (fun p => Out.pin p false) ∧ ∀ c < 16, (d.flag (Spc.ch_GATE_ON c) = true → Pin.spcGate c ∈ l) ∧
    (d.flag (Spc.ch_PCHG_ON c) = true → Pin.spcPchg c ∈ l)

theorem Dev.enterOm0_outputsFell (t cause rail : Nat) (zeroised : Bool) (d : Dev) :
    d.OutputsFell (d.enterOm0 t cause rail zeroised).out :=
  ⟨d.pinsHigh, by rw [Dev.enterOm0_eq], d.mem_pinsHigh_slot⟩

/-- What the entry to OM0 leaves of a state: the queue of the model, flash, fuses, TAP and straps; the rest is cleared. -/
structure State.ClearedFrom (s t : State) : Prop where
  pending : t.pending = s.pending
  mem : t.mem = []
  guard : t.guard = {}
  time : t.time = {}
  mode : t.dev.mode = 0
  rd : ∀ f : Field, t.dev.rd f = f.reset
  mrd : ∀ f : Field, t.dev.mrd f = f.reset
  silek : t.dev.silek = {}
  extents : t.dev.extents = []
  windows : t.dev.windows = []
  slots : t.dev.slots = []
  inst : t.dev.inst = []
  chn : t.dev.chn = {}
  ladles : t.dev.ladles = {}
  gate : t.dev.gate = {}
  memb : t.dev.memb = {}
  errors : t.dev.errors = []
  fuses : t.dev.fuses = s.dev.fuses
  flash : t.dev.flash = s.dev.flash
  banks : t.dev.banks = s.dev.banks
  hbkFlash : t.dev.hbkFlash = s.dev.hbkFlash
  jtag : t.dev.jtag = s.dev.jtag
  straps : t.dev.rst.straps = s.dev.rst.straps

/-- The entry to OM0 clears the state, whatever the reset logic notes beside the straps and the Cellar about the zeroisation. -/
theorem State.toOm0_clearedFrom {s t : State} {cause rail : Nat} {z : Bool} {r : ResetLogic} {c : Sc}
    (ht : t = (s.toOm0 cause rail z).withDev { s.dev.enterOm0 s.time.now cause rail z with rst := r, sc := c })
    (h0 : r.inOm0 = true) (hs : r.straps = s.dev.rst.straps) : s.ClearedFrom t := by
  rw [Dev.enterOm0_eq] at ht
  subst ht
  exact {
    pending := rfl, mem := rfl, guard := rfl, time := rfl, mode := if_pos h0, rd := fun _ => rfl, mrd := fun _ => rfl, silek := rfl
    extents := rfl, windows := rfl, slots := rfl, inst := rfl, chn := rfl, ladles := rfl, gate := rfl, memb := rfl, errors := rfl
    fuses := rfl, flash := rfl, banks := rfl, hbkFlash := rfl, jtag := rfl, straps := hs }

/-- Settles O53. That FABRIC_TIME, the guard and the mailboxes are cleared from the entry to OM0 on is the model's choice (log entry
4). -/
theorem entryToOm0 : Obligations.EntryToOm0 := by
  unfold Obligations.EntryToOm0
  refine ⟨?zeroize, ?rst, ?supply⟩
  case zeroize =>
    intro s
    have hz : (s.zeroise 2).dev.rst = s.dev.om0Reset s.time.now 1 0 true := Dev.enterOm0_rst ..
    have hc : (s.zeroise 2).dev.sc = { zeroisedBy := 2 } := by
      rw [State.zeroise, State.toOm0, Dev.enterOm0_eq]
    have h : s.ClearedFrom (s.zeroise 2) := State.toOm0_clearedFrom (cause := 1) (rail := 0) (z := true) rfl
      (Dev.enterOm0_inOm0 ..) (Dev.enterOm0_straps ..)
    exact ⟨_, exec_zeroizeN s, h.pending, h.mem, h.guard, h.time, h.mode, h.rd, h.mrd, h.silek, h.extents, h.windows, h.slots, h.inst,
      h.chn, h.ladles, h.gate, h.memb, h.errors, h.fuses, h.flash, h.banks, h.hbkFlash, h.jtag, h.straps,
      by rw [hz]; exact Bool.or_true _, hc, Dev.enterOm0_outputsFell s.time.now 1 0 true s.dev⟩
  case rst =>
    intro s ho
    have hr : (s.dev.enterOm0 s.time.now 1 0 false).rst = s.dev.om0Reset s.time.now 1 0 false := Dev.enterOm0_rst ..
    have h := State.toOm0_clearedFrom (s := s) (cause := 1) (rail := 0) (z := false) (c := (s.dev.enterOm0 s.time.now 1 0 false).sc)
      (r := { (s.dev.enterOm0 s.time.now 1 0 false).rst with pinLow := true }) rfl (Dev.enterOm0_inOm0 ..) (Dev.enterOm0_straps ..)
    exact ⟨_, exec_rstNLow_running ho, h.pending, h.mem, h.guard, h.time, h.mode, h.rd, h.mrd, h.silek, h.extents, h.windows, h.slots,
      h.inst, h.chn, h.ladles, h.gate, h.memb, h.errors, h.fuses, h.flash, h.banks, h.hbkFlash, h.jtag, h.straps,
      congrArg ResetLogic.cause hr, rfl, Dev.enterOm0_outputsFell s.time.now 1 0 false s.dev⟩
  case supply =>
    intro rail s ho
    have hr : (s.dev.enterOm0 s.time.now 2 (rail + 1) false).rst = s.dev.om0Reset s.time.now 2 (rail + 1) false :=
      Dev.enterOm0_rst ..
    have h : s.ClearedFrom (s.toOm0 2 (rail + 1) false) := State.toOm0_clearedFrom (cause := 2) (rail := rail + 1) (z := false) rfl
      (Dev.enterOm0_inOm0 ..) (Dev.enterOm0_straps ..)
    exact ⟨_, exec_supplyFault_running rail ho, h.pending, h.mem, h.guard, h.time, h.mode, h.rd, h.mrd, h.silek, h.extents, h.windows,
      h.slots, h.inst, h.chn, h.ladles, h.gate, h.memb, h.errors, h.fuses, h.flash, h.banks, h.hbkFlash, h.jtag, h.straps,
      congrArg ResetLogic.cause hr, congrArg ResetLogic.rail hr, Dev.enterOm0_outputsFell s.time.now 2 (rail + 1) false s.dev⟩

/-! ### After reset -/

/-- No register of the machine after reset was written. -/
theorem State.reset_rd (f : Field) : State.reset.dev.rd f = f.reset := rfl

theorem State.reset_mrd (f : Field) : State.reset.dev.mrd f = f.reset := rfl

/-- Settles O46: every field reads as its own reset value, which is then a number of the register's row. Which state counts as reset is
the model's choice (log entry 4). -/
theorem resetState : Obligations.ResetState := by
  unfold Obligations.ResetState
  refine ⟨?bare, fun f => ⟨State.reset_rd f, State.reset_mrd f⟩, ?device, ?perPort⟩
  case bare => exact ⟨rfl, rfl, rfl, rfl, rfl, rfl, rfl, rfl, rfl, rfl, rfl, rfl, rfl, rfl, rfl⟩
  case device =>
    simp only [State.reset_rd]
    decide
  case perPort =>
    exact fun p => ⟨rfl, rfl, rfl, rfl, rfl, rfl, rfl, rfl, rfl, rfl, rfl, rfl, rfl, rfl, rfl, rfl, rfl⟩

end Sys2Proof.Machine
end

section
/-! SUPPORT. The slot power controllers and the statement on them (O13). -/
namespace Sys2Proof.Machine
open Sys2Proof

/-! ### The commands of group 0x06xx (R503, R508) -/

/-- A populated channel passes the checks that the commands share. -/
theorem Dev.spcCheck_populated {d : Dev} {c : Nat} (hc : c ≤ 15) (hr : d.rd (Spc.ch_RSENSE c) ≠ 0) (k : Dev × Result) :
    d.spcCheck c k = k := by
  rw [Dev.spcCheck, if_neg (Nat.not_lt.mpr hc), if_neg hr]

/-- A channel that is OFF and not in cool-down begins pre-charge, and the command goes on. -/
theorem Dev.slotPowerOn_off {d : Dev} {c : Nat} (hc : c ≤ 15) (hr : d.rd (Spc.ch_RSENSE c) ≠ 0) (hs : d.rd (Spc.ch_STATE c) = 0)
    (hd : d.flag (Spc.ch_COOLDOWN c) = false) : d.slotPowerOn c = (d.spcStart c, .run (.slotOn c)) := by
  simp [Dev.slotPowerOn, Dev.spcCheck_populated hc hr, hs, hd]

/-- Forced off, a channel that is ON drops power-good and stops. -/
theorem Dev.slotPowerOff_forced {d f : Dev} {t c : Nat} (hc : c ≤ 15) (hr : d.rd (Spc.ch_RSENSE c) ≠ 0) (hs : d.rd (Spc.ch_STATE c) = 4)
    (hf : f = (((d.powerGoodFalls t c).wrFlag (Spc.ch_TIMER_RUN c) false).wrFlag (Spc.ch_IN_LIMIT c) false).wr (Spc.ch_STATE c) 5) :
    d.slotPowerOff t c 1 = (f.post t 0xd (f.spcData c 2), .run (.slotOff c)) := by
  subst hf
  simp [Dev.slotPowerOff, Dev.spcCheck_populated hc hr, hs]

/-- Limits in range are set, and one below the present current acts at once. -/
theorem Dev.slotPowerConfig_sets {d f : Dev} {t c ilim timer : Nat} (hc : c ≤ 15) (hr : d.rd (Spc.ch_RSENSE c) ≠ 0) (h10 : 10 ≤ ilim)
    (h120 : ilim ≤ 120) (h1 : 1 ≤ timer) (h255 : timer ≤ 255) (hi : ilim * d.rd (Spc.ch_RSENSE c) ≤ 2500)
    (hf : f = (d.wr (Spc.ch_ILIM c) ilim).wr (Spc.ch_FAULT_TIMER c) timer) :
    d.slotPowerConfig t c ilim timer = (f.limitCheck t c, .final .ok []) := by
  subst hf
  rw [Dev.slotPowerConfig, Dev.spcCheck_populated hc hr, if_neg (by omega)]

theorem exec_slotPowerOn (h : SilekHdr) (ch : Nat) (s : State) : exec (.slotPowerOn h ch) s =
    runSilek h (.of 0x601 0 (.slotPowerOn h.key ch)) (devBody fun _ d => d.slotPowerOn ch) s := rfl

theorem exec_slotPowerOff (h : SilekHdr) (ch force : Nat) (s : State) : exec (.slotPowerOff h ch force) s =
    runSettled h (.of 0x602 0 (.slotPowerOff h.key ch force)) (devBody fun t d => d.slotPowerOff t ch force) s := rfl

theorem exec_slotPowerConfig (h : SilekHdr) (ch ilim timer : Nat) (s : State) : exec (.slotPowerConfig h ch ilim timer) s =
    runSilek h (.of 0x603 0 (.slotPowerConfig h.key ch ilim timer)) (devBody fun t d => d.slotPowerConfig t ch ilim timer) s := rfl

theorem exec_slotPowerQuery (h : SilekHdr) (ch : Nat) (s : State) : exec (.slotPowerQuery h ch) s =
    runSilek h (.of 0x604 0 (.slotPowerQuery h.key ch))
      (devBody fun _ d => d.spcCheck ch (d, .final .ok (d.slotPowerReport ch))) s := rfl

/-! ### Scans, timers and comparators (R504 to R506, R510) -/

theorem exec_adcScan_one (x : AdcSample) (s : State) : exec (.adcScan [x]) s = .next (s.settledFrom (s.withDev
    ((s.dev.scanChannel s.time.now 0 x).wr Spc.SCAN_COUNT ((s.dev.scanChannel s.time.now 0 x).rd Spc.SCAN_COUNT + 1)))) := rfl

theorem exec_pchgTimeout (ch : Fin 16) (s : State) : exec (.pchgTimeout ch) s = .next (s.settledFrom (s.withDev
    (if s.dev.rd (Spc.ch_STATE ch) = 1 then s.dev.spcFault s.time.now ch 3 else s.dev))) := rfl

theorem exec_gateCharged (ch : Fin 16) (s : State) : exec (.gateCharged ch) s = .next (s.withDev
    (if s.dev.rd (Spc.ch_STATE ch) = 2 then (s.dev.spcDrive (Spc.ch_PCHG_ON ch) (.spcPchg ch) false).wr (Spc.ch_STATE ch) 3
      else s.dev)) := rfl

theorem exec_powerGoodTimeout (ch : Fin 16) (s : State) : exec (.powerGoodTimeout ch) s = .next (s.settledFrom (s.withDev
    (if s.dev.rd (Spc.ch_STATE ch) = 2 ∨ s.dev.rd (Spc.ch_STATE ch) = 3 then s.dev.spcFault s.time.now ch 4 else s.dev))) := rfl

/-- At the end of the qualification, without a running fault timer and with the rail up, power-good asserts. -/
theorem exec_qualificationEnd_good {ch : Fin 16} {s : State} {f : Dev}
    (hf : f = ((s.dev.wr (Spc.ch_STATE ch) 4).spcDrive (Spc.ch_PG ch) (.spcPg ch) true).raise1 (Spc.ch_PG_RISE_EVT ch))
    (hs : s.dev.rd (Spc.ch_STATE ch) = 3) (ht : s.dev.flag (Spc.ch_TIMER_RUN ch) = false) (hv : 10800 ≤ s.dev.rd (Spc.ch_VOUT ch)) :
    exec (.qualificationEnd ch) s = .next (s.withDev
      ((f.post s.time.now 0xd (f.spcData ch 1)).finish s.time.now (fun w => decide (w = .slotOn ch)) .ok []).autoNext) := by
  subst hf
  exact congrArg (fun d => Host.Outcome.next (s.withDev d)) (if_pos ⟨hs, ne_true_of_eq_false ht, hv⟩)

theorem exec_currentLimit (ch : Fin 16) (s : State) : exec (.currentLimit ch) s = .next (s.withDev
    (if s.dev.rd (Spc.ch_STATE ch) = 0 ∨ s.dev.rd (Spc.ch_STATE ch) = 5 ∨ s.dev.rd (Spc.ch_STATE ch) = 6 then s.dev
      else s.dev.limitStarts s.time.now ch)) := rfl

/-- Outside ON the end of the current limit stops the fault timer. -/
theorem exec_currentLimitEnd_qualify {ch : Fin 16} {s : State}
    (hs : (s.dev.wrFlag (Spc.ch_IN_LIMIT ch) false).rd (Spc.ch_STATE ch) = 3) :
    exec (.currentLimitEnd ch) s = .next (s.withDev
      ((s.dev.wrFlag (Spc.ch_IN_LIMIT ch) false).wrFlag (Spc.ch_TIMER_RUN ch) false)) := by
  show execCurrentLimitEnd ch s = _
  simp only [execCurrentLimitEnd, onDev, hs]
  rfl

theorem exec_faultTimer (ch : Fin 16) (s : State) : exec (.faultTimer ch) s = .next (s.settledFrom (s.withDev
    (if s.dev.flag (Spc.ch_TIMER_RUN ch) then s.dev.spcFault s.time.now ch (if s.dev.flag (Spc.ch_IN_LIMIT ch) then 1 else 5)
      else s.dev))) := rfl

theorem exec_fastTrip (ch : Fin 16) (s : State) : exec (.fastTrip ch) s = .next (s.settledFrom (s.withDev
    (if s.dev.rd (Spc.ch_STATE ch) = 0 ∨ s.dev.rd (Spc.ch_RSENSE ch) = 0 then s.dev else s.dev.spcFault s.time.now ch 2))) := rfl

theorem exec_stoppingEnd (ch : Fin 16) (s : State) : exec (.stoppingEnd ch) s = .next (s.settledFrom (s.withDev
    (if s.dev.rd (Spc.ch_STATE ch) = 5
      then (s.dev.spcOff s.time.now ch).finish s.time.now (fun w => decide (w = .slotOff ch)) .ok [] else s.dev))) := rfl

theorem exec_cooldownEnd (ch : Fin 16) (s : State) :
    exec (.cooldownEnd ch) s = .next (s.withDev (s.dev.wrFlag (Spc.ch_COOLDOWN ch) false)) := rfl

/-- Settles O13: each row at the case that its hypotheses single out. -/
theorem slotPower : Obligations.SlotPower := by
  unfold Obligations.SlotPower
  refine ⟨?on, ?off, ?config, ?query, ?scan, ?precharge, ?gate, ?powerGood, ?qualified, ?limit, ?limitEnd, ?timer, ?trip, ?stopped,
    ?cooled⟩
  case on =>
    rintro h ch s d i rfl rfl ha hc hr hs hd
    rw [exec_slotPowerOn]
    exact runSilek_devRun ha (Dev.slotPowerOn_off hc hr hs hd)
  case off =>
    rintro h ch _ s d i f rfl rfl ha hf hc hr hs rfl
    rw [exec_slotPowerOff]
    exact runSettled_devRun ha (Dev.slotPowerOff_forced hc hr hs hf)
  case config =>
    rintro h ch ilim timer f s d i rfl rfl ha hc hr h10 h120 h1 h255 hi hf
    rw [exec_slotPowerConfig]
    exact runSilek_dev ha (Dev.slotPowerConfig_sets hc hr h10 h120 h1 h255 hi hf)
  case query =>
    rintro h ch s d i rfl rfl ha hc hr
    rw [exec_slotPowerQuery]
    exact runSilek_dev ha (Dev.spcCheck_populated hc hr _)
  case scan =>
    rintro _ x s d f rfl rfl rfl
    exact exec_adcScan_one x s
  case precharge =>
    rintro ch s d rfl hs
    rw [exec_pchgTimeout, if_pos hs]
  case gate =>
    rintro ch s d rfl hs
    rw [exec_gateCharged, if_pos hs]
  case powerGood =>
    rintro ch s d rfl hs
    rw [exec_powerGoodTimeout, if_pos hs]
  case qualified =>
    rintro ch s d f rfl hf hs ht hv
    exact exec_qualificationEnd_good hf hs ht hv
  case limit =>
    rintro ch s d rfl hs
    rw [exec_currentLimit, if_neg (by omega)]
  case limitEnd =>
    rintro ch s d rfl hs
    exact exec_currentLimitEnd_qualify hs
  case timer =>
    rintro ch s d rfl ht
    rw [exec_faultTimer, if_pos ht]
  case trip =>
    rintro ch s d rfl hs hr
    rw [exec_fastTrip, if_neg (not_or.mpr ⟨hs, hr⟩)]
  case stopped =>
    rintro ch s d rfl hs
    rw [exec_stoppingEnd, if_pos hs]
  case cooled =>
    rintro ch s d rfl
    exact exec_cooldownEnd ch s

end Sys2Proof.Machine
end

section
/-! SUPPORT. Firmware update by Silek and by PLDM, the self-test, and the statement on them (O15). -/
namespace Sys2Proof.Machine
open Sys2Proof

/-! ### The commands of group 0x07xx (R477, R484, R485) -/

section
variable {d : Dev} {secured : Bool} (hu : d.unsecured secured = false) (hm : d.mode = 10)
include hu hm

/-- With no update under way, an update of the bank that does not run begins. -/
theorem Dev.fwUpdateStart_begins {b len : Nat} (hb : b ≤ 1) (hn : d.sc.update = none) (hp : d.sc.pldmStep = 0) (hr : d.runs b = false)
    (h1 : 4097 ≤ len) (h2 : len ≤ 25161728) : d.fwUpdateStart secured b len = (d.beginUpdate b len false, .run (.eraseBank b)) := by
  have hlen : ¬ (len < 4097 ∨ 25161728 < len) := by omega
  simp [Dev.fwUpdateStart, hu, hm, Nat.not_lt.mpr hb, hn, hp, hr, hlen]

/-- Data at the next offset is appended. -/
theorem Dev.fwUpdateData_appends {b len : Nat} {data : List Byte} (hs : d.sc.update = some (b, false)) (hw : (d.bank b).state = 1)
    (h1 : 1 ≤ len) (h2 : len ≤ 3064) (hl : data.length = len) (hd : (d.bank b).image.length + len ≤ (d.bank b).declared) :
    d.fwUpdateData secured (d.bank b).image.length len data = (d.program b data, .final .ok []) := by
  have hok : ¬ (len < 1 ∨ 3064 < len ∨ data.length ≠ len ∨ (d.bank b).image.length ≠ (d.bank b).image.length ∨
      (d.bank b).declared < (d.bank b).image.length + len) := by omega
  rw [Dev.fwUpdateData, if_neg (ne_true_of_eq_false hu), if_neg (not_not_intro hm), hs]
  exact (if_neg (not_not_intro hw)).trans (if_neg hok)

/-- A bank that is wholly written is verified, and the check decides it. -/
theorem Dev.fwUpdateVerify_decides {b c : Nat} {f : Dev} (hf : f = (d.verifyBank b).1.endUpdate) (hc : c = (d.verifyBank b).2) (hb : b ≤ 1)
    (hs : d.sc.update = some (b, false)) (hw : (d.bank b).state = 1) (hl : (d.bank b).declared ≤ (d.bank b).image.length)
    (hsc : d.rd ScR.SC_STATE ≠ 2) : d.fwUpdateVerify secured b =
      (if c = 0 then f else f.inc ScR.AUTH_FAILS, .final (if c = 0 then .ok else .authFail) (if c = 0 then [] else leBytes 1 c)) := by
  have hok : ¬ (b ≠ b ∨ (d.bank b).state ≠ 1 ∨ (d.bank b).image.length < (d.bank b).declared) := by omega
  subst hf hc
  simp only [Dev.fwUpdateVerify, hu, Bool.false_eq_true, if_false, hm, ne_eq, not_true_eq_false, Nat.not_lt.mpr hb, hs, hw,
    Nat.not_lt.mpr hl, or_self, hsc]
  split
  · rfl
  · rfl

/-- A VALID bank that is not the activated one is activated. -/
theorem Dev.fwActivate_programs {t b : Nat} (hb : b ≤ 1) (hv : (d.bank b).state = 2) (ht : d.topBank ≠ some b) :
    d.fwActivate t secured b = (d.activate t b, .final .ok []) := by
  simp [Dev.fwActivate, hu, hm, Nat.not_lt.mpr hb, hv, ht]
end

theorem exec_fwUpdateStart (h : SilekHdr) (bank len : Nat) (s : State) : exec (.fwUpdateStart h bank len) s =
    runSilek h (.of 0x701 0 (.fwUpdateStart h.key bank len)) (devBody fun _ d => d.fwUpdateStart h.secured bank len) s := rfl

theorem exec_fwUpdateData (h : SilekHdr) (off len : Nat) (data : List Byte) (s : State) : exec (.fwUpdateData h off len data) s =
    runSilek h (.of 0x702 0 (.fwUpdateData h.key off len data)) (devBody fun _ d => d.fwUpdateData h.secured off len data) s := rfl

theorem exec_fwUpdateVerify (h : SilekHdr) (bank : Nat) (s : State) : exec (.fwUpdateVerify h bank) s =
    runSilek h (.of 0x703 0 (.fwUpdateVerify h.key bank)) (devBody fun _ d => d.fwUpdateVerify h.secured bank) s := rfl

theorem exec_fwActivate (h : SilekHdr) (bank : Nat) (s : State) : exec (.fwActivate h bank) s =
    runSilek h (.of 0x704 0 (.fwActivate h.key bank)) (devBody fun t d => d.fwActivate t h.secured bank) s := rfl

theorem exec_fwQuery (h : SilekHdr) (s : State) : exec (.fwQuery h) s =
    runSilek h (.of 0x705 0 (.fwQuery h.key))
      (queryBody fun s => .final .ok (s.dev.bankReport 0 ++ s.dev.bankReport 1 ++ leBytes 2 0)) s := rfl

theorem exec_selfTest (h : SilekHdr) (s : State) : exec (.selfTest h) s =
    runSilek h (.of 0x710 0 (.selfTest h.key)) (devBody fun _ d =>
      if d.works (fun w => decide (w = .selfTest)) then (d, .err .busy) else (d, .run .selfTest)) s := rfl

/-- The erase of a Silek update's bank done, the bank is in WRITING and FW_UPDATE_START replies. -/
theorem exec_flashEraseDone_silek {s : State} {b : Nat} (hs : s.dev.sc.update = some (b, false)) (hw : (s.dev.bank b).state = 0) :
    exec .flashEraseDone s = .next (s.withDev (((s.dev.setBank b { s.dev.bank b with state := 1 }).syncBanks).finish s.time.now
      (fun w => decide (w = .eraseBank b)) .ok [])) := by
  show execFlashEraseDone s = _
  simp only [execFlashEraseDone, onDev, hs, hw, ne_eq, not_true_eq_false, if_false, Bool.false_eq_true]
  rfl

/-- A running self-test ends: OK, or ABORTED with the SC in ERROR (R477). -/
theorem exec_selfTestDone_running {s : State} (ok : Bool) (hw : s.dev.works (fun w => decide (w = .selfTest)) = true) :
    exec (.selfTestDone ok) s = .next (s.settledFrom (s.withDev ((if ok = true then s.dev else s.dev.scError s.time.now).finish
      s.time.now (fun w => decide (w = .selfTest)) (if ok = true then .ok else .aborted) []))) := by
  show execSelfTestDone ok s = _
  simp only [execSelfTestDone, onSettled, onDev, hw, not_true_eq_false, if_false]
  cases ok with
  | true => rfl
  | false => rfl

/-! ### The PLDM commands (R486) -/

section
variable {s : State} {secured : Bool} (hm : s.dev.mode = 10) (hu : s.dev.unsecured secured = false)
include hm hu

/-- A secured PLDM session reaches the update while the device is in OM10. -/
theorem pldm_reached (a b : Dev) : (if s.dev.mode ≤ 1 then s.dev else if s.dev.unsecured secured = true then a else b) = b := by
  rw [if_neg (by omega), if_neg (ne_true_of_eq_false hu)]

theorem exec_requestUpdate_begins (hn : s.dev.sc.update = none) (hp : s.dev.sc.pldmStep = 0) : exec (.requestUpdate secured) s =
    .next (s.withDev ((((s.dev.pldmAt 1).raise1 ScR.UPDATE_BUSY).raise1 ScR.UPDATE_PLDM).emit (.service 0x510 []))) := by
  refine congrArg (fun d => Host.Outcome.next (s.withDev d)) ((pldm_reached hm hu _ _).trans ?_)
  rw [if_neg (not_not_intro hm), if_neg (by simp [hn, hp])]

theorem exec_passComponentTable_known (hp : s.dev.sc.pldmStep = 1) : exec (.passComponentTable secured 0x964) s =
    .next (s.withDev ((s.dev.pldmAt 2).emit (.service 0x513 [1]))) :=
  congrArg (fun d => Host.Outcome.next (s.withDev d)) ((pldm_reached hm hu _ _).trans (if_neg (not_not_intro hp)))

theorem exec_updateComponent_begins {size : Nat} (hp : s.dev.sc.pldmStep = 2) (h1 : 4097 ≤ size) (h2 : size ≤ 25161728) :
    exec (.updateComponent secured 0x964 size) s =
      .next (s.withDev ((s.dev.beginUpdate (if s.dev.runs 0 = true then 1 else 0) size true).emit (.service 0x514 [1]))) := by
  refine congrArg (fun d => Host.Outcome.next (s.withDev d)) ((pldm_reached hm hu _ _).trans ?_)
  rw [if_neg (by simp [hp, hm]), if_neg (by omega)]

/-- A chunk that is not the last is programmed, and the next one is asked for. -/
theorem exec_requestFirmwareData_more {data : List Byte} {b : Nat} (hs : s.dev.sc.update = some (b, true))
    (hw : (s.dev.bank b).state = 1) (hsc : s.dev.rd ScR.SC_STATE ≠ 2) (hd : data ≠ [])
    (hl : data.length = min 1024 ((s.dev.bank b).declared - (s.dev.bank b).image.length))
    (hmore : ((s.dev.program b data).bank b).image.length < (s.dev.bank b).declared) :
    exec (.requestFirmwareData secured data) s = .next (s.withDev ((s.dev.program b data).askChunk b)) := by
  show execRequestFirmwareData secured data s = _
  have hm1 : ¬ s.dev.mode ≤ 1 := by omega
  have hok : ¬ ((s.dev.bank b).state ≠ 1 ∨
      data.length ≠ min 1024 ((s.dev.bank b).declared - (s.dev.bank b).image.length) ∨ data = []) := by simp [hw, ← hl, hd]
  simp only [execRequestFirmwareData, onDev, hm1, hu, Bool.false_eq_true, if_false, hs, if_neg hok, hsc, false_and, if_pos hmore]
  rfl

theorem exec_activateFirmware_programs {b : Nat} (hb : b = if s.dev.runs 0 = true then 1 else 0) (hp : s.dev.sc.pldmStep = 4)
    (hv : (s.dev.bank b).state = 2) (ht : s.dev.topBank ≠ some b) : exec (.activateFirmware secured false) s =
      .next (s.withDev (((s.dev.activate s.time.now b).pldmAt 0).emit (.service 0x51a [1]))) := by
  subst hb
  refine congrArg (fun d => Host.Outcome.next (s.withDev d)) ((pldm_reached hm hu _ _).trans (if_neg ?_))
  simp [hp, hm, hv, ht]
end

/-- Settles O15: each row at the case that its hypotheses single out. -/
theorem firmwareUpdate : Obligations.FirmwareUpdate := by
  unfold Obligations.FirmwareUpdate
  refine ⟨?start, ?erased, ?data, ?verify, ?activate, ?query, ?selfTest, ?selfTestDone, ?pldmRequest, ?pldmTable, ?pldmComponent,
    ?pldmData, ?pldmActivate⟩
  case start =>
    rintro h bank len s d i rfl rfl ha hu hm hb hn hp hr h1 h2
    rw [exec_fwUpdateStart]
    exact runSilek_devRun ha (Dev.fwUpdateStart_begins hu hm hb hn hp hr h1 h2)
  case erased =>
    rintro b s d rfl hs hw
    exact exec_flashEraseDone_silek hs hw
  case data =>
    rintro h _ _ data b s d i rfl rfl ha hu hm hs hw h1 h2 rfl rfl hd
    rw [exec_fwUpdateData]
    exact runSilek_dev ha (Dev.fwUpdateData_appends hu hm hs hw h1 h2 rfl hd)
  case verify =>
    rintro h bank s d i f c rfl rfl ha hf hc hu hm hb hs hw hl hsc
    rw [exec_fwUpdateVerify]
    exact runSilek_dev ha (Dev.fwUpdateVerify_decides hu hm hf hc hb hs hw hl hsc)
  case activate =>
    rintro h bank s d i rfl rfl ha hu hm hb hv ht
    rw [exec_fwActivate]
    exact runSilek_dev ha (Dev.fwActivate_programs hu hm hb hv ht)
  case query =>
    rintro h s d i rfl rfl ha
    rw [exec_fwQuery]
    exact runSilek_query ha rfl
  case selfTest =>
    rintro h s d i rfl rfl ha hw
    rw [exec_selfTest]
    exact runSilek_devRun ha (if_neg (ne_true_of_eq_false hw))
  case selfTestDone =>
    rintro ok s d rfl hw
    exact exec_selfTestDone_running ok hw
  case pldmRequest =>
    rintro secured s d rfl hm hu hn hp
    exact exec_requestUpdate_begins hm hu hn hp
  case pldmTable =>
    rintro secured _ s d rfl hm hu hp rfl
    exact exec_passComponentTable_known hm hu hp
  case pldmComponent =>
    rintro secured _ size s d rfl hm hu hp rfl h1 h2
    exact exec_updateComponent_begins hm hu hp h1 h2
  case pldmData =>
    rintro secured data b s d rfl hm hu hs hw hsc hd hl hmore
    exact exec_requestFirmwareData_more hm hu hs hw hsc hd hl hmore
  case pldmActivate =>
    rintro secured _ s d b rfl hb hm hu hp rfl hv ht
    exact exec_activateFirmware_programs hm hu hb hp hv ht

end Sys2Proof.Machine
end

section
/-! SUPPORT. The error log and the monitor blocks, and the statements on them (O36, O56). -/
namespace Sys2Proof.Machine
open Sys2Proof

/-! ### The error log (R521, R549) -/

/-- The records of a window of the log are read one by one. -/
def Dev.logRead (t first count : Nat) (d : Dev) : Dev :=
  ((logFrom d.errors first).take count).foldl (fun (d : Dev) r => d.readLogEntry t r) d

theorem exec_errorLogRead (h : SilekHdr) (first count : Nat) (s : State) : exec (.errorLogRead h first count) s =
    runSilek h (.of 0x930 0 (.errorLogRead h.key first count)) (devBody fun t d =>
      if count < 1 ∨ 64 < count then (d, .err .badParam)
      else (d.logRead t first count, .final .ok (leBytes 4 ((logFrom (d.logRead t first count).errors first).take count).length ++
        (((logFrom (d.logRead t first count).errors first).take count).map ErrorRec.bytes).flatten))) s := rfl

theorem exec_errorLogClear (h : SilekHdr) (upto : Nat) (s : State) : exec (.errorLogClear h upto) s =
    runSilek h (.of 0x931 0 (.errorLogClear h.key upto)) (devBody fun _ d =>
      (({ d with errors := d.errors.filter (fun r => upto < r.number) } : Dev).syncLog,
        .final .ok (leBytes 4 (d.errors.length - (d.errors.filter (fun r => upto < r.number)).length)))) s := rfl

theorem exec_recordSelect (path : AccessPath) (number : BitVec 32) (s : State) : exec (.recordSelect path number) s =
    .next (s.withDev (if s.dev.mode = 0 then s.dev else s.dev.selectRecord s.time.now number.toNat)) := rfl

/-! ### The monitor blocks (R525, R528, R529, R550) -/

theorem exec_monitorConfig (h : SilekHdr) (block counter event : Nat) (s : State) : exec (.monitorConfig h block counter event) s =
    runSilek h (.of 0x901 0 (.monitorConfig h.key block counter event)) (devBody fun _ d => d.monitorConfig block counter event) s := rfl

theorem exec_monitorRead (h : SilekHdr) (block : Nat) (s : State) : exec (.monitorRead h block) s =
    runSilek h (.of 0x902 0 (.monitorRead h.key block)) (queryBody fun s =>
      if block < 0x40 ∨ 0x79 < block then .err .badParam else .final .ok (s.dev.monBlock (block - 0x40))) s := rfl

theorem exec_clearMonitor (path : AccessPath) (mon : Fin 58) (s : State) : exec (.clearMonitor path mon) s =
    .next (s.withDev (if s.dev.mode = 0 then s.dev else s.dev.monClearAll mon)) := rfl

theorem exec_ovfClear (path : AccessPath) (mon : Fin 58) (bits : BitVec 8) (s : State) : exec (.ovfClear path mon bits) s =
    .next (s.withDev (if s.dev.mode = 0 then s.dev else s.dev.ovfWrite mon bits.toNat)) := rfl

/-- A monitor block after MONITOR_CONFIG. -/
def Dev.monConfigured (d : Dev) (m k event : Nat) : Dev := ((d.mwr (Mon.EVENT m k) event).monClear m k).mwr (Mon.ENABLE m) 1

/-- MONITOR_CONFIG of a page, a counter and a code of the block's kind (R529). -/
theorem Dev.monitorConfig_takes {block counter event : Nat} {d : Dev} (h40 : 0x40 ≤ block) (h79 : block ≤ 0x79) (hc : counter ≤ 7)
    (hk : event / 256 = monKind (block - 0x40)) (he : event % 256 ≤ monEvents (monKind (block - 0x40))) :
    d.monitorConfig block counter event = (d.monConfigured (block - 0x40) counter event, .final .ok []) := by
  rw [Dev.monitorConfig, if_neg (by omega)]
  rfl

/-- MONITOR_READ of a monitor page (R529). -/
theorem exec_monitorRead_page {h : SilekHdr} {block : Nat} {s : State} (ha : s.admits h (.of 0x902 0 (.monitorRead h.key block)) = true)
    (h40 : 0x40 ≤ block) (h79 : block ≤ 0x79) :
    exec (.monitorRead h block) s =
      .next (s.begun.answered h (.of 0x902 0 (.monitorRead h.key block)) .ok (s.begun.dev.monBlock (block - 0x40))) := by
  rw [exec_monitorRead]
  exact runSilek_query ha (if_neg (by omega))

/-- Settles O36. That a block is named by its monitor page is DEDUCED (log entry 15). -/
theorem errorLogAndMonitors : Obligations.ErrorLogAndMonitors := by
  unfold Obligations.ErrorLogAndMonitors
  refine ⟨?logRead, ?logClear, ?select, ?config, ?read, ?clear, ?ovf⟩
  case logRead =>
    rintro h first count recs s d i rfl rfl ha hf h1 h64 rfl
    rw [exec_errorLogRead]
    refine runSilek_dev ha ((if_neg (by omega)).trans ?_)
    rw [Dev.logRead, Dev.readLogEntries_of_sound hf]
  case logClear =>
    rintro h upto keep s d i rfl rfl ha rfl
    rw [exec_errorLogClear]
    exact runSilek_dev ha rfl
  case select =>
    rintro path number s d rfl hf h0
    rw [exec_recordSelect, if_neg h0, Dev.selectRecord_of_sound hf]
  case config =>
    rintro h block counter event s d i rfl rfl ha h40 h79 hc hk he
    rw [exec_monitorConfig]
    exact runSilek_dev ha (Dev.monitorConfig_takes h40 h79 hc hk he)
  case read =>
    rintro h block s d i rfl rfl ha h40 h79
    exact exec_monitorRead_page ha h40 h79
  case clear =>
    rintro path mon s d rfl h0
    rw [exec_clearMonitor, if_neg h0, Dev.monClearAll]
  case ovf =>
    rintro path mon bits s d rfl h0
    rw [exec_ovfClear, if_neg h0, Dev.ovfWrite]

/-! ### What MONITOR_CONFIG leaves of the other fields -/

/-- Clearing one bit of a byte leaves the others. -/
theorem fieldOf_clear_bit {j k : Nat} (hj : j < 8) (hk : k < 8) (x : Nat) :
    fieldOf (Nat.land x (255 - 2 ^ k) % 2 ^ 8) j 1 = if j = k then 0 else fieldOf x j 1 := by
  have hmask : ∀ j < 8, ∀ k < 8, (255 - 2 ^ k).testBit j = decide (j ≠ k) := by decide
  have hbit (n : Nat) : fieldOf n j 1 = (n.testBit j).toNat := by
    rw [fieldOf, Nat.toNat_testBit, Nat.shiftRight_eq_div_pow, Nat.pow_one]
  have hland : (Nat.land x (255 - 2 ^ k) % 2 ^ 8).testBit j = (x.testBit j && decide (j ≠ k)) := by
    rw [Nat.testBit_mod_two_pow, show Nat.land x (255 - 2 ^ k) = x &&& (255 - 2 ^ k) from rfl, Nat.testBit_and, hmask j hj k hk]
    simp [hj]
  rw [hbit, hbit, hland]
  by_cases h : j = k
  · simp [h]
  · simp [h]

/-- The fields of a monitor block that MONITOR_CONFIG of counter k writes. -/
def Mon.configKeys (m k : Nat) : List Nat :=
  [(Mon.EVENT m k).key, (Mon.COUNT_LO m k).key, (Mon.COUNT_HI m k).key, (Mon.OVF m).key, (Mon.SAMPLE_HELD m).key, (Mon.ENABLE m).key]

/-- They are six fields. -/
theorem Mon.configKeys_distinct (m k : Nat) :
    ((Mon.EVENT m k).key ≠ (Mon.COUNT_LO m k).key ∧ (Mon.EVENT m k).key ≠ (Mon.COUNT_HI m k).key ∧
      (Mon.EVENT m k).key ≠ (Mon.OVF m).key ∧ (Mon.EVENT m k).key ≠ (Mon.SAMPLE_HELD m).key ∧
      (Mon.EVENT m k).key ≠ (Mon.ENABLE m).key) ∧
    ((Mon.COUNT_LO m k).key ≠ (Mon.COUNT_HI m k).key ∧ (Mon.COUNT_LO m k).key ≠ (Mon.OVF m).key ∧
      (Mon.COUNT_LO m k).key ≠ (Mon.SAMPLE_HELD m).key ∧ (Mon.COUNT_LO m k).key ≠ (Mon.ENABLE m).key) ∧
    ((Mon.COUNT_HI m k).key ≠ (Mon.OVF m).key ∧ (Mon.COUNT_HI m k).key ≠ (Mon.SAMPLE_HELD m).key ∧
      (Mon.COUNT_HI m k).key ≠ (Mon.ENABLE m).key) ∧
    ((Mon.OVF m).key ≠ (Mon.SAMPLE_HELD m).key ∧ (Mon.OVF m).key ≠ (Mon.ENABLE m).key) ∧
    (Mon.SAMPLE_HELD m).key ≠ (Mon.ENABLE m).key := by
  simp only [Mon.EVENT, Mon.COUNT_LO, Mon.COUNT_HI, Mon.OVF, Mon.SAMPLE_HELD, Mon.ENABLE]
  omega

/-- The samples owed are not among the monitor fields. -/
theorem Dev.mrd_withPending (d : Dev) (p : Tab (Nat × Nat)) (f : Field) : ({ d with monPending := p } : Dev).mrd f = d.mrd f := rfl

/-- The fields that clearing a counter does not write. -/
theorem Dev.mrd_monClear_other {d : Dev} {m k : Nat} {f : Field} (hl : f.key ≠ (Mon.COUNT_LO m k).key)
    (hh : f.key ≠ (Mon.COUNT_HI m k).key) (ho : f.key ≠ (Mon.OVF m).key) (hs : f.key ≠ (Mon.SAMPLE_HELD m).key) :
    (d.monClear m k).mrd f = d.mrd f := by
  simp only [Dev.monClear, Dev.mrd_withPending]
  rw [Dev.mrd_mwr_other _ _ hs, Dev.mrd_mwr_other _ _ ho, Dev.mrd_mwr_other _ _ hh, Dev.mrd_mwr_other _ _ hl]

section
variable (d : Dev) (m k event : Nat)

/-- Clearing a counter leaves its counts zero. -/
theorem Dev.mrd_monClear_counts :
    (d.monClear m k).mrd (Mon.COUNT_LO m k) = 0 ∧ (d.monClear m k).mrd (Mon.COUNT_HI m k) = 0 := by
  obtain ⟨-, ⟨hlh, hlo, hls, -⟩, ⟨hho, hhs, -⟩, -⟩ := Mon.configKeys_distinct m k
  simp only [Dev.monClear, Dev.mrd_withPending]
  rw [Dev.mrd_mwr_other _ _ hls, Dev.mrd_mwr_other _ _ hlo, Dev.mrd_mwr_other _ _ hlh, Dev.mrd_mwr, Dev.mrd_mwr_other _ _ hhs,
    Dev.mrd_mwr_other _ _ hho, Dev.mrd_mwr]
  exact ⟨Nat.zero_mod _, Nat.zero_mod _⟩

/-- Clearing a counter clears its bit of OVF. -/
theorem Dev.mrd_monClear_ovf : (d.monClear m k).mrd (Mon.OVF m) = Nat.land (d.mrd (Mon.OVF m)) (255 - 2 ^ k) % 2 ^ 8 := by
  obtain ⟨-, ⟨-, hlo, -⟩, ⟨hho, -⟩, ⟨hos, -⟩, -⟩ := Mon.configKeys_distinct m k
  simp only [Dev.monClear, Dev.mrd_withPending]
  rw [Dev.mrd_mwr_other _ _ hos, Dev.mrd_mwr, Dev.mrd_mwr_other _ _ hho.symm, Dev.mrd_mwr_other _ _ hlo.symm]
  rfl

/-- MONITOR_CONFIG writes the counter's code, zeroes it and sets ENABLE. -/
theorem Dev.monConfigured_fields (he : event < 2 ^ 16) :
    (d.monConfigured m k event).mrd (Mon.EVENT m k) = event ∧ (d.monConfigured m k event).mrd (Mon.COUNT_LO m k) = 0 ∧
      (d.monConfigured m k event).mrd (Mon.COUNT_HI m k) = 0 ∧ (d.monConfigured m k event).mrd (Mon.ENABLE m) = 1 := by
  obtain ⟨⟨hel, heh, heo, hes, hen⟩, ⟨-, -, -, hln⟩, ⟨-, -, hhn⟩, -⟩ := Mon.configKeys_distinct m k
  obtain ⟨hlo, hhi⟩ := Dev.mrd_monClear_counts (d.mwr (Mon.EVENT m k) event) m k
  simp only [Dev.monConfigured]
  rw [Dev.mrd_mwr_other _ _ hen, Dev.mrd_mwr_other _ _ hln, Dev.mrd_mwr_other _ _ hhn, hlo, hhi, Dev.mrd_monClear_other hel heh heo hes,
    Dev.mrd_mwr, Dev.mrd_mwr]
  exact ⟨Nat.mod_eq_of_lt he, rfl, rfl, rfl⟩

/-- MONITOR_CONFIG clears the counter's bit of OVF and leaves the others. -/
theorem Dev.monConfigured_ovf {j : Nat} (hj : j < 8) (hk : k < 8) : fieldOf ((d.monConfigured m k event).mrd (Mon.OVF m)) j 1 =
    if j = k then 0 else fieldOf (d.mrd (Mon.OVF m)) j 1 := by
  obtain ⟨⟨-, -, heo, -⟩, -, -, ⟨-, hon⟩, -⟩ := Mon.configKeys_distinct m k
  rw [Dev.monConfigured, Dev.mrd_mwr_other _ _ hon, Dev.mrd_monClear_ovf, Dev.mrd_mwr_other _ _ heo.symm, fieldOf_clear_bit hj hk]

/-- MONITOR_CONFIG writes no other monitor field. -/
theorem Dev.monConfigured_frame {f : Field} (hf : f.key ∉ Mon.configKeys m k) : (d.monConfigured m k event).mrd f = d.mrd f := by
  simp only [Mon.configKeys, List.mem_cons, List.not_mem_nil, or_false, not_or] at hf
  obtain ⟨he, hl, hh, ho, hs, hn⟩ := hf
  rw [Dev.monConfigured, Dev.mrd_mwr_other _ _ hn, Dev.mrd_monClear_other hl hh ho hs, Dev.mrd_mwr_other _ _ he]
end

/-- Two devices that differ in the monitor pages, the samples owed and the free values only. -/
def Dev.SameButMonitors (d e : Dev) : Prop := ∃ r p n, e = { d with monRegs := r, monPending := p, freeCtr := n }

theorem Dev.SameButMonitors.mwr {d e : Dev} (h : d.SameButMonitors e) (f : Field) (v : Nat) : d.SameButMonitors (e.mwr f v) := by
  obtain ⟨r, p, n, rfl⟩ := h
  exact ⟨_, p, n, rfl⟩

theorem Dev.SameButMonitors.monClear {d e : Dev} (h : d.SameButMonitors e) (m k : Nat) : d.SameButMonitors (e.monClear m k) := by
  have hw {x : Dev} (hx : d.SameButMonitors x) (p : Tab (Nat × Nat)) : d.SameButMonitors { x with monPending := p } := by
    obtain ⟨r, q, n, rfl⟩ := hx
    exact ⟨r, p, n, rfl⟩
  exact hw ((((h.mwr _ _).mwr _ _).mwr _ _).mwr _ _) _

/-- A counted event is one of the monitor pages. -/
theorem Dev.sameButMonitors_mon (d : Dev) (t m c a x : Nat) : d.SameButMonitors (d.mon t m c a x) := by
  unfold Dev.mon
  split
  · exact ⟨d.monRegs, d.monPending, d.freeCtr, rfl⟩
  · exact ⟨_, _, _, rfl⟩

theorem Dev.SameButMonitors.monConfigured {d e : Dev} (h : d.SameButMonitors e) (m k event : Nat) :
    d.SameButMonitors (e.monConfigured m k event) := ((h.mwr _ _).monClear m k).mwr _ _

/-! ### The block of a snapshot (R529, R532) -/

theorem length_leBytes (n v : Nat) : (leBytes n v).length = n := by
  induction n generalizing v with
  | zero => rfl
  | succ n ih => rw [leBytes, List.length_cons, ih]

/-- A monitor's block has 80 bytes. -/
theorem Dev.length_monBlock (d : Dev) (m : Nat) : (d.monBlock m).length = 80 := by
  simp [Dev.monBlock, length_leBytes, zeros, List.length_flatten, Function.comp_def]

/-- The header of a snapshot (R532). -/
def Dev.snapshotHeader (d : Dev) (t : Nat) : List Byte :=
  leBytes 8 t ++ leBytes 2 (d.rd Glob.SPEED_INDEX) ++ leBytes 1 d.mode ++ leBytes 1 d.chainAddr ++ leBytes 4 d.epoch ++
    leBytes 1 d.selected.length ++ zeros 7

theorem Dev.length_snapshotHeader (d : Dev) (t : Nat) : (d.snapshotHeader t).length = 24 := by
  simp [Dev.snapshotHeader, length_leBytes, zeros]

/-- A snapshot holds the blocks of the selected monitors behind its header, and padding. -/
theorem Dev.snapshotBody_eq (d : Dev) (t : Nat) :
    ∃ n, d.snapshotBody t = d.snapshotHeader t ++ ((d.selected.map d.monBlock).flatten ++ zeros n) :=
  ⟨_, List.append_assoc ..⟩

theorem Dev.snapshotBody_blocks (d : Dev) (t : Nat) : ∃ n, d.snapshotBody t =
    (d.snapshotBody t).take 24 ++ ((d.selected.map d.monBlock).flatten ++ zeros n) := by
  obtain ⟨n, he⟩ := d.snapshotBody_eq t
  exact ⟨n, by rw [he, List.take_left' (d.length_snapshotHeader t)]⟩

/-- The kinds of blocks are the numbers up to 9 (R525). -/
theorem monKind_le (m : Nat) : monKind m ≤ 9 := by
  unfold monKind
  split_ifs <;> omega

/-- Settles O56. That a block is named by its monitor page is DEDUCED (log entry 15). -/
theorem monitorSetup : Obligations.MonitorSetup := by
  unfold Obligations.MonitorSetup
  refine ⟨?config, ?read⟩
  case config =>
    rintro h block k event s i m rfl ha rfl h40 h79 hk hkind hev
    have h16 : event < 2 ^ 16 := by have := monKind_le (block - 0x40); omega
    obtain ⟨he, hlo, hhi, hen⟩ := Dev.monConfigured_fields s.begun.dev (block - 0x40) k event h16
    have hovf {j : Nat} (hj : j < 8) := Dev.monConfigured_ovf s.begun.dev (block - 0x40) k event hj (Nat.lt_succ_of_le hk)
    refine ⟨s.begun.dev.monConfigured (block - 0x40) k event, ?_, he, hlo, hhi, ?_, hen, fun j hj hne => ?_, fun f hf =>
      Dev.monConfigured_frame _ _ _ _ hf, (Dev.sameButMonitors_mon ..).monConfigured ..⟩
    · rw [exec_monitorConfig]
      exact runSilek_dev ha (Dev.monitorConfig_takes h40 h79 hk hkind hev)
    · rw [hovf (Nat.lt_succ_of_le hk), if_pos rfl]
    · rw [hovf hj, if_neg hne]
  case read =>
    rintro h block s i p t d rfl ha h40 h79 rfl rfl
    exact ⟨exec_monitorRead_page ha h40 h79, Dev.length_monBlock _ _, Dev.snapshotBody_blocks _ _⟩

end Sys2Proof.Machine
end

section
/-! SUPPORT. The Skimmer, the sensors and the Herdbook, and the statement on them (O37). -/
namespace Sys2Proof.Machine
open Sys2Proof

/-! ### The Skimmer (R530, R533) -/

/-- A ring of whole pages of a VI in use, with a monitor selected, starts the Skimmer. -/
theorem Dev.skimmerConfig_starts {vi base size interval : Nat} {d : Dev} (hv : vi ≤ 63) (hs : d.rd (Vi.STATE vi) ≠ 0)
    (hb : base % 4096 = 0) (hz : size % 4096 = 0) (h1 : 8192 ≤ size) (h2 : size ≤ 2 ^ 30) (hi : 1 ≤ interval) (hi' : interval ≤ 65535)
    (hm : d.selected ≠ []) : d.skimmerConfig vi base size interval =
      (((((((((({ d with skim := { vi, base, size } } : Dev).wr Skim.SKIM_INSTANCE vi).wr Skim.INTERVAL interval).wr Skim.SIZE size).wr
        Skim.BASE_LO base).wr Skim.BASE_HI (base / 2 ^ 32)).raise1 Skim.RUNNING).wr Skim.FAULT_CAUSE 0).wr Skim.SEQ 0), .final .ok []) := by
  refine if_neg ?_
  simp only [hs, hm, false_or, or_false]
  omega

theorem exec_skimmerConfig (h : SilekHdr) (vi base size interval : Nat) (s : State) : exec (.skimmerConfig h vi base size interval) s =
    runSilek h (.of 0x910 0 (.skimmerConfig h.key vi base size interval))
      (devBody fun _ d => d.skimmerConfig vi base size interval) s := rfl

theorem exec_skimmerStop (h : SilekHdr) (s : State) : exec (.skimmerStop h) s =
    runSilek h (.of 0x911 0 (.skimmerStop h.key)) (devBody fun _ d => (d.wrFlag Skim.RUNNING false, .final .ok [])) s := rfl

/-- The held samples go to the ring, one record each. -/
def Dev.skimSamples (t : Nat) (d : Dev) : Dev :=
  d.selected.foldl (fun x m => (List.range 8).foldl (fun y k =>
    if y.flag Skim.RUNNING ∧ fieldOf (y.mrd (Mon.SAMPLE_HELD m)) k 1 = 1 then y.skimSample t m k else y) x) d

/-- An interval whose last records are written, over a link that is up, writes the held samples and a snapshot (R533). -/
theorem exec_skimmerInterval_writes {s : State} (hr : s.dev.flag Skim.RUNNING = true)
    (hw : s.dev.buf.waiting.any (fun e => e.writes.any (fun w => w.master = masterSkimmer)) = false)
    (hl : ((s.dev.hostPortOf s.dev.skim.vi).map s.dev.linkUp).getD false = true)
    (hf : (s.dev.skimSamples s.time.now).flag Skim.RUNNING = true) : exec .skimmerInterval s = .next (s.withDev
      ((s.dev.skimSamples s.time.now).skimRecord s.time.now 1 ((s.dev.skimSamples s.time.now).snapshotBody s.time.now)).1) :=
  congrArg (fun d => Host.Outcome.next (s.withDev d)) ((if_neg (not_not_intro hr)).trans ((if_neg (ne_true_of_eq_false hw)).trans
    ((if_neg (by simp [hl])).trans (if_pos hf))))

/-! ### The temperature sensors (R536, R572) -/

/-- A threshold leaves the alert. -/
theorem Dev.threshold_alert (d : Dev) (sensor kind : Nat) (beyond : Bool) :
    (d.threshold sensor kind beyond).thermal.alert = d.thermal.alert := by
  simp only [Dev.threshold]
  rw [apply_ite Dev.thermal, apply_ite Thermal.alert, apply_ite Dev.thermal, apply_ite Thermal.alert]
  exact (ite_congr rfl (fun _ => rfl) fun _ => ite_self _).trans (ite_self _)

/-- A scan with a new peak below the first threshold, while no alert stands. -/
theorem exec_temperatureScan_peak {s : State} {x tj : Int} {rest : List Int} {tile : Nat} {f g : Dev}
    (hf : f = (s.dev.wr Hbk.TJ_CURRENT (byteOfInt tj)).wr Hbk.TJ_TILE tile) (hg : g = f.wr Hbk.TJ_PEAK (byteOfInt tj))
    (h0 : s.dev.mode ≠ 0) (hh : hottest rest 1 (x, 0) = (tj, tile)) (hp : intOfByte (f.rd Hbk.TJ_PEAK) < tj) (ht : tj < 100)
    (ha : g.thermal.alert = false) :
    exec (.temperatureScan (x :: rest)) s = .next (s.withDev ((g.threshold 1 0 false).threshold 1 1 false)) := by
  subst hg hf
  have h100 : ¬ 100 ≤ tj := by omega
  have h105 : ¬ 105 ≤ tj := by omega
  have h108 : ¬ 108 ≤ tj := by omega
  have h103 : tj ≤ 103 := by omega
  show execTemperatureScan (x :: rest) s = _
  simp only [execTemperatureScan, onDev, if_neg h0, hh, if_pos hp, h100, h105, decide_false, if_neg h108, if_pos h103,
    Dev.threshold_alert, ha, if_true]
  rfl

/-! ### The Herdbook (R540 to R544) -/

theorem exec_histogramSample (s : State) : exec .histogramSample s = .next (s.withDev (if s.dev.mode = 0 then s.dev else
    ({ s.dev with hbk := { s.dev.hbk with
      tempBins := Tab.bump s.dev.hbk.tempBins (tempBin (intOfByte (s.dev.rd Hbk.TJ_CURRENT))) 1
      coreBins := Tab.bump s.dev.hbk.coreBins (coreBin (s.dev.rd Glob.VCORE_MEASURED)) 1
      powerOnS := s.dev.hbk.powerOnS + 1 } } : Dev).syncNextWrite)) := rfl

/-- 1,000 to 9,999 errors in an hour are class 4 (R541). -/
theorem laneClass_four {errors : Nat} (h1 : 1000 ≤ errors) (h2 : errors < 10000) : laneClass errors = 4 := by
  unfold laneClass
  rw [if_neg (by omega), if_neg (by omega), if_neg (by omega), if_neg (by omega), if_pos h2]

theorem exec_laneHour_four {s : State} {lane : Fin 256} {errors worst cur hours two four : Nat}
    (hl : Tab.getD s.dev.hbk.lanes lane (0, 0, 0, 0, 0) = (worst, cur, hours, two, four)) (hc : laneClass errors = 4) :
    exec (.laneHour lane errors) s = .next (s.withDev
      ({ s.dev with hbk := { s.dev.hbk with
        lanes := Tab.set s.dev.hbk.lanes lane (max worst 4, 4, hours + 1, saturate 16 (two + 1), saturate 16 (four + 1)) } })) := by
  show execLaneHour lane errors s = _
  simp only [execLaneHour, onDev, hl, hc]
  rfl

/-- The slices above the storm limit in a millisecond (R540). -/
def Dev.nakStorms (d : Dev) : Nat := (d.hbk.nakWindow.filter (fun x => 1000 * d.rd Hbk.NAK_STORM_LIMIT < x.2)).length

theorem exec_nakStormWindow (s : State) : exec .nakStormWindow s = .next (s.withDev
    { s.dev.hbCount 1 s.dev.nakStorms with hbk := { (s.dev.hbCount 1 s.dev.nakStorms).hbk with nakWindow := [] } }) := rfl

theorem exec_herdbookPeriodicWrite (s : State) : exec .herdbookPeriodicWrite s = .next (s.withDev
    (if s.dev.mode = 0 ∨ s.dev.hbk.writing.isSome = true then s.dev
      else (({ s.dev with hbk := { s.dev.hbk with lastWrite := s.dev.hbk.powerOnS } } : Dev).startHerdbook 1).syncNextWrite)) := rfl

theorem exec_herdbookFlush (s : State) :
    exec .herdbookFlush s = .next (s.withDev (if s.dev.mode = 0 then s.dev else s.dev.flush)) := rfl

/-- With no write under way a flush starts one (R542). -/
theorem Dev.flush_starts {d : Dev} (h : d.hbk.writing = none) : d.flush = (d.raise1 Hbk.FLUSH).startHerdbook 3 := by
  have hw : (d.raise1 Hbk.FLUSH).hbk.writing = none := h
  simp only [Dev.flush, hw, Option.isSome_none, Bool.false_eq_true, if_false]

theorem exec_herdbookWriteDone (ok : Bool) (s : State) : exec (.herdbookWriteDone ok) s = .next (s.withDev
    (if s.dev.hbk.writing = none then s.dev
      else if ok = true then (if s.dev.herdbookWritten.flag Hbk.FLUSH = true then s.dev.herdbookWritten.startHerdbook 3
        else s.dev.herdbookWritten)
      else ({ s.dev with hbk := { s.dev.hbk with sector := nextSector s.dev.hbk.sector } } : Dev).raise1 Hbk.WRITE_FAIL_EVT)) := rfl

theorem exec_herdbookRead (h : SilekHdr) (off len : Nat) (s : State) : exec (.herdbookRead h off len) s =
    runSilek h (.of 0x920 0 (.herdbookRead h.key off len)) (queryBody fun s =>
      if len < 1 ∨ 3072 < len ∨ 4096 < off + len then .err .badParam
      else .final .ok ((s.dev.herdbookBytes.drop off).take len)) s := rfl

/-- Settles O37. That a failed read-back moves on to the next sector is DEDUCED (log entry 16). -/
theorem skimmerAndHerdbook : Obligations.SkimmerAndHerdbook := by
  unfold Obligations.SkimmerAndHerdbook
  refine ⟨?config, ?stop, ?interval, ?temperatures, ?histogram, ?laneHour, ?nakStorm, ?periodic, ?flush, ?failed, ?written, ?read⟩
  case config =>
    rintro h vi base size interval s d i f rfl rfl ha rfl hv hs hb hz h1 h2 hi hi' hm
    rw [exec_skimmerConfig]
    exact runSilek_dev ha (Dev.skimmerConfig_starts hv hs hb hz h1 h2 hi hi' hm)
  case stop =>
    rintro h s d i rfl rfl ha
    rw [exec_skimmerStop]
    exact runSilek_dev ha rfl
  case interval =>
    rintro s d f rfl rfl hr hw hl hf
    exact exec_skimmerInterval_writes hr hw hl hf
  case temperatures =>
    rintro _ x rest tj tile s d f g rfl hf hg rfl h0 hh hp ht ha
    exact exec_temperatureScan_peak hf hg h0 hh hp ht ha
  case histogram =>
    rintro s d rfl h0
    rw [exec_histogramSample, if_neg h0]
  case laneHour =>
    rintro lane errors worst cur hours two four s d rfl hl h1 h2
    exact exec_laneHour_four hl (laneClass_four h1 h2)
  case nakStorm =>
    rintro n s d rfl rfl
    exact exec_nakStormWindow s
  case periodic =>
    rintro s d rfl h0 hw
    rw [exec_herdbookPeriodicWrite, if_neg (by simp [h0, hw])]
  case flush =>
    rintro s d rfl h0 hw
    rw [exec_herdbookFlush, if_neg h0, Dev.flush_starts hw]
  case failed =>
    rintro ok s d rfl hw rfl
    rw [exec_herdbookWriteDone, if_neg hw, if_neg Bool.false_ne_true]
  case written =>
    rintro ok s d rfl hw rfl hf
    rw [exec_herdbookWriteDone, if_neg hw, if_pos rfl, if_neg (ne_true_of_eq_false hf)]
  case read =>
    rintro h off len s d i rfl rfl ha h1 h2 h3
    rw [exec_herdbookRead]
    exact runSilek_query ha (if_neg (by omega))

end Sys2Proof.Machine
end
